-- ==== Sys2Proof/Word.lean ====
section
/-! DEFINITION. The word types of the PA24 (R10): a byte, a string of bytes in memory order, and the 64-bit word. -/

namespace Sys2Proof

/-- A byte. -/
abbrev Byte := BitVec 8

/-- Bytes in ascending address order. -/
abbrev Bytes := List Byte

/-- The 8-byte word of R10. -/
abbrev Word := BitVec 64

end Sys2Proof
end

