-- ==== Sys2Proof/Syntax.lean ====
section
/-! DEFINITION. The commands of the block: one constructor of Instr for each row of the table of operations and events, with the
operands that say which part it happens to and what the surroundings bring with it (packets, frames, physical upsets, measurements). -/

namespace Sys2Proof

/-- Logical core C0 to C21 (R8). -/
abbrev CoreId := Fin 22
/-- Physical tile or hub index 0 to 23 (R7, R9). -/
abbrev TileId := Fin 24
/-- Logical stack S0 to S23 (R8). -/
abbrev StackId := Fin 24
/-- Armature link 0 to 37 (R250). -/
abbrev LinkId := Fin 38
/-- Ethernet port: H0 is 0, F0 to F15 are 1 to 16. -/
abbrev PortId := Fin 17
/-- Job 0 to 63. -/
abbrev JobId := Fin 64
/-- Work stream 0 to 4,095 (R322). -/
abbrev StreamId := Fin 4096
/-- Sequencer 0, access 1, execute 2, output 3, vector 4, transfer 5: the ENGINE codes of R173. -/
abbrev EngineId := Fin 6
/-- Session slot 0 to 31 (R41). -/
abbrev SessionId := Fin 32
/-- CTP connection 0 to 4,095 (R306). -/
abbrev ConnId := Fin 4096
/-- Monitor channel 0 to 127 (R449). -/
abbrev ChannelId := Fin 128
/-- Swap target: hubs 0 to 23, port stations 24 to 40, work intake 41, standby controller 42 (R52). -/
abbrev TargetId := Fin 43
/-- A request outstanding on the armature, by its place in the table of transactions. -/
abbrev RequestId := Nat

/-- Where a management unit comes from: M0 (17) or M1 (18) with a MAC address, or a CTP port 0 to 16 with a module number;
and the secured session in which it travels, if it travels in the secure envelope (R40). -/
structure Source where
  port : Fin 19
  peer : BitVec 48
  env : Option SessionId
  deriving DecidableEq, Repr

/-- A Tchikebel protocol data unit (R42). -/
structure TchUnit where
  version : BitVec 8
  service : BitVec 8
  transaction : BitVec 16
  status : BitVec 8
  response : Bool
  maquette : Bool
  envelope : Bool
  last : Bool
  reserved : BitVec 4
  length : BitVec 16
  index : BitVec 16
  subindex : BitVec 8
  type : BitVec 8
  param : BitVec 32
  data : Bytes
  deriving DecidableEq, Repr

/-- A well-formed request for one dictionary access: who asks and with which TRANSACTION (R41, R42). -/
structure Req where
  src : Source
  txn : BitVec 16
  deriving DecidableEq, Repr

/-- What an access meets in one granule of memory it touches (R212, R213, R236). An error pattern has the bits of the granule in [511:0]; above
them a stack's symbols c₃₂ to c₃₅, 16 bits each (R235), or the check bits of a scratchpad's words, 8 each (R212). -/
inductive UpsetKind where
  /-- Stored bits that read wrong. -/
  | stored (flips : BitVec 576)
  /-- A read's transfer across the vertical channel: its first symbol slot (R228), and the error pattern of each attempt, the first and three
  resends; one not listed is clean. -/
  | read (slot : BitVec 64) (tries : List (BitVec 576))
  /-- A write's transfer in the same way; where every resend fails, the positions that the hub's test finds failing and the attempt after it. -/
  | written (slot : BitVec 64) (tries : List (BitVec 576)) (failing : List (BitVec 16)) (last : BitVec 576)
  deriving DecidableEq, Repr

/-- A physical upset at the granule that holds an address. An offset at or above 96 GiB lies in the stack's system region (R244). -/
structure Upset where
  addr : BitVec 64
  kind : UpsetKind
  deriving DecidableEq, Repr

/-- A checksum comparison that failed: the array, and the row or column of it (R343, R345). -/
structure Mismatch where
  array : Fin 4
  line : BitVec 16
  column : Bool
  deriving DecidableEq, Repr

/-- What a swap target acknowledges (R52, R55, R59). -/
inductive AckKind where
  | image
  | go
  | swapped
  deriving DecidableEq, Repr

/-- Direction of a vertical channel. -/
inductive Dir where
  | read
  | write
  deriving DecidableEq, Repr

/-- Direction of an armature link (R250). -/
inductive LinkDir where
  | plus
  | minus
  deriving DecidableEq, Repr

/-- Reference input (R408). -/
inductive RefInput where
  | a
  | b
  deriving DecidableEq, Repr

/-- A CTP packet: header fields and payload (R303). -/
structure CtpPacket where
  version : BitVec 8
  type : BitVec 8
  flags : BitVec 16
  src : BitVec 16
  dst : BitVec 16
  conn : BitVec 16
  length : BitVec 16
  psn : BitVec 32
  ackPsn : BitVec 32
  credit : BitVec 16
  jobTag : BitVec 16
  gen : BitVec 8
  reserved : BitVec 24
  crc : BitVec 32
  payload : Bytes
  deriving DecidableEq, Repr

/-- A flit on an armature link (R252): its sideband, its data, and whether its CRC is good. -/
structure Flit where
  seq : BitVec 8
  ack : BitVec 8
  crcOk : Bool
  head : Bool
  last : Bool
  vc : Fin 4
  escape : Bool
  dest : BitVec 6
  src : BitVec 6
  granules : BitVec 4
  txn : BitVec 16
  poison : BitVec 16
  credit : BitVec 16
  data : Bytes
  deriving DecidableEq, Repr

/-- A flow-control frame (R300): PAUSE with its time, or PFC with the priorities it enables and their eight times, in quanta of 512 bit times. -/
inductive FlowFrame where
  | pause (quanta : BitVec 16)
  | pfc (enable : BitVec 8) (times : List (BitVec 16))
  deriving DecidableEq, Repr

/-- A CTP packet as it arrived (R302): its source IPv6 address, the octets in order from bit 0; none over IPv4. -/
structure Arrival where
  source : Option (BitVec 128)
  packet : CtpPacket
  deriving DecidableEq, Repr

/-- What an Ethernet frame carries (R297, R302, R314, R441). -/
inductive FrameKind where
  /-- A UDP datagram on IPv6 or IPv4, of CTP's form: its destination port. -/
  | udp (port : BitVec 16) (a : Arrival)
  /-- Any other IPv4 frame. -/
  | ip4
  | flow (f : FlowFrame)
  /-- A frame of EtherType 0x88B5, by the first byte of its payload. -/
  | field (form : BitVec 8)
  | other
  deriving DecidableEq, Repr

/-- An Ethernet frame at a port (R297, R299): whether its FCS passes, its destination MAC address, its length, the FEC codewords corrected and
uncorrectable since the frame before (R321), what it carries. -/
structure Frame where
  fcsOk : Bool
  dest : BitVec 48
  length : BitVec 16
  fecCorrected : BitVec 32
  fecUncorrected : BitVec 32
  kind : FrameKind
  deriving DecidableEq, Repr

/-- What a poll reads from a transceiver (R315): whether the bus answered; the lower page; of page 11h the lane flags, one byte of eight lanes each,
with the bias high alarms apart, and the monitors by lane; page 00h and page 01h. -/
structure Cmis where
  silent : Bool
  identifier : BitVec 8
  revision : BitVec 8
  moduleState : BitVec 8
  moduleFlags : Bytes
  temperature : BitVec 16
  supply : BitVec 16
  highPower : Bool
  laneFlags : Bytes
  biasHighAlarm : BitVec 8
  bias : List (BitVec 16)
  txPower : List (BitVec 16)
  rxPower : List (BitVec 16)
  vendor : Bytes
  oui : BitVec 24
  part : Bytes
  serial : Bytes
  dateCode : Bytes
  capabilities : Bytes
  deriving DecidableEq, Repr

/-- One 4 KiB page that a replay run wrote: unified address, its bytes, poison of its 64 granules (R352, R353). -/
structure ReplayPage where
  addr : BitVec 64
  data : Bytes
  poison : BitVec 64
  deriving DecidableEq, Repr

/-- What one run of a step leaves for comparison (R353): whether a checksum comparison of its own failed, the pages it wrote in the core's
scratchpad and in device memory, the CRC-32C of its messages in issue order, its flags and its commands completed. -/
structure ReplayResult where
  ownFailed : Bool
  pages : List ReplayPage
  messages : List (BitVec 32)
  flags : BitVec 8
  completed : BitVec 64
  deriving DecidableEq, Repr

/-- A converter that fails (R380): a field phase, an input converter, a phase of VMS (0–3) or VPS (4–7), of VIO_A (0–5) or VIO_B (6–7). -/
inductive Stage where
  | field (h : TileId) (n : Fin 10)
  | input (n : Fin 8)
  | middle (n : Fin 8)
  | io (n : Fin 8)
  deriving DecidableEq, Repr

/-- What the loop measures in a period (R384, R388, R401): currents of the 168 rail points and the 8 rails in mA, VIN in mV, coolant inlet
and outlet in thousandths of a degree (two's complement), the unthrottled draw of links, memory and compute and the fixed draw in W, and the
model's compute draw at n = 64 for each clock step in W. -/
structure PowerSample where
  domains : List (BitVec 32)
  rails : List (BitVec 32)
  vin : BitVec 32
  inlet : BitVec 32
  outlet : BitVec 32
  demand : List (BitVec 32)
  fixed : BitVec 32
  p64 : List (BitVec 32)
  deriving DecidableEq, Repr

/-- What a boot finds (R420 to R430): VIN in mV; which controllers fail the ROM self-test; for slot A and slot B the check of R438 that fails,
0 for none; whether the device key unwraps (R435), whether the factory and the variant record pass; in the in-field part the first segment that
fails, with its cause (0 signature, 1 hash); fields that short; hubs that fail their scan; tiles that fail; whether the plinth's own logic
fails; whether both retained copies fail (R419); the targets, hubs 0–23 and ring stations 24–40, that miss the swap of the maps three times (R428); and
the repair entries found, as type, tile and payload. -/
structure BringUp where
  vin : BitVec 32
  romFailed : BitVec 2
  slotA : BitVec 8
  slotB : BitVec 8
  keyOk : Bool
  factoryOk : Bool
  variantOk : Bool
  badSegment : Option (BitVec 32 × Bool)
  shorted : BitVec 24
  hubFailed : BitVec 24
  tileFailed : BitVec 24
  plinthFailed : Bool
  copiesFailed : Bool
  missing : BitVec 41
  entries : List (BitVec 8 × BitVec 8 × Bytes)
  deriving DecidableEq, Repr, Inhabited

/-- The event messages of IEEE 1588 (R301). -/
inductive PtpKind where
  | sync
  | delayReq
  | pdelayReq
  | pdelayResp
  deriving DecidableEq, Repr

/-- What carries a PTP message (R301). -/
inductive PtpOver where
  | udp6
  | udp4
  | ethernet
  deriving DecidableEq, Repr

/-- A PTP event message at a port (R301, R414): received, or sent by the module; its domain; what the other end tells of it with it or in its follow-up:
the origin stamp of a Sync, the stamp at which a Delay_Req was received, the residence of a Pdelay_Resp; whether the best master clock algorithm chooses
its port, whether the servo is locked with it, and the rate correction that follows in parts per 10⁹. -/
structure PtpMsg where
  kind : PtpKind
  carrier : PtpOver
  sent : Bool
  domain : BitVec 8
  told : BitVec 64
  best : Bool
  locks : Bool
  rate : BitVec 32
  deriving DecidableEq, Repr

/-- An SPDM request (R443): the version it is sent at, its session where it travels in one, its two parameters, its body; whether what it asks
is in the subset and what it proves verifies; and the SHA-512 of the requester's leaf key where it authenticates itself (R442). -/
structure Spdm where
  version : BitVec 8
  session : SessionId
  param1 : BitVec 8
  param2 : BitVec 8
  body : Bytes
  ok : Bool
  leaf : Option Bytes
  deriving DecidableEq, Repr

/-- What verifying the signatures of a loaded target finds (R437, R438): the check of R438 that fails, 2 or 3, or 0. -/
structure LoadCheck where
  failed : BitVec 8
  deriving DecidableEq, Repr, Inhabited

/-- Whether a debug token's signature verifies (R446). -/
structure TokenCheck where
  verified : Bool
  deriving DecidableEq, Repr, Inhabited

/-- The commands, in the table's order. -/
inductive Instr where
  /-- NOP (R176): The sequencer executes a NOP command and does nothing else. -/
  | nop (c : CoreId)
  /-- WAIT (R177): The sequencer blocks until a synchronisation object on any core of the module meets the command's condition. -/
  | wait (c : CoreId)
  /-- SIGNAL (R178): After its implicit fence, the command applies an add, arrive or set-flag operation to a local object or, through a window, to a remote object. -/
  | signal (c : CoreId)
  /-- FENCE (R147): The sequencer dispatches nothing more until every earlier command has completed. -/
  | fence (c : CoreId)
  /-- STEP_BEGIN (R154): Opens a numbered step on the core, fences, invalidates the latches and sets the stochastic-rounding step number. -/
  | stepBegin (c : CoreId)
  /-- STEP_COMMIT (R155): Closes the open step, with replay if it is suspect and poison checks, and makes the staged outputs visible. -/
  | stepCommit (c : CoreId)
  /-- HINT (R180): Announces an expected compute, memory or link phase to the power-capping loop, or ends one. -/
  | hint (c : CoreId)
  /-- TIMESTAMP (R181): Writes the timebase and the core's accumulated arithmetic flags as 16 bytes to a destination. -/
  | timestamp (c : CoreId)
  /-- END (R176): Ends the core's run; on the lead core this completes the work item, and on other cores it idles the core. -/
  | endRun (c : CoreId)
  /-- DELAY (R160): Holds dispatch of the next command for a count of tile cycles. -/
  | delay (c : CoreId)
  /-- LOOP (R158): Updates the loop slot of its level and either jumps back over its body or continues. -/
  | loop (c : CoreId)
  /-- LOAD (R182): The access engine copies a tensor from device memory or the scratchpad into the issuing core's scratchpad. -/
  | load (c : CoreId) (ups : List Upset)
  /-- GATHER (R183): The access engine builds destination rows from source rows named by a row index list. -/
  | gather (c : CoreId) (ups : List Upset)
  /-- STORE (R182): The access engine copies a tensor from the issuing core's scratchpad to device memory or to the same scratchpad. -/
  | store (c : CoreId) (ups : List Upset)
  /-- COPY (R182): The access engine copies a tensor between two device-memory locations. -/
  | copy (c : CoreId) (ups : List Upset)
  /-- MM (R184): The execute engine computes C = A·B on the arrays in passes, with partial sums and fused output. -/
  | mm (c : CoreId) (ups : List Upset)
  /-- MM_SEG (R185): The execute engine runs a segmented product from a segment table, with gathered base rows and per-segment adapters. -/
  | mmSeg (c : CoreId) (ups : List Upset)
  /-- WLOAD (R187): The execute engine loads a latch set into the operand latches of the four arrays. -/
  | wload (c : CoreId) (ups : List Upset)
  /-- MM_W (R97): The execute engine streams an operand against the loaded latch set in normal or transposed read. -/
  | mmW (c : CoreId) (bad : List Mismatch) (ups : List Upset)
  /-- ACC_IO (R188): The execute engine drains and/or reloads the accumulators of the four arrays to or from a scratchpad tile. -/
  | accIo (c : CoreId) (ups : List Upset)
  /-- MM_F64 (R189): The execute engine computes a split-mode FP64 product from INT8 slice passes, with exact recombination. -/
  | mmF64 (c : CoreId) (bad : List Mismatch) (ups : List Upset)
  /-- FUSE_OUT (R190): The output engine applies the fused output pipeline to a scratchpad tensor. -/
  | fuseOut (c : CoreId) (ups : List Upset)
  /-- VOP (R191): The vector engine applies an elementwise operation in the FP32, FP64 or INT64 domain. -/
  | vop (c : CoreId) (ups : List Upset)
  /-- VRED (R193): The vector engine reduces a source along dimension 0 in a fixed lane and tree order. -/
  | vred (c : CoreId) (ups : List Upset)
  /-- VTAB (R194): The vector engine looks up table elements named by an index tensor. -/
  | vtab (c : CoreId) (ups : List Upset)
  /-- SEND (R195): The transfer engine copies a tensor to a destination within the job's grants, usually another core's scratchpad. -/
  | send (c : CoreId) (ups : List Upset)
  /-- MCAST (R266): The transfer engine sends the source down a multicast group's tree to every member. -/
  | mcast (c : CoreId) (ups : List Upset)
  /-- REDUCE (R196): The transfer engine contributes to, or as root receives the result of, an in-network reduction. -/
  | reduce (c : CoreId) (ups : List Upset)
  /-- RWRITE (R197): The transfer engine writes or reduce-adds a local tensor into a window on another or the same module. -/
  | rwrite (c : CoreId) (ups : List Upset)
  /-- RREAD (R197): The transfer engine reads a window image into a local tensor. -/
  | rread (c : CoreId) (ups : List Upset)
  /-- COMMAND_FETCH (R141): The sequencer fetches and checks a 64-byte command at its program counter. -/
  | commandFetch (c : CoreId) (ups : List Upset)
  /-- COMMAND_DISPATCH (R142): The sequencer checks the common header and dispatches one command in program order to its engine queue, or stalls on a full queue. -/
  | commandDispatch (c : CoreId)
  /-- COMMAND_START (R145): An engine starts its queue-head command once its tokens, fence and wait condition are satisfied. -/
  | commandStart (c : CoreId) (e : EngineId)
  /-- COMMAND_COMPLETE (R144): An engine command completes once its reads are done and its writes are visible, and completions are reported in queue order. -/
  | commandComplete (c : CoreId) (e : EngineId)
  /-- PASS_END (R94): A matrix pass ends its streaming; its tile drains and reloads, and its checksums are compared. -/
  | passEnd (c : CoreId) (bad : List Mismatch) (ups : List Upset)
  /-- DELAY_EXPIRY (R160): The DELAY count of tile cycles runs out and dispatch resumes. -/
  | delayExpiry (c : CoreId)
  /-- WAIT_DEADLINE (R286): A wait reaches its deadline unsatisfied and ends with WAIT_TIMEOUT. -/
  | waitDeadline (c : CoreId) (e : EngineId)
  /-- WAKE_NOTICE (R285): A wake notice from the object's hub reaches the waiting engine or sequencer, which then proceeds. -/
  | wakeNotice (c : CoreId) (e : EngineId)
  /-- SIGNAL_ARRIVAL (R280): The object unit applies, in a fixed port order, every signal that arrived in a control-plane cycle, then evaluates waits. -/
  | signalArrival (c : CoreId) (ports : BitVec 5)
  /-- MANUAL_WRITE_IMAGE (R290): Manual setting operation 0x01 writes an image to an object. -/
  | manualWriteImage (q : Req) (ports : BitVec 5)
  /-- MANUAL_ADD (R290): Manual setting operation 0x02 adds the operand to a counter. -/
  | manualAdd (q : Req) (ports : BitVec 5)
  /-- MANUAL_SET_FLAG (R290): Manual setting operation 0x03 sets a flag. -/
  | manualSetFlag (q : Req) (ports : BitVec 5)
  /-- MANUAL_CLEAR_FLAG (R290): Manual setting operation 0x04 clears a flag. -/
  | manualClearFlag (q : Req) (ports : BitVec 5)
  /-- MANUAL_COMPLETE_GENERATION (R290): Manual setting operation 0x05 completes a barrier's current generation. -/
  | manualCompleteGeneration (q : Req) (ports : BitVec 5)
  /-- READ (R43): A Tchikebel READ returns an object value of up to 8 bytes. -/
  | read (src : Source) (u : TchUnit)
  /-- WRITE (R36): A Tchikebel WRITE of up to 8 bytes is checked and applied according to the object's access class. -/
  | write (src : Source) (u : TchUnit)
  /-- READ_SEG_INIT (R45): Starts a segmented read and replies with the total size. -/
  | readSegInit (src : Source) (u : TchUnit)
  /-- WRITE_SEG_INIT (R45): Starts a segmented write with a total size and a type. -/
  | writeSegInit (src : Source) (u : TchUnit)
  /-- SEGMENT (R45): A data segment is received, acknowledged if in order, and the write is applied at the LAST segment. -/
  | segment (src : Source) (u : TchUnit)
  /-- SEG_ACK (R45): An acknowledgement of segments lets the data sender send further segments. -/
  | segAck (src : Source) (u : TchUnit)
  /-- ABORT (R43): An ABORT from the other end ends a segmented transfer and leaves the object unchanged. -/
  | abort (src : Source) (u : TchUnit)
  /-- EVENT_ACK (R48): A subscriber acknowledges an event, which ends its re-sending. -/
  | eventAck (src : Source) (u : TchUnit)
  /-- SEGMENT_RESEND_TIMEOUT (R45): A data sender sees no progress for 20 ms and resends, or aborts after three resends. -/
  | segmentResendTimeout (n : SessionId) (txn : BitVec 16)
  /-- TRANSFER_IDLE_TIMEOUT (R45): The device aborts with TIMEOUT a segmented transfer that has been idle for 1 s. -/
  | transferIdleTimeout (n : SessionId) (txn : BitVec 16)
  /-- SESSION_IDLE_TIMEOUT (R41): A session with no request for 300 s closes, aborting its transfers and releasing its lock. -/
  | sessionIdleTimeout (n : SessionId)
  /-- EVENT_RESEND_TIMEOUT (R48): An event unacknowledged for 10 ms is re-sent, and is dropped for that subscriber after three re-sends. -/
  | eventResendTimeout (k : Fin 8) (seq : BitVec 32)
  /-- RWM_WRITE (R36): A write to an RWM object by the lock holder goes to the maquette. -/
  | rwmWrite (q : Req) (index : BitVec 16) (sub : BitVec 8) (value : Bytes)
  /-- OBJECT_WRITE (R36): A write to an RW or WO object that has no behaviour of its own takes effect in the active set. -/
  | objectWrite (q : Req) (index : BitVec 16) (sub : BitVec 8) (value : Bytes)
  /-- MIN_VOLTAGE_READ (R385): A read of a minimum-voltage record returns it and restarts it from the present voltage. -/
  | minVoltageRead (q : Req) (module : Bool) (point : BitVec 8) (present : BitVec 32)
  /-- RX_BUFFER_PEAK_READ (R321): A read of rx_buffer_peak returns the highest occupancy since the last read and restarts it. -/
  | rxBufferPeakRead (q : Req) (p : PortId)
  /-- SWAP_AT_QUIESCENT (R55): Swap command 0x01 checks and distributes the maquette, then swaps 20 µs after the required jobs quiesce. -/
  | swapAtQuiescent (q : Req)
  /-- SWAP_AT_INSTANT (R55): Swap command 0x02 checks and distributes the maquette for a swap at the instant in 0xF000.01. -/
  | swapAtInstant (q : Req)
  /-- SWAP_CANCEL (R54): Swap command 0x03 cancels a swap that is distributing or armed before its GO message is acknowledged. -/
  | swapCancel (q : Req)
  /-- TARGET_ACK (R52): A swap target's acknowledgement of the image, GO message or new sequence arrives, and the swap state advances when all are in. -/
  | targetAck (t : TargetId) (kind : AckKind) (crcOk : Bool)
  /-- TARGET_ACK_TIMEOUT (R52): A target fails to acknowledge within 50 µs or returns a wrong CRC, and is resent by unicast or the swap aborts with TARGET_MISSING. -/
  | targetAckTimeout
  /-- QUIESCE_POINT_REACHED (R57): Every job held for a swap reaches a quiescent point, and the controller sets the swap instant. -/
  | quiescePointReached
  /-- QUIESCE_TIMEOUT (R57): The quiesce limit runs out, and the swap is aborted while the held jobs resume. -/
  | quiesceTimeout
  /-- SWAP_TOO_LATE (R55): At T − 100 µs, not all acknowledgements are in, and the swap is aborted with TOO_LATE. -/
  | swapTooLate
  /-- SWAP_INSTANT (R56): At T, every target replaces its active part with its maquette part. -/
  | swapInstant
  /-- COPY_ACTIVE_TO_MAQUETTE (R50): Overwrites the maquette with the active set. -/
  | copyActiveToMaquette (q : Req)
  /-- MAQUETTE_LOCK_TAKE (R49): A session takes the maquette lock. -/
  | maquetteLockTake (q : Req)
  /-- MAQUETTE_LOCK_RELEASE (R49): A session releases the maquette lock. -/
  | maquetteLockRelease (q : Req)
  /-- LOCK_IDLE_TIMEOUT (R49): The lock holder makes no write within lock_idle_limit, and the lock is released. -/
  | lockIdleTimeout
  /-- WARM_RESET (R431): Reset command 0x01: jobs are saved, Keep is entered, logic is reset, and the module returns to READY. -/
  | warmReset (q : Req)
  /-- COLD_RESET (R420): Reset command 0x02 reboots the controllers and runs self-test, DRAM training and map building, keeping power. -/
  | coldReset (q : Req) (f : BringUp)
  /-- RESET_CONTACT (R465): RESET_L held low for 10 µs or longer starts a cold reset that holds until release. -/
  | resetContact (ns : BitVec 64)
  /-- POWER_ON (R420): VIN enters its operating range and the full power-on sequence runs to READY. -/
  | powerOn (f : BringUp)
  /-- PTP_LOCK_WAIT_EXPIRY (R430): ptp_lock_wait runs out before the PTP lock, and the module becomes READY anyway. -/
  | ptpLockWaitExpiry
  /-- RUN (R394): A power-state request of 0x00 returns the module to Run. -/
  | run (q : Req)
  /-- IDLE (R394): A power-state request of 0x01 is treated as 0x00. -/
  | idle (q : Req)
  /-- REST (R394): A power-state request of 0x02 enters Rest when no job is running. -/
  | rest (q : Req)
  /-- HOLD (R394): A power-state request of 0x03 enters Hold, with TC off and scratchpad groups in retention. -/
  | hold (q : Req)
  /-- KEEP (R394): A power-state request of 0x04 enters Keep, with every scratchpad group off and flash records written. -/
  | keep (q : Req)
  /-- IDLE_ENTRY (R393): 10 µs after the last array stops streaming, the module enters Idle by itself. -/
  | idleEntry
  /-- GROUP_ON (R206): A group_request with target on wakes the masked groups to on. -/
  | groupOn (q : Req) (c : CoreId) (mask : BitVec 8)
  /-- GROUP_RETENTION (R206): A group_request with target retention closes and drains the masked groups into retention. -/
  | groupRetention (q : Req) (c : CoreId) (mask : BitVec 8)
  /-- GROUP_OFF (R206): A group_request with target off closes and drains the masked groups and powers them off. -/
  | groupOff (q : Req) (c : CoreId) (mask : BitVec 8)
  /-- GROUP_DRAIN_END (R208): A draining group completes its outstanding requests and moves on to retention or off. -/
  | groupDrainEnd (c : CoreId)
  /-- GROUP_WAKE_END (R205): A waking group finishes its power-up and any zero fill, and returns to on. -/
  | groupWakeEnd (c : CoreId)
  /-- SP_SCRUB_INTERVAL (R214): The scratchpad scrubber completes a pass over every group that is on, once per scrub_interval. -/
  | spScrubInterval (c : CoreId) (ups : List Upset)
  /-- SP_LAYOUT_APPLY (R200): A new sp_layout held for a running core is applied when the core next reads idle. -/
  | spLayoutApply (c : CoreId)
  /-- COIL_LINK_FAIL (R229): A coil link position fails and a spare is assigned, or the direction narrows to half width or the layer is lost. -/
  | coilLinkFail (k : StackId) (layer : Fin 3) (dir : Dir) (position : BitVec 16)
  /-- SPARE_SWAP_DONE (R229): The crossbar switches a trained spare in at a frame boundary, ending any hold. -/
  | spareSwapDone (k : StackId) (layer : Fin 3) (dir : Dir)
  /-- DRAM_SCRUB_INTERVAL (R237): The DRAM scrubber completes a pass over every layer in service once per dram_scrub_interval. -/
  | dramScrubInterval (k : StackId) (ups : List Upset)
  /-- STACK_REFORMAT_DONE (R234): The zero fill of a two-layer reformat ends, and the stack serves accesses below 64 GiB. -/
  | stackReformatDone (k : StackId)
  /-- HUB_RESET (R241): The controller resets a hub through the quiesce, drain, hold, reset and restore handshake. -/
  | hubReset (h : TileId) (cause : BitVec 8)
  /-- HUB_RESET_DONE (R241): The hub's channel is restored, its layers leave self-refresh and it accepts requests again. -/
  | hubResetDone (h : TileId) (ok : Bool)
  /-- RETRY_BACKOFF_EXPIRY (R242): A requester's RETRY backoff interval ends and it issues the request again. -/
  | retryBackoffExpiry (r : RequestId)
  /-- MIRROR_RESYNC_DONE (R247): A mirror resynchronisation copy completes, and the entry returns to paired. -/
  | mirrorResyncDone (e : Fin 64)
  /-- JOURNAL_PARTITION_COPY (R245): After a partition is lost, the intake copies its partner's outstanding records to another pair. -/
  | journalPartitionCopy (p : Fin 24)
  /-- FLIT_RECEIVE (R253): A link direction receives a flit and checks its CRC and sequence, then forwards or delivers it. -/
  | flitReceive (l : LinkId) (dir : LinkDir) (f : Flit)
  /-- LINK_RETRY_TIMEOUT (R253): ACK has not advanced for 32 cycles, and the sender resends from its retry buffer. -/
  | linkRetryTimeout (l : LinkId) (dir : LinkDir)
  /-- LANE_RETRY (R254): Four CRC retries within 1 ms trigger a wire pattern test and a remap to spare wires. -/
  | laneRetry (l : LinkId) (dir : LinkDir) (wires : List (BitVec 16))
  /-- TRANSACTION_ARRIVAL (R259): A request arrives at its destination endpoint and is performed, answered from the record, or discarded as a duplicate. -/
  | transactionArrival (r : RequestId)
  /-- ARMATURE_RESEND_TIMEOUT (R259): No response arrives within armature_resend_us; the request is resent, or the command gives up after three resends. -/
  | armatureResendTimeout (r : RequestId)
  /-- LINK_DOWN_REPORT (R263): A hub reports a down link, and the controller swaps in route tables. -/
  | linkDownReport (l : LinkId)
  /-- MCAST_TIMEOUT (R195): An MCAST not completed within the job's default wait timeout ends with WAIT_TIMEOUT. -/
  | mcastTimeout (c : CoreId)
  /-- REDUCE_DEADLINE (R196): A REDUCE not completed by its deadline ends with WAIT_TIMEOUT, DETAIL 2. -/
  | reduceDeadline (c : CoreId)
  /-- LANE_FAIL (R295): A port lane fails, and the port retrains in its narrowed mode or on the other lane group. -/
  | laneFail (p : PortId) (lane : Fin 8)
  /-- PORT_LINK_UP (R296): A port comes up, and its connections resend their unacknowledged packets with RESEND. -/
  | portLinkUp (p : PortId)
  /-- PORT_DOWN_TIMEOUT (R295): The link is not up within 10 ms of a lane failure, and the port goes down. -/
  | portDownTimeout (p : PortId)
  /-- HOST_ROLE_MOVE (R298): H0 stays down for 10 ms with host_failover set, and F0 takes over the host role. -/
  | hostRoleMove
  /-- FRAME_RECEIVE (R299): A frame that passes its FCS enters the port's receive buffer, or is discarded and counted. -/
  | frameReceive (p : Fin 19) (f : Frame)
  /-- PAUSE_RECEIVE (R300): A received PAUSE or PFC frame stops the host port's transmitter. -/
  | pauseReceive (p : PortId) (f : FlowFrame)
  /-- XOFF_REFRESH (R300): Every 50 µs while buffer space stays low, the host port refreshes XOFF. -/
  | xoffRefresh (p : PortId)
  /-- RING_STATION_RESET (R313): The controller resets a port's ring station and the link retrains. -/
  | ringStationReset (p : PortId) (cause : BitVec 8)
  /-- HELLO (R306): A HELLO offer is answered with HELLO_ACK and opens a connection, or is refused. -/
  | hello (p : PortId)
  /-- HELLO_ACK (R306): The answer to an offer opens the connection with the negotiated version, window and payload limit. -/
  | helloAck (p : PortId)
  /-- CLOSE (R306): A CLOSE closes the connection, or starts a graceful close while packets remain unacknowledged. -/
  | close (p : PortId)
  /-- ACK (R309): An ACK message with SACK blocks advances the send window or triggers resends. -/
  | ack (p : PortId)
  /-- WORK (R325): A WORK message is checked by the intake and journaled, or answered with a refusal, GAP, BUSY or duplicate status. -/
  | work (p : PortId)
  /-- WIN_WRITE (R218): A window write message is checked against the window table and written. -/
  | winWrite (p : PortId) (ups : List Upset)
  /-- WIN_REDUCE_FP32 (R197): A window message reduce-adds FP32 data into the target. -/
  | winReduceFp32 (p : PortId) (ups : List Upset)
  /-- WIN_REDUCE_INT64 (R197): A window message reduce-adds INT64 data into the target, saturating. -/
  | winReduceInt64 (p : PortId) (ups : List Upset)
  /-- WIN_READ_REQ (R218): A window read request is checked and answered with WIN_READ_DATA or WIN_STATUS. -/
  | winReadReq (p : PortId) (ups : List Upset)
  /-- WIN_READ_DATA (R197): Read data for an RREAD arrives and is written to the local tensor. -/
  | winReadData (p : PortId) (ups : List Upset)
  /-- WIN_SIGNAL (R288): A window signal is checked and applied to the object after the earlier writes of its stream. -/
  | winSignal (p : PortId)
  /-- WIN_STATUS (R312): A refusal or synchronisation error from the destination ends the source command with its status. -/
  | winStatus (p : PortId)
  /-- MGMT (R308): An in-band Tchikebel unit is queued at the recovery controller. -/
  | mgmt (p : PortId)
  /-- CTP_RTO_EXPIRY (R309): A retransmit timeout expires; the sender resends, or fails the connection after retry_limit timeouts. -/
  | ctpRtoExpiry (n : ConnId)
  /-- CTP_ACK_TIMER (R308): 4 µs after the first unacknowledged packet, the receiver sends an acknowledgement. -/
  | ctpAckTimer (n : ConnId)
  /-- HELLO_REPEAT (R306): An unanswered HELLO is repeated every rto, up to retry_limit times. -/
  | helloRepeat (n : ConnId)
  /-- CLOSE_REPEAT (R306): An unanswered CLOSE is repeated every rto, and the connection closes after retry_limit repeats. -/
  | closeRepeat (n : ConnId)
  /-- CREDIT_PROBE (R310): At CREDIT 0, the sender sends an ACK with ACK_REQ every rto until credit returns. -/
  | creditProbe (n : ConnId)
  /-- XCVR_POLL (R315): Once per second the module reads each transceiver's CMIS data and updates its wear record and alarms. -/
  | xcvrPoll (p : PortId) (data : Cmis)
  /-- XCVR_PRESENT_EDGE (R463): A transceiver is seated or removed, which starts or ends its polling and hours count. -/
  | xcvrPresentEdge (p : PortId) (present : Bool)
  /-- WEAR_RECORD_FLUSH (R317): Every 6 h the wear records are written to flash. -/
  | wearRecordFlush
  /-- JOURNAL_WRITE_DONE (R325): Both journal copies of an item are stored, and the item is accepted and answered ACCEPTED. -/
  | journalWriteDone (stream : StreamId) (sequence : BitVec 64)
  /-- JOURNAL_WRITE_FAIL (R327): A journal write fails, and the item and later in-flight items of its stream are answered BUSY. -/
  | journalWriteFail (stream : StreamId) (sequence : BitVec 64)
  /-- ITEM_DISPATCH (R329): An eligible ACCEPTED item is written to the lead's mailbox and started at its ENTRY. -/
  | itemDispatch (j : JobId)
  /-- COMPLETION_DELIVERY (R332): A DONE item's completion is delivered in stream order, by message and/or memory record. -/
  | completionDelivery (stream : StreamId)
  /-- INTAKE_REBUILD (R338): After a parity error the intake rebuilds streams and items from the journal, answering BUSY meanwhile. -/
  | intakeRebuild
  /-- JOB_CREATE (R334): Control operation 0x01 writes a job record to the maquette and swaps. -/
  | jobCreate
  /-- JOB_START (R334): Control operation 0x02 starts a stopped or errored job, with restored contexts or fresh objects. -/
  | jobStart
  /-- JOB_STOP (R334): Control operation 0x03 quiesces, optionally saves, and stops a running job. -/
  | jobStop
  /-- JOB_CHECKPOINT (R334): Control operation 0x04 quiesces a job, saves every core's context, and resumes it. -/
  | jobCheckpoint
  /-- JOB_LAYOUT (R334): Control operation 0x05 replaces a stopped job's record through a swap. -/
  | jobLayout
  /-- JOB_DISCARD (R334): Control operation 0x06 takes every ACCEPTED item of the job to DONE, DISCARDED. -/
  | jobDiscard
  /-- JOB_DELETE (R334): Control operation 0x07 clears a stopped job's record through a swap. -/
  | jobDelete
  /-- REPLAY_RUN_DONE (R353): A replay run of a suspect step finishes and is compared; the step commits, a third run starts, or it fails.
  What a run without a fault leaves the model computes (R352); what one with a fault leaves the row carries. -/
  | replayRunDone (c : CoreId) (fault : Option ReplayResult)
  /-- CORE_FENCE (R17): The controller stops, isolates and powers off a core's TC and puts its data groups in retention. -/
  | coreFence (h : TileId) (cause : BitVec 8) (engine : EngineId)
  /-- CORE_WATCHDOG (R365): A started command makes no progress for core_watchdog_ms, and the tile is fenced. -/
  | coreWatchdog (c : CoreId) (e : EngineId)
  /-- ASSIGNMENT_TEST_DONE (R366): A pool tile's 1.8 s assignment test ends, and the tile is assigned or fenced. -/
  | assignmentTestDone (h : TileId) (pass : Bool)
  /-- FIELD_SHORT (R381): A field's supply short shuts its ten phases and cuts its stack regulators. -/
  | fieldShort (h : TileId) (phases : BitVec 16) (amps : BitVec 32)
  /-- STAGE_FAULT (R380): A converter fails and is disconnected; the stage runs on, or the cap or tile is limited. -/
  | stageFault (f : Stage)
  /-- VIN_LOW (R382): VIN falls below 46 V and the input current is held, or below 42 V and the converters stop. -/
  | vinLow (mv : BitVec 32)
  /-- VIN_HIGH (R459): VIN rises above 57 V and the input converters stop until it falls below 56.5 V. -/
  | vinHigh (mv : BitVec 32)
  /-- CONTROLLER_TAKEOVER (R374): The standby isolates the failed controller, increments the epoch and takes over. -/
  | controllerTakeover (reason : BitVec 8)
  /-- HEARTBEAT_PATH_LOSS (R374): Heartbeats are missing on one path only; this is logged without a take-over. -/
  | heartbeatPathLoss (ring : Bool)
  /-- POWER_PERIOD (R388): Each 1 ms period, the loop publishes measurements and computes class grants and the issue rate. -/
  | powerPeriod (m : PowerSample)
  /-- STEP_DECISION (R391): Every 100 ms the loop chooses the module clock step. -/
  | stepDecision
  /-- TILE_STEP_CHANGE (R406): A tile stops, its PLL relocks at the new step, and it restarts. -/
  | tileStepChange (h : TileId)
  /-- THERMAL_READING (R398): Every 100 µs the tile and layer sensors are read, and trips, refresh and stack grants follow. -/
  | thermalReading (h : TileId) (logic : List (BitVec 32)) (stack : List (BitVec 32))
  /-- THERMAL_STEP_WINDOW (R398): Every 100 ms the tile's thermal step ceiling falls or rises. -/
  | thermalStepWindow (h : TileId)
  /-- DROOP_CROSSING (R396): VCORE crosses below 0.96 × V_set, and the next tile clock period is stretched. -/
  | droopCrossing (h : TileId)
  /-- UNDERVOLTAGE (R396): VCORE below 0.93 × V_set for 1 µs marks the open step for replay. -/
  | undervoltage (h : TileId)
  /-- PATINA_MEASURE (R397): Every 24 h the tile's margin is measured and its trim may rise. -/
  | patinaMeasure (h : TileId) (margin : BitVec 32)
  /-- ENERGY_FLUSH (R386): Every hour the energy counter is written to flash. -/
  | energyFlush
  /-- REPLICA_WINDOW (R410): At the end of each 1 µs window, the lowest replica slack raises a warning or trips a fence. -/
  | replicaWindow (h : TileId) (path : BitVec 8) (slack : BitVec 16)
  /-- REFERENCE_BAD (R408): A reference input is declared bad; the PLL enters holdover and follows the other input. -/
  | referenceBad (r : RefInput)
  /-- REFERENCE_GOOD (R408): An input is good for 100 ms; it is declared good, and the PLL may return to A. -/
  | referenceGood (r : RefInput)
  /-- TIMEBASE_CORRECTION (R412): Every microsecond the master's value corrects each region counter by at most 1 ns. -/
  | timebaseCorrection (r : BitVec 8)
  /-- PPS_OUT (R413): A PPS_OUT edge is driven at each whole second of the timebase. -/
  | ppsOut
  /-- PPS_IN_EDGE (R413): A rising PPS_IN edge is stamped into pps_in_stamp. -/
  | ppsInEdge (width : BitVec 32)
  /-- PTP_MESSAGE (R414): A PTP event message is stamped, and the master steps or slews the timebase. -/
  | ptpMessage (p : PortId) (m : PtpMsg)
  /-- GET_VERSION (R443): SPDM GET_VERSION request answered by the responder. -/
  | getVersion (src : Source) (m : Spdm)
  /-- GET_CAPABILITIES (R443): SPDM GET_CAPABILITIES request answered. -/
  | getCapabilities (src : Source) (m : Spdm)
  /-- NEGOTIATE_ALGORITHMS (R443): SPDM algorithm negotiation. -/
  | negotiateAlgorithms (src : Source) (m : Spdm)
  /-- GET_DIGESTS (R443): SPDM request for the certificate digests. -/
  | getDigests (src : Source) (m : Spdm)
  /-- GET_CERTIFICATE (R443): SPDM request for the slot 0 certificate chain. -/
  | getCertificate (src : Source) (m : Spdm)
  /-- CHALLENGE (R443): SPDM challenge-response authentication. -/
  | challenge (src : Source) (m : Spdm)
  /-- GET_MEASUREMENTS (R444): Returns signed measurement blocks computed when the response is formed. -/
  | getMeasurements (src : Source) (m : Spdm)
  /-- KEY_EXCHANGE (R442): Opens an SPDM secured session and sets its access level. -/
  | keyExchange (src : Source) (m : Spdm)
  /-- FINISH (R443): SPDM FINISH completes the session handshake. -/
  | finish (src : Source) (m : Spdm)
  /-- HEARTBEAT (R443): SPDM session heartbeat. -/
  | heartbeat (src : Source) (m : Spdm)
  /-- KEY_UPDATE (R443): SPDM session key update. -/
  | keyUpdate (src : Source) (m : Spdm)
  /-- END_SESSION (R443): Ends an SPDM secured session. -/
  | endSession (src : Source) (m : Spdm)
  /-- CREDENTIAL_WRITE (R442): A write to the credential table, refused if it would remove the last owner entry. -/
  | credentialWrite (q : Req) (k : Fin 8) (value : Bytes)
  /-- LOAD_CHUNK_WRITE (R440): A chunk of an image or record is written at load_offset by the owning session. -/
  | loadChunkWrite (q : Req) (data : Bytes)
  /-- LOAD_COMMIT (R440): load_command 0x01 verifies the loaded target and marks it valid. -/
  | loadCommit (q : Req) (found : LoadCheck)
  /-- LOAD_ABORT (R440): load_command 0x02 aborts the load. -/
  | loadAbort (q : Req)
  /-- SVN_ADVANCE (R439): Raises the rollback floor to the running image's SVN. -/
  | svnAdvance (q : Req)
  /-- MEASURE_APPLY (R445): Hashes a memory range and appends it to the program measurement log. -/
  | measureApply (q : Req)
  /-- DEBUG_CHALLENGE_READ (R446): Returns a fresh 32-byte challenge and cancels the previous one. -/
  | debugChallengeRead (q : Req)
  /-- DEBUG_TOKEN_WRITE (R446): A debug token is checked against the challenge and grants its scope. -/
  | debugTokenWrite (q : Req) (token : Bytes) (found : TokenCheck)
  /-- DEBUG_LOCK (R446): Relocks debug access at once. -/
  | debugLock (q : Req)
  /-- DEBUG_UNLOCK_EXPIRY (R446): The unlock duration or the challenge lifetime expires. -/
  | debugUnlockExpiry
  /-- MONITOR_SNAPSHOT_ALL (R456): Command 0x01 snapshots every masked channel at one instant. -/
  | monitorSnapshotAll (q : Req)
  /-- MONITOR_SNAPSHOT_CLEAR_ALL (R456): Command 0x02 snapshots and clears every masked channel at one instant. -/
  | monitorSnapshotClearAll (q : Req)
  /-- SNAPSHOT_INSTANT_EXPIRY (R456): The scheduled snapshot_instant is reached, and the module-wide snapshot is taken. -/
  | snapshotInstantExpiry
  /-- MON_SNAPSHOT (R457): mon_command 0x01 copies a channel's live values into its snapshot record. -/
  | monSnapshot (q : Req) (n : ChannelId)
  /-- MON_SNAPSHOT_CLEAR (R457): mon_command 0x02 snapshots a channel and clears it. -/
  | monSnapshotClear (q : Req) (n : ChannelId)
  /-- MON_CLEAR (R457): mon_command 0x03 clears a channel's live values. -/
  | monClear (q : Req) (n : ChannelId)
  /-- MON_CONFIG_WRITE (R454): A write to a channel's configuration or window snapshots and clears it, then applies the new settings. -/
  | monConfigWrite (q : Req) (n : ChannelId) (sub : BitVec 8) (value : Bytes)
  /-- MONITOR_WINDOW_END (R452): A channel's window reaches its end instant and rolls over, or stops. -/
  | monitorWindowEnd (n : ChannelId)
  /-- MONITOR_EVENT (R449): A channel takes a sampled source event into its statistics and histogram. -/
  | monitorEvent (n : ChannelId) (v : BitVec 64) (stamp : BitVec 64)
  /-- CONTROL_QUIESCE_TIMEOUT (R334): A quiescing control operation's wait runs past the job's quiesce limit; the item completes with ERROR, status BUSY, and the job is left running. -/
  | controlQuiesceTimeout
  /-- VMEM_VPP_SHORT (R381): A short on a stack's VMEM or VPP cuts only that stack's plinth regulators, and the stack is lost. -/
  | vmemVppShort (k : StackId)
  /-- LAYER_FAULT (R232): A layer's forwarded clock fails, or its interface reports an internal fault, and the layer is marked lost with its contents treated as poisoned. -/
  | layerFault (k : StackId) (layer : Fin 3) (cause : BitVec 8)
  /-- COMPL_ADDR_WRITE_DONE (R328): The stack acknowledges the completion record written to COMPL_ADDR, and the item is retired once every delivery that COMPL_MODE asks for is confirmed. -/
  | complAddrWriteDone (stream : StreamId) (sequence : BitVec 64)
  /-- RESET_L_RELEASE (R465): RESET_L returns high after a held assertion, and the cold-reset boot begins. -/
  | resetLRelease (f : BringUp)
  /-- VIN_RESTORED (R459): VIN falls back below 56.5 V after an overvoltage stop, or rises back into range, and the input converters restart. -/
  | vinRestored (mv : BitVec 32)
  /-- PAUSE_EXPIRY (R300): The pause time of a received PAUSE or PFC frame runs out, and the host port's transmitter resumes. -/
  | pauseExpiry (p : PortId)
  /-- MONITOR_WINDOW_START (R452): The timebase reaches a channel's window_start, and mon_state moves from before window to collecting. -/
  | monitorWindowStart (n : ChannelId)
  /-- DEBUG_PORT_ATTACH (R446): A debugger attaches to the standby controller's debug port under an unlock of scope bit 0, which halts that controller and sets standby_state to failed. -/
  | debugPortAttach
  /-- SPDM_HEARTBEAT_TIMEOUT (R443): An SPDM secured session receives no heartbeat within its heartbeat period, so the envelope and its Tchikebel session close, which aborts open transfers and releases any lock. -/
  | spdmHeartbeatTimeout (n : SessionId)
  deriving DecidableEq, Repr

end Sys2Proof
end

