-- ==== Sys2Proof/Machine/Bits.lean ====
section
/-! DEFINITION. Bit fields, byte order and sign extension (R10), and the CRC-32C the manual uses (R52, R162, R302). -/

namespace Sys2Proof.Machine

/-- Bits [lo + n − 1 : lo] of a number. -/
def bits (w lo n : Nat) : Nat := w / 2 ^ lo % 2 ^ n

/-- Bit i of a number. -/
def bit (w i : Nat) : Bool := w / 2 ^ i % 2 == 1

/-- A number with bits [lo + n − 1 : lo] replaced by v. -/
def setBits (w lo n v : Nat) : Nat := w - bits w lo n * 2 ^ lo + v % 2 ^ n * 2 ^ lo

/-- A number with bit i made b. -/
def setBit (w i : Nat) (b : Bool) : Nat := setBits w i 1 (if b then 1 else 0)

/-- Little-endian bytes of a number, n of them (R10). -/
def toLE : Nat → Nat → Bytes
  | 0, _ => []
  | n + 1, v => BitVec.ofNat 8 v :: toLE n (v / 256)

/-- The number that bytes spell, least significant first (R10). -/
def ofLE : Bytes → Nat
  | [] => 0
  | b :: bs => b.toNat + 256 * ofLE bs

/-- Bytes [off, off + n) of a string as a number. -/
def leAt (bs : Bytes) (off n : Nat) : Nat := ofLE ((bs.drop off).take n)

/-- Two's complement value of the low n bits. -/
def toSigned (n v : Nat) : Int :=
  let u := v % 2 ^ n
  if u < 2 ^ (n - 1) then (u : Int) else (u : Int) - 2 ^ n

/-- The n-bit two's complement pattern of an integer. -/
def ofSigned (n : Nat) (i : Int) : Nat := (i % (2 ^ n : Int)).toNat

/-- Bytes a number needs, with no leading zero byte. -/
def byteLen (v : Nat) : Nat := if v = 0 then 0 else Nat.log2 v / 8 + 1

/-- a ÷ b rounded up. -/
def ceilDiv (a b : Nat) : Nat := (a + b - 1) / b

/-- Fill a string of bytes with zeros up to a length. -/
def padTo (n : Nat) (bs : Bytes) : Bytes := (bs ++ List.replicate (n - bs.length) 0).take n

/-- Count of set bits below n. -/
def popCount (n v : Nat) : Nat := ((List.range n).filter (bit v ·)).length

/-- The set bit positions below n, ascending. -/
def setPositions (n v : Nat) : List Nat := (List.range n).filter (bit v ·)

/-- A sum kept below 2^n by saturation. -/
def satAdd (n a b : Nat) : Nat := min (a + b) (2 ^ n - 1)

/-- One bit of the reflected CRC-32C register (polynomial 0x1EDC6F41). -/
def crcBit (r : Nat) : Nat := if r % 2 = 1 then (r / 2) ^^^ 0x82F63B78 else r / 2

/-- One byte into the CRC-32C register. -/
def crcByte (r : Nat) (b : Byte) : Nat :=
  crcBit (crcBit (crcBit (crcBit (crcBit (crcBit (crcBit (crcBit (r ^^^ b.toNat))))))))

/-- CRC-32C of a string of bytes. -/
def crc32c (bs : Bytes) : Nat := (bs.foldl crcByte 0xFFFFFFFF) ^^^ 0xFFFFFFFF

/-- ASCII bytes of a name. -/
def asciiBytes (cs : List Char) : Bytes := cs.map fun c => BitVec.ofNat 8 c.toNat

/-- Whether bytes are valid UTF-8 (R35), with as many steps as bytes. -/
def utf8Go : Nat → Bytes → Bool
  | _, [] => true
  | 0, _ :: _ => false
  | f + 1, b :: bs =>
    let v := b.toNat
    let cont (x : Byte) : Bool := x.toNat / 64 == 2
    if v < 0x80 then utf8Go f bs
    else if 0xC2 ≤ v && v < 0xE0 then
      match bs with
      | c :: r => cont c && utf8Go f r
      | _ => false
    else if 0xE0 ≤ v && v < 0xF0 then
      match bs with
      | c :: d :: r =>
        cont c && cont d && (v != 0xE0 || 0xA0 ≤ c.toNat) && (v != 0xED || c.toNat < 0xA0) && utf8Go f r
      | _ => false
    else if 0xF0 ≤ v && v < 0xF5 then
      match bs with
      | c :: d :: e :: r =>
        cont c && cont d && cont e && (v != 0xF0 || 0x90 ≤ c.toNat) && (v != 0xF4 || c.toNat < 0x90) && utf8Go f r
      | _ => false
    else false

/-- Whether bytes are valid UTF-8 (R35). -/
def validUtf8 (bs : Bytes) : Bool := utf8Go bs.length bs

end Sys2Proof.Machine
end

