-- ==== Sys2Proof/Machine/Formats.lean ====
section
/-! DEFINITION. Number formats (R63 to R80): decoding to exact values, one-rounding conversion, MX block conversion,
the stochastic draw, exact arithmetic on dyadic numbers. -/

namespace Sys2Proof.Machine

/-- The formats of R63. -/
inductive Format where
  | int8 | uint8 | int4 | int32 | int64
  | e4m3 | e5m2 | e2m3 | e3m2 | e2m1
  | mxE4m3 | mxE5m2 | mxE2m3 | mxE3m2 | mxE2m1 | mxInt8
  | bf16 | fp16 | fp32 | fp64
  deriving DecidableEq, Repr

/-- The format a code names; none for a code not in the table (R63). -/
def Format.ofCode : Nat → Option Format
  | 0x00 => some .int8 | 0x01 => some .uint8 | 0x02 => some .int4 | 0x03 => some .int32 | 0x04 => some .int64
  | 0x08 => some .e4m3 | 0x09 => some .e5m2 | 0x0A => some .e2m3 | 0x0B => some .e3m2 | 0x0C => some .e2m1
  | 0x10 => some .mxE4m3 | 0x11 => some .mxE5m2 | 0x12 => some .mxE2m3 | 0x13 => some .mxE3m2
  | 0x14 => some .mxE2m1 | 0x15 => some .mxInt8
  | 0x18 => some .bf16 | 0x19 => some .fp16 | 0x1A => some .fp32 | 0x1B => some .fp64
  | _ => none

/-- Bits per element, scales apart (R63). -/
def Format.bits : Format → Nat
  | .int8 | .uint8 | .e4m3 | .e5m2 | .mxE4m3 | .mxE5m2 | .mxInt8 => 8
  | .int4 | .e2m1 | .mxE2m1 => 4
  | .e2m3 | .e3m2 | .mxE2m3 | .mxE3m2 => 6
  | .bf16 | .fp16 => 16
  | .int32 | .fp32 => 32
  | .int64 | .fp64 => 64

/-- Whether a format carries block scales (R63). -/
def Format.isMx : Format → Bool
  | .mxE4m3 | .mxE5m2 | .mxE2m3 | .mxE3m2 | .mxE2m1 | .mxInt8 => true
  | _ => false

/-- Whether a format is an integer format (R64); MXINT8 is not (R120). -/
def Format.isInt : Format → Bool
  | .int8 | .uint8 | .int4 | .int32 | .int64 => true
  | _ => false

/-- Whether a format is narrower than one byte (R68). -/
def Format.subByte (f : Format) : Bool := f.bits < 8

/-- Elements dimension 0 must hold a multiple of (R68, R69). -/
def Format.packing (f : Format) : Nat :=
  if f.isMx then 32 else if f.bits = 4 then 2 else if f.bits = 6 then 4 else 1

/-- Bytes of one dimension-0 run of n elements (R68). -/
def Format.runBytes (f : Format) (n : Nat) : Nat := n * f.bits / 8

/-- STRIDE0 a descriptor must hold (R171). -/
def Format.stride0 (f : Format) : Nat := if f.subByte then 0 else f.bits / 8

/-- An exact value: not a number, an infinity, or ± m·2^e. -/
inductive Num where
  | nan
  | inf (neg : Bool)
  | fin (neg : Bool) (m : Nat) (e : Int)
  deriving DecidableEq, Repr

/-- The layout of a floating format (R65): exponent bits, trailing bits, bias, encoding of the largest finite value,
encoding of +infinity and of the canonical NaN (R67) where it has them. -/
structure FloatFmt where
  expBits : Nat
  manBits : Nat
  bias : Nat
  maxFin : Nat
  inf : Option Nat
  nan : Option Nat
  deriving DecidableEq, Repr

/-- The floating layout of a format, or of an MX format's elements; none for integers (R65, R71). -/
def Format.float : Format → Option FloatFmt
  | .e2m1 | .mxE2m1 => some ⟨2, 1, 1, 0x7, none, none⟩
  | .e2m3 | .mxE2m3 => some ⟨2, 3, 1, 0x1F, none, none⟩
  | .e3m2 | .mxE3m2 => some ⟨3, 2, 3, 0x1F, none, none⟩
  | .e4m3 | .mxE4m3 => some ⟨4, 3, 7, 0x7E, none, some 0x7F⟩
  | .e5m2 | .mxE5m2 => some ⟨5, 2, 15, 0x7B, some 0x7C, some 0x7E⟩
  | .bf16 => some ⟨8, 7, 127, 0x7F7F, some 0x7F80, some 0x7FC0⟩
  | .fp16 => some ⟨5, 10, 15, 0x7BFF, some 0x7C00, some 0x7E00⟩
  | .fp32 => some ⟨8, 23, 127, 0x7F7FFFFF, some 0x7F800000, some 0x7FC00000⟩
  | .fp64 => some ⟨11, 52, 1023, 0x7FEFFFFFFFFFFFFF, some 0x7FF0000000000000, some 0x7FF8000000000000⟩
  | _ => none

/-- E_max of an MX element format (R71). -/
def Format.eMax : Format → Int
  | .mxE4m3 => 8 | .mxE5m2 => 15 | .mxE2m3 => 2 | .mxE3m2 => 4 | .mxE2m1 => 2
  | _ => 0

/-- The plain element format of an MX format (R71). -/
def Format.element : Format → Format
  | .mxE4m3 => .e4m3 | .mxE5m2 => .e5m2 | .mxE2m3 => .e2m3 | .mxE3m2 => .e3m2 | .mxE2m1 => .e2m1 | .mxInt8 => .int8
  | f => f

/-- Exponent of one unit of the subnormal grid: 1 − b − m (R65). -/
def FloatFmt.quantum (f : FloatFmt) : Int := 1 - (f.bias : Int) - (f.manBits : Int)

/-- Position of the sign bit. -/
def FloatFmt.signPos (f : FloatFmt) : Nat := f.expBits + f.manBits

/-- Decode a floating encoding (R65, R66, R67): every bit pattern above the largest finite one is an infinity or a NaN. -/
def FloatFmt.decode (f : FloatFmt) (w : Nat) : Num :=
  let neg := bit w f.signPos
  let mag := w % 2 ^ f.signPos
  let ex := mag / 2 ^ f.manBits
  let man := mag % 2 ^ f.manBits
  if f.maxFin < mag then
    if f.inf = some mag then .inf neg else .nan
  else if ex = 0 then .fin neg man f.quantum
  else .fin neg (2 ^ f.manBits + man) (f.quantum + (ex : Int) - 1)

/-- An integer as an exact value. -/
def Num.ofInt (i : Int) : Num := .fin (i < 0) i.natAbs 0

/-- The integer an element's bits spell (R64). -/
def Format.intValue : Format → Nat → Int
  | .uint8, w => (w % 256 : Nat)
  | f, w => toSigned f.bits w

/-- The element's own value, its block scale apart (R64, R65, R71). -/
def Format.decode (f : Format) (w : Nat) : Num :=
  match f.float with
  | some l => l.decode w
  | none =>
    match f with
    | .mxInt8 => let i := toSigned 8 w; .fin (i < 0) i.natAbs (-6)
    | _ => Num.ofInt (f.intValue w)

/-- Times 2^k. -/
def Num.scale (x : Num) (k : Int) : Num :=
  match x with
  | .fin s m e => .fin s m (e + k)
  | _ => x

/-- An element with its block's scale byte (R70). -/
def Format.decodeScaled (f : Format) (w scale : Nat) : Num :=
  if f.isMx then
    if scale = 0xFF then .nan else (f.decode w).scale ((scale : Int) - 127)
  else f.decode w

/-- Negation. -/
def Num.neg : Num → Num
  | .nan => .nan
  | .inf s => .inf (!s)
  | .fin s m e => .fin (!s) m e

/-- Signed mantissa. -/
def signed (s : Bool) (m : Nat) : Int := if s then -(m : Int) else (m : Int)

/-- Exact product, IEEE 754-2019 special cases. -/
def Num.mul : Num → Num → Num
  | .nan, _ => .nan
  | _, .nan => .nan
  | .inf s, .inf t => .inf (s != t)
  | .inf s, .fin t m _ => if m = 0 then .nan else .inf (s != t)
  | .fin s m _, .inf t => if m = 0 then .nan else .inf (s != t)
  | .fin s m e, .fin t n f => .fin (s != t) (m * n) (e + f)

/-- Exact sum, IEEE 754-2019 special cases: an exact zero is +0 unless both addends are −0 (R119). -/
def Num.add : Num → Num → Num
  | .nan, _ => .nan
  | _, .nan => .nan
  | .inf s, .inf t => if s = t then .inf s else .nan
  | .inf s, .fin _ _ _ => .inf s
  | .fin _ _ _, .inf t => .inf t
  | .fin s m e, .fin t n f =>
    let g := min e f
    let v := signed s m * 2 ^ (e - g).toNat + signed t n * 2 ^ (f - g).toNat
    if v = 0 then .fin (s && t && m = 0 && n = 0) 0 g else .fin (v < 0) v.natAbs g

/-- Whether a value is zero. -/
def Num.isZero : Num → Bool
  | .fin _ m _ => m = 0
  | _ => false

/-- Whether a value is finite. -/
def Num.isFin : Num → Bool
  | .fin _ _ _ => true
  | _ => false

/-- Whether a value is not a number. -/
def Num.isNan : Num → Bool
  | .nan => true
  | _ => false

/-- Whether a value carries a minus sign. -/
def Num.isNeg : Num → Bool
  | .fin s _ _ => s
  | .inf s => s
  | .nan => false

/-- x < y for values that are not NaN; −0 equals +0. -/
def Num.lt : Num → Num → Bool
  | .nan, _ => false
  | _, .nan => false
  | .inf s, .inf t => s && !t
  | .inf s, .fin _ _ _ => s
  | .fin _ _ _, .inf t => !t
  | .fin s m e, .fin t n f =>
    let g := min e f
    decide (signed s m * 2 ^ (e - g).toNat < signed t n * 2 ^ (f - g).toNat)

/-- x ≤ y for values that are not NaN. -/
def Num.le (x y : Num) : Bool := !x.isNan && !y.isNan && !y.lt x

/-- Rounding modes (R73). -/
inductive Rounding where
  | rne | rtz | stochastic
  deriving DecidableEq, Repr

/-- The mode a ROUND field names; 3 is reserved (R73). -/
def Rounding.ofField : Nat → Option Rounding
  | 0 => some .rne
  | 1 => some .rtz
  | 2 => some .stochastic
  | _ => none

/-- Round num / den to an integer (R73, R78). -/
def roundQuot (r : Rounding) (rand num den : Nat) : Nat :=
  let q := num / den
  let rem := num % den
  match r with
  | .rtz => q
  | .rne => if 2 * rem < den then q else if den < 2 * rem then q + 1 else if q % 2 = 0 then q else q + 1
  | .stochastic => if rand < rem * 2 ^ 24 / den then q + 1 else q

/-- floor(log2(num / den)) for a positive fraction. -/
def ilog2 (num den : Nat) : Int :=
  let k : Int := (Nat.log2 num : Int) - (Nat.log2 den : Int)
  let big : Bool := if 0 ≤ k then decide (den * 2 ^ k.toNat ≤ num) else decide (den ≤ num * 2 ^ (-k).toNat)
  if big then k else k - 1

/-- Round a positive fraction on the grid of a format: p significant bits, no unit below 2^quantum; the count of units
and the unit's exponent (R73, R74). -/
def roundGrid (p : Nat) (quantum : Int) (r : Rounding) (rand num den : Nat) : Nat × Int :=
  let q := max (ilog2 num den - ((p : Int) - 1)) quantum
  if 0 ≤ q then (roundQuot r rand num (den * 2 ^ q.toNat), q)
  else (roundQuot r rand (num * 2 ^ (-q).toNat) den, q)

/-- The result of a conversion: the bits, and whether the overflow and the invalid flag are set (R75, R76). -/
structure Conv where
  bits : Nat
  ovf : Bool := false
  inv : Bool := false
  deriving DecidableEq, Repr

/-- With the sign bit. -/
def FloatFmt.withSign (f : FloatFmt) (neg : Bool) (mag : Nat) : Nat := if neg then mag + 2 ^ f.signPos else mag

/-- Encoding of the magnitude n·2^q, q at least the quantum: monotonic, and past maxFin where it overflows. -/
def FloatFmt.encodeMag (f : FloatFmt) (n : Nat) (q : Int) : Nat := (q - f.quantum).toNat * 2 ^ f.manBits + n

/-- What an overflow gives (R75): RTZ or SAT the largest finite value, otherwise infinity, or NaN in E4M3,
or the largest finite value where the format has neither. -/
def FloatFmt.overflow (f : FloatFmt) (r : Rounding) (sat neg : Bool) : Conv :=
  if r = .rtz || sat then ⟨f.withSign neg f.maxFin, true, false⟩
  else match f.inf, f.nan with
    | some i, _ => ⟨f.withSign neg i, true, false⟩
    | none, some n => ⟨n, true, false⟩
    | none, none => ⟨f.withSign neg f.maxFin, true, false⟩

/-- Convert ± num / den to a floating format with one rounding (R73 to R75, R77, R78). -/
def FloatFmt.ofFraction (f : FloatFmt) (r : Rounding) (sat : Bool) (rand : Nat) (neg : Bool) (num den : Nat) : Conv :=
  if num = 0 then ⟨f.withSign neg 0, false, false⟩
  else
    let (n, q) := roundGrid (f.manBits + 1) f.quantum r rand num den
    let mag := f.encodeMag n q
    if f.maxFin < mag then f.overflow r sat neg else ⟨f.withSign neg mag, false, false⟩

/-- What an infinite source gives in a floating format (R75). SAT has an effect only where the format honours it. -/
def FloatFmt.ofInf (f : FloatFmt) (sat neg : Bool) : Conv :=
  match f.inf, f.nan with
  | some i, _ => if sat then ⟨f.withSign neg f.maxFin, true, false⟩ else ⟨f.withSign neg i, false, false⟩
  | none, some n => if sat then ⟨f.withSign neg f.maxFin, true, false⟩ else ⟨n, false, true⟩
  | none, none => ⟨f.withSign neg f.maxFin, true, false⟩

/-- Whether SAT has an effect on a target (R75). -/
def Format.honoursSat : Format → Bool
  | .e4m3 | .e5m2 | .bf16 | .fp16 => true
  | _ => false

/-- The least and the greatest value of an integer format (R64). -/
def Format.intRange : Format → Int × Int
  | .uint8 => (0, 255)
  | f => (-(2 ^ (f.bits - 1) : Int), 2 ^ (f.bits - 1) - 1)

/-- An integer kept in a format's range (R75, R77). -/
def Format.ofIntSat (f : Format) (i : Int) : Conv :=
  let (lo, hi) := f.intRange
  if i < lo then ⟨ofSigned f.bits lo, true, false⟩
  else if hi < i then ⟨ofSigned f.bits hi, true, false⟩
  else ⟨ofSigned f.bits i, false, false⟩

/-- Numerator and denominator of m·2^e. -/
def fraction (m : Nat) (e : Int) : Nat × Nat := if 0 ≤ e then (m * 2 ^ e.toNat, 1) else (m, 2 ^ (-e).toNat)

/-- Convert ± num / den to a plain format (R73 to R78). -/
def Format.ofFraction (f : Format) (r : Rounding) (sat : Bool) (rand : Nat) (neg : Bool) (num den : Nat) : Conv :=
  match f.float with
  | some l => l.ofFraction r (sat && f.honoursSat) rand neg num den
  | none => f.ofIntSat (signed neg (roundQuot r rand num den))

/-- Convert an exact value to a plain format with one rounding (R73 to R78). -/
def Format.convert (f : Format) (r : Rounding) (sat : Bool) (rand : Nat) (x : Num) : Conv :=
  match x with
  | .fin s m e => let (n, d) := fraction m e; f.ofFraction r sat rand s n d
  | .inf s =>
    match f.float with
    | some l => l.ofInf (sat && f.honoursSat) s
    | none => let (lo, hi) := f.intRange; ⟨ofSigned f.bits (if s then lo else hi), true, false⟩
  | .nan =>
    match f.float with
    | some l => match l.nan with
      | some n => ⟨n, false, false⟩
      | none => ⟨0, false, true⟩
    | none => ⟨0, false, true⟩

/-- RN32: one rounding to FP32 with RNE (R118), with the flags of the conversion. -/
def rn32 (x : Num) : Conv := Format.convert .fp32 .rne false 0 x

/-- One rounding to FP64 with RNE. -/
def rn64 (x : Num) : Conv := Format.convert .fp64 .rne false 0 x

/-- An FP32 encoding's value. -/
def f32 (w : Nat) : Num := Format.decode .fp32 w

/-- An FP64 encoding's value. -/
def f64 (w : Nat) : Num := Format.decode .fp64 w

/-- Canonical FP32 NaN (R67). -/
def nan32 : Nat := 0x7FC00000

/-- Unsigned 64-bit product. -/
def mul64 (a b : Nat) : Nat := a * b % 2 ^ 64

/-- The mixing function of R78. -/
def mix (z : Nat) : Nat :=
  let z := mul64 (z ^^^ z / 2 ^ 30) 0xBF58476D1CE4E5B9
  let z := mul64 (z ^^^ z / 2 ^ 27) 0x94D049BB133111EB
  z ^^^ z / 2 ^ 31

/-- The four logical indices of an element, dimension 0 first. -/
structure Idx where
  i0 : Nat := 0
  i1 : Nat := 0
  i2 : Nat := 0
  i3 : Nat := 0
  deriving DecidableEq, Repr

/-- The 24-bit draw of R78. -/
def draw (seed step desc : Nat) (i : Idx) : Nat :=
  let h := mix (seed ^^^ step)
  let h := mix (h ^^^ ((desc * 2 ^ 32) ||| i.i3))
  let h := mix (h ^^^ ((i.i2 * 2 ^ 32) ||| i.i1))
  let h := mix (h ^^^ i.i0)
  h / 2 ^ 40

/-- |x| ≤ |y| for finite values. -/
def Num.magLe (x y : Num) : Bool :=
  match x, y with
  | .fin _ m e, .fin _ n f => Num.le (.fin false m e) (.fin false n f)
  | _, _ => false

/-- The largest magnitude of finite values. -/
def maxMag (vs : List Num) : Num := vs.foldl (fun a v => if Num.magLe a v then v else a) (.fin false 0 0)

/-- The result of an MX block conversion: scale byte, element encodings, flags (R72). -/
structure MxBlock where
  scale : Nat
  elems : List Nat
  ovf : Bool := false
  inv : Bool := false
  deriving DecidableEq, Repr

/-- One MX element: plain conversion to the element format, always saturating; MXINT8 never writes −128 and has no −0 (R71, R72). -/
def Format.mxElem (f : Format) (r : Rounding) (rand : Nat) (x : Num) : Conv :=
  match f with
  | .mxInt8 =>
    match x with
    | .fin s m e =>
      let (n, d) := fraction m (e + 6)
      let v := roundQuot r rand n d
      if 127 < v then ⟨ofSigned 8 (signed s 127), true, false⟩ else ⟨ofSigned 8 (signed s v), false, false⟩
    | _ => ⟨0, false, true⟩
  | _ =>
    match x, f.float with
    | .fin s m e, some l => let (n, d) := fraction m e; l.ofFraction r true rand s n d
    | _, _ => ⟨0, false, true⟩

/-- Convert a block of values with their draws to an MX format (R72). -/
def Format.mxBlock (f : Format) (r : Rounding) (vs : List (Num × Nat)) : MxBlock :=
  if vs.any (fun v => !v.1.isFin) then ⟨0xFF, vs.map fun _ => 0, false, true⟩
  else
    match maxMag (vs.map (·.1)) with
    | .fin _ m e =>
      if m = 0 then
        let qs := vs.map fun v => f.mxElem r v.2 v.1
        ⟨0, qs.map (·.bits), false, false⟩
      else
        let (n, d) := fraction m e
        let ex := min (max (ilog2 n d - f.eMax) (-127)) 127
        let qs := vs.map fun v => f.mxElem r v.2 (v.1.scale (-ex))
        ⟨(ex + 127).toNat, qs.map (·.bits), qs.any (·.ovf), false⟩
    | _ => ⟨0xFF, vs.map fun _ => 0, false, true⟩

end Sys2Proof.Machine
end

