-- ==== Sys2Proof/Machine/Flags.lean ====
section
/-! DEFINITION. ARITH_FLAGS (R126) and every flag computation of the arrays, the output engine and the vector engine. -/

namespace Sys2Proof.Machine

/-- The flags of R126. -/
structure ArithFlags where
  accOvf : Bool := false
  accInv : Bool := false
  outOvf : Bool := false
  outInv : Bool := false
  poison : Bool := false
  deriving DecidableEq, Repr

/-- No flag raised. -/
def ArithFlags.none : ArithFlags := {}

/-- Flags of two pieces of work together (R127). -/
def ArithFlags.or (a b : ArithFlags) : ArithFlags :=
  ⟨a.accOvf || b.accOvf, a.accInv || b.accInv, a.outOvf || b.outOvf, a.outInv || b.outInv, a.poison || b.poison⟩

/-- The ARITH_FLAGS byte (R126). -/
def ArithFlags.byte (f : ArithFlags) : Nat :=
  (if f.accOvf then 1 else 0) + (if f.accInv then 2 else 0) + (if f.outOvf then 4 else 0)
    + (if f.outInv then 8 else 0) + (if f.poison then 16 else 0)

/-- The flags a byte holds. -/
def ArithFlags.ofByte (b : Nat) : ArithFlags := ⟨bit b 0, bit b 1, bit b 2, bit b 3, bit b 4⟩

/-- Whether a trap mask selects a flag that is raised (R140). -/
def ArithFlags.traps (f : ArithFlags) (mask : Nat) : Bool := decide (f.byte % 16 &&& mask ≠ 0)

/-- Flags of an accumulator rounding: the added value or the result is NaN, from any cause, or finite values gave an infinity (R126). -/
def accFlags (acc v result : Num) : ArithFlags :=
  { accOvf := acc.isFin && v.isFin && !result.isFin && !result.isNan, accInv := v.isNan || result.isNan }

/-- Flags of an output stage or vector operation: a NaN from operands none of which is NaN, an infinity from finite
operands (R126, R192). -/
def stageFlags (operands : List Num) (result : Num) : ArithFlags :=
  { outOvf := operands.all Num.isFin && !result.isFin && !result.isNan
    outInv := result.isNan && operands.all fun x => !x.isNan }

/-- Flags of a conversion (R126). -/
def Conv.flags (c : Conv) : ArithFlags := { outOvf := c.ovf, outInv := c.inv }

/-- Flags of an MX block conversion (R72). -/
def MxBlock.flags (c : MxBlock) : ArithFlags := { outOvf := c.ovf, outInv := c.inv }

end Sys2Proof.Machine
end

