-- ==== Sys2Proof/Machine/Real.lean ====
section
/-! DEFINITION. The exact real functions of R133, R135 and R191 (sigmoid, tanh, GELU, SiLU, exp, ln, erf, square root), in fixed point
with so many fractional bits that one rounding of the approximation is the rounding of the exact value (log 8, DEDUCED). -/

namespace Sys2Proof.Machine

/-- Fractional bits used for FP32 results. -/
def fix32 : Nat := 576

/-- Fractional bits used for FP64 results. -/
def fix64 : Nat := 1600

/-- Fixed-point product. -/
def fxMul (p : Nat) (a b : Int) : Int := a * b / 2 ^ p

/-- Σ z^(2j+1)/(2j+1) over n terms, with the sign of each term s^j: atanh for s = 1, atan for s = −1. -/
def oddSeries (p : Nat) (s z2 : Int) : Nat → Nat → Int → Int → Int
  | 0, _, _, acc => acc
  | n + 1, k, zk, acc => oddSeries p s z2 n (k + 2) (s * fxMul p zk z2) (acc + zk / (k : Int))

/-- atanh of a fixed-point z, |z| at most 1/3. -/
def fxAtanh (p : Nat) (z : Int) : Int := oddSeries p 1 (fxMul p z z) (p / 3 + 8) 1 z 0

/-- atan of 1/q. -/
def fxAtanInv (p q : Nat) : Int :=
  let z : Int := 2 ^ p / (q : Int)
  oddSeries p (-1) (fxMul p z z) (p / 4 + 8) 1 z 0

/-- ln 2. -/
def fxLn2 (p : Nat) : Int := 2 * fxAtanh p (2 ^ p / 3)

/-- π. -/
def fxPi (p : Nat) : Int := 16 * fxAtanInv p 5 - 4 * fxAtanInv p 239

/-- Floor of the square root, one result bit at a time from bit b down. -/
def isqrtGo (n : Nat) : Nat → Nat → Nat
  | 0, acc => acc
  | b + 1, acc => isqrtGo n b (if (acc + 2 ^ b) * (acc + 2 ^ b) ≤ n then acc + 2 ^ b else acc)

/-- Floor of the square root. -/
def isqrt (n : Nat) : Nat := isqrtGo n (Nat.log2 n / 2 + 1) 0

/-- √(2/π). -/
def fxSqrt2Pi (p : Nat) : Int := (isqrt ((2 * 2 ^ (2 * p) / fxPi p).toNat * 2 ^ p) : Nat)

/-- Horner sum of the exponential series: 1 + z/1·(1 + z/2·(1 + …)). -/
def expHorner (p : Nat) (z : Int) : Nat → Int → Int
  | 0, acc => acc
  | k + 1, acc => expHorner p z k (2 ^ p + fxMul p z acc / ((k : Int) + 1))

/-- n squarings. -/
def fxSquares (p : Nat) : Nat → Int → Int
  | 0, x => x
  | n + 1, x => fxSquares p n (fxMul p x x)

/-- e^(−a) for a fixed-point a that is not negative, taken as e^(−900) past 900. -/
def fxExpNeg (p : Nat) (a : Int) : Int :=
  let a := min a (900 * 2 ^ p)
  let l := fxLn2 p
  let k := a / l
  let r := a - k * l
  fxSquares p 8 (expHorner p (-(r / 256)) (p / 8) (2 ^ p)) / 2 ^ k.toNat

/-- ± m·2^e in fixed point. -/
def fxOf (p : Nat) (s : Bool) (m : Nat) (e : Int) : Int :=
  let g := e + (p : Int)
  let v : Nat := if 0 ≤ g then m * 2 ^ g.toNat else m / 2 ^ (-g).toNat
  if s then -(v : Int) else (v : Int)

/-- σ(t) = 1/(1 + e^(−t)), kept strictly between 0 and 1. -/
def fxSigmoid (p : Nat) (t : Int) : Nat :=
  let e := fxExpNeg p (if t < 0 then -t else t)
  let v := if t < 0 then e * 2 ^ p / (2 ^ p + e) else 2 ^ p * 2 ^ p / (2 ^ p + e)
  (max 1 (min v (2 ^ p - 1))).toNat

/-- tanh |t| of a fixed-point t, kept below 1. -/
def fxTanhMag (p : Nat) (t : Int) : Nat :=
  let e := fxExpNeg p (2 * (if t < 0 then -t else t))
  (max 1 (min ((2 ^ p - e) * 2 ^ p / (2 ^ p + e)) (2 ^ p - 1))).toNat

/-- The argument 2u of GELU's tanh form, so that the result is y·σ(2u) (R133). -/
def fxGeluArg (p : Nat) (y : Int) : Int :=
  let c := fxSqrt2Pi p
  let y3 := fxMul p y (fxMul p y y)
  2 * fxMul p c (y + 44715 * y3 / 1000000)

/-- One rounding to FP32 with RNE of ± v / 2^p · |y|. -/
def roundFx32 (neg : Bool) (v : Nat) (p : Nat) (m : Nat) (e : Int) : Conv :=
  let (n, d) := fraction (v * m) (e - (p : Int))
  Format.ofFraction .fp32 .rne false 0 neg n d

/-- Sigmoid of ± m·2^e, correctly rounded to FP32. -/
def sigmoid32 (s : Bool) (m : Nat) (e : Int) : Conv :=
  roundFx32 false (fxSigmoid fix32 (fxOf fix32 s m (min e 200))) fix32 1 0

/-- tanh of ± m·2^e, correctly rounded to FP32. -/
def tanh32 (s : Bool) (m : Nat) (e : Int) : Conv :=
  roundFx32 s (fxTanhMag fix32 (fxOf fix32 s m (min e 200))) fix32 1 0

/-- SiLU of ± m·2^e, correctly rounded to FP32. -/
def silu32 (s : Bool) (m : Nat) (e : Int) : Conv :=
  roundFx32 s (fxSigmoid fix32 (fxOf fix32 s m e)) fix32 m e

/-- GELU, tanh form, of ± m·2^e, correctly rounded to FP32. -/
def gelu32 (s : Bool) (m : Nat) (e : Int) : Conv :=
  roundFx32 s (fxSigmoid fix32 (fxGeluArg fix32 (fxOf fix32 s m e))) fix32 m e

/-- e^x as a fraction. -/
def expFraction (p : Nat) (s : Bool) (m : Nat) (e : Int) : Nat × Nat :=
  let a := fxExpNeg p (fxOf p false m e)
  let a := (max a 1).toNat
  if s then (a, 2 ^ p) else (2 ^ p, a)

/-- ln(m·2^e) in fixed point, m positive. -/
def fxLog (p : Nat) (m : Nat) (e : Int) : Int :=
  let k : Nat := Nat.log2 m
  let one : Int := 2 ^ k
  let z := ((m : Int) - one) * 2 ^ p / ((m : Int) + one)
  2 * fxAtanh p z + ((k : Int) + e) * fxLn2 p

/-- Terms of Σ (−1)^n x^(2n+1) / (2^n · n! · (2n+1)), with t the n-th numerator. -/
def erfSeries (p : Nat) (x2 : Int) : Nat → Nat → Int → Int → Int
  | 0, _, _, acc => acc
  | f + 1, n, t, acc =>
    erfSeries p x2 f (n + 1) (-(fxMul p t x2 / (2 * ((n : Int) + 1)))) (acc + t / (2 * (n : Int) + 1))

/-- erf(x/√2) for a fixed-point x. -/
def fxErf (p : Nat) (x : Int) : Int := fxMul p (fxSqrt2Pi p) (erfSeries p (fxMul p x x) 400 0 x 0)

/-- Value v_e of the built-in GELU table (R135), as FP32 bits. -/
def geluTableValue (e : Nat) : Nat :=
  let x : Int := ((e : Int) - 128) * 2 ^ fix32 / 16
  let y := fxMul fix32 x (2 ^ fix32 + fxErf fix32 x)
  let (n, d) := fraction y.natAbs (-((fix32 : Int) + 1))
  (Format.ofFraction .fp32 .rne false 0 (y < 0) n d).bits

/-- Knot x_e = −8 + e/16 of the built-in table (R135), as FP32 bits. -/
def geluTableKnot (e : Nat) : Nat :=
  let i : Int := (e : Int) - 128
  (rn32 (.fin (i < 0) i.natAbs (-4))).bits

/-- Slope m_e of the built-in table (R135), as FP32 bits. -/
def geluTableSlope (e : Nat) : Nat :=
  if e = 255 then 0x3F800000
  else (rn32 (((f32 (geluTableValue (e + 1))).add (f32 (geluTableValue e)).neg).scale 4)).bits

/-- √(m·2^e) as a fraction that rounds as the exact root does: twice the integer root of the value widened by 256 bits,
with its last bit set where the root is not exact. -/
def sqrtFraction (m : Nat) (e : Int) : Nat × Nat :=
  let (m', e') := if e % 2 = 0 then (m, e) else (2 * m, e - 1)
  let w := m' * 2 ^ 256
  let r := isqrt w
  let t := 2 * r + (if r * r = w then 0 else 1)
  fraction t (e' / 2 - 129)

end Sys2Proof.Machine
end

