-- ==== Sys2Proof/Machine/Arith.lean ====
section
/-! DEFINITION. The arithmetic of the arrays, the output engine and the vector engine on values: block-exact sums (R118), integer and fused
sums (R120, R121), split-mode FP64 (R82, R83, R125), the fused output pipeline (R131 to R135), vector operations (R191 to R193). -/

namespace Sys2Proof.Machine

/-- How a pair of operand formats accumulates. -/
inductive PairKind where
  | blockExact
  | integer
  | fused
  deriving DecidableEq, Repr

/-- The five plain block-exact formats of R88. -/
def Format.isSmallFloat : Format → Bool
  | .e2m1 | .e2m3 | .e3m2 | .e4m3 | .e5m2 => true
  | _ => false

/-- The five MX float formats of R88. -/
def Format.isMxFloat : Format → Bool
  | .mxE2m1 | .mxE2m3 | .mxE3m2 | .mxE4m3 | .mxE5m2 => true
  | _ => false

/-- The three integer operand formats of R88. -/
def Format.isSmallInt : Format → Bool
  | .int4 | .int8 | .uint8 => true
  | _ => false

/-- The permitted operand pairs of R88; none for any other pair. -/
def pairKind (a b : Format) : Option PairKind :=
  if a.isSmallInt && b.isSmallInt then some .integer
  else if a.isSmallFloat && b.isSmallFloat then some .blockExact
  else if a.isMxFloat && b.isMxFloat then some .blockExact
  else if a = .mxInt8 && b = .mxInt8 then some .blockExact
  else if (a = .bf16 || a = .fp16) && (b = .bf16 || b = .fp16) then some .fused
  else if a = .fp32 && b = .fp32 then some .fused
  else none

/-- Whether a format runs at rate 2 against itself, and so fills two elements per latch (R88, R96). -/
def Format.isRate2 : Format → Bool
  | .int4 | .e2m1 | .mxE2m1 => true
  | _ => false

/-- An operand element: its bits and its block's scale byte (127, the scale 1, for a format without scales). -/
structure Elem where
  bits : Nat := 0
  scale : Nat := 127
  deriving DecidableEq, Repr

/-- The exact block sum S of R118 with its special cases: NaN, an infinity, or the scaled sum. -/
def blockValue (fa fb : Format) (ps : List (Elem × Elem)) : Num :=
  let isNan (p : Elem × Elem) : Bool :=
    (fa.decode p.1.bits).isNan || (fb.decode p.2.bits).isNan
      || (fa.isMx && p.1.scale = 0xFF) || (fb.isMx && p.2.scale = 0xFF)
  let prods := ps.map fun p => (fa.decode p.1.bits).mul (fb.decode p.2.bits)
  let posInf := prods.any (· == .inf false)
  let negInf := prods.any (· == .inf true)
  if ps.any isNan || prods.any Num.isNan || (posInf && negInf) then .nan
  else if posInf then .inf false
  else if negInf then .inf true
  else
    let s := prods.foldl (fun acc p => acc.add p) (.fin false 0 0)
    let s := if s.isZero then Num.fin false 0 0 else s
    let sc (f : Format) (e : Option Elem) : Int := if f.isMx then ((e.map (·.scale)).getD 127 : Nat) - 127 else 0
    (s.scale (sc fa (ps.head?.map (·.1)))).scale (sc fb (ps.head?.map (·.2)))

/-- One block into the FP32 accumulator: the only rounding of the block (R118). -/
def accBlock (fa fb : Format) (acc : Nat × ArithFlags) (ps : List (Elem × Elem)) : Nat × ArithFlags :=
  let v := blockValue fa fb ps
  let r := (rn32 ((f32 acc.1).add v)).bits
  (r, acc.2.or (accFlags (f32 acc.1) v (f32 r)))

/-- Cut a list into runs of n, with as many steps as elements. -/
def chunksGo {α : Type} (n : Nat) : Nat → List α → List (List α)
  | 0, _ => []
  | f + 1, xs => if xs.isEmpty then [] else xs.take n :: chunksGo n f (xs.drop n)

/-- Cut a list into runs of n, the last one shorter. -/
def chunks {α : Type} (n : Nat) (xs : List α) : List (List α) := chunksGo n xs.length xs

/-- One product into the FP32 accumulator, fused (R121). -/
def accFused (fa fb : Format) (acc : Nat × ArithFlags) (p : Elem × Elem) : Nat × ArithFlags :=
  let v := (fa.decode p.1.bits).mul (fb.decode p.2.bits)
  let r := (rn32 ((f32 acc.1).add v)).bits
  (r, acc.2.or (accFlags (f32 acc.1) v (f32 r)))

/-- One product into the signed 48-bit register (R120), kept as its 64-bit sign extension. -/
def accInteger (fa fb : Format) (acc : Nat × ArithFlags) (p : Elem × Elem) : Nat × ArithFlags :=
  (ofSigned 64 (toSigned 48 (ofSigned 48 (toSigned 48 acc.1 + fa.intValue p.1.bits * fb.intValue p.2.bits))), acc.2)

/-- The contraction of one output element over its operand pairs in ascending k, from an initial accumulator (R116, R122). -/
def contract (kind : PairKind) (fa fb : Format) (acc0 : Nat) (ps : List (Elem × Elem)) : Nat × ArithFlags :=
  match kind with
  | .blockExact => (chunks 32 ps).foldl (accBlock fa fb) (acc0, {})
  | .integer => ps.foldl (accInteger fa fb) (acc0, {})
  | .fused => ps.foldl (accFused fa fb) (acc0, {})

/-- The scaling exponent of a row or column: floor(log2 of the largest finite magnitude) + 1; 0 where that is zero (R82). -/
def sliceExponent (xs : List Num) : Int :=
  match maxMag (xs.filter Num.isFin) with
  | .fin _ m e => if m = 0 then 0 else (let (n, d) := fraction m e; ilog2 n d + 1)
  | _ => 0

/-- The s signed slices of x, most significant first, by truncation (R82); a non-finite element is sliced as 0 (R83). -/
def slicesOf (s : Nat) (p : Int) (x : Num) : List Int :=
  match x with
  | .fin neg m e =>
    let (n, d) := fraction m (e - p + 7 * (s : Int))
    let v := n / d
    (List.range s).map fun t => signed neg (v / 128 ^ (s - 1 - t) % 128)
  | _ => List.replicate s 0

/-- The slice byte a workspace holds for a signed slice. -/
def sliceByte (i : Int) : Byte := BitVec.ofNat 8 (ofSigned 8 i)

/-- Σ of one slice product over k (R82). -/
def sliceSum (a b : List Int) : Int := ((a.zip b).map fun p => p.1 * p.2).foldl (· + ·) 0

/-- The recombined sum D of R82 and R125, in units of 2^(−7(s+1)): pairs (t, u) counted from 1 with t + u ≤ s + 1. -/
def recombine (s : Nat) (a b : List (List Int)) : Int :=
  ((List.range s).flatMap fun t => (List.range s).filterMap fun u =>
    if t + u + 2 ≤ s + 1 then
      some (sliceSum (a.map (·.getD t 0)) (b.map (·.getD u 0)) * 2 ^ (7 * (s + 1 - (t + u + 2))))
    else none).foldl (· + ·) 0

/-- One output of MM_F64 before its rounding: the special cases of R83, or the exact D·2^(p+q). -/
def f64Output (s : Nat) (row col : List Num) : Num :=
  let prods := (row.zip col).map fun p => p.1.mul p.2
  let infs := prods.filter fun x => !x.isFin && !x.isNan
  if row.any Num.isNan || col.any Num.isNan || prods.any Num.isNan
      || (infs.any Num.isNeg && infs.any fun x => !x.isNeg) then .nan
  else match infs with
    | x :: _ => x
    | [] =>
      let p := sliceExponent row
      let q := sliceExponent col
      let d := recombine s (row.map (slicesOf s p)) (col.map (slicesOf s q))
      .fin (d < 0) d.natAbs (p + q - 7 * ((s : Int) + 1))

/-- Round one output of MM_F64 to its destination with RNE (R125, R137), with the flags of R83 and R126: a NaN is the recombination's, and no
output stage or conversion of the list of OUT_INV makes it. -/
def f64Round (dst : Format) (x : Num) : Conv × ArithFlags :=
  let c := Format.convert dst .rne false 0 x
  (c, { accOvf := x.isFin && c.ovf, accInv := x.isNan, outOvf := x.isFin && c.ovf })

/-- An output control record, read (R130). Vectors are named by slot; values are FP32 bits. -/
structure OutRec where
  scaleMode : Nat := 0
  biasMode : Nat := 0
  act : Nat := 0
  round : Rounding := .rne
  sat : Bool := false
  scaleImm : Nat := 0
  p0 : Nat := 0
  p1 : Nat := 0
  scaleDesc : Nat := 0
  biasDesc : Nat := 0
  tableDesc : Nat := 0
  deriving DecidableEq, Repr

/-- The record a command without one uses (R129). -/
def OutRec.none : OutRec := {}

/-- Every stage before conversion is off (R137, R138). -/
def OutRec.plain (r : OutRec) : Bool := r.scaleMode == 0 && r.biasMode == 0 && r.act == 0

/-- One entry of an activation table: knot, value, slope as FP32 bits (R134). -/
structure TabEntry where
  x : Nat
  v : Nat
  m : Nat
  deriving DecidableEq, Repr

/-- The built-in GELU table (R135). -/
def geluTable : List TabEntry :=
  (List.range 256).map fun e => ⟨geluTableKnot e, geluTableValue e, geluTableSlope e⟩

/-- The entry a table uses at y: the last whose knot is at most y, else the first (R134). -/
def tableEntry (y : Num) : List TabEntry → TabEntry → TabEntry
  | [], best => best
  | t :: r, best => if (f32 t.x).le y then tableEntry y r t else best

/-- Evaluate an activation table (R134). -/
def evalTable (tab : List TabEntry) (w : Nat) : Nat × ArithFlags :=
  let y := f32 w
  let first := tab.headD ⟨0, 0, 0⟩
  let last := tab.getLastD ⟨0, 0, 0⟩
  let pick (m v : Nat) (pos neg : Nat) : Nat :=
    let s := f32 m
    if s.isZero then v else if s.isNeg then neg else pos
  match y with
  | .nan => (nan32, {})
  | .inf false => (pick last.m last.v 0x7F800000 0xFF800000, {})
  | .inf true => (pick first.m first.v 0xFF800000 0x7F800000, {})
  | .fin _ _ _ =>
    let t := tableEntry y tab first
    if (f32 t.m).isZero then (t.v, {})
    else
      let d := f32 (rn32 (y.add (f32 t.x).neg)).bits
      let r := (rn32 ((d.mul (f32 t.m)).add (f32 t.v))).bits
      (r, { outOvf := !(f32 r).isFin && !(f32 r).isNan })

/-- An activation of R133 to R135 on FP32 bits. -/
def activate (r : OutRec) (tab : List TabEntry) (w : Nat) : Nat × ArithFlags :=
  let y := f32 w
  match r.act with
  | 0x0 => (w, {})
  | 0x4 => evalTable geluTable w
  | 0x9 => evalTable tab w
  | a =>
    match y with
    | .nan => (nan32, {})
    | .inf neg =>
      match a with
      | 0x1 => (if neg then 0 else w, {})
      | 0x2 =>
        if !neg then (w, {})
        else if (f32 r.p0).isZero then (nan32, { outInv := true })
        else if (f32 r.p0).isNeg then (0x7F800000, {}) else (w, {})
      | 0x3 | 0x5 => (if neg then 0x80000000 else w, {})
      | 0x6 => (if neg then 0 else 0x3F800000, {})
      | 0x7 => (if neg then 0xBF800000 else 0x3F800000, {})
      | _ => (if neg then (if y.lt (f32 r.p0) then r.p0 else w) else (if (f32 r.p1).lt y then r.p1 else w), {})
    | .fin neg m e =>
      match a with
      | 0x1 => (if m = 0 || neg then 0 else w, {})
      | 0x2 =>
        if m = 0 || !neg then (w, {})
        else
          let c := (rn32 ((f32 r.p0).mul y)).bits
          (c, stageFlags [f32 r.p0, y] (f32 c))
      | 0x3 => (if m = 0 then w else (gelu32 neg m e).bits, {})
      | 0x5 => (if m = 0 then w else (silu32 neg m e).bits, {})
      | 0x6 => ((sigmoid32 neg m e).bits, {})
      | 0x7 => (if m = 0 then w else (tanh32 neg m e).bits, {})
      | _ => (if y.lt (f32 r.p0) then r.p0 else if (f32 r.p1).lt y then r.p1 else w, {})

/-- An accumulator value on its way out: FP32 bits, or an integer (R131). -/
inductive AccVal where
  | flt (w : Nat)
  | int (i : Int)
  deriving DecidableEq, Repr

/-- The stages of R131 before conversion: the exact value that the conversion stage rounds, and the flags raised. -/
def fusedValue (r : OutRec) (tab : List TabEntry) (scale bias : Nat) (x : AccVal) : Num × ArithFlags :=
  let stage (op : Num → Num → Num) (y c : Num) (fl : ArithFlags) : Nat × ArithFlags :=
    let v := (rn32 (op y c)).bits
    (v, fl.or (stageFlags [y, c] (f32 v)))
  let after (y : Nat × ArithFlags) : Num × ArithFlags :=
    let y := if r.biasMode = 0 then y else stage Num.add (f32 y.1) (f32 bias) y.2
    let a := activate r tab y.1
    (f32 a.1, y.2.or a.2)
  match x with
  | .int i =>
    if r.plain then (Num.ofInt i, {})
    else after (stage Num.mul (Num.ofInt i) (if r.scaleMode = 0 then .fin false 1 0 else f32 scale) {})
  | .flt w => after (if r.scaleMode = 0 then (w, {}) else stage Num.mul (f32 w) (f32 scale) {})

/-- The domains of the vector engine (R191). -/
inductive Domain where
  | fp32 | fp64 | int64
  deriving DecidableEq, Repr

/-- The domain a DOMAIN field names; 3 is reserved. -/
def Domain.ofField : Nat → Option Domain
  | 0 => some .fp32
  | 1 => some .fp64
  | 2 => some .int64
  | _ => none

/-- The domain's format. -/
def Domain.format : Domain → Format
  | .fp32 => .fp32
  | .fp64 => .fp64
  | .int64 => .int64

/-- The source formats a domain accepts (R191), of those with a role in the vector unit (R63). -/
def Domain.accepts : Domain → Format → Bool
  | .fp32, f => f = .int8 || f = .uint8 || f = .bf16 || f = .fp16 || f = .fp32
  | .fp64, f => f = .int8 || f = .uint8 || f = .bf16 || f = .fp16 || f = .fp32 || f = .int32 || f = .fp64
  | .int64, f => f = .int8 || f = .uint8 || f = .int32 || f = .int64

/-- Lanes of a reduction in a domain (R193). -/
def Domain.lanes : Domain → Nat
  | .fp32 => 1024
  | _ => 256

/-- Round an exact value to a floating domain. -/
def Domain.round (d : Domain) (x : Num) : Num :=
  d.format.decode (Format.convert d.format .rne false 0 x).bits

/-- Round an exact fraction to a floating domain. -/
def Domain.roundFraction (d : Domain) (neg : Bool) (nd : Nat × Nat) : Num :=
  d.format.decode (Format.ofFraction d.format .rne false 0 neg nd.1 nd.2).bits

/-- Fractional bits of the real functions in a domain. -/
def Domain.fix : Domain → Nat
  | .fp32 => fix32
  | _ => fix64

/-- IEEE 754-2019 minimum: NaN propagates, −0 is below +0 (R191). -/
def Num.minimum (x y : Num) : Num :=
  if x.isNan || y.isNan then .nan
  else if x.lt y then x else if y.lt x then y else if x.isNeg then x else y

/-- IEEE 754-2019 maximum (R191). -/
def Num.maximum (x y : Num) : Num :=
  if x.isNan || y.isNan then .nan
  else if x.lt y then y else if y.lt x then x else if x.isNeg then y else x

/-- The quotient of R192, with its special cases. -/
def Domain.div (d : Domain) (x y : Num) : Num :=
  match x, y with
  | .nan, _ => .nan
  | _, .nan => .nan
  | .inf _, .inf _ => .nan
  | .inf s, .fin t _ _ => .inf (s != t)
  | .fin s _ _, .inf t => .fin (s != t) 0 0
  | .fin s m e, .fin t n f =>
    if n = 0 then (if m = 0 then .nan else .inf (s != t))
    else
      let (a, b) := fraction m e
      let (c, g) := fraction n f
      d.roundFraction (s != t) (a * g, b * c)

/-- √x rounded to the domain (R191, R192). -/
def Domain.sqrt (d : Domain) (x : Num) : Num :=
  match x with
  | .nan => .nan
  | .inf s => if s then .nan else x
  | .fin s m e => if m = 0 then x else if s then .nan else d.roundFraction false (sqrtFraction m e)

/-- e^x correctly rounded to the domain (R191). -/
def Domain.exp (d : Domain) (x : Num) : Num :=
  match x with
  | .nan => .nan
  | .inf s => if s then .fin false 0 0 else .inf false
  | .fin s m e => if m = 0 then .fin false 1 0 else d.roundFraction false (expFraction d.fix s m e)

/-- ln x correctly rounded to the domain (R191, R192). -/
def Domain.log (d : Domain) (x : Num) : Num :=
  match x with
  | .nan => .nan
  | .inf s => if s then .nan else x
  | .fin s m e =>
    if m = 0 then .inf true
    else if s then .nan
    else
      let v := fxLog d.fix m e
      if Num.le x (.fin false 1 0) && Num.le (.fin false 1 0) x then .fin false 0 0
      else d.roundFraction (v < 0) (v.natAbs, 2 ^ d.fix)

/-- A VOP operation in a floating domain (R191): the result and the flags of R192; none where the OP is not permitted. -/
def Domain.floatOp (d : Domain) (op : Nat) (a b c : Num) : Option (Num × ArithFlags) :=
  let un (r : Num) : Option (Num × ArithFlags) := some (r, stageFlags [a] r)
  let bin (r : Num) : Option (Num × ArithFlags) := some (r, stageFlags [a, b] r)
  match op with
  | 0x00 => some (a, {})
  | 0x01 => bin (d.round (a.add b))
  | 0x02 => bin (d.round (a.add b.neg))
  | 0x03 => bin (d.round (a.mul b))
  | 0x04 => let r := d.round ((a.mul b).add c); some (r, stageFlags [a, b, c] r)
  | 0x05 => bin (d.div a b)
  | 0x06 => un (d.sqrt a)
  | 0x07 => some (a.minimum b, {})
  | 0x08 => some (a.maximum b, {})
  | 0x09 => some (if a.isNeg then a.neg else a, {})
  | 0x0A => some (a.neg, {})
  | 0x0B => un (d.exp a)
  | 0x0C => un (d.log a)
  | _ => none

/-- Saturation at the INT64 limits, with OUT_OVF (R192). -/
def satInt64 (i : Int) : Int × ArithFlags :=
  let c := Format.ofIntSat .int64 i
  (toSigned 64 c.bits, { outOvf := c.ovf })

/-- A VOP operation in the INT64 domain (R192); none where the OP is not permitted. -/
def intOp (op : Nat) (a b : Int) : Option (Int × ArithFlags) :=
  let plain (r : Int) : Option (Int × ArithFlags) := some (r, {})
  let pat (x : Int) : Nat := ofSigned 64 x
  match op with
  | 0x00 => plain a
  | 0x01 => some (satInt64 (a + b))
  | 0x02 => some (satInt64 (a - b))
  | 0x03 => some (satInt64 (a * b))
  | 0x05 => if b = 0 then some (0, { outInv := true }) else some (satInt64 (Int.tdiv a b))
  | 0x07 => plain (min a b)
  | 0x08 => plain (max a b)
  | 0x09 => some (satInt64 (a.natAbs : Int))
  | 0x0A => some (satInt64 (-a))
  | 0x10 => plain (toSigned 64 (pat a &&& pat b))
  | 0x11 => plain (toSigned 64 (pat a ||| pat b))
  | 0x12 => plain (toSigned 64 (pat a ^^^ pat b))
  | 0x13 => plain (toSigned 64 (pat a * 2 ^ (pat b % 64) % 2 ^ 64))
  | 0x14 => plain (a / 2 ^ (pat b % 64))
  | _ => none

/-- A value of the vector engine: an integer in the INT64 domain, a number elsewhere. -/
inductive VecVal where
  | flt (x : Num)
  | int (i : Int)
  deriving DecidableEq, Repr

/-- The exact value the final conversion starts from. -/
def VecVal.num : VecVal → Num
  | .flt x => x
  | .int i => Num.ofInt i

/-- The integer of a vector value in the INT64 domain. -/
def VecVal.intOf : VecVal → Int
  | .int i => i
  | .flt _ => 0

/-- A VOP operation in any domain. -/
def Domain.op (d : Domain) (op : Nat) (a b c : VecVal) : Option (VecVal × ArithFlags) :=
  match d with
  | .int64 => (intOp op a.intOf b.intOf).map fun r => (.int r.1, r.2)
  | _ => (d.floatOp op a.num b.num c.num).map fun r => (.flt r.1, r.2)

/-- The VOP operation that combines two partial values of a reduction (R193). -/
def vredCombine : Nat → Nat
  | 0x22 => 0x08
  | 0x23 => 0x07
  | _ => 0x01

/-- Combine with a VOP operation that every domain permits. -/
def Domain.combine (d : Domain) (op : Nat) (a b : VecVal × ArithFlags) : VecVal × ArithFlags :=
  match d.op op a.1 b.1 (.int 0) with
  | some r => (r.1, (a.2.or b.2).or r.2)
  | none => a

/-- acc + x·x with one rounding; x·x alone where there is no accumulator yet (R193). -/
def Domain.sumSq (d : Domain) (acc : Option (VecVal × ArithFlags)) (x : VecVal) : VecVal × ArithFlags :=
  match d, acc with
  | .int64, none => let r := satInt64 (x.intOf * x.intOf); (.int r.1, r.2)
  | .int64, some a => let r := satInt64 (a.1.intOf + x.intOf * x.intOf); (.int r.1, a.2.or r.2)
  | _, none => let r := d.round (x.num.mul x.num); (.flt r, stageFlags [x.num] r)
  | _, some a => let r := d.round (a.1.num.add (x.num.mul x.num)); (.flt r, a.2.or (stageFlags [a.1.num, x.num] r))

/-- A later element into its lane (R193). -/
def Domain.lane (d : Domain) (op : Nat) (acc : Option (VecVal × ArithFlags)) (x : VecVal) : VecVal × ArithFlags :=
  if op = 0x21 then d.sumSq acc x
  else match acc with
    | none => (x, {})
    | some a => d.combine (vredCombine op) a (x, {})

/-- One level of the binary tree of R193. -/
def treeLevel {α : Type} (f : α → α → α) : List α → List α
  | a :: b :: r => f a b :: treeLevel f r
  | r => r

/-- The binary tree, one level a step. -/
def treeGo {α : Type} (f : α → α → α) : Nat → List α → List α
  | 0, xs => xs
  | n + 1, xs => treeGo f n (treeLevel f xs)

/-- Reduce one run of a VRED (R193). -/
def Domain.reduce (d : Domain) (op : Nat) (xs : List VecVal) : Option (VecVal × ArithFlags) :=
  let lanes := (List.range (min d.lanes xs.length)).filterMap fun l =>
    ((List.range xs.length).filter fun e => e % d.lanes = l).foldl
      (fun acc e => some (d.lane op acc (xs.getD e (.int 0)))) none
  (treeGo (d.combine (vredCombine op)) (Nat.log2 (lanes.length + 1) + 1) lanes).head?

end Sys2Proof.Machine
end

