-- ==== Sys2Proof/Config.lean ====
section
/-! DEFINITION. The free values: what the manual leaves open and no proof can see.
Each is applied to operands it depends on, or to the counter State.fresh (log 2). -/

namespace Sys2Proof.Config

/-- R347: the audit sampler's draw at a commit, below the audit period; log 4. -/
opaque auditDraw : Nat → Nat

/-- R446: one byte of a fresh debug challenge; log 6. -/
opaque challengeByte : Nat → BitVec 8

/-- R443: one byte of a signature or digest the device forms with its own keys; log 7. -/
opaque deviceByte : Nat → BitVec 8

/-- R182, R190: one byte of what a copy writes whose destination overlaps its source, by State.freeKey and its address; log 9. -/
opaque overlapByte : List Nat → Nat → BitVec 8

/-- R184, R189: one byte of a partial-sum area or a slice workspace after its command, by State.freeKey and its address; log 10. -/
opaque areaByte : List Nat → Nat → BitVec 8

/-- R306: the initial PSN that the module offers on a connection; log 16. -/
opaque initialPsn : Nat → Nat

/-- R300: the priority that what the module sends on the host port carries under IEEE 802.1Qbb, which the manual does not state; log 19. -/
opaque ctpPriority : Fin 8

/-- R310: how the module divides its receive buffer in credits, within the bounds the rule states; log 17. -/
opaque creditDraw : Nat → Nat

/-- R425: what a boot finds that a write of 0x02 to the reset object starts; log 21. -/
opaque foundAtBoot : Nat → BringUp

/-- R438: what verifying a loaded target's signatures finds, where the write of load_command carries no finding; log 21. -/
opaque foundInLoad : Nat → LoadCheck

/-- R446: whether the signature of a debug token verifies, where its write carries no finding; log 21. -/
opaque foundInToken : Nat → TokenCheck

/-- R385: a voltage of a point in µV, or a stamp within an interval, that no row carries; log 21. -/
opaque measured : Nat → BitVec 32

/-- R380: the cap in watts that a weakened converter stage asks for in a period whose load it cannot carry; log 22. -/
opaque stageCap : Nat → Nat

/-- R275: the packets of a command's requests beside the first, which the manual does not count; log 84. -/
opaque morePackets : Nat → Nat

/-- R225: the channel of a 256-byte block of a layer, the bank, the row and the column of a granule, by fixed hashes of the layer offset that the
manual does not publish; log 87. -/
opaque dramChannel : Nat → Fin 16
opaque dramBank : Nat → BitVec 8
opaque dramRow : Nat → BitVec 32
opaque dramColumn : Nat → BitVec 16

/-- R235: ADDR_TAG, a fixed hash of physical stack, layer, channel, bank, row and column; log 87. -/
opaque addrTag : List Nat → BitVec 13

/-- R390: the full draw of a class in watts, 1 memory and 2 links; log 22. -/
opaque classDraw : Nat → Nat

/-- R406: how long a tile stops for a change of step, in ns; log 22. -/
opaque stopTime : Nat → Nat

/-- R380: a current that the fault log records and no row carries, in A; log 22. -/
opaque current : Nat → BitVec 32

/-- R408: ns from the loss of the active reference until the PLL follows the other, within 10 µs; log 22. -/
opaque holdTime : Nat → Nat

/-- R414: ns without a PTP message after which ptp_state reads holdover; log 24. -/
opaque ptpSilence : Nat

/-- R420, R431: the ms that a start takes, up to the bound of its steps; log 25. -/
opaque startTime : Nat → Nat

/-- R436, R444: one byte that manufacture fixed and the manual does not state: from 0 the digest of the boot ROM, from 64 that of the factory
repair record, from 128 that of the factory image's body, from 4,096 the device certificate chain; log 7. -/
opaque factoryByte : Nat → BitVec 8

/-- R314, R424: the octets, first in bits 7..0, of the OUI that the factory header holds; and of the low half of the MAC address of M0 and M1, where no
Identity entry of the repair record states it; log 7. -/
opaque factoryOui : BitVec 24
opaque factoryMac : Nat → BitVec 24

/-- R423, R444: one byte of the digest of the newest in-field segment, which holds a signature of the device's own, by the entries of the in-field
part's segments; log 7. -/
opaque segmentDigest : List (List (List (BitVec 8))) → Nat → BitVec 8

end Sys2Proof.Config
end

