-- ==== Sys2Proof/Machine/Codeword.lean ====
section
/-! DEFINITION. The codewords that guard granules: the Reed–Solomon code over GF(2¹⁶) of stacked memory (R235), the word code of a scratchpad
(R212), and what each makes of symbols or bits that read wrong. An error pattern is 576 bits: the granule in [511:0] and its check bits above. -/

namespace Sys2Proof.Machine

open Sys2Proof

/-! ### The field (R235) -/

/-- A field element times α, by x¹⁶ + x¹² + x³ + x + 1. -/
def gfDouble (x : Nat) : Nat := if 2 ^ 16 ≤ 2 * x then (2 * x) ^^^ 0x1100B else 2 * x

/-- Product of two field elements. -/
def gfMul (x y : Nat) : Nat := (List.range 16).foldl (fun r i => gfDouble r ^^^ (if bit y (15 - i) then x else 0)) 0

/-- α to a power. -/
def gfPow (n : Nat) : Nat := (List.range n).foldl (fun r _ => gfDouble r) 1

/-! ### The code (R235) -/

/-- Multiply by α^j. -/
def gfShift (j x : Nat) : Nat := (List.range j).foldl (fun r _ => gfDouble r) x

/-- The value of Σ cᵢ x^(35−i) at α^j, which a codeword has zero for j = 0, 1 and 2. -/
def syndrome (cs : List Nat) (j : Nat) : Nat := cs.foldl (fun r c => gfShift j r ^^^ c) 0

/-- The three check symbols of 33 symbols: the remainder of the division by (x − 1)(x − α)(x − α²). -/
def checkSymbols (cs : List Nat) : List Nat :=
  let g2 := 1 ^^^ gfPow 1 ^^^ gfPow 2
  let g1 := gfPow 1 ^^^ gfPow 2 ^^^ gfPow 3
  let r := cs.foldl (fun (r : Nat × Nat × Nat) c =>
    let f := c ^^^ r.1
    (r.2.1 ^^^ gfMul f g2, r.2.2 ^^^ gfMul f g1, gfMul f (gfPow 3))) (0, 0, 0)
  [r.1, r.2.1, r.2.2]

/-- The metadata symbol: POISON three times, ADDR_TAG. -/
def metaSymbol (poison : Bool) (tag : Nat) : Nat := tag % 2 ^ 13 + (if poison then 7 * 2 ^ 13 else 0)

/-- The 36 symbols of a stored granule. -/
def codeword (data : Bytes) (poison : Bool) (tag : Nat) : List Nat :=
  let cs := ((List.range 32).map fun i => leAt data (2 * i) 2) ++ [metaSymbol poison tag]
  cs ++ checkSymbols cs

/-- What the decoder makes of the symbols that read wrong: what is still wrong when it has corrected at most one, none where it detects an error that
it cannot correct. The code is linear, so it goes by the errors alone. -/
def decodeErrors (es : List Nat) : Option (List Nat) :=
  let s0 := syndrome es 0
  let s1 := syndrome es 1
  let s2 := syndrome es 2
  if s0 = 0 ∧ s1 = 0 ∧ s2 = 0 then some es
  else if s0 = 0 then none
  else
    ((List.range 36).find? fun i => gfShift (35 - i) s0 = s1 && gfShift (35 - i) s1 = s2).map fun i =>
      es.set i (es.getD i 0 ^^^ s0)

/-- The symbols of an error pattern. -/
def errorSymbols (flips : Nat) : List Nat := (List.range 36).map fun i => bits flips (16 * i) 16

/-- The first symbol that an error pattern touches. -/
def firstError (flips : Nat) : Nat := (List.range 36).find? (fun i => bits flips (16 * i) 16 ≠ 0) |>.getD 0

/-- The bits of the granule among what symbols have wrong. -/
def symbolData (es : List Nat) : Nat := (List.range 32).foldl (fun v i => v + es.getD i 0 * 2 ^ (16 * i)) 0

/-- What a read makes of a stored granule's errors: nothing wrong; corrected, or passed unseen, with the bits that stay wrong; an error that it
cannot correct, or a tag that does not match, with the bits of the data as read (R235, R236). -/
inductive Decoded where
  | clean
  | corrected (left : Nat)
  | tag (left : Nat)
  | failed (left : Nat)
  deriving DecidableEq, Repr

/-- Decode a granule that crossed the channel or was stored with an error pattern (R235, R236). -/
def decodeGranule (flips : Nat) : Decoded :=
  let es := errorSymbols flips
  if flips % 2 ^ 576 = 0 then .clean
  else match decodeErrors es with
    | none => .failed (symbolData es)
    | some r => if r.getD 32 0 % 2 ^ 13 ≠ 0 then .tag (symbolData r) else .corrected (symbolData r)

/-! ### The word code of a scratchpad (R212) -/

/-- Bits that read wrong in word w of a granule, its eight check bits included. -/
def wordErrors (flips w : Nat) : Nat := popCount 64 (bits flips (64 * w) 64) + popCount 8 (bits flips (512 + 8 * w) 8)

/-- Words of a granule with one wrong bit, which is corrected. -/
def singleWords (flips : Nat) : List Nat := (List.range 8).filter fun w => wordErrors flips w = 1

/-- Words of a granule with more, which are uncorrectable; the manual names two bits, and the model takes more than two as two (DESIGN CHOICE, log 88). -/
def brokenWords (flips : Nat) : List Nat := (List.range 8).filter fun w => decide (2 ≤ wordErrors flips w)

/-- The bits that stay wrong in the data of a read. -/
def wordData (flips : Nat) : Nat := (brokenWords flips).foldl (fun v w => v + bits flips (64 * w) 64 * 2 ^ (64 * w)) 0

/-! ### Places in memory (R225, R226, R228) -/

/-- The granule of a layer in its channel, bank, row and column: 256-byte blocks are spread over the channels (R225; log 87). -/
def dramChannel (lo : Nat) : Nat := (Config.dramChannel (lo / 256)).val
/-- Bank of a layer offset. -/
def dramBank (lo : Nat) : Nat := (Config.dramBank (lo / 64)).toNat
/-- Row of a layer offset. -/
def dramRow (lo : Nat) : Nat := (Config.dramRow (lo / 64)).toNat
/-- Column of a layer offset. -/
def dramColumn (lo : Nat) : Nat := (Config.dramColumn (lo / 64)).toNat

/-- ADDR_TAG of a granule of a physical stack and layer (R235). -/
def addrTag (h l lo : Nat) : Nat := (Config.addrTag [h, l, dramChannel lo, dramBank lo, dramRow lo, dramColumn lo]).toNat

/-- The link position that carries symbol slot n: modulo 512, at half width 256 (R228). -/
def slotPosition (half : Bool) (n : Nat) : Nat := n % (if half then 256 else 512)

/-- The frame of 16 unit intervals in which symbol slot n crosses (R228). -/
def slotFrame (half : Bool) (n : Nat) : Nat := n / (if half then 256 else 512)

end Sys2Proof.Machine
end

