-- ==== Sys2Proof/Machine/Tab.lean ====
section
/-! DEFINITION. Sparse tables: sorted lists of (key, value) pairs in one canonical form, strictly rising keys and no entry equal to
the value an unlisted key reads as. Memory and every numbered collection of State is one of these. -/

namespace Sys2Proof.Machine

/-- A sparse table. What an unlisted key reads as is given at each use. -/
abbrev Tab (α : Type) := List (Nat × α)

/-- The value at key k; d where no entry names k. -/
def Tab.get {α : Type} (d : α) : Tab α → Nat → α
  | [], _ => d
  | (j, v) :: r, k => if j = k then v else if k < j then d else Tab.get d r k

/-- Put v at key k, keeping the keys sorted. -/
def Tab.put {α : Type} (k : Nat) (v : α) : Tab α → Tab α
  | [] => [(k, v)]
  | (j, w) :: r => if k < j then (k, v) :: (j, w) :: r else if j = k then (k, v) :: r else (j, w) :: Tab.put k v r

/-- Remove the entry at key k. -/
def Tab.del {α : Type} (k : Nat) : Tab α → Tab α
  | [] => []
  | (j, w) :: r => if k < j then (j, w) :: r else if j = k then r else (j, w) :: Tab.del k r

/-- Write v at key k: writing what an unlisted key reads as removes the entry. -/
def Tab.set {α : Type} [DecidableEq α] (d : α) (t : Tab α) (k : Nat) (v : α) : Tab α :=
  if v = d then Tab.del k t else Tab.put k v t

/-- Change the value at key k. -/
def Tab.upd {α : Type} [DecidableEq α] (d : α) (t : Tab α) (k : Nat) (f : α → α) : Tab α :=
  Tab.set d t k (f (Tab.get d t k))

/-- Every key of a table is at least m, keys rise strictly, and no value is d. -/
def Tab.wfFrom {α : Type} [DecidableEq α] (d : α) : Nat → Tab α → Bool
  | _, [] => true
  | m, (j, v) :: r => decide (m ≤ j) && decide (v ≠ d) && Tab.wfFrom d (j + 1) r

/-- The canonical form. -/
def Tab.wf {α : Type} [DecidableEq α] (d : α) (t : Tab α) : Bool := Tab.wfFrom d 0 t

/-- Every key of a table is at least m and keys rise strictly, whatever the values. -/
def Tab.risingFrom {α : Type} : Nat → Tab α → Bool
  | _, [] => true
  | m, (j, _) :: r => decide (m ≤ j) && Tab.risingFrom (j + 1) r

/-- Keys rise strictly: the form of a table whose default differs from key to key. -/
def Tab.rising {α : Type} (t : Tab α) : Bool := Tab.risingFrom 0 t

/-- The entries whose keys lie in [lo, lo + n). -/
def Tab.range {α : Type} (t : Tab α) (lo n : Nat) : Tab α := t.filter fun e => decide (lo ≤ e.1 ∧ e.1 < lo + n)

/-- Remove every entry whose key lies in [lo, lo + n). -/
def Tab.clearRange {α : Type} (t : Tab α) (lo n : Nat) : Tab α := t.filter fun e => ! decide (lo ≤ e.1 ∧ e.1 < lo + n)

/-- Copy the keys [src, src + n) of one table onto [dst, dst + n) of another. -/
def Tab.copyInto {α : Type} [DecidableEq α] (d : α) (t into : Tab α) (src dst n : Nat) : Tab α :=
  (t.range src n).foldl (fun acc e => Tab.set d acc (e.1 - src + dst) e.2) (into.clearRange dst n)

/-- Copy the keys [src, src + n) of a table onto [dst, dst + n) of itself, all read before any is written. -/
def Tab.copyRange {α : Type} [DecidableEq α] (d : α) (t : Tab α) (src dst n : Nat) : Tab α := Tab.copyInto d t t src dst n

end Sys2Proof.Machine
end

