-- ==== Sys2Proof/Machine/State.lean ====
section
/-! DEFINITION. The state of the block as plain data: every register, buffer, queue, counter and mode the manual gives it, and the queue
of commands that wait. INVENTORY.md's State heading lists each with its rule and its reset value. -/

namespace Sys2Proof.Machine

open Sys2Proof

/-- Why the machine stops with a fault. -/
inductive Fault where
  /-- An operand that its row cannot carry. No meaning answers with it: every row has an effect in every state, and WellFormed.check names
  the operands that no event of the device carries, before such a command is queued. Safe. -/
  | illFormedOperand
  deriving DecidableEq, Repr

/-- Why a command has no meaning. -/
inductive Refusal where
  /-- A row whose meaning is not modelled, by its mnemonic. No arm of Dispatch raises it: every row has its meaning. Safe. -/
  | notModelled (mnemonic : String)
  deriving DecidableEq, Repr

/-! ### A core and its engines (chapter 6) -/

/-- A command as fetched: its address and its eight words; status is what a failing fetch check gave, 0 for none (R141). -/
structure Cmd where
  pc : Nat := 0
  words : List Nat := []
  status : Nat := 0
  deriving DecidableEq, Repr

/-- A dispatched command: the loop indices it captured (R159), how many commands had been dispatched to each engine before it (R146),
and its header wait: registered, met (R145). -/
structure Queued where
  cmd : Cmd := {}
  loops : List Nat := []
  before : List Nat := []
  waiting : Bool := false
  waitMet : Bool := false
  deriving DecidableEq, Repr

/-- A message formed by a transfer and awaited by its command: image offset, bytes, the connection and PSN that carry it, its outcome. -/
structure Pending where
  offset : Nat := 0
  length : Nat := 0
  conn : Nat := 0
  psn : Nat := 0
  answered : Bool := false
  deriving DecidableEq, Repr

/-- A started command: what it has done so far, and how it ends (R152, R173, R175). -/
structure Active where
  q : Queued := {}
  start : Nat := 0
  deadline : Option Nat := none
  /-- Every read and write of it has been made, or it has ended in error. -/
  done : Bool := false
  /-- Its last pass has ended its streaming (R94, R152). -/
  draining : Bool := false
  /-- Its core has stopped while a pass of it streams, and it stops with that pass (R152). -/
  stopping : Bool := false
  /-- arith_trap when it began (R140). -/
  trap : Nat := 0
  status : Nat := 0
  detail : Nat := 0
  flags : Nat := 0
  addr : Nat := 0
  desc : Nat := 0xFFFF
  segment : Nat := 0xFFFF
  entry : Nat := 0xFFFFFFFF
  /-- Matrix passes streamed and passes drained (R92). -/
  streamed : Nat := 0
  drained : Nat := 0
  /-- The pass in the arrays has read poison (R128); its comparisons that fail (R344). -/
  passPoison : Bool := false
  bad : List Mismatch := []
  /-- Elements of MX blocks not yet whole, by output position (R136). -/
  held : Tab (Option Nat) := []
  /-- The descriptor slots it read at its start (R129, R169): 512 bits and, above them, their poison; the segment table's entries. -/
  slots : Tab Nat := []
  segments : List Bytes := []
  /-- Ranges reserved under R151: base address and length. -/
  reserved : List (Nat × Nat) := []
  /-- Messages on their way (R311); operation in the hubs (R266, R267). -/
  messages : List Pending := []
  operation : Option Nat := none
  deriving DecidableEq, Repr

/-- A loop slot (R158): the LOOP's PC, its COUNT, the iteration index. -/
structure LoopSlot where
  pc : Nat := 0
  count : Nat := 0
  i : Nat := 0
  deriving DecidableEq, Repr

/-- A latch set (R96): format, latched rows, width, element bits by column × 512 + row, scale bytes by column × 16 + block,
and whether it holds poison. -/
structure LatchSet where
  format : Nat := 0
  rows : Nat := 0
  width : Nat := 0
  elems : Tab Nat := []
  scales : Tab Nat := []
  poison : Bool := false
  deriving DecidableEq, Repr

/-- The image of a 4 KiB page before a write, by offset in the page, with the poisoned granules of it, by their number in it (R348, R367). -/
structure PageImage where
  cells : List Host.Cell := []
  poison : Tab Bool := []
  deriving DecidableEq, Repr

/-- Where a core resumes: PC, run start, loop slots, step numbers, group operation counts (R367). -/
structure ResumePoint where
  pc : Nat := 0
  runStart : Nat := 0
  loops : List LoopSlot := []
  step : Nat := 0
  committed : Nat := 0
  groupOps : Tab Nat := []
  deriving DecidableEq, Repr

/-- A message that a transfer command formed (R352, R353): how many commands had been dispatched before that one, the command and the loop
indices it captured, the CRC-32C, the payload limit of its connection. -/
structure Formed where
  order : Nat
  cmd : Cmd
  loops : List Nat
  crc : Nat
  limit : Nat := 0
  deriving DecidableEq, Repr

/-- The open step, or the interval before one (R346, R348, R367): why it is suspect, whether a write of it stored poison, the images
of its pages, the messages it formed, commands completed in it. -/
structure StepRecord where
  suspectChecksum : Bool := false
  suspectCorrected : Bool := false
  suspectAudit : Bool := false
  suspectMargin : Bool := false
  poisonStored : Bool := false
  stepImages : Tab (Option PageImage) := []
  intervalImages : Tab (Option PageImage) := []
  messages : List Formed := []
  completed : Nat := 0
  beginAt : ResumePoint := {}
  /-- arith_trap, and the free values' counter, at STEP_BEGIN (R140, R352); flags of the REDUCE results the step has taken as a root (R352). -/
  trap : Nat := 0
  fresh : Nat := 0
  resultFlags : Nat := 0
  deriving DecidableEq, Repr

/-- An announced phase of one class (R180, R390): slots per 64, when it begins and ends. -/
structure Hint where
  level : Nat
  start : Nat
  stop : Nat
  deriving DecidableEq, Repr

/-- One logical core: its sequencer and engines. -/
structure Core where
  /-- core_state (R164). -/
  state : Nat := 0
  /-- core_job (R164). -/
  job : Nat := 0xFF
  pc : Nat := 0
  runStart : Nat := 0
  prefetch : List Cmd := []
  /-- Queues by ENGINE code, the sequencer's slot at 0 (R142, R143). -/
  queues : Tab (List Queued) := []
  active : Tab (List Active) := []
  dispatched : Tab Nat := []
  completed : Tab Nat := []
  loops : List LoopSlot := []
  stepOpen : Bool := false
  step : Nat := 0
  committed : Nat := 0
  /-- step_area, step_region_size and commit_mirror_area in force (R361). -/
  stepArea : Nat := 0
  regionMiB : Nat := 256
  mirrorArea : Nat := 0
  record : StepRecord := {}
  commit : Option ResumePoint := none
  groupOps : Tab Nat := []
  flags : Nat := 0
  latch : Option LatchSet := none
  acc : Tab Nat := []
  /-- What the drain buffers and the reload buffers of the arrays last took, keyed as the accumulators (R85). -/
  drainBuffer : Tab Nat := []
  reloadBuffer : Tab Nat := []
  /-- What the checksum rows hold by presented position and the checksum columns by array × 256 + row: sums, 96-bit integers or FP64 bits, with the
  residues 1,024 above them and the magnitude sums 2,048 above them (R85, R342, R343). -/
  checkRow : Tab Nat := []
  checkColumn : Tab Nat := []
  /-- The item of the job is running on this core as its lead (R329): stream and sequence. -/
  item : Option (Nat × Nat) := none
  /-- The step whose replay a rollback abandoned: it is replayed when it commits again (R369). -/
  again : Option Nat := none
  /-- Commits made on this core, which numbers its intervals (R367). -/
  interval : Nat := 0
  /-- Cycles a DELAY still counts (R160). -/
  delay : Nat := 0
  hints : Tab (Option Hint) := []
  /-- Another core has written its scratchpad since its last commit (R372). -/
  foreign : Bool := false
  /-- The state each group in transition goes to, 0 for a group that wakes (R205); the states before Hold or Keep (R211). -/
  groupGoal : Tab Nat := []
  groupsBefore : Option Nat := none
  deriving DecidableEq, Repr

/-! ### Synchronisation (chapter 11) -/

/-- A window access (R217, R218). op: 0 read, 1 write, 2 reduce-add FP32, 3 reduce-add INT64, 4 signal, as the refusal log codes it. -/
structure WinAccess where
  source : Nat
  tag : Nat
  gen : Nat
  window : Nat
  offset : Nat
  length : Nat
  op : Nat
  deriving DecidableEq, Repr

/-- What sent a signal: the header of a command of a core, a core's SIGNAL, or the message of a connection with a PSN that arrived at a port. -/
inductive SignalFrom where
  | header (core engine : Nat) (cmd : Cmd)
  | opcode (core : Nat)
  | message (conn port psn : Nat)
  deriving DecidableEq, Repr

/-- A signal on its way to an object unit (R279 to R283): target, operation kind, value, expected generation, port, tag; and the window access that
it is, where it comes through a window (R288, R289). -/
structure Signal where
  core : Nat
  index : Nat
  kind : Nat
  value : Nat
  gen : Option Nat
  port : Nat
  tag : Option (Nat × Nat)
  source : SignalFrom
  win : Option WinAccess := none
  deriving DecidableEq, Repr

/-- An outstanding wait (R285, R286). -/
structure Wait where
  core : Nat
  engine : Nat
  object : Nat
  kind : Nat
  target : Nat
  tag : Nat
  start : Nat
  deadline : Nat
  opcode : Bool
  /-- Time left when the waiter's tile clock stopped (R286). -/
  frozen : Option Nat := none
  deriving DecidableEq, Repr

/-- A wake notice on its way to an engine, or a wait that ended with SYNC_KIND (R284, R285). -/
structure Wake where
  core : Nat
  engine : Nat
  opcode : Bool
  object : Nat := 0
  ok : Bool := true
  deriving DecidableEq, Repr

/-- One logged signal (R367): index, operation kind, value, generation, tag, stamp. -/
structure LogEntry where
  index : Nat
  kind : Nat
  value : Nat
  gen : Option Nat
  tag : Option (Nat × Nat)
  stamp : Nat
  deriving DecidableEq, Repr

/-- A hub's object log (R367): entries, and the image of each logged object from before its oldest entry. -/
structure ObjectLog where
  entries : List LogEntry := []
  images : Tab (Option Nat) := []
  deriving DecidableEq, Repr

/-! ### What leaves the device -/

/-- What has left the device: Tchikebel units; CTP packets with their UDP port; SPDM messages; pulses; XOFF and XON, by PFC on some priorities or by
PAUSE (R300); PTP event messages by kind, with the stamp that a one-step port puts into them (R301); lane and module controls of a transceiver: the mode
and the lanes it uses (R315). -/
inductive Emit where
  | unit (dest : Source) (u : TchUnit)
  | event (subscriber : Nat) (u : TchUnit)
  | packet (port udp : Nat) (k : CtpPacket)
  | spdm (dest : Source) (code : Nat) (body : Bytes)
  | pulse (stamp : Nat)
  | xoff (port : Nat) (priorities : Option Nat)
  | xon (port : Nat) (priorities : Option Nat)
  | ptp (port kind : Nat) (stamp : Option Nat)
  | lanes (port mode lanes : Nat)
  deriving DecidableEq, Repr

/-- An event (R48). -/
structure Event where
  seq : Nat
  index : Nat
  sub : Nat
  stamp : Nat
  value : Nat
  deriving DecidableEq, Repr

/-- An event a subscriber has not acknowledged, with how often it was sent again and when last sent (R48). -/
structure Unacked where
  subscriber : Nat
  seq : Nat
  resends : Nat
  sent : Nat
  deriving DecidableEq, Repr

/-! ### Work (chapter 13) -/

/-- A journalled work item (R328): stamps, journal pair, the connection that delivered it (0xFFFF once that is gone), descriptor, payload,
completion record. state: 0 writes in flight, 1 accepted, 2 started, 3 done; stored: both copies written. -/
structure Item where
  stream : Nat
  sequence : Nat
  job : Nat
  state : Nat
  pair : Nat
  source : Nat
  conn : Nat
  stored : Bool := false
  accepted : Nat
  started : Nat
  descriptor : Bytes
  payload : Bytes
  completion : Bytes
  deliveredOnce : Bool
  messageConfirmed : Bool
  addrConfirmed : Bool
  resumed : Bool
  /-- Its COMPLETION is on its connection, and its record in memory has been written (R332). -/
  sent : Bool := false
  written : Bool := false
  /-- Its job's objects have been set by hand while it was started (R331). -/
  manualSet : Bool := false
  deriving DecidableEq, Repr

/-- An answer that waits for the answers of earlier items (R327): connection, sequence, CRC of the descriptor, STATUS, REASON;
a duplicate's is decided when it is sent. -/
structure HeldAnswer where
  conn : Nat
  sequence : Nat
  crc : Nat
  status : Nat
  reason : Nat
  deriving DecidableEq, Repr

/-- One work stream: NEXT_SEQ, 0 while closed (R322); the end of the wait after a BUSY answer times 256, and its reason, by source
(R339); answers held back. -/
structure Stream where
  next : Nat := 0
  busy : Tab Nat := []
  answers : List HeldAnswer := []
  /-- Acceptance stamps of the items retired, which duplicates are answered with (R244, R327). -/
  stamps : Tab Nat := []
  deriving DecidableEq, Repr

/-- The intake (R325, R329, R338): the journal pair after the one last used, the stream last dispatched, journal partitions lost and those
whose partner's records have been copied, and whether it rebuilds. -/
structure Intake where
  nextPair : Nat := 0
  lastStream : Nat := 0
  lostPartitions : Tab Bool := []
  copied : Tab Bool := []
  rebuilding : Bool := false
  /-- Completion records formed while the intake rebuilds, by stream and sequence, oldest first (R338). -/
  formed : List (Nat × Nat × Bytes) := []
  deriving DecidableEq, Repr

/-- What a job carries beside its dictionary record: quiesce requested, marks for completions, saved contexts, unrecoverable,
a start that must be fresh (R370), a start that follows once every core has a tile (R333, R368), and one that follows once every core has stopped
(R152, R333). -/
structure Job where
  quiesce : Bool := false
  layoutChanged : Bool := false
  saved : Bool := false
  unrecoverable : Bool := false
  mustFresh : Bool := false
  restart : Bool := false
  freshAtStop : Bool := false
  deriving DecidableEq, Repr

/-! ### Management (chapter 2) -/

/-- A segmented transfer (R45): object, type, the value's bytes (read: all of them; write: those received), next segment, highest
acknowledged, resends without progress, last activity. -/
structure Transfer where
  txn : Nat
  write : Bool
  index : Nat
  sub : Nat
  total : Nat
  data : Bytes
  next : Nat
  acked : Nat
  resends : Nat
  active : Nat
  deriving DecidableEq, Repr

/-- A session (R41): its source, level, whether it is secured, completed transactions with their replies (R46), transfers, time of its last
request; of a secured one the last heartbeat, key updates, and whether FINISH has completed it (R443). -/
structure Session where
  source : Source
  level : Nat := 1
  secure : Bool := false
  completed : List (TchUnit × TchUnit) := []
  transfers : List Transfer := []
  lastRequest : Nat := 0
  heartbeat : Nat := 0
  keyUpdates : Nat := 0
  finished : Bool := false
  deriving DecidableEq, Repr

/-- What a swap is made for (R50): the owner's command; a control operation; a core's new tile, with the job to resume, 0xFF none; a core
marked out of service, with its job; route tables alone (R263). -/
inductive SwapFor where
  | owner
  | control (stream sequence : Nat)
  | substitute (core tile job : Nat)
  | outOfService (core job : Nat)
  | routes
  deriving DecidableEq, Repr

/-- The swap in progress (R52 to R59): targets that have not acknowledged the image, the GO message, the new set; unicasts made to each; whether
GO has been sent; the instant T, 0 until it is set; whether T waits for quiescence; jobs held and cores whose entry changes (R57); when the command was
accepted. -/
structure Swap where
  image : List Nat := []
  go : List Nat := []
  confirm : List Nat := []
  tries : Tab Nat := []
  goSent : Bool := false
  instant : Nat := 0
  atQuiescent : Bool := false
  purpose : SwapFor := .owner
  accepted : Nat := 0
  jobs : List Nat := []
  cores : List Nat := []
  deriving DecidableEq, Repr

/-- A change the controller makes for itself, which waits for an armed swap of the owner (R50): its purpose and its edits, which for route tables
are formed when it starts. -/
structure Change where
  purpose : SwapFor
  edits : List (Nat × Nat)
  deriving DecidableEq, Repr

/-- A member's contribution to a reduction (R196, R267): its core, the bits of its source format, values widened, poison of each element,
whether it has been taken. -/
structure Contribution where
  core : Nat
  format : Nat
  values : List Nat
  poison : List Bool
  taken : Bool
  deriving DecidableEq, Repr

/-- A multicast or reduction in the hubs' contexts (R264 to R270): its group's entry as bound, its number in the group, the job.
For a multicast: bytes by offset from the destination, poison, members still to be written, refusal found. -/
structure GroupOp where
  mcast : Bool
  group : Nat
  number : Nat
  job : Nat
  root : Nat
  members : Nat
  parents : Nat
  op : Nat
  contributions : List Contribution
  data : List (Nat × Bytes × Bool)
  toWrite : List Nat
  refusal : Nat
  detail : Nat
  address : Nat
  deriving DecidableEq, Repr

/-- A run of a suspect step: the tile that made it, and what it left. -/
structure Run where
  tile : Nat
  result : ReplayResult
  deriving DecidableEq, Repr

/-- A suspect step on its way through replay (R351 to R353): its core, the runs made, the tile of the run that goes on, the core borrowed for it
with the scratchpad groups that were saved. -/
structure Replay where
  core : Nat
  runs : List Run := []
  tile : Option Nat := none
  borrowed : Option Nat := none
  saved : Nat := 0
  deriving DecidableEq, Repr

/-- The repair record (R423, R424): 32-byte entries of the factory part, the in-field segments in order, each a list of entries, and the flash
area that is current. -/
structure Repair where
  factory : List Bytes := []
  inField : List (List Bytes) := []
  area : Nat := 0
  deriving DecidableEq, Repr

/-- A sequenced CTP message on its way out (R307): its PSN, what it carries, whether it has been sent, SACKs that reported it missing. -/
structure Message where
  psn : Nat
  type : Nat
  jobTag : Nat := 0
  gen : Nat := 0
  payload : Bytes := []
  sent : Bool := false
  missing : Nat := 0
  deriving DecidableEq, Repr

/-- A CTP connection (R306 to R310). phase: 0 HELLO sent, 1 open, 2 CLOSE received and draining, 3 CLOSE sent.
peer is the other endpoint's number; next and acked are the module's own PSNs, expect the next one awaited; credit is the peer's last
CREDIT, granted the module's; the inits are what each began with; offer is the HELLO or HELLO_ACK payload sent, asked the one received; ip4: it runs over
IPv4 (R302); timer is when its timeout, its HELLO or its CLOSE last began to wait (R306, R309),
probeTimer when its probes did (R310); probed orders the connections at CREDIT 0 that wait for
credit, 0 for none (R310); resync: the next header carries ACK_REQ and RESEND (R296); signalling: the first held message is a signal on its way to its
object (R308). -/
structure Conn where
  phase : Nat := 0
  peer : Nat := 0
  port : Nat := 0
  peerConn : Nat := 0
  version : Nat := 1
  window : Nat := 0
  limit : Nat := 0
  next : Nat := 0
  acked : Nat := 0
  queue : List Message := []
  credit : Nat := 0
  creditInit : Nat := 0
  granted : Nat := 0
  grantedInit : Nat := 0
  expect : Nat := 0
  held : List CtpPacket := []
  owed : Nat := 0
  timeouts : Nat := 0
  repeats : Nat := 0
  offer : Bytes := []
  asked : Bytes := []
  ip4 : Bool := false
  timer : Nat := 0
  probeTimer : Nat := 0
  probed : Nat := 0
  resync : Bool := false
  signalling : Bool := false
  deriving DecidableEq, Repr

/-- A high-speed port beside its objects: frames in the receive buffer by length and packet, oldest first (R299); packets held by a pause, and when the
pause of each priority ends, of all at 8 (R300); XOFF sent; the lane group of four in use (R294, R295); when its link was lost; whether it trains after a
station reset (R313); for H0 whether F0 has its role, and whether its link is up meanwhile (R298); the stamps of the PTP event messages last received,
by kind, and last sent, by kind + 4, with the path delay in ns that they give (R301, R414). -/
structure Port where
  buffer : List (Nat × Option Arrival) := []
  transmit : List CtpPacket := []
  paused : Tab Nat := []
  xoff : Bool := false
  highGroup : Bool := false
  downSince : Nat := 0
  afterReset : Bool := false
  roleMoved : Bool := false
  ready : Bool := false
  stamps : Tab Nat := []
  origin : Nat := 0
  delay : Int := 0
  deriving DecidableEq, Repr

/-- A request on the armature that was not performed at once (R242, R259): the core and engine whose command it serves, the hub and the
address it is for, resends, the backoff in force. phase: 0 under way, 1 answered RETRY, 2 completed and on record, 3 being made again by the row that
runs. -/
structure Txn where
  core : Nat
  engine : Nat
  hub : Nat
  address : Nat
  phase : Nat := 0
  resends : Nat := 0
  backoff : Nat := 0
  deriving DecidableEq, Repr

/-- One direction of an armature link (R253 to R256): the sender's next SEQ and its unacknowledged flits, credits spent by buffer; the receiver's
expected SEQ and the entries it has freed and not yet returned, by buffer; stamps of the resends of the last millisecond, whether a lane retry holds
it; of the sending hub's output, the flits that wait by input port, the VC last granted, the input port last granted by VC, and by buffer the packet
in progress: its input port plus 1, 0 for none, and its flits so far; the wires that have failed, of its 8,384. -/
structure LinkSide where
  next : Nat := 0
  spent : Tab Nat := []
  buffer : List Flit := []
  expect : Nat := 0
  freed : Tab Nat := []
  retries : List Nat := []
  held : Bool := false
  waiting : List (Nat × Flit) := []
  lastVc : Nat := 3
  lastPort : Tab Nat := []
  packet : Tab (Nat × Nat) := []
  failed : List Nat := []
  deriving DecidableEq, Repr

/-- One direction of a layer's vertical channel (R228 to R231): the links of its 544 that have failed; the link of each position that has not its own;
positions whose spare is in training, with that spare; whether the direction is held; by position the stamps of the symbols corrected within the last
second. -/
structure Channel where
  failed : List Nat := []
  map : Tab Nat := []
  pending : List (Nat × Nat) := []
  held : Bool := false
  charges : Tab (List Nat) := []
  deriving DecidableEq, Repr

/-- A physical tile beside its objects: last readings in thousandths of a degree (R398), whether the thermal window has seen n_th above 32, or
below 64 or T_logic above 100 °C; a stack trip in force (R400); replica warnings logged by path, the last of all, and the slacks of the last millisecond
(R410, R417); last patina measurement (R397); V_char bytes (R395); field phases out of service (R380); its fence cause (R365); stamps of its strikes and of
mismatches followed by agreeing replays (R354). -/
structure Tile where
  logic : Int := 0
  stack : Int := 0
  notLow : Bool := false
  notFull : Bool := false
  stackTrip : Bool := false
  warned : Tab Nat := []
  lastWarning : Option Nat := none
  slacks : List (Nat × Nat) := []
  measured : Option Nat := none
  vchar : Bytes := []
  phasesOut : List Nat := []
  cause : Nat := 0
  strikes : List Nat := []
  falseAlarms : List Nat := []
  deriving DecidableEq, Repr

/-- The power loop (R387 to R392): the compute grant of the last period in parts of a watt, and the parts; the cap in force; the model's compute
draw by step; the cap a weak converter stage asks for; the debit carried; periods in a row above the cap with every actuator at its minimum, and at or
below it; the excesses of the last ten; link and memory rates, whether those and the issue rate are at their minimum; whether power_cap has been
raised; converters out by group (R380); VIN in mV; whether the input converters have stopped (R382, R459); coolant inlet (R401); energy not yet a
millijoule; the energy in flash (R386). -/
structure Power where
  grant : Nat := 0
  unit : Nat := 1
  inForce : Nat := 12000
  p64 : List Nat := []
  limit : Option Nat := none
  debit : Nat := 0
  overrun : Nat := 0
  under : Nat := 0
  excess : List Nat := []
  linkRate : Nat := 64
  memoryRate : Nat := 64
  atFloor : Bool := false
  raised : Bool := false
  stagesOut : Tab Nat := []
  vin : Nat := 50000
  stopped : Bool := false
  inlet : Int := 0
  energyRest : Nat := 0
  energyFlash : Nat := 0
  deriving DecidableEq, Repr

/-- Clocks (R408 to R414): when holdover began, and the input followed before it; whether the timebase may no longer be stepped; when the last
PTP message came; the ns by which the master has been slewed, with a rest in 10⁻⁹ ns, up to when, and how many of them each region's counter has
taken; when the last PPS_IN edge came (R467); the last whole second driven on PPS_OUT. -/
structure Clocks where
  holdover : Option Nat := none
  followed : Nat := 0
  stepClosed : Bool := false
  lastPtp : Nat := 0
  slewed : Int := 0
  slewRest : Int := 0
  slewedTo : Nat := 0
  regions : Tab Int := []
  ppsIn : Option Nat := none
  ppsOut : Nat := 0
  deriving DecidableEq, Repr

/-- A wear record (R317): OUI and serial number; seconds in high-power mode; first and last seen; the sums of the bias of each lane over the
first 168 h and over the day in progress, with the polls they hold; baseline, trend, retired lanes. -/
structure Wear where
  oui : Nat
  serial : Bytes
  seconds : Nat := 0
  first : Nat := 0
  last : Nat := 0
  baseSum : List Nat := []
  baseN : Nat := 0
  daySum : List Nat := []
  dayN : Nat := 0
  baseline : List Nat := []
  trend : List Nat := []
  retired : Nat := 0
  deriving DecidableEq, Repr

/-- A port's transceiver (R315, R463): seated; what the last poll read, its pages 00h and 01h as read when its serial number last differed; polls in a
row without an answer. -/
structure Xcvr where
  present : Bool := false
  revision : Nat := 0
  identifier : Nat := 0
  moduleState : Nat := 0
  moduleFlags : Bytes := []
  temperature : Nat := 0
  supply : Nat := 0
  laneFlags : Bytes := []
  vendor : Bytes := []
  oui : Nat := 0
  part : Bytes := []
  serial : Bytes := []
  dateCode : Bytes := []
  capabilities : Bytes := []
  silentPolls : Nat := 0
  deriving DecidableEq, Repr

/-- A firmware slot or the variant record in flash (R438, R440): its chunks as loaded, whether it is marked valid, and for a slot
its security version, its version and the hash of its body. -/
structure Slot where
  chunks : List (Nat × Bytes) := []
  valid : Bool := false
  svn : Nat := 0
  version : List Nat := [0, 0, 0]
  hash : Bytes := []
  deriving DecidableEq, Repr

/-- Loading, measuring and debug (R438 to R446): the session that loads, the slots and the variant record loaded, the running security version, the
program log and its value, the challenge and when it expires. -/
structure Security where
  loader : Option Nat := none
  slots : Tab Slot := [(0, { valid := true })]
  svn : Nat := 0
  programLog : List Bytes := []
  logValue : Bytes := List.replicate 64 0
  challenge : Option (Bytes × Nat) := none
  deriving DecidableEq, Repr

/-- A monitor channel's live values (R450, R453): start of the interval, events of its source seen since, count, sum, least and greatest, bins, FLAGS,
its window in force, the second in which it counts and the events taken in it (R449), and the events stamped after the end of a window that repeats,
with their stamps, until it rolls (R452). -/
structure Monitor where
  start : Nat := 0
  seen : Nat := 0
  count : Nat := 0
  sum : Int := 0
  least : Int := 0
  greatest : Int := 0
  bins : Tab Nat := []
  flags : Nat := 0
  opens : Nat := 0
  closes : Nat := 0
  second : Nat := 0
  taken : Nat := 0
  early : List (Int × Nat) := []
  deriving DecidableEq, Repr

/-- A reset (R62, R431, R465). kind: 0 none, 1 warm, 2 cold by command, 3 cold by contact; when it began; whether it waits for a swap or for jobs to quiesce;
what its bring-up will find; RESET_L still low; since when a boot waits for the PTP lock (R430); the jobs saved for it (R338). -/
structure Reset where
  kind : Nat := 0
  start : Nat := 0
  waitSwap : Bool := false
  waitJobs : Bool := false
  found : Option BringUp := none
  heldLow : Bool := false
  waitPtp : Option Nat := none
  saved : List Nat := []
  deriving DecidableEq, Repr

/-- An assignment test in progress (R366): the pool tile, the core it is for, the job to resume (0xFF none), the fault's entry, when it was detected,
whether its field was lost (R372), and whether it has passed; tile 32 where the pool was empty (R370). -/
structure Assign where
  tile : Nat
  core : Nat
  job : Nat
  entry : Nat
  detected : Nat
  field : Bool := false
  passed : Bool := false
  deriving DecidableEq, Repr

/-- The machine's state. -/
structure State where
  pending : List Instr := []
  now : Nat := 0
  fresh : Nat := 0
  out : List Emit := []
  obj : Tab Nat := []
  maq : Tab Nat := []
  /-- port_mode and wear_policy entries of the maquette written with the value they have (R295, R318). -/
  rewritten : List Nat := []
  mem : List Host.Cell := []
  poison : Tab Bool := []
  sync : Tab Nat := []
  cores : Tab Core := []
  waits : List Wait := []
  wakes : List Wake := []
  signals : List Signal := []
  /-- Overruns of arrivals from other modules, by source module (R283). -/
  remoteOverruns : Tab Nat := []
  objLog : Tab ObjectLog := []
  timeouts : List Nat := []
  manual : List Nat := []
  eventSeq : Nat := 0
  events : List Event := []
  unacked : List Unacked := []
  faults : List Nat := []
  faultNext : Nat := 0
  refusals : List Nat := []
  refusalEvent : Tab Nat := []
  streams : Tab Stream := []
  items : List Item := []
  intake : Intake := {}
  jobs : Tab Job := []
  sessions : Tab (Option Session) := []
  swap : Swap := {}
  /-- Stacks being reformatted (R234). -/
  reformatting : List Nat := []
  /-- The layer, plus 1, that a two-layer stack leaves out (R234). -/
  leftOut : Tab Nat := []
  /-- Mirror entries whose survivor is the mirror range (R247). -/
  survivors : Tab Bool := []
  /-- Stamps of the corrected errors of a memory row in the last 24 h, and the rows retired (R238). -/
  rowLog : Tab (List Nat) := []
  retired : List Nat := []
  repair : Repair := {}
  /-- Multicast and reduction contexts of the hubs. -/
  ops : List GroupOp := []
  replays : List Replay := []
  /-- CTP connections by the module's own numbers, and the ports they run on. -/
  conns : Tab (Option Conn) := []
  ports : Tab Port := []
  /-- Tchikebel units that arrived over CTP and wait at the recovery controller (R308). -/
  mgmt : List (Source × TchUnit) := []
  /-- Hubs: 0 in service, 1 in reset (R241), 2 dead (R263). -/
  hubs : Tab Nat := []
  /-- Of a hub that is to be reset, from the request to the end of its handshake: 1 plus the cause, and RETRY answers counted before, times
  512 (R241). -/
  hubResets : Tab Nat := []
  txns : Tab (Option Txn) := []
  txnNext : Nat := 0
  /-- Changes of the controller's own that wait (R50). -/
  changes : List Change := []
  /-- When the lock holder last wrote (R49). -/
  lockWrite : Nat := 0
  /-- Armature links by 2 × link + direction; flits of packets not yet whole at a hub's interface, by hub, 32 + hub at its stack's ring input, 64 + hub
  at its ring port; requests outstanding at a hub's interface, by TXN (R250, R253, R256, R273). -/
  links : Tab LinkSide := []
  arrived : Tab (List Flit) := []
  requests : Tab (List Nat) := []
  /-- Vertical channels by (3 × stack + layer) × 2 + direction (R228). -/
  channels : Tab Channel := []
  tiles : Tab Tile := []
  power : Power := {}
  clocks : Clocks := {}
  /-- Wear records at work, and as flash holds them (R317). -/
  wear : List Wear := []
  wearFlash : List Wear := []
  xcvrs : Tab Xcvr := []
  security : Security := {}
  monitors : Tab Monitor := []
  /-- A module-wide snapshot that waits for its instant, and whether it clears (R456). -/
  snapshotAt : Option (Nat × Bool) := none
  resetting : Reset := {}
  tests : List Assign := []
  /-- Bit h: the field of tile h is lost (R371). -/
  lostFields : Nat := 0
  /-- Neither recovery controller works (R375, R422). -/
  unmanaged : Bool := false
  /-- The controllers stay in the boot ROM's recovery mode (R421). -/
  romMode : Bool := false
  /-- A power state entered over several rows: the state it is going to (R394). -/
  entering : Option Nat := none
  deriving DecidableEq, Repr

/-- Memory in its one form: addresses strictly rising, and no entry equal to the zero that an unlisted address reads as. -/
def Memory.wf (m : List Host.Cell) : Bool := Tab.wf 0 m

/-- The machine right after power is applied: every object at its default, nothing listed in memory, no command waiting (log 3). -/
def State.reset : State := {}

end Sys2Proof.Machine
end

