-- ==== Sys2Proof/Machine/Dict.lean ====
section
/-! DEFINITION. The object dictionary's listings (R34 to R39, R60): one row for each object listing of the manual, with type, size,
access class, access levels, default, and whether a change is evented. -/

namespace Sys2Proof.Machine

/-- Object types by their codes (R35). -/
inductive ObjType where
  | bool | u8 | u16 | u32 | u64 | i32 | i64 | f32 | f64 | string | octets | time64 | addr64
  deriving DecidableEq, Repr

/-- The type code in protocol frames (R35). -/
def ObjType.code : ObjType → Nat
  | .bool => 1 | .u8 => 2 | .u16 => 3 | .u32 => 4 | .u64 => 5 | .i32 => 6 | .i64 => 7 | .f32 => 8 | .f64 => 9
  | .string => 10 | .octets => 11 | .time64 => 12 | .addr64 => 13

/-- Access classes (R36). -/
inductive Access where
  | ro | rw | wo | rwm | cmd
  deriving DecidableEq, Repr

/-- Access levels (R39). -/
inductive Level where
  | observer | operator | owner
  deriving DecidableEq, Repr

/-- Each level includes the rights of the levels below it. -/
def Level.rank : Level → Nat
  | .observer => 1
  | .operator => 2
  | .owner => 3

/-- One row of an object listing: indices lo, lo + stride, … (count of them), subindices slo to shi, type, bytes, access,
level to write, level to read, default, evented. -/
structure ObjRow where
  lo : Nat
  stride : Nat
  count : Nat
  slo : Nat
  shi : Nat
  type : ObjType
  size : Nat
  access : Access
  wlevel : Level
  rlevel : Level
  default : Nat
  evented : Bool
  deriving DecidableEq, Repr

/-- Listings, part 1. -/
def dict1 : List ObjRow := [
  ⟨0x1000, 1, 1, 0x00, 0x00, .string, 255, .ro, .observer, .observer, 0x736F746B41206D75696C6F50, false⟩, -- device_type (R61)
  ⟨0x1001, 1, 1, 0x00, 0x00, .string, 255, .ro, .observer, .observer, 0x786572696C55, false⟩, -- vendor_name (R61)
  ⟨0x1002, 1, 1, 0x00, 0x00, .string, 255, .ro, .observer, .observer, 0x0, false⟩, -- part_number (R61)
  ⟨0x1003, 1, 1, 0x00, 0x00, .string, 255, .ro, .observer, .observer, 0x0, false⟩, -- serial_number (R61)
  ⟨0x1004, 1, 1, 0x00, 0x00, .string, 255, .ro, .observer, .observer, 0x3042, false⟩, -- stepping (R61)
  ⟨0x1008, 1, 1, 0x00, 0x00, .u8, 1, .ro, .observer, .observer, 0x4, false⟩, -- firmware_version_count (R61)
  ⟨0x1008, 1, 1, 0x01, 0x01, .u8, 1, .ro, .observer, .observer, 0x0, false⟩, -- fw_major (R61)
  ⟨0x1008, 1, 1, 0x02, 0x02, .u8, 1, .ro, .observer, .observer, 0x0, false⟩, -- fw_minor (R61)
  ⟨0x1008, 1, 1, 0x03, 0x03, .u16, 2, .ro, .observer, .observer, 0x0, false⟩, -- fw_patch (R61)
  ⟨0x1008, 1, 1, 0x04, 0x04, .u8, 1, .ro, .observer, .observer, 0x0, false⟩, -- fw_slot (R61)
  ⟨0x1010, 1, 1, 0x00, 0x00, .u8, 1, .ro, .observer, .observer, 0x1, true⟩, -- device_state (R61)
  ⟨0x1020, 1, 1, 0x00, 0x00, .u32, 4, .ro, .observer, .observer, 0x10000, false⟩, -- dictionary_version (R61)
  ⟨0x1030, 1, 1, 0x00, 0x00, .u8, 1, .ro, .observer, .observer, 0x8, false⟩, -- subscriber_count (R61)
  ⟨0x1030, 1, 1, 0x01, 0x08, .octets, 8, .rw, .operator, .observer, 0x0, false⟩, -- subscriber (R61)
  ⟨0x1031, 1, 1, 0x00, 0x00, .octets, 6144, .ro, .observer, .observer, 0x0, false⟩, -- event_log (R61)
  ⟨0x1032, 1, 1, 0x00, 0x00, .u8, 1, .ro, .observer, .observer, 0x0, false⟩, -- session_count (R61)
  ⟨0xF000, 1, 1, 0x00, 0x00, .u8, 1, .cmd, .owner, .observer, 0x0, false⟩, -- swap_command (R62)
  ⟨0xF000, 1, 1, 0x01, 0x01, .time64, 8, .rw, .owner, .observer, 0x0, false⟩, -- swap_instant (R62)
  ⟨0xF000, 1, 1, 0x02, 0x02, .u8, 1, .ro, .observer, .observer, 0x0, true⟩, -- swap_state (R62)
  ⟨0xF000, 1, 1, 0x03, 0x03, .u32, 4, .ro, .observer, .observer, 0x0, false⟩, -- swap_sequence (R62)
  ⟨0xF000, 1, 1, 0x04, 0x04, .u8, 1, .ro, .observer, .observer, 0x0, false⟩, -- missing_targets (R62)
  ⟨0xF000, 1, 1, 0x05, 0x05, .u8, 1, .ro, .observer, .observer, 0x0, false⟩, -- abort_reason (R62)
  ⟨0xF000, 1, 1, 0x06, 0x06, .u32, 4, .rw, .owner, .observer, 0x2710, false⟩, -- quiesce_limit (R62)
  ⟨0xF000, 1, 1, 0x07, 0x07, .u32, 4, .ro, .observer, .observer, 0x0, false⟩, -- maquette_changes (R62)
  ⟨0xF001, 1, 1, 0x00, 0x00, .u8, 1, .cmd, .owner, .observer, 0x0, false⟩, -- copy_active_to_maquette (R62)
  ⟨0xF002, 1, 1, 0x00, 0x00, .u8, 1, .cmd, .owner, .observer, 0x0, false⟩, -- maquette_lock (R62)
  ⟨0xF002, 1, 1, 0x01, 0x01, .u32, 4, .ro, .observer, .observer, 0x0, true⟩, -- lock_holder (R62)
  ⟨0xF002, 1, 1, 0x02, 0x02, .u32, 4, .rw, .owner, .observer, 0x12C, false⟩, -- lock_idle_limit (R62)
  ⟨0xF010, 1, 1, 0x00, 0x00, .u8, 1, .cmd, .owner, .observer, 0x0, false⟩, -- reset (R62)
  ⟨0xF020, 1, 1, 0x00, 0x00, .u8, 1, .cmd, .owner, .observer, 0x0, false⟩, -- power_state_request (R62)
  ⟨0x2100, 1, 64, 0x00, 0x00, .u8, 1, .ro, .observer, .observer, 0x1, false⟩, -- job_arith_count (R139)
  ⟨0x2100, 1, 64, 0x01, 0x01, .u8, 1, .rwm, .owner, .observer, 0x0, false⟩, -- arith_trap (R139)
  ⟨0x8000, 128, 22, 0x00, 0x00, .u8, 1, .ro, .observer, .observer, 0xD, false⟩, -- core_object_count (R164)
  ⟨0x8000, 128, 22, 0x01, 0x01, .u8, 1, .ro, .observer, .observer, 0x0, true⟩, -- core_state (R164)
  ⟨0x8000, 128, 22, 0x02, 0x02, .u8, 1, .ro, .observer, .observer, 0xFF, false⟩, -- core_job (R164)
  ⟨0x8000, 128, 22, 0x03, 0x03, .addr64, 8, .ro, .observer, .observer, 0x0, false⟩, -- core_pc (R164)
  ⟨0x8000, 128, 22, 0x04, 0x04, .u64, 8, .ro, .observer, .observer, 0x0, false⟩, -- core_step (R164)
  ⟨0x8000, 128, 22, 0x05, 0x05, .u64, 8, .ro, .observer, .observer, 0x0, false⟩, -- array_widths (R164)
  ⟨0x8000, 128, 22, 0x06, 0x06, .u64, 8, .ro, .observer, .observer, 0x0, false⟩, -- queue_occupancy (R164)
  ⟨0x8000, 128, 22, 0x07, 0x07, .octets, 64, .ro, .observer, .observer, 0x0, false⟩ -- last_error (R164)
]

/-- Listings, part 2. -/
def dict2 : List ObjRow := [
  ⟨0x8000, 128, 22, 0x08, 0x08, .u64, 8, .ro, .observer, .observer, 0x0, false⟩, -- commands_completed (R164)
  ⟨0x8000, 128, 22, 0x09, 0x09, .u64, 8, .ro, .observer, .observer, 0x0, false⟩, -- dispatch_stall_cycles (R164)
  ⟨0x8000, 128, 22, 0x0A, 0x0A, .u64, 8, .ro, .observer, .observer, 0x0, false⟩, -- sp_reserved_refusals (R164)
  ⟨0x8000, 128, 22, 0x0B, 0x0B, .addr64, 8, .rwm, .owner, .observer, 0x0, false⟩, -- context_area (R164)
  ⟨0x8000, 128, 22, 0x0C, 0x0C, .u8, 1, .rwm, .owner, .observer, 0xFF, false⟩, -- context_save_mask (R164)
  ⟨0x8000, 128, 22, 0x0D, 0x0D, .u64, 8, .ro, .observer, .observer, 0x0, false⟩, -- delay_cycles (R164)
  ⟨0x2400, 1, 32, 0x00, 0x00, .u8, 1, .ro, .observer, .observer, 0x80, false⟩, -- window_block_count (R223)
  ⟨0x2400, 1, 32, 0x01, 0x80, .octets, 32, .rwm, .owner, .observer, 0x0, false⟩, -- window_entry (R223)
  ⟨0x2420, 1, 1, 0x00, 0x00, .u8, 1, .ro, .observer, .observer, 0xE, false⟩, -- window_status_count (R223)
  ⟨0x2420, 1, 1, 0x01, 0x01, .u16, 2, .ro, .observer, .observer, 0x0, false⟩, -- windows_open (R223)
  ⟨0x2420, 1, 1, 0x02, 0x02, .u64, 8, .ro, .observer, .observer, 0x0, false⟩, -- window_refusals_total (R223)
  ⟨0x2420, 1, 1, 0x03, 0x0E, .u64, 8, .ro, .observer, .observer, 0x0, false⟩, -- window_refusals_by_reason (R223)
  ⟨0x2421, 1, 1, 0x00, 0x00, .octets, 8192, .ro, .observer, .observer, 0x0, false⟩, -- window_refusal_log (R223)
  ⟨0x2430, 1, 32, 0x00, 0x00, .u8, 1, .ro, .observer, .observer, 0x80, false⟩, -- window_counter_block_count (R223)
  ⟨0x2430, 1, 32, 0x01, 0x80, .u64, 8, .ro, .observer, .observer, 0x0, true⟩, -- window_refusal_count (R223)
  ⟨0x8001, 128, 22, 0x00, 0x00, .u8, 1, .ro, .observer, .observer, 0xA, false⟩, -- sp_object_count (R224)
  ⟨0x8001, 128, 22, 0x01, 0x01, .u32, 4, .rwm, .owner, .observer, 0x924924, false⟩, -- sp_layout (R224)
  ⟨0x8001, 128, 22, 0x02, 0x02, .u32, 4, .ro, .observer, .observer, 0x924924, false⟩, -- sp_layout_applied (R224)
  ⟨0x8001, 128, 22, 0x03, 0x03, .u32, 4, .ro, .observer, .observer, 0x0, true⟩, -- group_state (R224)
  ⟨0x8001, 128, 22, 0x04, 0x04, .u16, 2, .cmd, .owner, .observer, 0x0, false⟩, -- group_request (R224)
  ⟨0x8001, 128, 22, 0x05, 0x05, .u64, 8, .ro, .observer, .observer, 0x0, false⟩, -- bank_conflict_cycles (R224)
  ⟨0x8001, 128, 22, 0x06, 0x06, .u64, 8, .ro, .observer, .observer, 0x0, false⟩, -- closed_refusals (R224)
  ⟨0x8001, 128, 22, 0x07, 0x07, .u64, 8, .ro, .observer, .observer, 0x0, false⟩, -- ecc_corrected (R224)
  ⟨0x8001, 128, 22, 0x08, 0x08, .u64, 8, .ro, .observer, .observer, 0x0, false⟩, -- ecc_uncorrected (R224)
  ⟨0x8001, 128, 22, 0x09, 0x09, .u32, 4, .rw, .operator, .observer, 0x2710, false⟩, -- scrub_interval (R224)
  ⟨0x8001, 128, 22, 0x0A, 0x0A, .u64, 8, .ro, .observer, .observer, 0x0, false⟩, -- scrub_passes (R224)
  ⟨0x2700, 1, 1, 0x00, 0x00, .u8, 1, .ro, .observer, .observer, 0x40, false⟩, -- mirror_count (R248)
  ⟨0x2700, 1, 1, 0x01, 0x40, .octets, 32, .rwm, .owner, .observer, 0x0, false⟩, -- mirror_entry (R248)
  ⟨0x2701, 1, 1, 0x00, 0x00, .u8, 1, .ro, .observer, .observer, 0x3, false⟩, -- memory_settings_count (R248)
  ⟨0x2701, 1, 1, 0x01, 0x01, .u32, 4, .rw, .operator, .observer, 0x18, false⟩, -- dram_scrub_interval (R248)
  ⟨0x2701, 1, 1, 0x02, 0x02, .u32, 4, .rw, .operator, .observer, 0x14, false⟩, -- mirror_resync_rate (R248)
  ⟨0x2701, 1, 1, 0x03, 0x03, .u32, 4, .rwm, .owner, .observer, 0x0, false⟩, -- stack_interleave (R248)
  ⟨0x2702, 1, 1, 0x00, 0x00, .u8, 1, .ro, .observer, .observer, 0x40, false⟩, -- mirror_state_count (R248)
  ⟨0x2702, 1, 1, 0x01, 0x40, .u8, 1, .ro, .observer, .observer, 0x0, true⟩, -- mirror_state (R248)
  ⟨0x4500, 1, 24, 0x00, 0x00, .u8, 1, .ro, .observer, .observer, 0xC, false⟩, -- stack_object_count (R249)
  ⟨0x4500, 1, 24, 0x01, 0x01, .u8, 1, .ro, .observer, .observer, 0x0, true⟩, -- stack_state (R249)
  ⟨0x4500, 1, 24, 0x02, 0x02, .u32, 4, .ro, .observer, .observer, 0x0, true⟩, -- layer_state (R249)
  ⟨0x4500, 1, 24, 0x03, 0x03, .u64, 8, .ro, .observer, .observer, 0x0, false⟩, -- free_links (R249)
  ⟨0x4500, 1, 24, 0x04, 0x04, .u64, 8, .ro, .observer, .observer, 0x0, false⟩, -- link_swaps (R249)
  ⟨0x4500, 1, 24, 0x05, 0x05, .u64, 8, .ro, .observer, .observer, 0x0, false⟩ -- dram_corrected (R249)
]

/-- Listings, part 3. -/
def dict3 : List ObjRow := [
  ⟨0x4500, 1, 24, 0x06, 0x06, .u64, 8, .ro, .observer, .observer, 0x0, false⟩, -- dram_uncorrected (R249)
  ⟨0x4500, 1, 24, 0x07, 0x07, .u64, 8, .ro, .observer, .observer, 0x0, false⟩, -- channel_resends (R249)
  ⟨0x4500, 1, 24, 0x08, 0x08, .u32, 4, .ro, .observer, .observer, 0x0, false⟩, -- rows_retired (R249)
  ⟨0x4500, 1, 24, 0x09, 0x09, .u64, 8, .ro, .observer, .observer, 0x0, false⟩, -- retry_responses (R249)
  ⟨0x4500, 1, 24, 0x0A, 0x0A, .u64, 8, .ro, .observer, .observer, 0x0, false⟩, -- dram_scrub_passes (R249)
  ⟨0x4500, 1, 24, 0x0B, 0x0B, .u64, 8, .ro, .observer, .observer, 0x0, false⟩, -- read_bytes (R249)
  ⟨0x4500, 1, 24, 0x0C, 0x0C, .u64, 8, .ro, .observer, .observer, 0x0, false⟩, -- write_bytes (R249)
  ⟨0x2200, 1, 2, 0x00, 0x00, .u8, 1, .ro, .observer, .observer, 0x80, false⟩, -- mcast_block_count (R274)
  ⟨0x2200, 1, 2, 0x01, 0x80, .octets, 32, .rwm, .owner, .observer, 0x0, false⟩, -- mcast_group (R274)
  ⟨0x2300, 1, 2, 0x00, 0x00, .u8, 1, .ro, .observer, .observer, 0x80, false⟩, -- reduce_block_count (R274)
  ⟨0x2300, 1, 2, 0x01, 0x80, .octets, 32, .rwm, .owner, .observer, 0x0, false⟩, -- reduce_group (R274)
  ⟨0x2800, 1, 1, 0x00, 0x00, .u8, 1, .ro, .observer, .observer, 0x18, false⟩, -- route_table_count (R274)
  ⟨0x2800, 1, 1, 0x01, 0x18, .octets, 32, .ro, .observer, .observer, 0x0, true⟩, -- route_table (R274)
  ⟨0x2801, 1, 1, 0x00, 0x00, .u8, 1, .ro, .observer, .observer, 0x1, false⟩, -- armature_settings_count (R274)
  ⟨0x2801, 1, 1, 0x01, 0x01, .u32, 4, .rw, .operator, .observer, 0x32, false⟩, -- armature_resend_us (R274)
  ⟨0x4600, 1, 1, 0x00, 0x00, .u8, 1, .ro, .observer, .observer, 0x26, false⟩, -- link_count (R275)
  ⟨0x4600, 1, 1, 0x01, 0x26, .u64, 8, .ro, .observer, .observer, 0x0, true⟩, -- link_state (R275)
  ⟨0x4601, 1, 1, 0x01, 0x26, .u64, 8, .ro, .observer, .observer, 0x0, false⟩, -- link_crc_retries (R275)
  ⟨0x4602, 1, 1, 0x01, 0x26, .u64, 8, .ro, .observer, .observer, 0x0, false⟩, -- lane_remaps (R275)
  ⟨0x4603, 1, 1, 0x00, 0x00, .u8, 1, .ro, .observer, .observer, 0x4, false⟩, -- armature_count (R275)
  ⟨0x4603, 1, 1, 0x01, 0x01, .u64, 8, .ro, .observer, .observer, 0x0, false⟩, -- armature_resends (R275)
  ⟨0x4603, 1, 1, 0x02, 0x02, .u64, 8, .ro, .observer, .observer, 0x0, false⟩, -- duplicates_answered (R275)
  ⟨0x4603, 1, 1, 0x03, 0x03, .u32, 4, .ro, .observer, .observer, 0x0, false⟩, -- route_swaps (R275)
  ⟨0x4603, 1, 1, 0x04, 0x04, .u64, 8, .ro, .observer, .observer, 0x0, false⟩, -- escape_packets (R275)
  ⟨0x7000, 1, 1, 0x00, 0x00, .u8, 1, .ro, .owner, .owner, 0x4, false⟩, -- sync_stats_count (R293)
  ⟨0x7000, 1, 1, 0x01, 0x01, .u64, 8, .ro, .owner, .owner, 0x0, false⟩, -- sync_signals_applied (R293)
  ⟨0x7000, 1, 1, 0x02, 0x02, .u64, 8, .ro, .owner, .owner, 0x0, false⟩, -- sync_waits_timed_out (R293)
  ⟨0x7000, 1, 1, 0x03, 0x03, .u64, 8, .ro, .owner, .owner, 0x0, false⟩, -- barrier_overruns (R293)
  ⟨0x7000, 1, 1, 0x04, 0x04, .u64, 8, .ro, .owner, .owner, 0x0, false⟩, -- sync_kind_errors (R293)
  ⟨0x7001, 1, 1, 0x00, 0x00, .octets, 4096, .ro, .owner, .owner, 0x0, false⟩, -- timeout_log (R293)
  ⟨0x7002, 1, 1, 0x00, 0x00, .u8, 1, .ro, .owner, .owner, 0x2, false⟩, -- object_peek_count (R293)
  ⟨0x7002, 1, 1, 0x01, 0x01, .addr64, 8, .rw, .owner, .owner, 0x0, false⟩, -- peek_address (R293)
  ⟨0x7002, 1, 1, 0x02, 0x02, .u64, 8, .ro, .owner, .owner, 0x0, false⟩, -- peek_image (R293)
  ⟨0x7003, 1, 1, 0x00, 0x00, .octets, 3168, .ro, .owner, .owner, 0x0, false⟩, -- wait_table (R293)
  ⟨0x7010, 1, 1, 0x00, 0x00, .u8, 1, .ro, .owner, .owner, 0x4, false⟩, -- manual_set_count_sub (R293)
  ⟨0x7010, 1, 1, 0x01, 0x01, .addr64, 8, .rw, .owner, .owner, 0x0, false⟩, -- manual_target (R293)
  ⟨0x7010, 1, 1, 0x02, 0x02, .u8, 1, .rw, .owner, .owner, 0x0, false⟩, -- manual_op (R293)
  ⟨0x7010, 1, 1, 0x03, 0x03, .u64, 8, .rw, .owner, .owner, 0x0, false⟩, -- manual_operand (R293)
  ⟨0x7010, 1, 1, 0x04, 0x04, .u8, 1, .cmd, .owner, .owner, 0x0, false⟩, -- manual_apply (R293)
  ⟨0x7011, 1, 1, 0x00, 0x00, .octets, 6144, .ro, .owner, .owner, 0x0, true⟩ -- manual_set_log (R293)
]

/-- Listings, part 4. -/
def dict4 : List ObjRow := [
  ⟨0x7012, 1, 1, 0x00, 0x00, .u32, 4, .ro, .owner, .owner, 0x0, false⟩, -- manual_set_count (R293)
  ⟨0x2600, 1, 19, 0x00, 0x00, .u8, 1, .ro, .observer, .observer, 0xC, false⟩, -- port_config_count (R319)
  ⟨0x2600, 1, 19, 0x01, 0x01, .u8, 1, .rwm, .owner, .observer, 0x1, false⟩, -- port_mode (R319)
  ⟨0x2600, 1, 19, 0x02, 0x02, .u16, 2, .rwm, .owner, .observer, 0x2328, false⟩, -- port_mtu (R319)
  ⟨0x2600, 1, 19, 0x03, 0x03, .octets, 16, .rwm, .owner, .observer, 0x0, false⟩, -- ipv6_address (R319)
  ⟨0x2600, 1, 19, 0x04, 0x04, .u32, 4, .rwm, .owner, .observer, 0x0, false⟩, -- ipv4_address (R319)
  ⟨0x2600, 1, 19, 0x05, 0x05, .u16, 2, .rwm, .owner, .observer, 0xB7A4, false⟩, -- ctp_udp_port (R319)
  ⟨0x2600, 1, 19, 0x06, 0x06, .u8, 1, .rwm, .owner, .observer, 0x0, false⟩, -- flow_control (R319)
  ⟨0x2600, 1, 19, 0x07, 0x07, .u8, 1, .rwm, .owner, .observer, 0x8, false⟩, -- pfc_priorities (R319)
  ⟨0x2600, 1, 19, 0x08, 0x08, .u8, 1, .rwm, .owner, .observer, 0x0, false⟩, -- ptp_mode (R319)
  ⟨0x2600, 1, 19, 0x09, 0x09, .u8, 1, .rwm, .owner, .observer, 0x1, false⟩, -- wear_policy (R319)
  ⟨0x2600, 1, 19, 0x0A, 0x0A, .bool, 1, .rwm, .owner, .observer, 0x1, false⟩, -- host_failover (R319)
  ⟨0x2600, 1, 19, 0x0B, 0x0B, .u8, 1, .rwm, .owner, .observer, 0x0, false⟩, -- plca_node_id (R319)
  ⟨0x2600, 1, 19, 0x0C, 0x0C, .octets, 6, .rwm, .owner, .observer, 0x0, false⟩, -- mgmt_multicast (R319)
  ⟨0x2620, 1, 1, 0x00, 0x00, .u8, 1, .ro, .observer, .observer, 0x8, false⟩, -- ctp_settings_count (R320)
  ⟨0x2620, 1, 1, 0x01, 0x01, .u16, 2, .rwm, .owner, .observer, 0x0, false⟩, -- module_number (R320)
  ⟨0x2620, 1, 1, 0x02, 0x02, .u16, 2, .rwm, .owner, .observer, 0xFFF, false⟩, -- host_source_number (R320)
  ⟨0x2620, 1, 1, 0x03, 0x03, .u8, 1, .rwm, .owner, .observer, 0x3, false⟩, -- ctp_versions (R320)
  ⟨0x2620, 1, 1, 0x04, 0x04, .u32, 4, .rw, .operator, .observer, 0x12C, false⟩, -- rto (R320)
  ⟨0x2620, 1, 1, 0x05, 0x05, .u8, 1, .rw, .operator, .observer, 0xC, false⟩, -- retry_limit (R320)
  ⟨0x2620, 1, 1, 0x06, 0x06, .u16, 2, .rw, .operator, .observer, 0x78, false⟩, -- wear_warn (R320)
  ⟨0x2620, 1, 1, 0x07, 0x07, .u16, 2, .rw, .operator, .observer, 0x87, false⟩, -- wear_alarm (R320)
  ⟨0x2620, 1, 1, 0x08, 0x08, .u32, 4, .rw, .operator, .observer, 0xAB18, false⟩, -- hours_warn (R320)
  ⟨0x2640, 1, 32, 0x01, 0x80, .octets, 20, .rwm, .owner, .observer, 0x0, false⟩, -- peer_entry (R320)
  ⟨0x6000, 64, 19, 0x00, 0x00, .u8, 1, .ro, .observer, .observer, 0xD, false⟩, -- port_status_count (R321)
  ⟨0x6000, 64, 19, 0x01, 0x01, .u8, 1, .ro, .observer, .observer, 0x0, true⟩, -- port_state (R321)
  ⟨0x6000, 64, 19, 0x02, 0x02, .u8, 1, .ro, .observer, .observer, 0x0, false⟩, -- mode_in_use (R321)
  ⟨0x6000, 64, 19, 0x03, 0x03, .u8, 1, .ro, .observer, .observer, 0xFF, false⟩, -- lanes_good (R321)
  ⟨0x6000, 64, 19, 0x04, 0x04, .u64, 8, .ro, .observer, .observer, 0x0, false⟩, -- fec_corrected (R321)
  ⟨0x6000, 64, 19, 0x05, 0x05, .u64, 8, .ro, .observer, .observer, 0x0, false⟩, -- fec_uncorrected (R321)
  ⟨0x6000, 64, 19, 0x06, 0x06, .u64, 8, .ro, .observer, .observer, 0x0, false⟩, -- rx_frames (R321)
  ⟨0x6000, 64, 19, 0x07, 0x07, .u64, 8, .ro, .observer, .observer, 0x0, false⟩, -- rx_drops (R321)
  ⟨0x6000, 64, 19, 0x08, 0x08, .u32, 4, .ro, .observer, .observer, 0x0, false⟩, -- rx_buffer_peak (R321)
  ⟨0x6000, 64, 19, 0x09, 0x09, .u64, 8, .ro, .observer, .observer, 0x0, false⟩, -- pause_sent (R321)
  ⟨0x6000, 64, 19, 0x0A, 0x0A, .u32, 4, .ro, .observer, .observer, 0x0, false⟩, -- lane_failovers (R321)
  ⟨0x6000, 64, 19, 0x0B, 0x0B, .u32, 4, .ro, .observer, .observer, 0x0, false⟩, -- station_resets (R321)
  ⟨0x6000, 64, 19, 0x0C, 0x0C, .u64, 8, .ro, .observer, .observer, 0x0, false⟩, -- ctp_retransmits (R321)
  ⟨0x6000, 64, 19, 0x0D, 0x0D, .u64, 8, .ro, .observer, .observer, 0x0, false⟩, -- ctp_header_drops (R321)
  ⟨0x6001, 64, 17, 0x00, 0x00, .u8, 1, .ro, .observer, .observer, 0x8, false⟩, -- xcvr_count (R321)
  ⟨0x6001, 64, 17, 0x01, 0x01, .u8, 1, .ro, .observer, .observer, 0x0, false⟩ -- xcvr_cmis_rev (R321)
]

/-- Listings, part 5. -/
def dict5 : List ObjRow := [
  ⟨0x6001, 64, 17, 0x02, 0x02, .string, 255, .ro, .observer, .observer, 0x0, false⟩, -- xcvr_serial (R321)
  ⟨0x6001, 64, 17, 0x03, 0x03, .string, 255, .ro, .observer, .observer, 0x0, false⟩, -- xcvr_part (R321)
  ⟨0x6001, 64, 17, 0x04, 0x04, .u32, 4, .ro, .observer, .observer, 0x0, false⟩, -- xcvr_hours (R321)
  ⟨0x6001, 64, 17, 0x05, 0x05, .u64, 8, .ro, .observer, .observer, 0x0, false⟩, -- xcvr_bias_ratio (R321)
  ⟨0x6001, 64, 17, 0x06, 0x06, .octets, 48, .ro, .observer, .observer, 0x0, false⟩, -- xcvr_lane_monitors (R321)
  ⟨0x6001, 64, 17, 0x07, 0x07, .u32, 4, .ro, .observer, .observer, 0x0, true⟩, -- xcvr_alarms (R321)
  ⟨0x6001, 64, 17, 0x08, 0x08, .u8, 1, .ro, .observer, .observer, 0x0, true⟩, -- xcvr_state (R321)
  ⟨0x2000, 1, 64, 0x00, 0x00, .u8, 1, .ro, .observer, .observer, 0xF, false⟩, -- job_record_count (R340)
  ⟨0x2000, 1, 64, 0x01, 0x01, .bool, 1, .rwm, .owner, .observer, 0x0, false⟩, -- job_valid (R340)
  ⟨0x2000, 1, 64, 0x02, 0x02, .u32, 4, .rwm, .owner, .observer, 0x0, false⟩, -- job_cores (R340)
  ⟨0x2000, 1, 64, 0x03, 0x03, .u64, 8, .rwm, .owner, .observer, 0x0, false⟩, -- job_seed (R340)
  ⟨0x2000, 1, 64, 0x04, 0x04, .u16, 2, .rwm, .owner, .observer, 0x0, false⟩, -- job_tag (R340)
  ⟨0x2000, 1, 64, 0x05, 0x05, .u8, 1, .rwm, .owner, .observer, 0x0, false⟩, -- job_gen (R340)
  ⟨0x2000, 1, 64, 0x06, 0x06, .u32, 4, .rwm, .owner, .observer, 0x186A0, false⟩, -- job_wait_default (R340)
  ⟨0x2000, 1, 64, 0x07, 0x07, .addr64, 8, .rwm, .owner, .observer, 0x0, false⟩, -- job_init_list (R340)
  ⟨0x2000, 1, 64, 0x08, 0x08, .u32, 4, .rwm, .owner, .observer, 0x0, false⟩, -- job_init_count (R340)
  ⟨0x2000, 1, 64, 0x09, 0x09, .u32, 4, .rwm, .owner, .observer, 0x3FBEF80, false⟩, -- job_mailbox (R340)
  ⟨0x2000, 1, 64, 0x0A, 0x0A, .octets, 176, .rwm, .owner, .observer, 0x0, false⟩, -- job_entries (R340)
  ⟨0x2000, 1, 64, 0x0B, 0x0B, .octets, 256, .rwm, .owner, .observer, 0x0, false⟩, -- job_ranges (R340)
  ⟨0x2000, 1, 64, 0x0C, 0x0C, .u8, 1, .rwm, .owner, .observer, 0x0, false⟩, -- job_flags (R340)
  ⟨0x2000, 1, 64, 0x0D, 0x0D, .u8, 1, .ro, .observer, .observer, 0x0, true⟩, -- job_state (R340)
  ⟨0x2000, 1, 64, 0x0E, 0x0E, .u32, 4, .ro, .observer, .observer, 0x0, false⟩, -- job_outstanding (R340)
  ⟨0x2000, 1, 64, 0x0F, 0x0F, .u32, 4, .rwm, .owner, .observer, 0x10000, false⟩, -- job_limit (R340)
  ⟨0x2500, 1, 32, 0x01, 0x80, .octets, 16, .rwm, .owner, .observer, 0x0, false⟩, -- stream_entry (R341)
  ⟨0x2520, 1, 32, 0x01, 0x80, .octets, 16, .ro, .observer, .observer, 0x0, false⟩, -- stream_status (R341)
  ⟨0x2540, 1, 1, 0x00, 0x00, .u8, 1, .ro, .observer, .observer, 0x7, false⟩, -- intake_count (R341)
  ⟨0x2540, 1, 1, 0x01, 0x01, .u32, 4, .rw, .operator, .observer, 0x7D0, false⟩, -- reset_quiesce_ms (R341)
  ⟨0x2540, 1, 1, 0x02, 0x02, .u32, 4, .ro, .observer, .observer, 0x0, false⟩, -- journal_outstanding (R341)
  ⟨0x2540, 1, 1, 0x03, 0x03, .u64, 8, .ro, .observer, .observer, 0x0, false⟩, -- items_accepted (R341)
  ⟨0x2540, 1, 1, 0x04, 0x04, .u64, 8, .ro, .observer, .observer, 0x0, false⟩, -- duplicates_seen (R341)
  ⟨0x2540, 1, 1, 0x05, 0x05, .u64, 8, .ro, .observer, .observer, 0x0, false⟩, -- busy_answers (R341)
  ⟨0x2540, 1, 1, 0x06, 0x06, .u8, 1, .ro, .observer, .observer, 0xC, false⟩, -- journal_pairs_in_service (R341)
  ⟨0x2540, 1, 1, 0x07, 0x07, .u32, 4, .ro, .observer, .observer, 0x0, true⟩, -- intake_rebuilds (R341)
  ⟨0x4400, 1, 1, 0x00, 0x00, .u8, 1, .ro, .observer, .observer, 0x13, false⟩, -- replay_count (R360)
  ⟨0x4400, 1, 1, 0x01, 0x01, .u32, 4, .rw, .operator, .observer, 0x400, false⟩, -- audit_period (R360)
  ⟨0x4400, 1, 1, 0x02, 0x02, .f32, 4, .rw, .operator, .observer, 0x40000000, false⟩, -- tol_bf16_fp16 (R360)
  ⟨0x4400, 1, 1, 0x03, 0x03, .f32, 4, .rw, .operator, .observer, 0x40000000, false⟩, -- tol_fp32 (R360)
  ⟨0x4400, 1, 1, 0x04, 0x04, .f32, 4, .rw, .operator, .observer, 0x40000000, false⟩, -- tol_block_exact (R360)
  ⟨0x4400, 1, 1, 0x05, 0x05, .u8, 1, .rw, .owner, .observer, 0x3, false⟩, -- strike_limit (R360)
  ⟨0x4400, 1, 1, 0x06, 0x06, .u32, 4, .rw, .owner, .observer, 0x18, false⟩ -- strike_window_h (R360)
]

/-- Listings, part 6. -/
def dict6 : List ObjRow := [
  ⟨0x4400, 1, 1, 0x07, 0x07, .u64, 8, .ro, .observer, .observer, 0x0, false⟩, -- steps_committed (R360)
  ⟨0x4400, 1, 1, 0x08, 0x08, .u64, 8, .ro, .observer, .observer, 0x0, false⟩, -- suspect_checksum (R360)
  ⟨0x4400, 1, 1, 0x09, 0x09, .u64, 8, .ro, .observer, .observer, 0x0, false⟩, -- suspect_corrected (R360)
  ⟨0x4400, 1, 1, 0x0A, 0x0A, .u64, 8, .ro, .observer, .observer, 0x0, false⟩, -- suspect_audit (R360)
  ⟨0x4400, 1, 1, 0x0B, 0x0B, .u64, 8, .ro, .observer, .observer, 0x0, false⟩, -- replay_runs (R360)
  ⟨0x4400, 1, 1, 0x0C, 0x0C, .u64, 8, .ro, .observer, .observer, 0x0, false⟩, -- replay_disagreements (R360)
  ⟨0x4400, 1, 1, 0x0D, 0x0D, .u64, 8, .ro, .observer, .observer, 0x0, false⟩, -- replay_no_majority (R360)
  ⟨0x4400, 1, 1, 0x0E, 0x0E, .u64, 8, .ro, .observer, .observer, 0x0, false⟩, -- runs_discarded (R360)
  ⟨0x4400, 1, 1, 0x0F, 0x0F, .u64, 8, .ro, .observer, .observer, 0x0, false⟩, -- false_suspects (R360)
  ⟨0x4400, 1, 1, 0x10, 0x10, .u64, 8, .ro, .observer, .observer, 0x0, false⟩, -- tiles_borrowed (R360)
  ⟨0x4400, 1, 1, 0x11, 0x11, .u64, 8, .ro, .observer, .observer, 0x0, false⟩, -- poison_commits (R360)
  ⟨0x4400, 1, 1, 0x12, 0x12, .u64, 8, .ro, .observer, .observer, 0x0, false⟩, -- egress_endings (R360)
  ⟨0x4400, 1, 1, 0x13, 0x13, .u16, 2, .ro, .observer, .observer, 0x0, false⟩, -- replay_queue_peak (R360)
  ⟨0x4401, 1, 1, 0x00, 0x00, .u8, 1, .ro, .observer, .observer, 0x18, false⟩, -- strike_count (R360)
  ⟨0x4401, 1, 1, 0x01, 0x18, .u8, 1, .ro, .observer, .observer, 0x0, true⟩, -- tile_strikes (R360)
  ⟨0x8002, 128, 22, 0x00, 0x00, .u8, 1, .ro, .observer, .observer, 0x7, false⟩, -- step_object_count (R361)
  ⟨0x8002, 128, 22, 0x01, 0x01, .addr64, 8, .rwm, .owner, .observer, 0x0, false⟩, -- step_area (R361)
  ⟨0x8002, 128, 22, 0x02, 0x02, .u32, 4, .rwm, .owner, .observer, 0x100, false⟩, -- step_region_size (R361)
  ⟨0x8002, 128, 22, 0x03, 0x03, .addr64, 8, .rwm, .owner, .observer, 0x0, false⟩, -- commit_mirror_area (R361)
  ⟨0x8002, 128, 22, 0x04, 0x04, .u32, 4, .ro, .observer, .observer, 0x0, false⟩, -- step_pages (R361)
  ⟨0x8002, 128, 22, 0x05, 0x05, .u64, 8, .ro, .observer, .observer, 0x0, false⟩, -- checksum_mismatches (R361)
  ⟨0x8002, 128, 22, 0x06, 0x06, .u8, 1, .ro, .observer, .observer, 0x0, true⟩, -- commit_mirror_state (R361)
  ⟨0x8002, 128, 22, 0x07, 0x07, .time64, 8, .ro, .observer, .observer, 0x0, false⟩, -- last_commit_stamp (R361)
  ⟨0x4100, 1, 2, 0x00, 0x00, .u8, 1, .ro, .observer, .observer, 0x30, false⟩, -- map_count (R377)
  ⟨0x4100, 1, 1, 0x01, 0x16, .u16, 2, .ro, .observer, .observer, 0x0, false⟩, -- core_entry (R377)
  ⟨0x4101, 1, 1, 0x01, 0x16, .u16, 2, .rwm, .owner, .observer, 0x0, false⟩, -- core_entry (R377)
  ⟨0x4100, 1, 2, 0x17, 0x2E, .u16, 2, .ro, .observer, .observer, 0x0, false⟩, -- stack_entry (R377)
  ⟨0x4100, 1, 2, 0x2F, 0x2F, .u32, 4, .ro, .observer, .observer, 0x0, false⟩, -- pool_tiles (R377)
  ⟨0x4100, 1, 2, 0x30, 0x30, .u32, 4, .ro, .observer, .observer, 0x0, true⟩, -- fenced_tiles (R377)
  ⟨0x4000, 1, 1, 0x00, 0x00, .u8, 1, .ro, .observer, .observer, 0x4, false⟩, -- fault_log_count (R378)
  ⟨0x4000, 1, 1, 0x01, 0x01, .octets, 262144, .ro, .observer, .observer, 0x0, false⟩, -- fault_log (R378)
  ⟨0x4000, 1, 1, 0x02, 0x02, .u32, 4, .ro, .observer, .observer, 0x0, false⟩, -- fault_log_next (R378)
  ⟨0x4000, 1, 1, 0x03, 0x03, .u32, 4, .rw, .observer, .observer, 0x0, false⟩, -- fault_entry_select (R378)
  ⟨0x4000, 1, 1, 0x04, 0x04, .octets, 64, .ro, .observer, .observer, 0x0, false⟩, -- fault_entry (R378)
  ⟨0x4001, 1, 1, 0x00, 0x00, .u8, 1, .ro, .observer, .observer, 0x5, false⟩, -- controller_count (R378)
  ⟨0x4001, 1, 1, 0x01, 0x01, .u8, 1, .ro, .observer, .observer, 0x0, true⟩, -- active_controller (R378)
  ⟨0x4001, 1, 1, 0x02, 0x02, .u8, 1, .ro, .observer, .observer, 0x0, true⟩, -- standby_state (R378)
  ⟨0x4001, 1, 1, 0x03, 0x03, .u8, 1, .ro, .observer, .observer, 0x0, false⟩, -- controller_epoch (R378)
  ⟨0x4001, 1, 1, 0x04, 0x04, .u32, 4, .ro, .observer, .observer, 0x0, false⟩, -- takeovers (R378)
  ⟨0x4001, 1, 1, 0x05, 0x05, .u32, 4, .ro, .observer, .observer, 0x0, false⟩ -- heartbeat_path_faults (R378)
]

/-- Listings, part 7. -/
def dict7 : List ObjRow := [
  ⟨0x4002, 1, 1, 0x00, 0x00, .u8, 1, .ro, .observer, .observer, 0x5, false⟩, -- recovery_count (R378)
  ⟨0x4002, 1, 1, 0x01, 0x01, .u32, 4, .rw, .operator, .observer, 0x3E8, false⟩, -- core_watchdog_ms (R378)
  ⟨0x4002, 1, 1, 0x02, 0x02, .u32, 4, .ro, .observer, .observer, 0x0, false⟩, -- recoveries_resumed (R378)
  ⟨0x4002, 1, 1, 0x03, 0x03, .u32, 4, .ro, .observer, .observer, 0x0, false⟩, -- recoveries_not_resumed (R378)
  ⟨0x4002, 1, 1, 0x04, 0x04, .u32, 4, .ro, .observer, .observer, 0x0, false⟩, -- last_recovery_us (R378)
  ⟨0x4002, 1, 1, 0x05, 0x05, .u64, 8, .ro, .observer, .observer, 0x0, false⟩, -- object_log_overflows (R378)
  ⟨0x4300, 1, 1, 0x00, 0x00, .u8, 1, .ro, .observer, .observer, 0x2E, false⟩, -- poison_count (R378)
  ⟨0x4300, 1, 1, 0x01, 0x18, .u64, 8, .ro, .observer, .observer, 0x0, false⟩, -- poison_set_stack (R378)
  ⟨0x4300, 1, 1, 0x19, 0x2E, .u64, 8, .ro, .observer, .observer, 0x0, false⟩, -- poison_set_core (R378)
  ⟨0x3000, 1, 1, 0x00, 0x00, .u8, 1, .ro, .observer, .observer, 0x7, false⟩, -- cap_count (R403)
  ⟨0x3000, 1, 1, 0x01, 0x01, .u32, 4, .rw, .owner, .observer, 0x0, false⟩, -- power_cap (R403)
  ⟨0x3000, 1, 1, 0x02, 0x02, .u8, 1, .ro, .observer, .observer, 0x0, true⟩, -- cap_status (R403)
  ⟨0x3000, 1, 1, 0x03, 0x03, .u32, 4, .ro, .observer, .observer, 0x0, false⟩, -- cap_excess (R403)
  ⟨0x3000, 1, 1, 0x04, 0x04, .u32, 4, .ro, .observer, .observer, 0x0, false⟩, -- input_power (R403)
  ⟨0x3000, 1, 1, 0x05, 0x05, .u8, 1, .ro, .observer, .observer, 0x40, false⟩, -- compute_issue_rate (R403)
  ⟨0x3000, 1, 1, 0x06, 0x06, .u8, 1, .ro, .observer, .observer, 0x0, false⟩, -- cap_step (R403)
  ⟨0x3000, 1, 1, 0x07, 0x07, .u32, 4, .ro, .observer, .observer, 0x0, false⟩, -- cap_unreachable_count (R403)
  ⟨0x3010, 1, 1, 0x00, 0x00, .u8, 1, .ro, .observer, .observer, 0x6, false⟩, -- floor_count (R403)
  ⟨0x3010, 1, 1, 0x01, 0x01, .u32, 4, .rw, .owner, .observer, 0x2BC, false⟩, -- floor_links (R403)
  ⟨0x3010, 1, 1, 0x02, 0x02, .u32, 4, .rw, .owner, .observer, 0x5DC, false⟩, -- floor_memory (R403)
  ⟨0x3010, 1, 1, 0x03, 0x03, .u32, 4, .rw, .owner, .observer, 0x3E8, false⟩, -- floor_compute (R403)
  ⟨0x3010, 1, 1, 0x04, 0x06, .u32, 4, .ro, .observer, .observer, 0x0, false⟩, -- class_grant (R403)
  ⟨0x3020, 1, 1, 0x01, 0xA8, .u32, 4, .ro, .observer, .observer, 0x0, false⟩, -- domain_current (R403)
  ⟨0x3021, 1, 1, 0x01, 0x08, .u32, 4, .ro, .observer, .observer, 0x0, false⟩, -- rail_current (R403)
  ⟨0x3022, 1, 1, 0x00, 0x00, .time64, 8, .ro, .observer, .observer, 0x0, false⟩, -- current_stamp (R403)
  ⟨0x3030, 1, 1, 0x01, 0xA8, .octets, 16, .ro, .observer, .observer, 0x0, false⟩, -- domain_min_voltage (R403)
  ⟨0x3031, 1, 1, 0x01, 0x08, .octets, 16, .ro, .observer, .observer, 0x0, false⟩, -- rail_min_voltage (R403)
  ⟨0x3040, 1, 1, 0x00, 0x00, .u8, 1, .ro, .observer, .observer, 0x2, false⟩, -- energy_count (R403)
  ⟨0x3040, 1, 1, 0x01, 0x01, .u64, 8, .ro, .observer, .observer, 0x0, false⟩, -- energy_mj (R403)
  ⟨0x3040, 1, 1, 0x02, 0x02, .time64, 8, .ro, .observer, .observer, 0x0, false⟩, -- energy_stamp (R403)
  ⟨0x3050, 1, 1, 0x01, 0x18, .u64, 8, .ro, .observer, .observer, 0x0, false⟩, -- droop_stretches (R403)
  ⟨0x3051, 1, 1, 0x01, 0x18, .u64, 8, .ro, .observer, .observer, 0x0, false⟩, -- undervoltage_events (R403)
  ⟨0x3052, 1, 1, 0x01, 0x18, .u8, 1, .ro, .observer, .observer, 0x0, false⟩, -- patina_trim (R403)
  ⟨0x3200, 1, 1, 0x01, 0x18, .f32, 4, .ro, .observer, .observer, 0x0, false⟩, -- tile_temp (R403)
  ⟨0x3201, 1, 1, 0x01, 0x18, .f32, 4, .ro, .observer, .observer, 0x0, false⟩, -- stack_temp (R403)
  ⟨0x3202, 1, 1, 0x01, 0x02, .f32, 4, .ro, .observer, .observer, 0x0, false⟩, -- coolant_temp (R403)
  ⟨0x3203, 1, 1, 0x01, 0x18, .u16, 2, .ro, .observer, .observer, 0xCC40, true⟩, -- thermal_ceiling (R403)
  ⟨0x3204, 1, 1, 0x01, 0x18, .u8, 1, .ro, .observer, .observer, 0x40, false⟩, -- stack_grant_ceiling (R403)
  ⟨0x3300, 1, 1, 0x00, 0x00, .u8, 1, .ro, .observer, .observer, 0x2, false⟩, -- power_state_count (R403)
  ⟨0x3300, 1, 1, 0x01, 0x01, .u8, 1, .ro, .observer, .observer, 0x0, true⟩ -- power_state (R403)
]

/-- Listings, part 8. -/
def dict8 : List ObjRow := [
  ⟨0x3300, 1, 1, 0x02, 0x02, .time64, 8, .ro, .observer, .observer, 0x0, false⟩, -- power_state_stamp (R403)
  ⟨0x3100, 1, 1, 0x00, 0x00, .u8, 1, .ro, .observer, .observer, 0x4, false⟩, -- clock_count (R417)
  ⟨0x3100, 1, 1, 0x01, 0x01, .u8, 1, .rw, .owner, .observer, 0x0, false⟩, -- step_ceiling (R417)
  ⟨0x3100, 1, 1, 0x02, 0x02, .u16, 2, .rwm, .owner, .observer, 0x7D0, false⟩, -- hub_clock_mhz (R417)
  ⟨0x3100, 1, 1, 0x03, 0x03, .u64, 8, .ro, .observer, .observer, 0x0, false⟩, -- step_changes (R417)
  ⟨0x3100, 1, 1, 0x04, 0x04, .u32, 4, .ro, .observer, .observer, 0x0, false⟩, -- step_stop_ns_max (R417)
  ⟨0x3101, 1, 1, 0x01, 0x18, .u8, 1, .ro, .observer, .observer, 0x0, false⟩, -- tile_step (R417)
  ⟨0x3110, 1, 1, 0x00, 0x00, .u8, 1, .ro, .observer, .observer, 0x6, false⟩, -- reference_count (R417)
  ⟨0x3110, 1, 1, 0x01, 0x01, .u8, 1, .rw, .owner, .observer, 0x0, false⟩, -- ref_select (R417)
  ⟨0x3110, 1, 1, 0x02, 0x02, .u8, 1, .ro, .observer, .observer, 0x0, true⟩, -- ref_active (R417)
  ⟨0x3110, 1, 1, 0x03, 0x03, .u8, 1, .ro, .observer, .observer, 0x3, true⟩, -- ref_status (R417)
  ⟨0x3110, 1, 1, 0x04, 0x04, .i32, 4, .ro, .observer, .observer, 0x0, false⟩, -- ref_offset_ppb (R417)
  ⟨0x3110, 1, 1, 0x05, 0x05, .u32, 4, .ro, .observer, .observer, 0x0, false⟩, -- switchovers (R417)
  ⟨0x3110, 1, 1, 0x06, 0x06, .u64, 8, .ro, .observer, .observer, 0x0, false⟩, -- holdover_ns (R417)
  ⟨0x3111, 1, 1, 0x00, 0x00, .u8, 1, .ro, .observer, .observer, 0x3, false⟩, -- health_count (R417)
  ⟨0x3111, 1, 1, 0x01, 0x01, .u8, 1, .rw, .owner, .observer, 0x0, false⟩, -- clock_alarm_primary (R417)
  ⟨0x3111, 1, 1, 0x02, 0x02, .u8, 1, .ro, .observer, .observer, 0x0, true⟩, -- clock_health (R417)
  ⟨0x3111, 1, 1, 0x03, 0x03, .u8, 1, .rw, .operator, .observer, 0x3C, false⟩, -- replica_warn_level (R417)
  ⟨0x3112, 1, 1, 0x01, 0x18, .u16, 2, .ro, .observer, .observer, 0x0, false⟩, -- replica_margin (R417)
  ⟨0x3113, 1, 1, 0x01, 0x18, .u64, 8, .ro, .observer, .observer, 0x0, false⟩, -- replica_warnings (R417)
  ⟨0x3120, 1, 1, 0x00, 0x00, .u8, 1, .ro, .observer, .observer, 0x8, false⟩, -- timebase_count (R417)
  ⟨0x3120, 1, 1, 0x01, 0x01, .time64, 8, .ro, .observer, .observer, 0x0, false⟩, -- timebase_now (R417)
  ⟨0x3120, 1, 1, 0x02, 0x02, .u8, 1, .rw, .operator, .observer, 0xFF, false⟩, -- ptp_source (R417)
  ⟨0x3120, 1, 1, 0x03, 0x03, .u8, 1, .ro, .observer, .observer, 0x0, true⟩, -- ptp_state (R417)
  ⟨0x3120, 1, 1, 0x04, 0x04, .i64, 8, .ro, .observer, .observer, 0x0, false⟩, -- ptp_offset_ns (R417)
  ⟨0x3120, 1, 1, 0x05, 0x05, .i64, 8, .ro, .observer, .observer, 0x0, false⟩, -- timebase_step (R417)
  ⟨0x3120, 1, 1, 0x06, 0x06, .i32, 4, .ro, .observer, .observer, 0x0, false⟩, -- timebase_rate_ppb (R417)
  ⟨0x3120, 1, 1, 0x07, 0x07, .u8, 1, .rw, .operator, .observer, 0x0, false⟩, -- ptp_domain (R417)
  ⟨0x3120, 1, 1, 0x08, 0x08, .time64, 8, .ro, .observer, .observer, 0x0, false⟩, -- pps_in_stamp (R417)
  ⟨0x4200, 1, 1, 0x00, 0x00, .u8, 1, .ro, .observer, .observer, 0x3, false⟩, -- repair_count (R434)
  ⟨0x4200, 1, 1, 0x01, 0x01, .octets, 262144, .ro, .observer, .observer, 0x0, false⟩, -- repair_factory (R434)
  ⟨0x6800, 1, 1, 0x00, 0x00, .octets, 65536, .ro, .observer, .observer, 0x0, false⟩, -- the wear records (R321)
  ⟨0x4200, 1, 1, 0x02, 0x02, .octets, 1048576, .ro, .observer, .observer, 0x0, false⟩, -- repair_in_field (R434)
  ⟨0x4200, 1, 1, 0x03, 0x03, .u32, 4, .ro, .observer, .observer, 0x0, false⟩, -- repair_segments (R434)
  ⟨0x4201, 1, 1, 0x00, 0x00, .octets, 64, .ro, .observer, .observer, 0x0, false⟩, -- variant_record (R434)
  ⟨0x4202, 1, 1, 0x00, 0x00, .u8, 1, .ro, .observer, .observer, 0x6, false⟩, -- boot_count (R434)
  ⟨0x4202, 1, 1, 0x01, 0x01, .u8, 1, .rw, .owner, .observer, 0x0, false⟩, -- boot_slot (R434)
  ⟨0x4202, 1, 1, 0x02, 0x02, .u32, 4, .rw, .operator, .observer, 0x7530, false⟩, -- ptp_lock_wait (R434)
  ⟨0x4202, 1, 1, 0x03, 0x03, .u8, 1, .ro, .observer, .observer, 0x0, false⟩, -- last_start (R434)
  ⟨0x4202, 1, 1, 0x04, 0x04, .u32, 4, .ro, .observer, .observer, 0x0, false⟩, -- last_start_ms (R434)
  ⟨0x4202, 1, 1, 0x05, 0x05, .u32, 4, .ro, .observer, .observer, 0x0, false⟩ -- self_test_findings (R434)
]

/-- Listings, part 9. -/
def dict9 : List ObjRow := [
  ⟨0x4202, 1, 1, 0x06, 0x06, .u32, 4, .ro, .observer, .observer, 0x0, false⟩, -- starts_since_power (R434)
  ⟨0x1040, 1, 1, 0x00, 0x00, .u8, 1, .ro, .observer, .observer, 0x8, false⟩, -- credential_count (R447)
  ⟨0x1040, 1, 1, 0x01, 0x08, .octets, 72, .rw, .owner, .observer, 0x0, false⟩, -- credential (R447)
  ⟨0x1041, 1, 1, 0x00, 0x00, .octets, 16384, .ro, .observer, .observer, 0x0, false⟩, -- device_certificate_chain (R447)
  ⟨0x1060, 1, 1, 0x00, 0x00, .u8, 1, .ro, .observer, .observer, 0x6, false⟩, -- load_count (R447)
  ⟨0x1060, 1, 1, 0x01, 0x01, .u8, 1, .rw, .owner, .observer, 0x0, false⟩, -- load_target (R447)
  ⟨0x1060, 1, 1, 0x02, 0x02, .u32, 4, .rw, .owner, .observer, 0x0, false⟩, -- load_offset (R447)
  ⟨0x1060, 1, 1, 0x03, 0x03, .octets, 1048576, .wo, .owner, .observer, 0x0, false⟩, -- load_chunk (R447)
  ⟨0x1060, 1, 1, 0x04, 0x04, .u8, 1, .cmd, .owner, .observer, 0x0, false⟩, -- load_command (R447)
  ⟨0x1060, 1, 1, 0x05, 0x05, .u8, 1, .ro, .observer, .observer, 0x0, true⟩, -- load_status (R447)
  ⟨0x1060, 1, 1, 0x06, 0x06, .u8, 1, .ro, .observer, .observer, 0x0, false⟩, -- load_failure (R447)
  ⟨0x1061, 1, 1, 0x00, 0x00, .u8, 1, .ro, .observer, .observer, 0x2, false⟩, -- svn_count (R447)
  ⟨0x1061, 1, 1, 0x01, 0x01, .u16, 2, .ro, .observer, .observer, 0x0, false⟩, -- svn_floor (R447)
  ⟨0x1061, 1, 1, 0x02, 0x02, .u8, 1, .cmd, .owner, .observer, 0x0, false⟩, -- svn_advance (R447)
  ⟨0x1070, 1, 1, 0x00, 0x00, .u8, 1, .ro, .observer, .observer, 0x5, false⟩, -- measure_count (R447)
  ⟨0x1070, 1, 1, 0x01, 0x01, .addr64, 8, .rw, .owner, .observer, 0x0, false⟩, -- measure_base (R447)
  ⟨0x1070, 1, 1, 0x02, 0x02, .u32, 4, .rw, .owner, .observer, 0x0, false⟩, -- measure_length (R447)
  ⟨0x1070, 1, 1, 0x03, 0x03, .u8, 1, .cmd, .owner, .observer, 0x0, false⟩, -- measure_apply (R447)
  ⟨0x1070, 1, 1, 0x04, 0x04, .u16, 2, .ro, .observer, .observer, 0x0, false⟩, -- program_log_entries (R447)
  ⟨0x1070, 1, 1, 0x05, 0x05, .octets, 24576, .ro, .observer, .observer, 0x0, false⟩, -- program_log (R447)
  ⟨0x1080, 1, 1, 0x00, 0x00, .u8, 1, .ro, .observer, .observer, 0x5, false⟩, -- debug_count (R447)
  ⟨0x1080, 1, 1, 0x01, 0x01, .octets, 32, .ro, .observer, .owner, 0x0, false⟩, -- debug_challenge (R447)
  ⟨0x1080, 1, 1, 0x02, 0x02, .octets, 640, .wo, .owner, .observer, 0x0, false⟩, -- debug_token (R447)
  ⟨0x1080, 1, 1, 0x03, 0x03, .u16, 2, .ro, .observer, .observer, 0x0, true⟩, -- debug_state (R447)
  ⟨0x1080, 1, 1, 0x04, 0x04, .time64, 8, .ro, .observer, .observer, 0x0, false⟩, -- debug_expiry (R447)
  ⟨0x1080, 1, 1, 0x05, 0x05, .u8, 1, .cmd, .owner, .observer, 0x0, false⟩, -- debug_lock (R447)
  ⟨0x5000, 1, 1, 0x00, 0x00, .u8, 1, .ro, .observer, .observer, 0x4, false⟩, -- monitor_count (R456)
  ⟨0x5000, 1, 1, 0x01, 0x01, .u8, 1, .cmd, .operator, .observer, 0x0, false⟩, -- monitor_snapshot_all (R456)
  ⟨0x5000, 1, 1, 0x02, 0x02, .octets, 16, .rw, .operator, .observer, 0x0, false⟩, -- snapshot_mask (R456)
  ⟨0x5000, 1, 1, 0x03, 0x03, .time64, 8, .rw, .operator, .observer, 0x0, false⟩, -- snapshot_instant (R456)
  ⟨0x5000, 1, 1, 0x04, 0x04, .u64, 8, .ro, .observer, .observer, 0x0, false⟩, -- monitor_dropped_events (R456)
  ⟨0x5100, 1, 128, 0x00, 0x00, .u8, 1, .ro, .observer, .observer, 0xA, false⟩, -- channel_count (R457)
  ⟨0x5100, 1, 128, 0x01, 0x01, .octets, 32, .rw, .operator, .observer, 0x0, false⟩, -- mon_config (R457)
  ⟨0x5100, 1, 128, 0x02, 0x02, .time64, 8, .rw, .operator, .observer, 0x0, false⟩, -- window_start (R457)
  ⟨0x5100, 1, 128, 0x03, 0x03, .time64, 8, .rw, .operator, .observer, 0x0, false⟩, -- window_end (R457)
  ⟨0x5100, 1, 128, 0x04, 0x04, .u64, 8, .rw, .operator, .observer, 0x0, false⟩, -- window_period (R457)
  ⟨0x5100, 1, 128, 0x05, 0x05, .u8, 1, .cmd, .owner, .observer, 0x0, false⟩, -- mon_command (R457)
  ⟨0x5100, 1, 128, 0x06, 0x06, .octets, 56, .ro, .observer, .observer, 0x0, false⟩, -- live_summary (R457)
  ⟨0x5100, 1, 128, 0x07, 0x07, .octets, 384, .ro, .observer, .observer, 0x0, false⟩, -- live_bins (R457)
  ⟨0x5100, 1, 128, 0x08, 0x08, .octets, 440, .ro, .observer, .observer, 0x0, true⟩ -- snapshot (R457)
]

/-- Listings, part 10. -/
def dict10 : List ObjRow := [
  ⟨0x5100, 1, 128, 0x09, 0x09, .u32, 4, .ro, .observer, .observer, 0x0, false⟩, -- snapshot_seq (R457)
  ⟨0x5100, 1, 128, 0x0A, 0x0A, .u8, 1, .ro, .observer, .observer, 0x0, false⟩, -- mon_state (R457)
  ⟨0x4601, 1, 1, 0x00, 0x00, .u8, 1, .ro, .observer, .observer, 0x26, false⟩, -- highest subindex (R34, R275)
  ⟨0x4602, 1, 1, 0x00, 0x00, .u8, 1, .ro, .observer, .observer, 0x26, false⟩, -- highest subindex (R34, R275)
  ⟨0x2640, 1, 32, 0x00, 0x00, .u8, 1, .ro, .observer, .observer, 0x80, false⟩, -- highest subindex (R34, R320)
  ⟨0x2500, 1, 32, 0x00, 0x00, .u8, 1, .ro, .observer, .observer, 0x80, false⟩, -- highest subindex (R34, R341)
  ⟨0x2520, 1, 32, 0x00, 0x00, .u8, 1, .ro, .observer, .observer, 0x80, false⟩, -- highest subindex (R34, R341)
  ⟨0x3020, 1, 1, 0x00, 0x00, .u8, 1, .ro, .observer, .observer, 0xA8, false⟩, -- highest subindex (R34, R403)
  ⟨0x3021, 1, 1, 0x00, 0x00, .u8, 1, .ro, .observer, .observer, 0x8, false⟩, -- highest subindex (R34, R403)
  ⟨0x3030, 1, 1, 0x00, 0x00, .u8, 1, .ro, .observer, .observer, 0xA8, false⟩, -- highest subindex (R34, R403)
  ⟨0x3031, 1, 1, 0x00, 0x00, .u8, 1, .ro, .observer, .observer, 0x8, false⟩, -- highest subindex (R34, R403)
  ⟨0x3050, 1, 1, 0x00, 0x00, .u8, 1, .ro, .observer, .observer, 0x18, false⟩, -- highest subindex (R34, R403)
  ⟨0x3051, 1, 1, 0x00, 0x00, .u8, 1, .ro, .observer, .observer, 0x18, false⟩, -- highest subindex (R34, R403)
  ⟨0x3052, 1, 1, 0x00, 0x00, .u8, 1, .ro, .observer, .observer, 0x18, false⟩, -- highest subindex (R34, R403)
  ⟨0x3200, 1, 1, 0x00, 0x00, .u8, 1, .ro, .observer, .observer, 0x18, false⟩, -- highest subindex (R34, R403)
  ⟨0x3201, 1, 1, 0x00, 0x00, .u8, 1, .ro, .observer, .observer, 0x18, false⟩, -- highest subindex (R34, R403)
  ⟨0x3202, 1, 1, 0x00, 0x00, .u8, 1, .ro, .observer, .observer, 0x2, false⟩, -- highest subindex (R34, R403)
  ⟨0x3203, 1, 1, 0x00, 0x00, .u8, 1, .ro, .observer, .observer, 0x18, false⟩, -- highest subindex (R34, R403)
  ⟨0x3204, 1, 1, 0x00, 0x00, .u8, 1, .ro, .observer, .observer, 0x18, false⟩, -- highest subindex (R34, R403)
  ⟨0x3101, 1, 1, 0x00, 0x00, .u8, 1, .ro, .observer, .observer, 0x18, false⟩, -- highest subindex (R34, R417)
  ⟨0x3112, 1, 1, 0x00, 0x00, .u8, 1, .ro, .observer, .observer, 0x18, false⟩, -- highest subindex (R34, R417)
  ⟨0x3113, 1, 1, 0x00, 0x00, .u8, 1, .ro, .observer, .observer, 0x18, false⟩ -- highest subindex (R34, R417)
]

/-- Every listing. -/
def dictRows : List ObjRow :=
  dict1 ++ dict2 ++ dict3 ++ dict4 ++ dict5 ++ dict6 ++ dict7 ++ dict8 ++ dict9 ++ dict10

/-- Whether a row lists an object, the places within its families apart. -/
def ObjRow.covers (r : ObjRow) (idx sub : Nat) : Bool :=
  decide (r.lo ≤ idx) && (idx - r.lo) % r.stride == 0 && decide ((idx - r.lo) / r.stride < r.count)
    && decide (r.slo ≤ sub) && decide (sub ≤ r.shi)

/-- Port configuration objects that do not apply to a port (R319): the host objects but for H0, the T1S objects but for M0 and M1,
what needs CTP, PTP or a transceiver for M0 and M1 (R314). They read 0 and take no write. -/
def portUnused (idx sub : Nat) : Bool :=
  let p := idx - 0x2600
  decide (0x2600 ≤ idx ∧ p < 19) &&
    (if p < 17 then sub = 0x0B || sub = 0x0C || (p ≠ 0 && (sub = 0x04 || sub = 0x06 || sub = 0x07 || sub = 0x0A))
    else !(sub = 0 || sub = 0x01 || sub = 0x0B || sub = 0x0C))

/-- M0 and M1 implement three subindices of the port status (R321). -/
def portLimited (idx sub : Nat) : Bool := (idx = 0x6440 || idx = 0x6480) && !(sub = 0x01 || sub = 0x06 || sub = 0x07)

/-- The listing of an object (R34); none where the manual lists none. -/
def objRow (idx sub : Nat) : Option ObjRow :=
  if portLimited idx sub then none else dictRows.find? (·.covers idx sub)

/-- Whether an index is in any listing (R60). -/
def objIndexListed (idx : Nat) : Bool :=
  dictRows.any fun r => decide (r.lo ≤ idx) && (idx - r.lo) % r.stride == 0 && decide ((idx - r.lo) / r.stride < r.count)

/-- Key of an object in the tables of active values and maquette edits. -/
def okey (idx sub : Nat) : Nat := idx * 256 + sub

/-- Defaults that a listing takes from the repair record, the variant record, flash or bring-up, or gives by port:
a factory-new PA24-M (log 3, DESIGN CHOICE where the manual states no value). -/
def specialDefault (idx sub : Nat) : Option Nat :=
  if portUnused idx sub then some 0
  else if idx = 0x1002 then some (ofLE (asciiBytes ['P', 'A', '2', '4', '-', 'M']))
  else if idx = 0x4201 then
    some (ofLE (padTo 8 (asciiBytes ['P', 'A', '2', '4', '-', 'M']) ++ List.replicate 16 0x30 ++ toLE 4 12000 ++ toLE 2 1 ++ toLE 1 12))
  else if idx = 0x1003 then some (ofLE (List.replicate 16 0x30))
  else if 0x8000 ≤ idx ∧ idx < 0x8B00 ∧ idx % 0x80 = 0 ∧ sub = 0x05 then some 0x0100010001000100
  else if 0x4500 ≤ idx ∧ idx < 0x4518 ∧ sub = 0x03 then
    some ((List.range 6).foldl (fun a f => a + 32 * 2 ^ (10 * f)) 0)
  else if 0x2611 ≤ idx ∧ idx ≤ 0x2612 ∧ sub = 0x01 then some 0x10
  else if idx = 0x2612 ∧ sub = 0x0B then some 1
  else if (idx = 0x4100 ∨ idx = 0x4101) ∧ 0x01 ≤ sub ∧ sub ≤ 0x16 then some (sub - 1)
  else if (idx = 0x4100 ∨ idx = 0x4101) ∧ 0x17 ≤ sub ∧ sub ≤ 0x2E then some (sub - 0x17)
  else if (idx = 0x4100 ∨ idx = 0x4101) ∧ sub = 0x2F then some 0xC00000
  else if idx = 0x3000 ∧ sub = 0x01 then some 12000
  else if idx = 0x3100 ∧ sub = 0x01 then some 12
  else none

/-- The value an object holds after a cold boot, before any write (R37); 0 where it is not listed. -/
def objDefault (idx sub : Nat) : Nat :=
  match specialDefault idx sub with
  | some v => v
  | none => ((objRow idx sub).map (·.default)).getD 0

/-- The default at a key. -/
def keyDefault (k : Nat) : Nat := objDefault (k / 256) (k % 256)

/-- Bytes of a value of a listing: the type's size, the listed length, or the bytes a string needs (R35). -/
def ObjRow.bytes (r : ObjRow) (v : Nat) : Nat :=
  match r.type with
  | .string => byteLen v
  | _ => r.size

end Sys2Proof.Machine
end

