-- ==== Sys2Proof/Machine/Ops.lean ====
section
/-! DEFINITION. Named operations over the state: dictionary values, events and the fault log, cores and maps, the address checks of R25,
memory with poison, mirrors and page images. -/

namespace Sys2Proof.Machine

open Sys2Proof

/-! ### Dictionary values -/

/-- The active value of an object. 0x4101 has the active map of 0x4100 as its active value (R377). -/
def State.get (s : State) (idx sub : Nat) : Nat :=
  let i := if idx = 0x4101 then 0x4100 else idx
  Tab.get (objDefault i sub) s.obj (okey i sub)

/-- Set the active value of an object. -/
def State.put (s : State) (idx sub v : Nat) : State :=
  { s with obj := Tab.set (objDefault idx sub) s.obj (okey idx sub) v }

/-- The maquette value of an object: its edit, or the active value (R36, R58). -/
def State.maqGet (s : State) (idx sub : Nat) : Nat := Tab.get (s.get idx sub) s.maq (okey idx sub)

/-- Whether a swap acts on an object though it is written with the value it has: port_mode and wear_policy (R295, R318). -/
def rewriteActs (idx sub : Nat) : Bool := decide (0x2600 ≤ idx ∧ idx < 0x2611) && (sub = 1 || sub = 9)

/-- Write the maquette: only differences from the active set are held (R36, R58), and what a swap rewrites. -/
def State.maqPut (s : State) (idx sub v : Nat) : State :=
  let others := s.rewritten.filter (· ≠ okey idx sub)
  { s with maq := Tab.set (s.get idx sub) s.maq (okey idx sub) v
           rewritten := if rewriteActs idx sub && s.get idx sub = v then others ++ [okey idx sub] else others }

/-- What has left the device grows at its end. -/
def State.emit (s : State) (e : Emit) : State := { s with out := s.out ++ [e] }

/-- The EVENT unit of R43 and R48; of a value longer than 8 bytes it carries the low 8 (DESIGN CHOICE, log 90). -/
def eventUnit (e : Event) : TchUnit :=
  { version := 1, service := 0x10, transaction := 0, status := 0, response := true, maquette := false, envelope := false
    last := false, reserved := 0, length := 16, index := BitVec.ofNat 16 e.index, subindex := BitVec.ofNat 8 e.sub
    type := BitVec.ofNat 8 (((objRow e.index e.sub).map (·.type.code)).getD 0), param := BitVec.ofNat 32 e.seq
    data := toLE 8 e.stamp ++ toLE 8 e.value }

/-- Send an event to one subscriber, if the subscriber object names one (R48). -/
def State.eventTo (e : Event) (s : State) (k : Nat) : State :=
  if s.get 0x1030 (k + 1) = 0 then s
  else { s.emit (.event k (eventUnit e)) with unacked := s.unacked ++ [⟨k, e.seq, 0, s.now⟩] }

/-- An event: numbered, logged among the last 256, sent to every subscriber (R48); with no controller left there is none (R375). -/
def State.event (s : State) (idx sub value : Nat) : State :=
  if s.unmanaged then s
  else
  let e : Event := ⟨s.eventSeq, idx, sub, s.now, value % 2 ^ 64⟩
  let log := s.events ++ [e]
  let s := { s with eventSeq := (s.eventSeq + 1) % 2 ^ 32, events := log.drop (log.length - 256) }
  (List.range 8).foldl (State.eventTo e) s

/-- Change an object's active value; an object listed as evented raises an event when it changes (R48). -/
def State.change (s : State) (idx sub v : Nat) : State :=
  if s.get idx sub = v then s
  else
    let s := s.put idx sub v
    if ((objRow idx sub).map (·.evented)).getD false then s.event idx sub v else s

/-- Add to a counter object of n bits, wrapping. -/
def State.count (s : State) (idx sub n d : Nat) : State := s.put idx sub ((s.get idx sub + d) % 2 ^ n)

/-- Add 1 to a 32-bit count of rare events, saturating (R416). -/
def State.countRare (s : State) (idx sub : Nat) : State := s.put idx sub (satAdd 32 (s.get idx sub) 1)

/-- Add 1 to a 64-bit counter object. -/
def State.bump (s : State) (idx sub : Nat) : State := s.count idx sub 64 1

/-! ### The fault log (R363, R364) -/

/-- What a fault log entry says; the fields' "none" codes are the defaults. -/
structure FaultInfo where
  cls : Nat
  action : Nat := 0
  tile : Nat := 0xFF
  core : Nat := 0xFF
  stack : Nat := 0xFF
  layer : Nat := 0xFF
  job : Nat := 0xFF
  port : Nat := 0xFF
  link : Nat := 0xFF
  address : Nat := 0
  detail : Bytes := []
  cause : Nat := 0xFFFFFFFF
  deriving DecidableEq, Repr

/-- The 64 bytes of a fault log entry (R363). -/
def FaultInfo.bytes (f : FaultInfo) (stamp entry controller : Nat) : Bytes :=
  toLE 8 stamp ++ toLE 4 entry
    ++ [f.cls, f.action, f.tile, f.core, f.stack, f.layer, f.job, f.port, f.link, controller].map (BitVec.ofNat 8 ·)
    ++ toLE 2 0 ++ toLE 8 f.address ++ padTo 16 f.detail ++ toLE 4 f.cause ++ toLE 12 0

/-- Write a fault log entry, the last 4,096 kept, evented (R48, R363); with no controller left nothing is written (R375). -/
def State.fault (s : State) (f : FaultInfo) : State :=
  if s.unmanaged then s
  else
  let b := f.bytes s.now s.faultNext (s.get 0x4001 0x01)
  let log := s.faults ++ [ofLE b]
  let n := s.faultNext
  ({ s with faults := log.drop (log.length - 4096), faultNext := n + 1 }).event 0x4000 0x01 n

/-! ### Cores and maps -/

/-- Index of the per-core objects of chapter 6; + 1 scratchpad, + 2 steps. -/
def coreObj (c : Nat) : Nat := 0x8000 + 0x80 * c

/-- The module leaves Idle by itself when an array streams; neither change of Idle is evented or stamped (R393, R394, R403). -/
def State.leaveIdle (s : State) : State := if s.get 0x3300 0x01 = 1 then s.put 0x3300 0x01 0 else s

/-- A core of the state. -/
def State.core (s : State) (c : Nat) : Core := Tab.get {} s.cores c

/-- Replace a core. -/
def State.setCore (s : State) (c : Nat) (k : Core) : State := { s with cores := Tab.set {} s.cores c k }

/-- Change a core. -/
def State.updCore (s : State) (c : Nat) (f : Core → Core) : State := s.setCore c (f (s.core c))

/-- Set core_state, which is evented (R164). -/
def State.setCoreState (s : State) (c v : Nat) : State :=
  if (s.core c).state = v then s
  else (s.updCore c fun k => { k with state := v }).event (coreObj c) 0x01 v

/-- Physical tile of a logical core (R377). -/
def State.tileOf (s : State) (c : Nat) : Nat := bits (s.get 0x4100 (c + 1)) 0 5

/-- Whether a logical core is out of service (R20, R377). -/
def State.coreOut (s : State) (c : Nat) : Bool := bit (s.get 0x4100 (c + 1)) 8

/-- Whether a tile is fenced. -/
def State.tileFenced (s : State) (h : Nat) : Bool := bit (s.get 0x4100 0x30) h

/-- Whether a tile is in the replay pool. -/
def State.tileInPool (s : State) (h : Nat) : Bool := bit (s.get 0x4100 0x2F) h

/-- Whether a logical core's tile is fenced. -/
def State.coreFenced (s : State) (c : Nat) : Bool := s.tileFenced (s.tileOf c)

/-- The logical core a tile carries (R9, R19). -/
def State.coreOn (s : State) (h : Nat) : Option Nat :=
  (List.range 22).find? fun c => s.tileOf c = h && !s.coreOut c

/-- Physical tile of a logical stack. -/
def State.stackTile (s : State) (k : Nat) : Nat := bits (s.get 0x4100 (k + 0x17)) 0 5

/-- The logical stack above a tile. -/
def State.stackOn (s : State) (h : Nat) : Nat := ((List.range 24).find? fun k => s.stackTile k = h).getD h

/-- Whether a logical stack is lost (R233, R377). -/
def State.stackLost (s : State) (k : Nat) : Bool := bit (s.get 0x4100 (k + 0x17)) 8

/-- Whether a layer of a stack is lost (R232, R377). -/
def State.layerLost (s : State) (k l : Nat) : Bool := bit (s.get 0x4100 (k + 0x17)) (5 + l)

/-- Layers of a stack that are in service. -/
def State.layersUp (s : State) (k : Nat) : List Nat := (List.range 3).filter fun l => !s.layerLost k l

/-- A physical tile beside its objects. -/
def State.tile (s : State) (h : Nat) : Tile := Tab.get {} s.tiles h

/-- Change a physical tile beside its objects. -/
def State.updTile (s : State) (h : Nat) (f : Tile → Tile) : State := { s with tiles := Tab.upd {} s.tiles h f }

/-- State code of a scratchpad group (R205). -/
def State.groupState (s : State) (c g : Nat) : Nat := bits (s.get (coreObj c + 1) 0x03) (4 * g) 4

/-- Set state codes of the groups of a mask; group_state is evented (R205, R206). -/
def State.setGroups (s : State) (c : Nat) (f : Nat → Nat → Nat) : State :=
  s.change (coreObj c + 1) 0x03
    ((List.range 8).foldl (fun v g => setBits v (4 * g) 4 (f g (bits v (4 * g) 4))) (s.get (coreObj c + 1) 0x03))

/-! ### Jobs -/

/-- Job-table values: 0x2000 + j. -/
def State.jobGet (s : State) (j sub : Nat) : Nat := s.get (0x2000 + j) sub

/-- The job's logical cores, ascending. -/
def State.jobCores (s : State) (j : Nat) : List Nat := setPositions 22 (s.jobGet j 0x02)

/-- The lead core of a job (R29). -/
def State.lead (s : State) (j : Nat) : Nat := (s.jobCores j).headD 0

/-- job_state (R340). -/
def State.jobState (s : State) (j : Nat) : Nat := s.jobGet j 0x0D

/-- Set job_state, which is evented. -/
def State.setJobState (s : State) (j v : Nat) : State := s.change (0x2000 + j) 0x0D v

/-- What a job carries beside its record. -/
def State.job (s : State) (j : Nat) : Job := Tab.get {} s.jobs j

/-- Change what a job carries. -/
def State.updJob (s : State) (j : Nat) (f : Job → Job) : State := { s with jobs := Tab.upd {} s.jobs j f }

/-- Sixteen memory ranges of a job: base and length, unused ones left out (R340). -/
def rangesOf (v : Nat) : List (Nat × Nat) :=
  ((List.range 16).map fun i => (bits v (128 * i) 64, bits v (128 * i + 64) 64)).filter fun r => r.2 ≠ 0

/-- Job entry address of a core (R340). -/
def State.jobEntry (s : State) (j c : Nat) : Nat := bits (s.jobGet j 0x0A) (64 * c) 64

/-! ### Unified addresses (R24, R25) -/

/-- SPACE of an address. -/
def spaceOf (a : Nat) : Nat := bits a 60 4

/-- Logical stack of a device-memory address. -/
def stackOf (a : Nat) : Nat := bits a 37 5

/-- Offset of a device-memory address. -/
def dramOffset (a : Nat) : Nat := bits a 0 37

/-- Logical core of a scratchpad address. -/
def spCore (a : Nat) : Nat := bits a 26 5

/-- Offset of a scratchpad address. -/
def spOffset (a : Nat) : Nat := bits a 0 26

/-- Logical core of an object address. -/
def syncCore (a : Nat) : Nat := bits a 14 9

/-- Index of an object address. -/
def syncIndex (a : Nat) : Nat := bits a 0 14

/-- A scratchpad address. -/
def spAddr (c off : Nat) : Nat := 2 ^ 60 + c * 2 ^ 26 + off

/-- A device-memory address. -/
def dramAddr (k off : Nat) : Nat := k * 2 ^ 37 + off

/-- An object address. -/
def syncAddr (c i : Nat) : Nat := 2 * 2 ^ 60 + c * 2 ^ 14 + i

/-- Tile status codes (R174). -/
inductive Status where
  | ok | badOpcode | format | fieldRange | formatRole | addrReserved | addrRange | protection | coreOutOfService
  | stackLost | coreFenced | latchInvalid | spReserved | bankClosed | poison | arithTrap | stepState | loopNest
  | waitTimeout | windowRefused | remoteUnreachable | barrierOverrun | groupMismatch | syncKind | contextInvalid
  deriving DecidableEq, Repr

/-- Code of a status (R174). -/
def Status.code : Status → Nat
  | .ok => 0 | .badOpcode => 1 | .format => 2 | .fieldRange => 3 | .formatRole => 4 | .addrReserved => 5
  | .addrRange => 6 | .protection => 7 | .coreOutOfService => 8 | .stackLost => 9 | .coreFenced => 0xA
  | .latchInvalid => 0xB | .spReserved => 0xC | .bankClosed => 0xD | .poison => 0xE | .arithTrap => 0xF
  | .stepState => 0x10 | .loopNest => 0x11 | .waitTimeout => 0x12 | .windowRefused => 0x13
  | .remoteUnreachable => 0x14 | .barrierOverrun => 0x15 | .groupMismatch => 0x16 | .syncKind => 0x17
  | .contextInvalid => 0x18

/-- Check 1 of R25: SPACE reserved or a reserved bit nonzero. -/
def addrReserved (a : Nat) : Bool :=
  match spaceOf a with
  | 0 => bits a 42 18 ≠ 0
  | 1 => bits a 31 29 ≠ 0
  | 2 => bits a 23 37 ≠ 0
  | 4 => false
  | _ => true

/-- Check 2 of R25: STACK, CORE or OFFSET out of range. -/
def addrOut (a : Nat) : Bool :=
  match spaceOf a with
  | 0 => 24 ≤ stackOf a || 0x1800000000 ≤ dramOffset a
  | 1 => 22 ≤ spCore a
  | 2 => 22 ≤ syncCore a
  | _ => false

/-- What an address may not leave: its stack, core or window. -/
def addrRegion (a : Nat) : Nat :=
  match spaceOf a with
  | 0 => a / 2 ^ 37
  | 1 => a / 2 ^ 26
  | 2 => a / 2 ^ 14
  | _ => a / 2 ^ 36

/-- The last address of a range of n bytes; an object counts as 8 bytes (R25). -/
def lastOf (a n : Nat) : Nat := if spaceOf a = 2 then a + (ceilDiv n 8 - 1) else a + (n - 1)

/-- Check 3 of R25 for a job: its memory ranges and its core set (R26, R340). -/
def State.granted (s : State) (j a : Nat) : Bool :=
  match spaceOf a with
  | 0 => (rangesOf (s.jobGet j 0x0B)).any fun r => decide (r.1 ≤ a) && decide (a < r.1 + r.2)
  | 1 => (s.jobCores j).contains (spCore a)
  | 2 => (s.jobCores j).contains (syncCore a)
  | _ => true

/-- A mirror entry in use: its primary and mirror bases, its length (R246). -/
def mirrorEntry (v : Nat) : Option (Nat × Nat × Nat) :=
  if bit v 192 then some (bits v 0 64, bits v 64 64, bits v 128 37) else none

/-- The mirror entries of the active set, by their numbers. -/
def State.mirrors (s : State) : List (Nat × Nat × Nat × Nat) :=
  (Tab.range s.obj (okey 0x2700 1) 64).filterMap fun k => (mirrorEntry k.2).map fun m => (k.1 - okey 0x2700 1, m)

/-- mirror_state of an entry (R248). -/
def State.mirrorState (s : State) (e : Nat) : Nat := s.get 0x2702 (e + 1)

/-- The mirror entry whose primary range holds an address, with the mirrored address (R247). -/
def State.mirrorOf (s : State) (a : Nat) : Option (Nat × Nat) :=
  s.mirrors.findSome? fun (e, p, m, n) => if p ≤ a ∧ a < p + n then some (e, a - p + m) else none

/-- Whether an address lies in some mirror range (R247). -/
def State.inMirrorRange (s : State) (a : Nat) : Bool :=
  s.mirrors.any fun (_, _, m, n) => decide (m ≤ a) && decide (a < m + n)

/-- Whether a stack interleaves over two layers (R234, R248). -/
def State.twoLayer (s : State) (k : Nat) : Bool := bit (s.get 0x2701 0x03) k

/-- Whether an offset lies in the system region of a stack: 1 GiB of layer L1 above every unified address, which holds a journal partition of 512 MiB,
256 MiB of deduplication and completion records, and 256 MiB reserved (R244; its place above the last offset is the model's, log 89). -/
def inSystemRegion (a : Nat) : Bool := spaceOf a = 0 && decide (0x1800000000 ≤ dramOffset a ∧ dramOffset a < 0x1840000000)

/-- Layer a device-memory address lies in (R226, R234, R244). -/
def State.layerOf (s : State) (a : Nat) : Nat :=
  let page := dramOffset a / 4096
  if inSystemRegion a then 1
  else if s.twoLayer (stackOf a) then
    ((List.range 3).filter fun l => l + 1 ≠ Tab.get 0 s.leftOut (stackOf a)).getD (page % 2) 0
  else page % 3

/-- Offset of a device-memory address within its layer; the system region follows the addressable 32 GiB (R225, R226, R234). -/
def State.layerOffset (s : State) (a : Nat) : Nat :=
  let o := dramOffset a
  if inSystemRegion a then 2 ^ 35 + (o - 0x1800000000)
  else o / 4096 / (if s.twoLayer (stackOf a) then 2 else 3) * 4096 + o % 4096

/-- Whether a device-memory address is on a lost layer or in a lost stack. -/
def State.locationLost (s : State) (a : Nat) : Bool :=
  s.stackLost (stackOf a) || s.layerLost (stackOf a) (s.layerOf a)

/-- Whether a stack refuses an address altogether: lost, being reformatted, or beyond a two-layer stack's range (R233, R234). -/
def State.stackRefuses (s : State) (a : Nat) : Bool :=
  s.stackLost (stackOf a) || s.reformatting.contains (stackOf a)
    || (s.twoLayer (stackOf a) && decide (0x1000000000 ≤ dramOffset a))

/-- Check 4 of R25 for one address: a mirrored range whose mirror survives is served (R21, R247). -/
def State.serviceStatus (s : State) (a : Nat) : Status :=
  match spaceOf a with
  | 0 =>
    if s.stackRefuses a then
      match s.mirrorOf a with
      | some (_, m) => if s.stackRefuses m || s.layerLost (stackOf m) (s.layerOf m) then .stackLost else .ok
      | none => .stackLost
    else .ok
  | 1 => if s.coreOut (spCore a) then .coreOutOfService else .ok
  | 2 => if s.coreOut (syncCore a) then .coreOutOfService else .ok
  | _ => .ok

/-- The first check that fails of a list of (fails, status) pairs. -/
def firstFail : List (Bool × Status) → Status
  | [] => .ok
  | (b, st) :: r => if b then st else firstFail r

/-- The checks of R25 on the range of n bytes at a, for a job, in order, each at the first and at the last byte; an address has 64 bits, and a
range that passes their end crosses a boundary. -/
def State.addrCheck (s : State) (j a n : Nat) : Status :=
  let z := lastOf a n
  let svc := if s.serviceStatus a ≠ .ok then s.serviceStatus a else s.serviceStatus z
  firstFail [
    (addrReserved a || addrReserved (z % 2 ^ 64), .addrReserved),
    (decide (2 ^ 64 ≤ z) || addrOut a || addrRegion z ≠ addrRegion a || addrOut z, .addrRange),
    (!s.granted j a || !s.granted j z, .protection),
    (svc ≠ .ok, svc)]

/-! ### Memory with poison (R213, R239, R247) -/

/-- Whether an entry's survivor is its mirror range (R247). -/
def State.mirrorSurvivor (s : State) (e : Nat) : Bool := Tab.get false s.survivors e

/-- Where a read of a memory address is served: the address itself, its mirror where the primary is lost, or nowhere (R232, R247). -/
def State.served (s : State) (a : Nat) : Option Nat :=
  if spaceOf a ≠ 0 then some a
  else
    match s.mirrorOf a with
    | some (e, m) =>
      let lost := s.locationLost a
      let lostM := s.locationLost m
      if s.mirrorState e = 2 ∨ s.mirrorState e = 3 then
        (if s.mirrorSurvivor e then (if lostM then none else some m) else if lost then none else some a)
      else if lost then (if lostM then none else some m) else some a
    | none => if s.locationLost a then none else some a

/-- One byte of memory: zero data on a lost layer (R232). -/
def State.readByte (s : State) (a : Nat) : Byte :=
  match s.served a with
  | some b => Tab.get 0 s.mem b
  | none => 0

/-- n bytes of memory. -/
def State.readBytes (s : State) (a n : Nat) : Bytes := (List.range n).map fun i => s.readByte (a + i)

/-- Poison of the granule that holds an address, as a read sees it (R213, R232). -/
def State.poisonAt (s : State) (a : Nat) : Bool :=
  match s.served a with
  | some b => Tab.get false s.poison (b / 64)
  | none => true

/-- Granule addresses that a range of n bytes touches. -/
def granules (a n : Nat) : List Nat := (List.range ((a % 64 + n + 63) / 64)).map fun i => (a / 64 + i) * 64

/-- Whether a range of n bytes holds a poisoned granule. -/
def State.anyPoison (s : State) (a n : Nat) : Bool := n ≠ 0 && (granules a n).any fun g => s.poisonAt g

/-- Count stored poison bits that are newly set (R239, R378). -/
def State.countPoison (s : State) (g n : Nat) : State :=
  if spaceOf g = 0 then s.count 0x4300 (stackOf g + 1) 64 n else if spaceOf g = 1 then s.count 0x4300 (spCore g + 0x19) 64 n else s

/-- Count the poison bits that n bytes at a have and had not in an earlier state (R239, R378). -/
def State.countNewPoison (s old : State) (a n : Nat) : State :=
  s.countPoison a ((Tab.range s.poison (a / 64) (n / 64)).filter fun e => !Tab.get false old.poison e.1).length

/-- Store a poison bit of a granule. -/
def State.setPoison (s : State) (g : Nat) (b : Bool) : State :=
  let old := Tab.get false s.poison (g / 64)
  let s := { s with poison := Tab.set false s.poison (g / 64) b }
  if b && !old then s.countPoison g 1 else s

/-- Poison of a granule after a write into it: what the data carries for a whole granule, the OR for a part (R213, R239). -/
def State.mergePoison (s : State) (a n : Nat) (p : Bool) (g : Nat) : State :=
  if a ≤ g ∧ g + 64 ≤ a + n then s.setPoison g p else if p then s.setPoison g true else s

/-- Put bytes into memory at one place. -/
def State.setBytes (s : State) (a : Nat) (bs : Bytes) : State :=
  { s with mem := (bs.foldl (fun (st : Nat × List Host.Cell) b => (st.1 + 1, Tab.set 0 st.2 st.1 b)) (a, s.mem)).2 }

/-- Store bytes at one place with their poison, with no regard to mirrors. -/
def State.storeAt (s : State) (a : Nat) (bs : Bytes) (p : Bool) : State :=
  let s := s.setBytes a bs
  if bs.isEmpty then s else (granules a bs.length).foldl (fun s g => s.mergePoison a bs.length p g) s

/-- Count bytes written to a stack, mirror writes too (R249). -/
def State.countWritten (s : State) (a n : Nat) : State :=
  if spaceOf a = 0 then s.count (0x4500 + stackOf a) 0x0C 64 n else s

/-- Count bytes read from the stack that serves them (R247, R249). -/
def State.countRead (s : State) (a n : Nat) : State :=
  match s.served a with
  | some b => if spaceOf b = 0 then s.count (0x4500 + stackOf b) 0x0B 64 n else s
  | none => s

/-- Copy n bytes with their poison, whole granules, from one place to another. -/
def State.copyMem (s : State) (src dst n : Nat) : State :=
  { s with mem := Tab.copyRange 0 s.mem src dst n
           poison := Tab.copyRange false s.poison (src / 64) (dst / 64) (n / 64) }.countNewPoison s dst n

/-- Store bytes at the first of some places; the granules that result go to the others (R247). -/
def State.storePlaces (s : State) (ws : List Nat) (bs : Bytes) (p : Bool) : State :=
  match ws with
  | [] => s
  | w :: r =>
    let n := 64 * (granules w bs.length).length
    r.foldl (fun s v => (s.copyMem (w / 64 * 64) (v / 64 * 64) n).countWritten v n) ((s.storeAt w bs p).countWritten w bs.length)

/-- Where a write to a memory address is made: itself and its mirror, or the survivor alone, a survivor that is being copied first; nowhere on a lost
layer (R232, R247). -/
def State.writePlaces (s : State) (a : Nat) : List Nat :=
  if spaceOf a ≠ 0 then [a]
  else
    match s.mirrorOf a with
    | some (e, m) =>
      let here := if s.locationLost a then [] else [a]
      let there := if s.locationLost m then [] else [m]
      if s.mirrorState e = 2 then (if s.mirrorSurvivor e then there else here)
      else if s.mirrorSurvivor e then there ++ here else here ++ there
    | none => if s.locationLost a then [] else [a]

/-- Write one piece that lies in one 4 KiB page; whether it was refused for a lost layer (R232). -/
def State.writePiece (s : State) (a : Nat) (bs : Bytes) (p : Bool) : State × Bool :=
  match s.writePlaces a with
  | [] => (s, true)
  | ws => (s.storePlaces ws bs p, false)

/-- Cut a run of bytes at multiples of n, with as many steps as bytes. -/
def piecesGo (n : Nat) : Nat → Nat → Bytes → List (Nat × Bytes)
  | 0, _, _ => []
  | f + 1, a, bs =>
    if bs.isEmpty then [] else
      let k := n - a % n
      (a, bs.take k) :: piecesGo n f (a + k) (bs.drop k)

/-- Cut a run of bytes at multiples of n. -/
def pieces (n a : Nat) (bs : Bytes) : List (Nat × Bytes) := piecesGo n bs.length a bs

/-- Write bytes with poison, piece by piece; whether a piece was refused for a lost layer (R232). -/
def State.writeBytes (s : State) (a : Nat) (bs : Bytes) (p : Bool) : State × Bool :=
  (pieces 4096 a bs).foldl (fun st pc => let r := st.1.writePiece pc.1 pc.2 p; (r.1, st.2 || r.2)) (s, false)

/-- The image of the 4 KiB page at a page address, as it is served (R247, R348). -/
def State.pageImage (s : State) (page : Nat) : PageImage :=
  match s.served page with
  | some p => ⟨(Tab.range s.mem p 4096).map fun e => (e.1 - p, e.2), (Tab.range s.poison (p / 64) 64).map fun e => (e.1 - p / 64, e.2)⟩
  | none => {}

/-- Put a page image at one place. -/
def State.putImage (s : State) (w : Nat) (i : PageImage) : State :=
  { s with
    mem := Tab.copyInto 0 i.cells s.mem 0 w 4096
    poison := Tab.copyInto false i.poison s.poison 0 (w / 64) 64 }.countNewPoison s w 4096

/-- Put a page back as its image holds it, at every place where it is written (R247, R355, R368). -/
def State.restorePage (s : State) (page : Nat) (i : PageImage) : State :=
  (s.writePlaces page).foldl (fun s w => (s.putImage w i).countWritten w 4096) s

/-- Fill n bytes with zeros and clear poison. -/
def State.zeroMem (s : State) (a n : Nat) : State :=
  { s with mem := Tab.clearRange s.mem a n, poison := Tab.clearRange s.poison (a / 64) (n / 64) }

/-! ### Scratchpad layout -/

/-- Groups of the span that a group belongs to, under a layout (R199). -/
def spanOf (layout g : Nat) : List Nat :=
  let n := match bits layout (3 * g) 3 with
    | 2 => 2
    | 3 => 4
    | 4 => 8
    | _ => 1
  (List.range n).map fun i => g / n * n + i

/-- Layout in force (R200). -/
def State.layoutApplied (s : State) (c : Nat) : Nat := s.get (coreObj c + 1) 0x02

/-- Zero a group (R200, R205). -/
def State.zeroGroup (s : State) (c g : Nat) : State := s.zeroMem (spAddr c (g * 2 ^ 23)) (2 ^ 23)

/-- Apply a core's sp_layout: groups whose code changes are zero-filled (R200). -/
def State.applyLayout (s : State) (c : Nat) : State :=
  let new := s.get (coreObj c + 1) 0x01
  let old := s.layoutApplied c
  let s := (List.range 8).foldl (fun s g => if bits new (3 * g) 3 = bits old (3 * g) 3 then s else s.zeroGroup c g) s
  s.put (coreObj c + 1) 0x02 new

/-- Whether a layout is held for a core (R200). -/
def State.layoutHeld (s : State) (c : Nat) : Bool := s.get (coreObj c + 1) 0x01 ≠ s.layoutApplied c

/-- Whether a layout may be applied now: the core is idle, fenced or out of service (R200). -/
def State.layoutFree (s : State) (c : Nat) : Bool := [0, 5, 6].contains (s.core c).state

/-- Bank and row of a scratchpad address, under the layout in force (R198, R199). -/
def State.bankRow (s : State) (a : Nat) : Nat × Nat :=
  let lay := s.layoutApplied (spCore a)
  let g := spOffset a / 2 ^ 23
  if bits lay (3 * g) 3 = 0 then (8 * g + spOffset a % 2 ^ 23 / 2 ^ 20, spOffset a % 2 ^ 20 / 64)
  else
    let span := spanOf lay g
    let g0 := span.headD g
    let n := 8 * span.length
    let k := (spOffset a - g0 * 2 ^ 23) / 64
    (8 * g0 + k % n, k / n)

end Sys2Proof.Machine
end

