-- ==== Sys2Proof/Machine/Mesh.lean ====
section
/-! DEFINITION. The armature as requests meet it: hubs and links, their states, and the way that the route tables in force give from one hub to
another (R250, R254, R260, R261, R263). -/

namespace Sys2Proof.Machine

open Sys2Proof

/-! ### Hubs -/

/-- The hub that serves an address (R241). -/
def State.hubOf (s : State) (a : Nat) : Nat := if spaceOf a = 0 then s.stackTile (stackOf a) else s.tileOf (spCore a)

/-- State of a hub: 0 in service, 1 in reset, 2 dead. -/
def State.hub (s : State) (h : Nat) : Nat := Tab.get 0 s.hubs h

/-- The route table's port at a hub toward another in the escape class, and whether the primary path is blocked (R260). -/
def State.routePort (s : State) (h d : Nat) : Nat × Bool :=
  let t := s.get 0x2800 (h + 1)
  (bits t (8 * d) 8, bit t (192 + d))

/-- ATTACH in force for a hub: where ring traffic for it enters the armature (R273). -/
def State.attachIn (s : State) (h : Nat) : Nat := bits (s.get 0x2800 (h + 1)) 216 8

/-! ### Links -/

/-- Row of a tile. -/
def tileY (h : Nat) : Nat := h / 4
/-- Column of a tile. -/
def tileX (h : Nat) : Nat := h % 4

/-- The hub at a port of a hub: 1 N, 2 E, 3 S, 4 W (R250, R260). -/
def neighbour (h p : Nat) : Option Nat :=
  match p with
  | 1 => if tileY h < 5 then some (h + 4) else none
  | 2 => if tileX h < 3 then some (h + 1) else none
  | 3 => if 0 < tileY h then some (h - 4) else none
  | 4 => if 0 < tileX h then some (h - 1) else none
  | _ => none

/-- The link at a port of a hub, for a port that leads to a hub (R250). -/
def linkAt (h p : Nat) : Nat :=
  match p with
  | 1 => 18 + h
  | 2 => 3 * tileY h + tileX h
  | 3 => 18 + (h - 4)
  | _ => 3 * tileY h + (tileX h - 1)

/-- Direction of the link at a port: 0 +, 1 − (R250). -/
def portDir (p : Nat) : Nat := if p = 1 ∨ p = 2 then 0 else 1

/-- The two hubs of a link, the one with the lower index first (R250). -/
def linkEnds (l : Nat) : Nat × Nat := if l < 18 then (l / 3 * 4 + l % 3, l / 3 * 4 + l % 3 + 1) else (l - 18, l - 14)

/-- The hub that sends on a direction of a link, and the one that receives. -/
def linkHubs (l d : Nat) : Nat × Nat := if d = 0 then linkEnds l else ((linkEnds l).2, (linkEnds l).1)

/-- Number of a direction (R364). -/
def LinkDir.code : Sys2Proof.LinkDir → Nat
  | .plus => 0
  | .minus => 1

/-- State of one direction of a link: 0 full, 1 half, 2 down, 3 lost with its field (R275). -/
def State.linkState (s : State) (l d : Nat) : Nat := bits (s.get 0x4600 (l + 1)) (16 + 2 * d) 2

/-- Whether routing treats a link as down (R254, R263). -/
def State.linkDown (s : State) (l : Nat) : Bool :=
  decide (2 ≤ s.linkState l 0) || decide (2 ≤ s.linkState l 1) || s.hub (linkEnds l).1 = 2 || s.hub (linkEnds l).2 = 2

/-- One direction of a link. -/
def State.linkSide (s : State) (l d : Nat) : LinkSide := Tab.get {} s.links (2 * l + d)

/-- Change one direction of a link. -/
def State.updLink (s : State) (l d : Nat) (f : LinkSide → LinkSide) : State :=
  { s with links := Tab.upd {} s.links (2 * l + d) f }

/-- Port by dimension order: x first, then y, then local (R260). -/
def primaryPort (h d : Nat) : Nat :=
  if tileX h < tileX d then 2 else if tileX d < tileX h then 4 else if tileY h < tileY d then 1 else if tileY d < tileY h then 3 else 0

/-- Mesh hops between two tiles. -/
def hops (g h : Nat) : Nat :=
  (tileX g - tileX h) + (tileX h - tileX g) + (tileY g - tileY h) + (tileY h - tileY g)

/-- The tile of a list nearest to one, the first of equals. -/
def nearestTile (h : Nat) (l : List Nat) : Option Nat :=
  l.foldl (fun b g => match b with
    | none => some g
    | some x => if hops h g < hops h x then some g else b) none

/-! ### The way of a packet -/

/-- Whether no route leads from a hub to another (R260, R261). -/
def State.cutOff (s : State) (h d : Nat) : Bool := h ≠ d && s.routePort h d = (7, true)

/-- Whether a packet of a class at a hub comes to another by the tables in force: every link on its way is up and every hub between serves
(R260, R263). -/
def State.travels (s : State) (escape : Bool) (d : Nat) : Nat → Nat → Bool
  | 0, h => h = d
  | f + 1, h =>
    if h = d then true
    else
      let p := if escape then (s.routePort h d).1 else primaryPort h d
      match neighbour h p with
      | none => false
      | some n => !s.linkDown (linkAt h p) && (n = d || s.hub n = 0) && s.travels escape d f n

/-- Whether a packet that enters the armature at a hub comes to another: BLOCKED there chooses its class, and a hub in reset sends nothing (R241, R260). -/
def State.pathOpen (s : State) (h d : Nat) : Bool := h = d || (s.hub h = 0 && s.travels (s.routePort h d).2 d 24 h)

end Sys2Proof.Machine
end

