-- ==== Sys2Proof/Machine/Watch.lean ====
section
/-! DEFINITION. What a monitor channel watches (R448): its configuration record (R455), whether its source can give events, and the mark on
every channel whose source stops giving them. -/

namespace Sys2Proof.Machine

open Sys2Proof

/-- Index of the objects of channel c (R457). -/
def monObj (c : Nat) : Nat := 0x5100 + c

/-- Configuration record of a channel. -/
def State.monConfig (s : State) (c : Nat) : Nat := s.get (monObj c) 0x01

/-- SOURCE of a configuration record (R455). -/
def monSource (v : Nat) : Nat := bits v 0 8
/-- INSTANCE. -/
def monInstance (v : Nat) : Nat := bits v 8 16
/-- ENABLE. -/
def monEnable (v : Nat) : Bool := bit v 24
/-- HIST_MODE: log2. -/
def monLog2 (v : Nat) : Bool := bit v 25
/-- SHIFT. -/
def monShift (v : Nat) : Nat := bits v 32 6
/-- SAMPLE_SHIFT. -/
def monSample (v : Nat) : Nat := bits v 40 5
/-- BASE. -/
def monBase (v : Nat) : Int := toSigned 64 (bits v 64 64)
/-- WIDTH. -/
def monWidth (v : Nat) : Nat := bits v 128 32

/-- Whether a source has an instance (R448). -/
def monInstanceOk (source i : Nat) : Bool :=
  match source with
  | 0x00 | 0x15 => i = 0
  | 0x01 => decide (i ≤ 16) || i = 0xFFFF
  | 0x02 | 0x04 => decide (i ≤ 21)
  | 0x03 | 0x05 => decide (i ≤ 23)
  | 0x10 | 0x11 => decide (i ≤ 175)
  | 0x12 => decide (i ≤ 49)
  | 0x13 => decide (i / 8 ≤ 21 ∧ 1 ≤ i % 8 ∧ i % 8 ≤ 5)
  | 0x14 => decide (i ≤ 16)
  | _ => false

/-- Whether every field of a configuration record lies in its range (R454, R455); a channel without a source needs no bin width. -/
def monConfigOk (v : Nat) : Bool :=
  monInstanceOk (monSource v) (monInstance v) && decide (monSample v ≤ 20)
    && (if monLog2 v then decide (monShift v ≤ 40) && monWidth v = 0 && bits v 64 64 = 0
        else monShift v = 0 && (monSource v = 0 || decide (1 ≤ monWidth v)))

/-- Whether a core can give events: in service and not fenced (R448). -/
def State.coreGives (s : State) (c : Nat) : Bool := !s.coreOut c && !s.coreFenced c

/-- Whether a tile can give readings: its field is not lost. -/
def State.fieldUp (s : State) (h : Nat) : Bool := !bit s.lostFields h

/-- Whether a port has not failed. -/
def State.portGives (s : State) (p : Nat) : Bool := s.get (0x6000 + 0x40 * p) 0x01 ≠ 4

/-- Whether a source can give events: its part is not fenced, lost or out of service (R448). -/
def State.sourceUp (s : State) (source i : Nat) : Bool :=
  match source with
  | 0x01 => i = 0xFFFF || s.portGives i
  | 0x02 | 0x04 => s.coreGives i
  | 0x03 => !s.stackLost i
  | 0x05 => Tab.get 0 s.hubs i ≠ 2 && s.fieldUp i
  | 0x10 | 0x11 =>
    if 168 ≤ i then true
    else if i % 7 ≤ 1 then s.fieldUp (i / 7) && !s.tileFenced (i / 7)
    else if 5 ≤ i % 7 then !s.stackLost (s.stackOn (i / 7))
    else s.fieldUp (i / 7)
  | 0x12 =>
    if i < 24 then s.fieldUp i && !s.tileFenced i else if i < 48 then !s.stackLost (s.stackOn (i - 24)) else true
  | 0x13 => s.coreGives (i / 8)
  | 0x14 => s.portGives i
  | 0x15 => (List.range 12).any fun p => !Tab.get false s.intake.lostPartitions p && !Tab.get false s.intake.lostPartitions (p + 12)
  | _ => true

/-- Whether the source of a channel can give events. -/
def State.channelUp (s : State) (c : Nat) : Bool := s.sourceUp (monSource (s.monConfig c)) (monInstance (s.monConfig c))

/-- The enabled channels. -/
def State.channels128 (s : State) : List Nat :=
  ((Tab.range s.obj (okey 0x5100 0) (128 * 256)).filter fun e => e.1 % 256 = 1 && monEnable e.2).map fun e => e.1 / 256 - 0x5100

/-- FLAGS bit 3 of every channel whose source gives no events now (R455). -/
def State.watch (s : State) : State :=
  { s with monitors := s.channels128.foldl (fun t c =>
      if s.channelUp c then t else Tab.upd {} t c fun m => { m with flags := setBit m.flags 3 true }) s.monitors }

end Sys2Proof.Machine
end

