-- ==== Sys2Proof/Machine/Sync.lean ====
section
/-! DEFINITION. Synchronisation objects (chapter 11): images, signals, barriers, waits, object logs. -/

namespace Sys2Proof.Machine

open Sys2Proof

/-- Key of an object image. -/
def syncKey (c i : Nat) : Nat := c * 16384 + i

/-- Image of an object. -/
def State.syncGet (s : State) (c i : Nat) : Nat := Tab.get 0 s.sync (syncKey c i)

/-- Set the image of an object. -/
def State.syncSet (s : State) (c i v : Nat) : State := { s with sync := Tab.set 0 s.sync (syncKey c i) v }

/-- KIND of an image. -/
def imgKind (v : Nat) : Nat := bits v 62 2
/-- GENERATION of a barrier image. -/
def imgGen (v : Nat) : Nat := bits v 32 16
/-- PARTICIPANTS of a barrier image. -/
def imgParts (v : Nat) : Nat := bits v 20 11
/-- EARLY of a barrier image. -/
def imgEarly (v : Nat) : Nat := bits v 10 10
/-- ARRIVED of a barrier image. -/
def imgArrived (v : Nat) : Nat := bits v 0 10

/-- A barrier image. -/
def barrierImage (gen parts early arrived : Nat) : Nat :=
  2 ^ 62 + gen % 2 ^ 16 * 2 ^ 32 + parts % 2 ^ 11 * 2 ^ 20 + early % 2 ^ 10 * 2 ^ 10 + arrived % 2 ^ 10

/-- Whether an image is valid (R276). -/
def imgValid (v : Nat) : Bool :=
  bits v 48 14 = 0 &&
    match imgKind v with
    | 0 => bits v 32 16 = 0
    | 1 => !bit v 31 && decide (1 ≤ imgParts v ∧ imgParts v ≤ 1024) && decide (imgEarly v ≤ imgArrived v)
        && decide (imgArrived v < imgParts v)
    | 2 => bits v 1 47 = 0
    | _ => false

/-- Complete generations while ARRIVED = PARTICIPANTS (R283). -/
def completeGenerations : Nat → Nat → Nat
  | 0, v => v
  | f + 1, v =>
    if imgArrived v = imgParts v then
      completeGenerations f (barrierImage (imgGen v + 1) (imgParts v) 0 (imgEarly v))
    else v

/-- What became of a signal at its object: applied, of the wrong kind, an overrun (R279, R283), or refused because the window's owner does not run
there (R289). -/
inductive SignalResult where
  | ok
  | kindError
  | overrun
  | refused
  deriving DecidableEq, Repr

/-- An arrival at a barrier with expected generation g (R283); none counts toward the current generation (R282). PARTICIPANTS may be
1,024, one more than ARRIVED can hold, so the count that completes a generation is compared before it is stored. -/
def arrive (v : Nat) (g : Option Nat) : Nat × SignalResult :=
  let gen := imgGen v
  let g := g.getD gen % 2 ^ 16
  if g = gen then
    if imgArrived v + 1 = imgParts v then
      (completeGenerations 1024 (barrierImage (gen + 1) (imgParts v) 0 (imgEarly v)), .ok)
    else (barrierImage gen (imgParts v) (imgEarly v) (imgArrived v + 1), .ok)
  else if g = (gen + 1) % 2 ^ 16 ∧ imgEarly v < imgArrived v then
    (barrierImage gen (imgParts v) (imgEarly v + 1) (imgArrived v), .ok)
  else (v, .overrun)

/-- One signal at an object image (R279): kind 0 add, 1 arrive, 2 set flag. -/
def applySignal (v kind value : Nat) (g : Option Nat) : Nat × SignalResult :=
  if imgKind v ≠ kind then (v, .kindError)
  else match kind with
    | 0 => ((v + value) % 2 ^ 32, .ok)
    | 1 => arrive v g
    | _ => (2 * 2 ^ 62 + (if value = 0 then 0 else 1), .ok)

/-- Complete the current generation of a barrier by hand (R290). -/
def forceGeneration (v : Nat) : Nat :=
  completeGenerations 1024 (barrierImage (imgGen v + 1) (imgParts v) 0 (imgEarly v))

/-- What a logged entry does to an image (R367): a signal, an image written by hand (kind 3), a generation completed by hand (kind 4). -/
def LogEntry.apply (e : LogEntry) (v : Nat) : Nat × SignalResult :=
  match e.kind with
  | 3 => (e.value, .ok)
  | 4 => (forceGeneration v, .ok)
  | _ => applySignal v e.kind e.value e.gen

/-- Whether a wait condition holds (R284); none where the kinds do not match. -/
def waitHolds (v kind target : Nat) : Option Bool :=
  if imgKind v ≠ kind then none
  else match kind with
    | 0 => some (decide ((v % 2 ^ 32 + 2 ^ 32 - target % 2 ^ 32) % 2 ^ 32 < 2 ^ 31))
    | 1 => some (decide ((imgGen v + 2 ^ 16 - target % 2 ^ 16) % 2 ^ 16 < 2 ^ 15))
    | _ => some (decide (v % 2 = target))

/-- Whether a logged entry may be folded: untagged, or its tag has committed (R367). -/
def State.tagCommitted (s : State) (tag : Option (Nat × Nat)) : Bool :=
  match tag with
  | none => true
  | some (c, n) => decide (n < (s.core c).interval)

/-- Fold the oldest committed or untagged entries of each object into its image (R367). -/
def State.foldLog (s : State) (l : ObjectLog) : ObjectLog :=
  let r := l.entries.foldl (fun (st : List LogEntry × Tab (Option Nat)) e =>
    if st.1.any (·.index = e.index) || !s.tagCommitted e.tag then (st.1 ++ [e], st.2)
    else (st.1, Tab.upd none st.2 e.index fun i => i.map fun v => (e.apply v).1)) ([], l.images)
  ⟨r.1, r.2.filter fun i => r.1.any (·.index = i.1)⟩

/-- After a commit, the logs of a job's cores are folded, and the unrecoverable mark goes once none of its entries remain (R367). -/
def State.foldLogs (s : State) (cs : List Nat) (j : Nat) : State :=
  let s : State := { s with objLog := cs.foldl (fun t c => Tab.upd {} t c (State.foldLog s)) s.objLog }
  if cs.all fun c => (Tab.get {} s.objLog c).entries.isEmpty then s.updJob j fun b => { b with unrecoverable := false } else s

/-- Log a signal applied to an object (R367): a full log marks the job unrecoverable. -/
def State.logSignal (s : State) (c index kind value : Nat) (gen : Option Nat) (tag : Option (Nat × Nat)) (old : Nat) : State :=
  let j := (s.core c).job
  if j = 0xFF then s
  else
    let l := Tab.get {} s.objLog c
    if 8192 ≤ l.entries.length then ((s.updJob j fun b => { b with unrecoverable := true }).bump 0x4002 0x05)
    else
      let images := if (Tab.get none l.images index).isNone then Tab.set none l.images index (some old) else l.images
      { s with objLog := Tab.set {} s.objLog c (s.foldLog ⟨l.entries ++ [⟨index, kind, value, gen, tag, s.now⟩], images⟩) }

/-- Apply one signal at its object unit, counting it (R279 to R283, R293). -/
def State.applyAt (s : State) (c index kind value : Nat) (gen : Option Nat) (tag : Option (Nat × Nat)) : State × SignalResult :=
  let old := s.syncGet c index
  let r := applySignal old kind value gen
  match r.2 with
  | .ok => (((s.syncSet c index r.1).logSignal c index kind value gen tag old).bump 0x7000 0x01, .ok)
  | .kindError => (s.bump 0x7000 0x04, .kindError)
  | .overrun => (s.bump 0x7000 0x03, .overrun)
  | .refused => (s, .refused)

/-- Whether a core's objects answer a window of a job now (R289). -/
def State.objectsOf (s : State) (c j : Nat) : Bool := (s.core c).job = j && s.jobState j ≠ 5

/-- Entry of a window in the active set (R215, R223). -/
def State.window (s : State) (w : Nat) : Nat := s.get (0x2400 + w / 128) (1 + w % 128)

/-- OWNER_JOB of a window entry. -/
def winOwner (v : Nat) : Nat := bits v 136 6

/-- Apply a signal that has reached its object unit; one through a window only where the window's owner still runs (R289). -/
def State.applySent (s : State) (g : Signal) : State × SignalResult :=
  if g.win.any fun x => !s.objectsOf g.core (winOwner (s.window x.window)) then (s, .refused)
  else s.applyAt g.core g.index g.kind g.value g.gen g.tag

/-- Whether a core's objects can be reached: its field is not lost (R271). -/
def State.stationUp (s : State) (c : Nat) : Bool := !bit s.lostFields (s.tileOf c)

/-- Evaluate the waits on one core's objects that have changed, once (R285): those that hold before their deadline send a wake notice,
those of another kind end with SYNC_KIND. -/
def State.evalWaits (s : State) (c : Nat) (changed : List Nat) : State :=
  s.waits.foldl (fun s w =>
    if syncCore w.object = c ∧ changed.contains (syncIndex w.object) then
      match waitHolds (s.syncGet c (syncIndex w.object)) w.kind w.target with
      | none => { s.bump 0x7000 0x04 with
                  waits := s.waits.filter (· ≠ w), wakes := s.wakes ++ [⟨w.core, w.engine, w.opcode, w.object, false⟩] }
      | some true =>
        if w.frozen.isSome ∨ s.now < w.deadline then
          { s with waits := s.waits.filter (· ≠ w), wakes := s.wakes ++ [⟨w.core, w.engine, w.opcode, w.object, true⟩] }
        else s
      | some false => s
    else s) s

/-- Register a wait with its object's hub, which evaluates it (R285): met, of the wrong kind, or outstanding; a hub of a lost field answers nothing. -/
def State.registerWait (s : State) (w : Wait) : State × Option Bool :=
  if !s.stationUp (syncCore w.object) then ({ s with waits := s.waits ++ [w] }, some false)
  else match waitHolds (s.syncGet (syncCore w.object) (syncIndex w.object)) w.kind w.target with
  | none => (s.bump 0x7000 0x04, none)
  | some true => (s, some true)
  | some false => ({ s with waits := s.waits ++ [w] }, some false)

/-- The object-unit port on which a signal arrives from another tile (R280, R472): N 1, E 2, S 3, W 4; the local port 0. -/
def arrivalPort (src dst : Nat) : Nat :=
  if src = dst then 0
  else if tileY src < tileY dst then 3
  else if tileY dst < tileY src then 1
  else if tileX src < tileX dst then 4
  else 2

/-- The tile that a port's ring station is joined to, and the object-unit port of its side (R472): S for y = 0, N for y = 5, W for x = 0, E for x = 3;
port 16 at the W side of tile 0. -/
def portStop (p : Nat) : Nat × Nat :=
  if p = 16 then (0, 4)
  else
    let h := [0, 1, 2, 3, 4, 7, 8, 11, 12, 15, 16, 19, 20, 21, 22, 23].getD p 0
    (h, if tileY h = 0 then 3 else if tileY h = 5 then 1 else if tileX h = 0 then 4 else 2)

/-- The object-unit port on which a signal arrives that entered at a port's stop (R280, R472). -/
def stopPort (p dst : Nat) : Nat := if (portStop p).1 = dst then (portStop p).2 else arrivalPort (portStop p).1 dst

/-- The tag of what a core does now: its uncommitted interval (R367). -/
def State.tagOf (s : State) (c : Nat) : Nat × Nat := (c, (s.core c).interval)

/-- A signal enters the control plane, which a lost field's station has left (R271, R280). -/
def State.queueSignal (s : State) (g : Signal) : State := if s.stationUp g.core then { s with signals := s.signals ++ [g] } else s

/-- Send a signal from a core to an object of the module (R149, R278, R280), through a window where it is one of the module's own (R288). -/
def State.sendSignal (s : State) (origin target index kind value : Nat) (gen : Option Nat) (src : SignalFrom)
    (tag : Option (Nat × Nat)) (win : Option WinAccess) : State :=
  s.queueSignal ⟨target, index, kind, value, gen, arrivalPort (s.tileOf origin) (s.tileOf target), tag, src, win⟩

/-- Default wait timeout of a job in nanoseconds (R286, R340). -/
def State.waitDefault (s : State) (j : Nat) : Nat := s.jobGet j 0x06 * 1000

/-- The signals one port takes this cycle: the oldest of that port for the core (R280). -/
def takeSignal (c p : Nat) (l : List Signal) : Option Signal := l.find? fun g => g.core = c && g.port = p

/-- Apply the signals of the chosen ports in port order (R280); each signal taken, with its result. -/
def State.takeSignals (s : State) (c : Nat) (ports : List Nat) : State × List (Signal × SignalResult) :=
  ports.foldl (fun (st : State × List (Signal × SignalResult)) p =>
    match takeSignal c p st.1.signals with
    | none => st
    | some g =>
      let a := State.applySent { st.1 with signals := st.1.signals.erase g } g
      (a.1, st.2 ++ [(g, a.2)])) (s, [])

/-- The objects that a cycle's signals have changed. -/
def changedBy (rs : List (Signal × SignalResult)) : List Nat := (rs.filter fun x => x.2 = .ok).map fun x => x.1.index

/-- A cycle of an object unit: the signals of the chosen ports, then waits once (R280, R285). -/
def State.signalCycle (s : State) (c : Nat) (ports : List Nat) : State × List (Signal × SignalResult) :=
  let r := s.takeSignals c ports
  (r.1.evalWaits c (changedBy r.2), r.2)

/-- Set every object of a core to the all-zero image, and forget its log (R278). -/
def State.clearObjects (s : State) (c : Nat) : State :=
  { s with sync := Tab.clearRange s.sync (syncKey c 0) 16384, objLog := Tab.set {} s.objLog c {} }

/-- One entry of an object initialisation list (R278): image, index, core; none where it breaks the rules. -/
def initEntry (cores : List Nat) (bs : Bytes) : Option (Nat × Nat × Nat) :=
  let v := leAt bs 0 8
  let i := leAt bs 8 2
  let c := leAt bs 10 1
  if imgValid v && leAt bs 11 5 = 0 && decide (i < 16384) && cores.contains c
      && (imgKind v ≠ 1 || (imgArrived v = 0 && imgEarly v = 0)) then some (v, i, c)
  else none

/-- Object initialisation of a job (R278): every object zero, then the list in order; the first failing entry otherwise, with the
objects left zero. -/
def State.initObjects (s : State) (j : Nat) : State × Option Nat :=
  let cores := s.jobCores j
  let z := cores.foldl (fun s c => s.clearObjects c) s
  let base := s.jobGet j 0x07
  let n := s.jobGet j 0x08
  if base = 0 then (z, none)
  else
    let r := (List.range n).foldl (fun (st : State × Option Nat) k =>
      match st.2 with
      | some _ => st
      | none =>
        let a := base + 16 * k
        if z.stackRefuses a || z.anyPoison a 16 then (st.1, some k)
        else match initEntry cores (z.readBytes a 16) with
          | some (v, i, c) => (st.1.syncSet c i v, none)
          | none => (st.1, some k)) (z, none)
    match r.2 with
    | none => r
    | some k => (z, some k)

end Sys2Proof.Machine
end

