-- ==== Sys2Proof/Machine/Channel.lean ====
section
/-! DEFINITION. Below the commands: the repair record (R423, R424), the vertical channels with their spares (R228 to R231), the loss of layers and
stacks (R232, R233, R245, R247), and what a transfer or a read of memory meets (R235, R236, R238, R239). -/

namespace Sys2Proof.Machine

open Sys2Proof

/-! ### The repair record (R423, R424) -/

/-- What names the item of a repair entry: its type, its tile and the part of its payload that says which; a cleared tile and a fenced one are the
same item (R424). -/
def repairItem (e : Bytes) : Bytes :=
  let type := leAt e 8 1
  let n := match type with
    | 1 => 3
    | 2 => 4
    | 3 => 4
    | 4 => 7
    | 5 => 3
    | 6 => 1
    | _ => 0
  toLE 1 (if type = 8 then 7 else type) ++ (e.drop 9).take (1 + n)

/-- The entries still in force, a later one for an item in place of an earlier (R424). -/
def inForce : List Bytes → List Bytes
  | [] => []
  | e :: r => if (r.map repairItem).contains (repairItem e) then inForce r else e :: inForce r

/-- Bytes of flash that segments take: entries, the hash of the segment before and the signature (R423, R437). -/
def segmentBytes (l : List (List Bytes)) : Nat := (l.map fun g => 32 * g.length + 576).sum

/-- Append one segment to the in-field part; past 3 MiB the other area takes one compacted segment (R424). -/
def State.appendSegment (s : State) (es : List Bytes) : State :=
  let l := s.repair.inField ++ [es]
  if 3 * 2 ^ 20 < segmentBytes l then { s with repair := { s.repair with inField := [inForce l.flatten], area := 1 - s.repair.area } }
  else { s with repair := { s.repair with inField := l } }

/-- The 32 bytes of a repair entry (R424). -/
def repairEntry (stamp type tile : Nat) (payload : Bytes) : Bytes :=
  toLE 8 stamp ++ [BitVec.ofNat 8 type, BitVec.ofNat 8 tile] ++ padTo 22 payload

/-- Append one entry to the in-field repair record, in a segment of its own (R423, R424). -/
def State.appendRepair (s : State) (type tile : Nat) (payload : Bytes) : State :=
  s.appendSegment [repairEntry s.now type tile payload]

/-! ### State objects -/

/-- Change a field of layer_state of one layer (R249). -/
def State.setLayerField (s : State) (k l lo n v : Nat) : State :=
  s.change (0x4500 + k) 0x02 (setBits (s.get (0x4500 + k) 0x02) (8 * l + lo) n v)

/-- stack_state follows the map and the widths (R249). -/
def State.showStack (s : State) (k : Nat) : State :=
  let w := s.get (0x4500 + k) 0x02
  let degraded := (List.range 3).any fun l => s.layerLost k l || bits w (8 * l) 4 ≠ 0
  s.change (0x4500 + k) 0x01 (if s.stackLost k then 2 else if degraded then 1 else 0)

/-- Number of a direction: 0 read, 1 write (R364). -/
def Dir.code : Sys2Proof.Dir → Nat
  | .read => 0
  | .write => 1

/-- Place of a direction of a layer among the vertical channels. -/
def channelNo (k l d : Nat) : Nat := (3 * k + l) * 2 + d

/-- A vertical channel. -/
def State.channel (s : State) (k l d : Nat) : Channel := Tab.get {} s.channels (channelNo k l d)

/-- Change a vertical channel. -/
def State.updChannel (s : State) (k l d : Nat) (f : Channel → Channel) : State :=
  { s with channels := Tab.upd {} s.channels (channelNo k l d) f }

/-- Width code of a count of good links (R231). -/
def widthOf (good : Nat) : Nat := if 512 ≤ good then 0 else if 256 ≤ good then 1 else 2

/-- Good links of a direction, of 512 for the positions and 32 spares (R228). -/
def Channel.good (c : Channel) : Nat := 544 - c.failed.length

/-- Whether a direction has fallen to half width (R231). -/
def Channel.half (c : Channel) : Bool := decide (c.good < 512)

/-- Link positions in use (R228). -/
def Channel.positions (c : Channel) : Nat := if c.half then 256 else 512

/-- The physical link that the crossbar assigns to a position. -/
def Channel.linkOf (c : Channel) (p : Nat) : Nat := Tab.get p c.map p

/-- Whether a link carries a position or is being trained for one. -/
def Channel.used (c : Channel) (x : Nat) : Bool :=
  c.map.any (·.2 = x) || c.pending.any (·.2 = x) || (decide (x < c.positions) && !c.map.any (·.1 = x))

/-- The spare that a failed position is given: the lowest good link in no use (R229; DESIGN CHOICE, log 91). -/
def Channel.spare (c : Channel) : Option Nat := (List.range 544).find? fun x => !c.failed.contains x && !c.used x

/-- Assign a link to a position. -/
def Channel.assign (c : Channel) (p x : Nat) : Channel := { c with map := Tab.set p c.map p x }

/-- The 256 positions of half width filled from every good link, in order (R231; DESIGN CHOICE, log 91). -/
def Channel.halve (c : Channel) : Channel :=
  let good := (List.range 544).filter fun x => !c.failed.contains x
  ((List.range 256).zip good).foldl (fun c x => c.assign x.1 x.2) { c with map := [], pending := [], charges := [] }

/-- A direction as a bring-up wires it around its failed links (R426). -/
def Channel.wired (failed : List Nat) : Channel :=
  let c : Channel := { failed := failed }
  if c.half then c.halve
  else (failed.filter (· < 512)).foldl (fun c p => match c.spare with
    | some x => c.assign p x
    | none => c) c

/-- Show the free links, the width and the pending swaps of a direction (R249). -/
def State.showChannel (s : State) (k l d : Nat) : State :=
  let c := s.channel k l d
  let s := s.put (0x4500 + k) 0x03 (setBits (s.get (0x4500 + k) 0x03) (20 * l + 10 * d) 10 (c.good - c.positions))
  let s := s.setLayerField k l (2 * d) 2 (widthOf c.good)
  s.setLayerField k l 4 1 (if (s.channel k l 0).pending.isEmpty && (s.channel k l 1).pending.isEmpty then 0 else 1)

/-! ### Mirrored ranges -/

/-- Set mirror_state and which range survives (R247). -/
def State.setMirror (s : State) (e state : Nat) (mirrorSurvives : Bool) : State :=
  ({ s with survivors := Tab.set false s.survivors e mirrorSurvives }).change 0x2702 (e + 1) state

/-- Whether a range of one stack has lost some of its pages, its stack included. -/
def State.rangeLost (s : State) (a : Nat) : Bool :=
  s.stackLost (stackOf a) || (List.range 3).any fun l =>
    s.layerLost (stackOf a) l && !(s.twoLayer (stackOf a) && Tab.get 0 s.leftOut (stackOf a) = l + 1)

/-- After a loss, an entry one of whose ranges is hit enters the single state (R247). -/
def State.mirrorAfterLoss (s : State) (e p m : Nat) : State :=
  let here := s.rangeLost p
  let there := s.rangeLost m
  if s.mirrorState e = 1 then
    (if here then s.setMirror e 2 true else if there then s.setMirror e 2 false else s)
  else if s.mirrorState e = 3 then
    let away := if s.mirrorSurvivor e then here else there
    if away then s.setMirror e 2 (s.mirrorSurvivor e) else s
  else s

/-- Every mirror entry after a loss. -/
def State.mirrorsAfterLoss (s : State) : State := s.mirrors.foldl (fun s x => s.mirrorAfterLoss x.1 x.2.1 x.2.2.1) s

/-! ### Losses -/

/-- The journal partition of a physical stack is lost: its pair is not used (R245). -/
def State.losePartition (s : State) (h : Nat) : State :=
  if Tab.get false s.intake.lostPartitions h then s
  else { s with intake := { s.intake with lostPartitions := Tab.set false s.intake.lostPartitions h true
                                          copied := Tab.set false s.intake.copied h false } }

/-- A stack is lost (R233): 0 its field, 1 its regulators, 2 its third layer, or a hub that failed, for which the listing gives no code. -/
def State.loseStack (s : State) (k : Nat) (cause : Byte) (follows : Nat := 0xFFFFFFFF) : State :=
  if s.stackLost k then s
  else
    let h := s.stackTile k
    let s := s.fault { cls := 0x06, action := 0x08, tile := h, stack := k, detail := [cause], cause := follows }
    let s := s.put 0x4100 (k + 0x17) (setBit (s.get 0x4100 (k + 0x17)) 8 true)
    (((s.showStack k).mirrorsAfterLoss).losePartition h).watch

/-- A layer reads lost in the map and in its stack's objects, and L1 takes the journal partition with it (R232, R244). -/
def State.layerGone (s : State) (k l : Nat) : State :=
  let s := (s.put 0x4100 (k + 0x17) (setBit (s.get 0x4100 (k + 0x17)) (5 + l) true)).setLayerField k l 0 4 0b1010
  if l = 1 then s.losePartition (s.stackTile k) else s

/-- A layer is lost (R232): 0 links, 1 clock, 2 interface; the third takes the stack with it (R233), L1 the journal partition (R244). -/
def State.loseLayer (s : State) (k l cause : Nat) (follows : Nat := 0xFFFFFFFF) : State :=
  if s.layerLost k l || s.stackLost k then s
  else
    let h := s.stackTile k
    let n := s.faultNext
    let s := s.fault { cls := 0x05, action := 0x08, tile := h, stack := k, layer := l, detail := toLE 1 cause, cause := follows }
    let s := (s.layerGone k l).appendRepair 0x06 h (toLE 1 l ++ toLE 1 cause)
    let s := (s.showStack k).mirrorsAfterLoss
    if (s.layersUp k).isEmpty then s.loseStack k 2 n else s

/-! ### Spares (R229 to R231) -/

/-- Replace a vertical channel, and show it. -/
def State.setChannel (s : State) (k l d : Nat) (c : Channel) : State := ((s.updChannel k l d fun _ => c).showChannel k l d).showStack k

/-- A link position fails: a spare is assigned and trained, the direction held where another is in training; with no spare left the direction falls to
half width, held for the change; below 256 good links the layer is lost (R229 to R232). -/
def State.linkFail (s : State) (k l d p : Nat) : State :=
  let old := s.channel k l d
  if s.stackLost k || s.layerLost k l || decide (old.positions ≤ p) || old.pending.any (·.1 = p) then s
  else
    let c := { old with failed := old.failed ++ [old.linkOf p], charges := Tab.set [] old.charges p [] }
    let n := s.faultNext
    let s := s.fault { cls := 0x03, action := if c.half = old.half then 0x01 else 0x02, tile := s.stackTile k, stack := k, layer := l
                       detail := toLE 1 d ++ toLE 2 p ++ toLE 2 (old.linkOf p) }
    if widthOf c.good = 2 then (s.updChannel k l d fun _ => c).loseLayer k l 0 n
    else if c.half && !old.half then
      (s.fault { cls := 0x04, action := 0x02, tile := s.stackTile k, stack := k, layer := l, detail := toLE 1 d ++ toLE 2 c.good
                 cause := n }).setChannel k l d { c.halve with held := true }
    else match c.spare with
      | some x => s.setChannel k l d { c with pending := c.pending ++ [(p, x)], held := c.held || !c.pending.isEmpty }
      | none => s.setChannel k l d c

/-- The crossbar switches the spare longest in training in; with none left in training a hold ends (R229 to R231). -/
def State.swapSpare (s : State) (k l d : Nat) : State :=
  let c := s.channel k l d
  if s.stackLost k || s.layerLost k l then s
  else match c.pending with
    | [] => if c.held then s.updChannel k l d fun c => { c with held := false } else s
    | (p, x) :: r => (s.setChannel k l d { c.assign p x with pending := r, held := c.held && !r.isEmpty }).bump (0x4500 + k) 0x04

/-- A symbol that a position carried has been corrected: 16 within 1 µs or 1,000 within 1 s fail it (R229). -/
def State.chargePosition (s : State) (k l d p : Nat) : State :=
  let c := s.channel k l d
  let stamps := ((Tab.get [] c.charges p).filter fun t => decide (s.now < t + 1000000000)) ++ [s.now]
  if 1000 ≤ stamps.length ∨ 16 ≤ (stamps.filter fun t => decide (s.now < t + 1000)).length then s.linkFail k l d p
  else s.updChannel k l d fun c => { c with charges := Tab.set [] c.charges p stamps }

/-! ### What transfers and reads meet -/

/-- Number of a memory row: stack, layer, channel, bank, row. -/
def rowNumber (k l ch bank row : Nat) : Nat := (((k * 4 + l) * 256 + ch) * 256 + bank) * 2 ^ 32 + row

/-- Number of the memory row that holds an address. -/
def State.rowKey (s : State) (g : Nat) : Nat :=
  let lo := s.layerOffset g
  rowNumber (stackOf g) (s.layerOf g) (dramChannel lo) (dramBank lo) (dramRow lo)

/-- The 36 symbols of a granule as its stack stores it (R235). -/
def State.symbolsAt (s : State) (g : Nat) : List Nat :=
  codeword ((List.range 64).map fun i => Tab.get 0 s.mem (g + i)) (Tab.get false s.poison (g / 64))
    (addrTag (s.stackTile (stackOf g)) (s.layerOf g) (s.layerOffset g))

/-- Channel, bank and row of a granule, as fault entries and repair entries give them (R225, R364, R424). -/
def State.rowBytes (s : State) (g : Nat) : Bytes :=
  let lo := s.layerOffset g
  toLE 1 (dramChannel lo) ++ toLE 1 (dramBank lo) ++ toLE 4 (dramRow lo)

/-- Nanoseconds in an hour. -/
def hourNs : Nat := 3600 * 1000000000

/-- A corrected error of a memory row: the third within 24 h retires it, while its bank has a spare row of its 32 (R238). -/
def State.rowOccasion (s : State) (g : Nat) : State :=
  let k := stackOf g
  let key := s.rowKey g
  let stamps := ((Tab.get [] s.rowLog key).filter fun t => decide (s.now < t + 24 * hourNs)) ++ [s.now]
  if stamps.length < 3 then { s with rowLog := Tab.set [] s.rowLog key stamps }
  else if (s.retired.filter fun r => r / 2 ^ 32 = key / 2 ^ 32).length < 32 then
    let s := { s with rowLog := Tab.set [] s.rowLog key [], retired := s.retired ++ [key] }
    (s.count (0x4500 + k) 0x08 32 1).appendRepair 0x04 (s.stackTile k) (toLE 1 (s.layerOf g) ++ s.rowBytes g)
  else
    ({ s with rowLog := Tab.set [] s.rowLog key stamps }).fault
      { cls := 0x07, tile := s.stackTile k, stack := k, layer := s.layerOf g, detail := s.rowBytes g }

/-- Mark the open step of a core as having logged a corrected error (R212, R236). -/
def State.markCorrected (s : State) (c : Nat) : State :=
  if (s.core c).stepOpen then
    s.updCore c fun k => { k with record := { k.record with suspectCorrected := true } }
  else s

/-- A granule's data with some bits inverted. -/
def State.flipData (s : State) (g m : Nat) : State :=
  s.setBytes g ((List.range 64).map fun i => Tab.get 0 s.mem (g + i) ^^^ BitVec.ofNat 8 (bits m (8 * i) 8))

/-- An uncorrectable granule of a memory: rewritten from a good mirror, otherwise poisoned with the data as read (R236, R247). -/
def State.badGranule (s : State) (g left : Nat) : State :=
  match s.mirrorOf g with
  | some (e, m) =>
    if s.mirrorState e = 1 && !s.locationLost m && !Tab.get false s.poison (m / 64) then
      s.storeAt g ((List.range 64).map fun i => Tab.get 0 s.mem (m + i)) false
    else (s.flipData g left).setPoison g true
  | none => (s.flipData g left).setPoison g true

/-- The DRAM_UNCORRECTABLE entry of a granule; one of the system region has no unified address (R244, R364). -/
def State.logGranule (s : State) (g : Nat) (tag : Bool) : State :=
  s.fault { cls := 0x02, tile := s.stackTile (stackOf g), stack := stackOf g, layer := s.layerOf g, address := if inSystemRegion g then 0 else g
            detail := s.rowBytes g ++ [if tag then 1 else 0] }

/-- A read finds a granule of a stack uncorrectable, or its tag another's (R236). -/
def State.lostGranule (s : State) (g left : Nat) (tag : Bool) : State :=
  ((s.badGranule g left).bump (0x4500 + stackOf g) 0x06).logGranule g tag

/-- The open step of a reader, where there is one, has logged a corrected error (R212, R236). -/
def State.markReader (s : State) (reader : Option Nat) : State :=
  match reader with
  | some c => s.markCorrected c
  | none => s

/-- Stored bits of a stack's granule read wrong (R236). What the decoder takes for a correction is written back, bits that it missed with it. -/
def State.storedError (s : State) (reader : Option Nat) (g flips : Nat) : State :=
  match decodeGranule flips with
  | .clean => s
  | .corrected left => ((((if left = 0 then s else s.flipData g left).bump (0x4500 + stackOf g) 0x05).markReader reader).rowOccasion g)
  | .tag left => s.lostGranule g left true
  | .failed left => s.lostGranule g left false

/-- Bits of a scratchpad's granule read wrong: single ones corrected, the granule poisoned where a word has more (R212, R213). -/
def State.scratchError (s : State) (reader : Option Nat) (g flips : Nat) : State :=
  let t := spCore g
  let n := (singleWords flips).length
  let s := if n = 0 then s else (s.count (coreObj t + 1) 0x07 64 n).markReader reader
  if (brokenWords flips).isEmpty then s
  else
    (((s.flipData g (wordData flips)).setPoison g true).bump (coreObj t + 1) 0x08).fault
      { cls := 0x01, tile := s.tileOf t, core := t, address := g, detail := toLE 1 (s.bankRow g).1 ++ toLE 2 (s.bankRow g).2 }

/-- A granule crosses a vertical channel, with as many attempts as are left: a position whose symbol is corrected is charged, a transfer that does not
decode is sent again and counted; the pattern of the last attempt where that fails too (R236). -/
def State.transit (s : State) (k l d slot : Nat) : Nat → List (BitVec 576) → State × Option Nat
  | 0, _ => (s, none)
  | n + 1, ts =>
    let e := (ts.headD 0).toNat
    match decodeGranule e with
    | .clean => (s, none)
    | .corrected _ => (s.chargePosition k l d (slotPosition (s.channel k l d).half (slot + firstError e)), none)
    | _ => if n = 0 then (s, some e) else (s.bump (0x4500 + k) 0x07).transit k l d slot n ts.tail

/-- What an access meets at one granule that is in service: at a scratchpad (R212, R213) or at a stack (R236); a scrub marks no step (R214, R237). -/
def State.takeUpset (s : State) (reader : Option Nat) (u : Upset) : State :=
  let g := u.addr.toNat / 64 * 64
  let k := stackOf g
  let l := s.layerOf g
  match spaceOf g, u.kind with
  | 1, .stored f => s.scratchError reader g f.toNat
  | 0, .stored f => s.storedError reader g f.toNat
  | 0, .read slot ts =>
    match s.transit k l 0 slot.toNat 4 ts with
    | (s, none) => s
    | (s, some e) => s.lostGranule g (symbolData (errorSymbols e)) false
  | 0, .written slot ts failing last =>
    match s.transit k l 1 slot.toNat 4 ts with
    | (s, none) => s
    | (s, some _) =>
      match (failing.foldl (fun s p => s.linkFail k l 1 p.toNat) s).transit k l 1 slot.toNat 1 [last] with
      | (s, none) => s
      | (s, some _) => (s.setPoison g true).logGranule g false
  | _, _ => s

/-- Whether an upset is met by a write. -/
def ofWrite (u : Upset) : Bool :=
  match u.kind with
  | .written _ _ _ _ => true
  | _ => false

/-- The addresses by which a place in memory is reached: its own, and those of primary ranges that it mirrors (R247). -/
def State.aliases (s : State) (b : Nat) : List Nat :=
  if spaceOf b ≠ 0 then [b]
  else b :: s.mirrors.filterMap fun (_, p, m, n) => if m ≤ b ∧ b < m + n then some (p + (b - m)) else none

/-- Whether an address lies in a granule of some ranges, base and length. -/
def inRanges (rs : List (Nat × Nat)) (a : Nat) : Bool := rs.any fun r => decide (r.1 / 64 ≤ a / 64) && decide (a < r.1 + r.2)

/-- Take the upsets that reads of ranges meet where they are served, by a core's command or by another reader (R212, R213, R236, R247). -/
def State.findUpsets (s : State) (reader : Option Nat) (read : List (Nat × Nat)) (ups : List Upset) : State :=
  ups.foldl (fun s u =>
    let b := u.addr.toNat
    if !ofWrite u && (s.aliases b).any fun a => inRanges read a && s.served a = some b then s.takeUpset reader u else s) s

/-- Take the upsets that writes of ranges meet where they are stored (R236, R247). -/
def State.writeUpsets (s : State) (written : List (Nat × Nat)) (ups : List Upset) : State :=
  ups.foldl (fun s u =>
    let b := u.addr.toNat
    if ofWrite u && (s.aliases b).any fun a => inRanges written a && (s.writePlaces a).contains b then s.takeUpset none u else s) s
end Sys2Proof.Machine
end

