-- ==== Sys2Proof/Machine/CoreMem.lean ====
section
/-! DEFINITION. Memory as a command of a core reaches it: group and fence checks, reserved ranges, page images, writes that carry the
core's tag, physical upsets found by reads, copies with poison (R17, R151, R207, R212, R213, R232, R236, R238, R348, R367). -/

namespace Sys2Proof.Machine

open Sys2Proof

/-- How an access fails while a command runs: status, detail, address (R174). -/
structure AccErr where
  status : Status
  detail : Nat := 0
  addr : Nat := 0
  deriving DecidableEq, Repr

/-- Bank group of a scratchpad address (R198). -/
def groupOf (a : Nat) : Nat := spOffset a / 2 ^ 23

/-- Columns of an array of a tile that the repair record bypasses (R104, R424). -/
def State.bypassed (s : State) (h a : Nat) : List Nat :=
  ((s.repair.factory ++ s.repair.inField.flatten).filterMap fun e =>
    if leAt e 8 1 = 1 ∧ leAt e 9 1 = h ∧ leAt e 10 1 = a then some (leAt e 11 2) else none).eraseDups

/-- The good ones of the 264 physical columns of an array, ascending (R85, R104). -/
def State.goodColumns (s : State) (h a : Nat) : List Nat := (List.range 264).filter fun x => !(s.bypassed h a).contains x

/-- The width that an array presents: its good columns in whole multiples of 8, at most 256 (R104). -/
def State.arrayWidth (s : State) (h a : Nat) : Nat := min 256 ((s.goodColumns h a).length / 8 * 8)

/-- The physical column that a presented column is: good columns beyond the presented ones are idle (R104). -/
def State.physColumn (s : State) (h a col : Nat) : Option Nat := ((s.goodColumns h a).take (s.arrayWidth h a))[col]?

/-- Whether every array of a tile has the 240 good columns that a tile in service needs (R105). -/
def State.columnsOk (s : State) (h : Nat) : Bool := (List.range 4).all fun a => decide (240 ≤ (s.goodColumns h a).length)

/-- Whether a core of the module may reach a memory address now: the target core not fenced, its bank group on, the stack in service
(R17, R207, R209, R233). -/
def State.accessStatus (s : State) (c a : Nat) : Status × Nat :=
  if spaceOf a = 1 then
    if spCore a ≠ c ∧ s.coreFenced (spCore a) then (.coreFenced, 0)
    else if s.groupState (spCore a) (groupOf a) ≠ 0 then (.bankClosed, groupOf a)
    else (.ok, 0)
  else (s.serviceStatus a, 0)

/-- Count a refusal of a closed group at the core that holds it (R207). -/
def State.countClosed (s : State) (a : Nat) (st : Status) : State :=
  if st = .bankClosed then s.bump (coreObj (spCore a) + 1) 0x06 else s

/-- The ranges a core's execute commands reserve (R151). -/
def Core.reservedRanges (k : Core) : List (Nat × Nat) := (Tab.get [] k.active 2).flatMap (·.reserved)

/-- Whether two byte ranges share a byte. -/
def rangesMeet (a n b m : Nat) : Bool := decide (a < b + m) && decide (b < a + n) && decide (0 < n) && decide (0 < m)

/-- The core whose execute command reserves a byte of a range against a requester; the execute engine that holds it is exempt (R151). -/
def State.reservedBy (s : State) (exempt : Option Nat) (a n : Nat) : Option Nat :=
  (List.range 22).find? fun c => exempt ≠ some c && (s.core c).reservedRanges.any fun r => rangesMeet a n r.1 r.2

/-- Page images that region 0 of the step area holds; its layout is not published, so one image counts 4 KiB (log 12). -/
def Core.imageRoom (k : Core) : Nat := k.regionMiB * 256

/-- Page images held. -/
def Core.imagesHeld (k : Core) : Nat := k.record.stepImages.length + k.record.intervalImages.length

/-- Keep the image of a page that a write of the core first reaches in its step, or in the interval outside one (R348, R367);
none where region 0 is full. -/
def State.imagePage (s : State) (c page : Nat) : Option State :=
  let k := s.core c
  if k.job = 0xFF ∨ k.stepArea = 0 then some s
  else if ((if k.stepOpen then k.record.stepImages else k.record.intervalImages).any fun e => e.1 = page) then some s
  else if k.imageRoom ≤ k.imagesHeld then none
  else
    let i := some (s.pageImage page)
    some (s.updCore c fun k =>
      { k with record := if k.stepOpen then { k.record with stepImages := Tab.set none k.record.stepImages page i }
                         else { k.record with intervalImages := Tab.set none k.record.intervalImages page i } })

/-- Note a poisoned granule that a write of an open step stored (R355). -/
def State.notePoison (s : State) (c a n : Nat) : State :=
  if (s.core c).stepOpen && s.anyPoison a n then
    s.updCore c fun k => { k with record := { k.record with poisonStored := true } }
  else s

/-- Write bytes that lie in one granule for a command of engine e of core c. -/
def State.putPiece (s : State) (c e a : Nat) (bs : Bytes) (p : Bool) : State × Option AccErr :=
  let (st, d) := s.accessStatus c a
  if st ≠ .ok then (s.countClosed a st, some ⟨st, d, a⟩)
  else match s.reservedBy (if e = 2 then some c else none) a bs.length with
  | some o => (s.bump (coreObj o) 0x0A, some ⟨.spReserved, 0, a⟩)
  | none =>
    if spaceOf a = 0 && s.inMirrorRange a then (s, some ⟨.protection, 0, a⟩)
    else match s.writePlaces a with
    | [] => (s, some ⟨.stackLost, 0, a⟩)
    | w :: ws =>
      match s.imagePage c (a / 4096 * 4096) with
      | none => (s, some ⟨.stepState, 0, a⟩)
      | some s =>
        ((s.storePlaces (w :: ws) bs p).notePoison c a bs.length, none)

/-- Write bytes granule by granule; what was written before a refusal remains (R152). -/
def State.putBytes (s : State) (c e a : Nat) (bs : Bytes) (p : Bool) : State × Option AccErr :=
  (pieces 64 a bs).foldl (fun st x => match st.2 with
    | some _ => st
    | none => st.1.putPiece c e x.1 x.2 p) (s, none)

/-- Addresses at which a range of n bytes enters each 4 KiB page. -/
def pageStarts (a n : Nat) : List Nat :=
  if n = 0 then [] else a :: (List.range ((a + n - 1) / 4096 - a / 4096)).map fun i => (a / 4096 + 1 + i) * 4096

/-- Why a read of n bytes by a core is refused, if it is (R17, R207, R233). -/
def State.readErr (s : State) (c a n : Nat) : Option AccErr :=
  (pageStarts a n).findSome? fun x =>
    let (st, d) := s.accessStatus c x
    if st = .ok then none else some ⟨st, d, x⟩

/-- Why one of the ranges that a command reads is refused, if one is. -/
def State.rangesErr (s : State) (c : Nat) (rs : List (Nat × Nat)) : Option AccErr := rs.findSome? fun r => s.readErr c r.1 r.2

/-- The key of the free values of a command: inside a step its PC and loop indices, so that a run of the step again meets the same (R352; log 75);
otherwise the counter. -/
def State.freeKey (s : State) (c : Nat) (q : Queued) : List Nat :=
  let k := s.core c
  if k.stepOpen then k.record.fresh :: q.cmd.pc :: q.loops else [s.fresh]

/-- The key where what a command writes is open. -/
def State.openKey (s : State) (c : Nat) (q : Queued) (free : Bool) : Option (List Nat) := if free then some (s.freeKey c q) else none

/-- A free value has been taken where there is a key. -/
def State.useKey (s : State) (key : Option (List Nat)) : State := if key.isSome then { s with fresh := s.fresh + 1 } else s

/-- What is written in place of bytes: free ones where a key says that they are open. -/
def openBytes (key : Option (List Nat)) (a : Nat) (bs : Bytes) : Bytes :=
  match key with
  | some key => (List.range bs.length).map fun i => Config.overlapByte key (a + i)
  | none => bs

/-- Copy one run of n bytes for a core's command, granule by granule of the destination, poison following its data (R152, R239).
A free byte stands for each byte of a copy that overlaps itself (R182; log 9); taint poisons all of it. -/
def State.copyRun (s : State) (c e : Nat) (free : Option (List Nat)) (taint : Bool) (src dst n : Nat) : State × Option AccErr :=
  let bs := s.readBytes src n
  (pieces 64 dst bs).foldl (fun st x =>
    match st.2 with
    | some _ => st
    | none =>
      let s := st.1
      let from' := src + (x.1 - dst)
      match s.readErr c from' x.2.length with
      | some err => (s.countClosed err.addr err.status, some err)
      | none =>
        (s.countRead from' x.2.length).putPiece c e x.1 (openBytes free x.1 (s.readBytes from' x.2.length)) (taint || s.anyPoison from' x.2.length)) (s, none)

/-- Do an operation for each of a list, up to the first that is refused. -/
def eachUntil {α : Type} (f : State → α → State × Option AccErr) : List α → State → State × Option AccErr
  | [], s => (s, none)
  | x :: r, s => match f s x with
    | (s, none) => eachUntil f r s
    | (s, some e) => (s, some e)

/-! ### Groups that the controllers open and close -/

/-- Whether a group is in retention, or on its way there (R205). -/
def State.groupShut (s : State) (c g : Nat) : Bool :=
  s.groupState c g = 3 || ([1, 2].contains (s.groupState c g) && Tab.get 3 (s.core c).groupGoal g = 3)

/-- Whether a group is off, or on its way there: what it held is lost (R205). -/
def State.groupGone (s : State) (c g : Nat) : Bool :=
  s.groupState c g = 4 || ([1, 2].contains (s.groupState c g) && Tab.get 3 (s.core c).groupGoal g = 4)

/-- Take groups of a core through states one after another, each evented (R205, R206). -/
def State.passGroups (s : State) (c : Nat) (gs codes : List Nat) : State :=
  if gs.isEmpty then s else codes.foldl (fun s v => s.setGroups c fun g x => if gs.contains g then v else x) s

/-- Do something to groups of a core that the controllers write: those in retention wake for it and go back (R17, R209, R211). -/
def State.withGroups (s : State) (c : Nat) (gs : List Nat) (f : State → State) : State :=
  let shut := gs.filter (s.groupShut c)
  (f (s.passGroups c shut [3, 5, 0])).passGroups c shut [1, 2, 3]

/-! ### What reads and writes meet -/

/-- Take the upsets that lie in ranges a command of a core reads. -/
def State.takeUpsets (s : State) (c : Nat) (read : List (Nat × Nat)) (ups : List Upset) : State := s.findUpsets (some c) read ups

/-- A command of a core reads ranges: what the stacks count, and what the reads find (R212, R213, R236, R249). -/
def State.readRanges (s : State) (c : Nat) (read : List (Nat × Nat)) (ups : List Upset) : State :=
  (read.foldl (fun s r => s.countRead r.1 r.2) s).takeUpsets c read ups

end Sys2Proof.Machine
end

