-- ==== Sys2Proof/Machine/Context.lean ====
section
/-! DEFINITION. Context images (R162, R163) and commit images (R357): their layout, saving and restoring; the state a core takes at
the start of a job (R163, R278, R340). -/

namespace Sys2Proof.Machine

open Sys2Proof

/-- Bytes of a context image that holds the groups of a mask. -/
def contextLen (mask : Nat) : Nat := 0x21000 + popCount 8 mask * 2 ^ 23

/-- Save mask of a core; bit 7 is always 1 (R164). -/
def State.saveMask (s : State) (c : Nat) : Nat := setBit (s.get (coreObj c) 0x0C) 7 true

/-- Base of a core's context image; 0 for none. -/
def State.contextArea (s : State) (c : Nat) : Nat := s.get (coreObj c) 0x0B

/-- Whether a range lies wholly in one stack that is in service, with every page on a layer in service (R162). -/
def State.inService (s : State) (a n : Nat) : Bool :=
  decide (spaceOf a = 0 ∧ stackOf a = stackOf (a + n - 1) ∧ dramOffset (a + n - 1) < 0x1800000000)
    && s.serviceStatus a = .ok && s.serviceStatus (a + n - 1) = .ok
    && (pageStarts a n).all fun p => !(s.writePlaces p).isEmpty

/-- Copy whole pages with their poison to every place a write to the destination is made (R247). -/
def State.copyPages (s : State) (src dst n : Nat) : State :=
  (List.range (n / 4096)).foldl (fun s i =>
    match s.served (src + 4096 * i) with
    | some a => (s.writePlaces (dst + 4096 * i)).foldl (fun s w => (s.copyMem a w 4096).countWritten w 4096) (s.countRead a 4096)
    | none => s) s

/-- Write bytes of the controllers or the hubs to memory: every place a write is made, no image, poison clear. -/
def State.putPlain (s : State) (a : Nat) (bs : Bytes) : State := (s.writeBytes a bs false).1

/-- The four loop slots as a context header holds them (R162). -/
def loopBytes (ls : List LoopSlot) : Bytes :=
  (List.range 4).flatMap fun i =>
    let l := ls.getD i {}
    toLE 8 l.pc ++ toLE 4 l.count ++ toLE 4 l.i

/-- The first 4,092 bytes of a context header but its CRC (R162). -/
def contextHeader (j c mask point : Nat) (r : ResumePoint) (stamp : Nat) : Bytes :=
  toLE 4 1 ++ toLE 1 j ++ toLE 1 c ++ toLE 1 mask ++ toLE 1 point ++ toLE 8 r.pc ++ toLE 8 r.step ++ toLE 8 r.committed
    ++ loopBytes r.loops ++ toLE 8 stamp ++ toLE 8 r.runStart ++ toLE 3976 0

/-- Groups of a mask with their place in the image. -/
def savedGroups (mask : Nat) : List (Nat × Nat) :=
  let gs := setPositions 8 mask
  (List.range gs.length).map fun i => (gs.getD i 0, 0x21000 + i * 2 ^ 23)

/-- Write the objects of a core to an image. -/
def State.saveObjects (s : State) (c base : Nat) : State :=
  let s := (List.range 32).foldl (fun s i => s.putPlain (base + 0x1000 + 4096 * i) (List.replicate 4096 0)) s
  (Tab.range s.sync (syncKey c 0) 16384).foldl (fun s e => s.putPlain (base + 0x1000 + 8 * (e.1 - syncKey c 0)) (toLE 8 e.2)) s

/-- CRC of a whole image, its own field taken as zero (R162). -/
def State.imageCrc (s : State) (base mask : Nat) : Nat :=
  crc32c (s.readBytes base 0xFF8 ++ toLE 4 0 ++ s.readBytes (base + 0xFFC) (contextLen mask - 0xFFC))

/-- Write a whole image of a core: objects, groups of the mask, header (R162, R357). -/
def State.writeImage (s : State) (j c base mask point : Nat) (r : ResumePoint) : State :=
  let s := s.saveObjects c base
  let s := (savedGroups mask).foldl (fun s g => s.copyPages (spAddr c (g.1 * 2 ^ 23)) (base + g.2) (2 ^ 23)) s
  let s := s.putPlain base (contextHeader j c mask point r s.now ++ toLE 8 0)
  s.putPlain (base + 0xFF8) (toLE 4 (s.imageCrc base mask))

/-- Where a core stands (R162). -/
def Core.resumePoint (k : Core) : ResumePoint :=
  { pc := k.pc, runStart := k.runStart, loops := k.loops, step := k.step, committed := k.committed, groupOps := k.groupOps }

/-- Whether a core's context can be saved (R162). -/
def State.canSave (s : State) (c : Nat) : Bool :=
  s.contextArea c ≠ 0 && s.inService (s.contextArea c) (contextLen (s.saveMask c)) && !s.coreFenced c

/-- Save a quiescent core: POINT 1 after a STEP_COMMIT, 0 after END (R162). -/
def State.saveContext (s : State) (j c : Nat) : State :=
  let k := s.core c
  s.writeImage j c (s.contextArea c) (s.saveMask c) (if k.state = 3 then 1 else 0) k.resumePoint

/-- Resume point that an image's header holds. -/
def State.imagePoint (s : State) (base : Nat) : ResumePoint :=
  let h := s.readBytes base 4096
  { pc := leAt h 0x08 8, step := leAt h 0x10 8, committed := leAt h 0x18 8, runStart := leAt h 0x68 8
    loops := (List.range 4).map fun i => ⟨leAt h (0x20 + 16 * i) 8, leAt h (0x28 + 16 * i) 4, leAt h (0x2C + 16 * i) 4⟩ }

/-- POINT of an image. -/
def State.imageStop (s : State) (base : Nat) : Nat := (s.readByte (base + 7)).toNat

/-- The object images that an image holds, in index order (R162, R292). -/
def State.imageObjects (s : State) (base : Nat) : List Nat := (List.range 16384).map fun i => ofLE (s.readBytes (base + 0x1000 + 8 * i) 8)

/-- Whether an image may be restored: VERSION, JOB, CORE and CRC match (R163), and every object image is valid (R276, R292). -/
def State.imageOk (s : State) (j c base : Nat) : Bool :=
  let h := s.readBytes base 4096
  decide (leAt h 0 4 = 1 ∧ leAt h 4 1 = j ∧ leAt h 5 1 = c) && leAt h 0xFF8 4 = s.imageCrc base (leAt h 6 1)
    && (s.imageObjects base).all imgValid

/-- Restore an image's memory: objects and saved groups, zero in the groups not saved (R163); a group in retention wakes for it, and one that is off
takes no write (R209; DEDUCED, log 96). -/
def State.restoreMemory (s : State) (c base : Nat) : State :=
  let mask := (s.readByte (base + 6)).toNat
  let s := ((List.range 16384).zip (s.imageObjects base)).foldl (fun s e => if e.2 = 0 then s else s.syncSet c e.1 e.2) (s.clearObjects c)
  s.withGroups c (List.range 8) fun s =>
    let s := (savedGroups mask).foldl (fun s g =>
      if s.groupGone c g.1 then s else s.copyPages (base + g.2) (spAddr c (g.1 * 2 ^ 23)) (2 ^ 23)) s
    (List.range 8).foldl (fun s g => if bit mask g then s else s.zeroGroup c g) s

/-- A core with an empty sequencer and empty engines, its areas taken from the active set (R361). -/
def State.emptyCore (s : State) (j c : Nat) : Core :=
  { job := j, acc := (s.core c).acc, interval := (s.core c).interval + 1, state := (s.core c).state
    stepArea := s.get (coreObj c + 2) 0x01, regionMiB := s.get (coreObj c + 2) 0x02, mirrorArea := s.get (coreObj c + 2) 0x03 }

/-- Put a core at a resume point (R163, R368). -/
def Core.at (k : Core) (r : ResumePoint) : Core :=
  { k with pc := r.pc, runStart := r.runStart, loops := r.loops, step := r.step, committed := r.committed, groupOps := r.groupOps
           record := { k.record with beginAt := r } }

/-- Whether a job keeps commit images (R357). -/
def State.mirroredCommits (s : State) (j : Nat) : Bool := bit (s.jobGet j 0x0C) 0

/-- What a commit image would protect now: 1 current, 2 same field, 3 failed (R358). -/
def State.mirrorHealth (s : State) (c area : Nat) : Nat :=
  if !s.inService area (contextLen (s.saveMask c)) then 3
  else if s.stackTile (stackOf area) = s.tileOf c then 2 else 1

/-- Write a core's commit image in full (R357, R358). -/
def State.startMirror (s : State) (j c : Nat) : State :=
  let k := s.core c
  if !s.mirroredCommits j ∨ k.mirrorArea = 0 then s.change (coreObj c + 2) 0x06 0
  else
    let h := s.mirrorHealth c k.mirrorArea
    let s := s.change (coreObj c + 2) 0x06 h
    if h = 3 then s else s.writeImage j c k.mirrorArea (s.saveMask c) 1 k.resumePoint

/-- Start a core's run at an address (R141, R158, R367): an interval of its own begins, whose rollback goes back to the run's start until a step of
it commits (R368; DEDUCED, log 97). -/
def State.runFrom (s : State) (c pc : Nat) : State :=
  (s.updCore c fun k =>
    let r := { k.resumePoint with pc := pc, runStart := pc }
    { k with pc := pc, runStart := pc, interval := k.interval + 1, record := { beginAt := r }, commit := some r }).setCoreState c 1

/-- Start one core of a job afresh: the lead waits for an item, another begins at its entry or stays idle (R278, R340). -/
def State.startCore (s : State) (j c : Nat) : State :=
  let s := s.setCore c (s.emptyCore j c)
  let entry := s.jobEntry j c
  let s := if c = s.lead j ∨ entry = 0 then s.setCoreState c 0 else s.runFrom c entry
  s.startMirror j c

/-- Restore one core of a job from its context (R163). -/
def State.restoreCore (s : State) (j c : Nat) : State :=
  let base := s.contextArea c
  let s := s.restoreMemory c base
  let k := { s.emptyCore j c with acc := [] }
  let r := s.imagePoint base
  let s := s.setCore c { k.at r with commit := if s.imageStop base = 1 then some r else none }
  let entry := s.jobEntry j c
  let s := if s.imageStop base = 1 then s.setCoreState c 1
           else if c = s.lead j ∨ entry = 0 then s.setCoreState c 0
           else s.runFrom c entry
  s.startMirror j c

end Sys2Proof.Machine
end

