-- ==== Sys2Proof/Machine/Item.lean ====
section
/-! DEFINITION. Work items and what ends them: completion records (R331), the end of an item, job starts (R278, R334), the stop of a core
and of its job (R152, R153, R333), endings by poison (R355, R356). -/

namespace Sys2Proof.Machine

open Sys2Proof

/-! ### Items -/

/-- JOB of a descriptor (R324). -/
def Item.entry (i : Item) : Nat := leAt i.descriptor 16 8
/-- PRIORITY class. -/
def Item.priority (i : Item) : Nat := leAt i.descriptor 11 1 % 4
/-- URGENT. -/
def Item.urgent (i : Item) : Bool := bit (leAt i.descriptor 14 2) 0
/-- LONG. -/
def Item.long (i : Item) : Bool := bit (leAt i.descriptor 14 2) 1
/-- COMPL_MODE. -/
def Item.mode (i : Item) : Nat := leAt i.descriptor 32 1
/-- COMPL_ADDR. -/
def Item.complAddr (i : Item) : Nat := leAt i.descriptor 40 8
/-- Control operation of a stream 0 item (R334). -/
def Item.control (i : Item) : Nat := leAt i.descriptor 56 1
/-- Flags of a control operation. -/
def Item.controlFlags (i : Item) : Nat := leAt i.descriptor 57 1

/-- The journalled item of a stream and sequence. -/
def State.findItem (s : State) (st seq : Nat) : Option Item := s.items.find? fun i => i.stream = st && i.sequence = seq

/-- Change the item of a stream and sequence. -/
def State.updItem (s : State) (st seq : Nat) (f : Item → Item) : State :=
  { s with items := s.items.map fun i => if i.stream = st && i.sequence = seq then f i else i }

/-- Where the journal partition of a physical stack begins (R244, R245; log 89). -/
def State.partitionAddr (s : State) (p : Nat) : Nat := dramAddr (s.stackOn p) 0x1800000000

/-- The journal partitions that hold an item's record (R245). -/
def Item.partitions (i : Item) : List Nat := [i.pair, i.pair + 12]

/-- Bytes of an item's journal record: its header, its descriptor and its payload (R328). -/
def Item.recordBytes (i : Item) : Nat := 256 + i.payload.length

/-- Bytes of an item's record are written to both partitions of its pair; a change of its state writes the header (R245, R249, R328). -/
def State.journal (s : State) (st seq n : Nat) : State :=
  match s.findItem st seq with
  | some i => i.partitions.foldl (fun s p => s.countWritten (s.partitionAddr p) n) s
  | none => s

/-- Add the CRC of its first 60 bytes to a completion record. -/
def sealRecord (bs : Bytes) : Bytes := bs ++ toLE 4 (crc32c (bs ++ toLE 4 0))

/-- The completion record of an item (R331); a control item is no item of the job that it names, and tells nothing of its layout or its objects
(R334; DEDUCED, log 109). -/
def State.completionRecord (s : State) (i : Item) (result word flags : Nat) : Bytes :=
  let fl := (if (s.job i.job).layoutChanged && i.stream ≠ 0 then 1 else 0) + (if i.resumed then 2 else 0) + (if i.manualSet then 4 else 0)
  sealRecord (toLE 8 i.sequence ++ toLE 2 i.stream ++ toLE 1 i.job ++ toLE 1 result ++ toLE 2 fl ++ toLE 1 flags ++ toLE 1 0
    ++ toLE 8 word ++ (i.descriptor.drop 48).take 8 ++ toLE 8 i.accepted ++ toLE 8 i.started ++ toLE 8 s.now ++ toLE 4 0)

/-- An item is DONE with its completion record (R328). -/
def State.itemDone (s : State) (st seq : Nat) (r : Bytes) : State :=
  (s.journal st seq 128).updItem st seq fun i => { i with state := 3, completion := r }

/-- Whether an item's completion record has been formed: it is DONE, or its record waits for the intake to be rebuilt (R338). -/
def State.recordFormed (s : State) (i : Item) : Bool :=
  i.state = 3 || s.intake.formed.any fun r => r.1 = i.stream && r.2.1 = i.sequence

/-- An item ends with a completion record, formed once, which waits while the intake rebuilds (R328, R331, R335, R338). -/
def State.finishItem (s : State) (st seq result word flags : Nat) : State :=
  match s.findItem st seq with
  | none => s
  | some i =>
    if s.recordFormed i then s
    else
      let r := s.completionRecord i result word flags
      if s.intake.rebuilding then { s with intake := { s.intake with formed := s.intake.formed ++ [(st, seq, r)] } } else s.itemDone st seq r

/-- Whether every delivery an item asks for has been confirmed (R328). -/
def Item.confirmed (i : Item) : Bool := (!bit i.mode 0 || i.messageConfirmed) && (!bit i.mode 1 || i.addrConfirmed)

/-- Retire every DONE item whose deliveries are confirmed; its acceptance stamp stays, in the intake's deduplication records (R244, R327,
R328). -/
def State.retireItems (s : State) : State :=
  let gone (i : Item) : Bool := i.state = 3 && i.deliveredOnce && i.confirmed
  { s with items := s.items.filter fun i => !gone i
           streams := (s.items.filter gone).foldl (fun t i => Tab.upd {} t i.stream fun r =>
             { r with stamps := Tab.set 0 r.stamps i.sequence i.accepted }) s.streams }

/-- The STARTED item of a job (R329), whose completion record is not formed. -/
def State.startedItem (s : State) (j : Nat) : Option Item :=
  s.items.find? fun i => i.job = j && i.state = 2 && i.stream ≠ 0 && !s.recordFormed i

/-- End a job's STARTED item, if it has one. -/
def State.endStarted (s : State) (j result word : Nat) : State :=
  match s.startedItem j with
  | none => s
  | some i => s.finishItem i.stream i.sequence result word (s.core (s.lead j)).flags

/-- Mark a job's STARTED item as resumed, its start stamp the resumption (R331, R337). -/
def State.markResumed (s : State) (j : Nat) : State :=
  { s with items := s.items.map fun i =>
      if i.job = j && i.state = 2 && i.stream ≠ 0 then { i with resumed := true, started := s.now } else i }

/-- Write an item into the lead's mailbox (R330): why it is refused, if it is. -/
def State.writeMailbox (s : State) (j : Nat) (i : Item) : State × Option AccErr :=
  let c := s.lead j
  let a := spAddr c (s.jobGet j 0x09)
  (pieces 64 a (i.descriptor ++ i.payload)).foldl (fun (st : State × Option AccErr) p =>
    match st.2 with
    | some _ => st
    | none =>
      let x := st.1.accessStatus c p.1
      if x.1 ≠ .ok then (st.1.countClosed p.1 x.1, some ⟨x.1, x.2, p.1⟩)
      else match st.1.reservedBy none p.1 p.2.length with
        | some o => (st.1.bump (coreObj o) 0x0A, some ⟨.spReserved, 0, p.1⟩)
        | none => ((st.1.writePiece p.1 p.2 false).1, none)) (s, none)

/-! ### Starting jobs -/

/-- Apply a layout that is held for a core which its job has left (R200). -/
def State.applyHeld (s : State) (c : Nat) : State := if s.layoutHeld c then s.applyLayout c else s

/-- Start every core of a job afresh (R278), after a layout held for one has been applied (R200): the number of the failing entry of the
initialisation list, if one fails. -/
def State.startFresh (s : State) (j : Nat) : State × Option Nat :=
  let (s, bad) := s.initObjects j
  match bad with
  | some k => (s, some k)
  | none =>
    let s := (s.jobCores j).foldl State.applyHeld { s with ops := s.ops.filter fun o => o.job ≠ j }
    ((s.jobCores j).foldl (fun s c => s.startCore j c) s, none)

/-- Forget what a core was doing: its waits, wakes and the core itself, left idle with no job. -/
def State.freeCore (s : State) (c : Nat) : State :=
  let s := { s with waits := s.waits.filter fun w => w.core ≠ c, wakes := s.wakes.filter fun w => w.core ≠ c }
  (s.updCore c fun k =>
    { (State.emptyCore s 0xFF c) with state := k.state, interval := k.interval, acc := k.acc }).setCoreState c
    (if s.coreOut c then 6 else if s.coreFenced c then 5 else 0)

/-- A job stops: its cores idle, job_state stopped (R334). -/
def State.stopJob (s : State) (j : Nat) : State :=
  let s := { s with ops := s.ops.filter fun o => o.job ≠ j }
  ((s.jobCores j).foldl State.freeCore s).setJobState j 1

/-! ### The stop of a core -/

/-- ENGINE code of an opcode (R142, R173). -/
def engineOf (op : Nat) : Option Nat :=
  if op ≤ 0x0A then some 0
  else match op with
    | 0x10 | 0x11 | 0x13 | 0x14 => some 1
    | 0x20 | 0x21 | 0x22 | 0x23 | 0x24 | 0x25 => some 2
    | 0x30 => some 3
    | 0x40 | 0x41 | 0x42 => some 4
    | 0x50 | 0x51 | 0x52 | 0x53 | 0x54 => some 5
    | _ => none

/-- A command status word (R173). -/
def statusWord (op detail engine tag flags status : Nat) : Nat :=
  op * 2 ^ 48 + detail * 2 ^ 40 + engine * 2 ^ 32 + tag * 2 ^ 16 + flags * 2 ^ 8 + status

/-- What an error record says of the command it names (R175). -/
structure ErrInfo where
  word : Nat := 0
  pc : Nat := 0
  addr : Nat := 0
  stamp : Nat := 0
  desc : Nat := 0xFFFF
  segment : Nat := 0xFFFF
  entry : Nat := 0xFFFFFFFF
  later : Nat := 0
  header : Nat := 0
  deriving DecidableEq, Repr

/-- The 64 bytes of an error record (R175). -/
def ErrInfo.bytes (r : ErrInfo) (c j step : Nat) : Bytes :=
  toLE 8 r.word ++ toLE 8 r.pc ++ toLE 8 r.addr ++ toLE 8 r.stamp ++ toLE 2 r.desc ++ toLE 2 r.segment ++ toLE 4 r.entry
    ++ toLE 4 r.later ++ toLE 1 c ++ toLE 1 j ++ toLE 2 0 ++ toLE 8 step ++ toLE 8 r.header

/-- Step number open at an error; 0 outside a step. -/
def Core.openStep (k : Core) : Nat := if k.stepOpen then k.step else 0

/-- Whether a started command goes on to its completion after a stop: already draining, or with every write made (R152). -/
def Active.survivesStop (a : Active) : Bool := (a.done || a.draining) && a.status = 0

/-- Errors that other commands of a core have met when it stops (R153). -/
def Core.laterErrors (k : Core) : Nat :=
  ((k.active.flatMap (·.2)).filter fun a => a.done && a.status ≠ 0).length

/-- Whether a started matrix command has a pass in the arrays, with which it stops (R152). -/
def Active.streams (a : Active) : Bool := !a.done && decide (a.drained < a.streamed)

/-- What is left of an engine's started commands when its core stops: those written or draining, in queue order, and the one whose pass streams,
until that pass ends (R152). -/
def stopEngine (l : List Active) : List Active :=
  let kept := l.takeWhile Active.survivesStop
  kept ++ (((l.drop kept.length).take 1).filter Active.streams).map fun a => { a with stopping := true }

/-- What is left of a core that stops (R152): queued commands discarded, what its engines still end. -/
def Core.halt (k : Core) : Core :=
  let act := (k.active.map fun e => (e.1, stopEngine e.2)).filter fun e => !e.2.isEmpty
  { k with prefetch := [], queues := [], active := act, delay := 0, hints := [] }

/-- Stop a core with a state and without a record: R152 steps 1 to 3. -/
def State.haltCore (s : State) (c state : Nat) : State :=
  let s := { s with waits := s.waits.filter fun w => w.core ≠ c, wakes := s.wakes.filter fun w => w.core ≠ c }
  (s.updCore c Core.halt).setCoreState c state

/-- Write a core's error record (R152, R175). -/
def State.writeError (s : State) (c : Nat) (r : ErrInfo) : State :=
  let k := s.core c
  s.put (coreObj c) 0x07 (ofLE (r.bytes c k.job k.openStep))

/-- A core stops in error (R152): its record, then the stop. -/
def State.stopCore (s : State) (c : Nat) (r : ErrInfo) : State := (s.writeError c r).haltCore c 4

/-- Stop the other cores of a job in the same way; each records its own state only (R153, R175). A core that is idle has nothing to stop: it
stays idle and writes no record (DEDUCED, log 82). -/
def State.stopOthers (s : State) (j c : Nat) : State :=
  (s.jobCores j).foldl (fun s d =>
    if d = c ∨ (s.core d).job ≠ j ∨ (s.core d).state = 4 ∨ (s.core d).state = 0 then s
    else s.stopCore d { pc := (s.core d).pc, stamp := s.now }) s

/-- Whether every core of a job has stopped: nothing started is left on it (R152). -/
def State.jobStopped (s : State) (j : Nat) : Bool := (s.jobCores j).all fun c => (s.core c).job ≠ j || (s.core c).active.isEmpty

/-- Start every core of a job again (R333). -/
def State.startOver (s : State) (j : Nat) : State :=
  let (s, bad) := (s.updJob j fun b => { b with freshAtStop := false }).startFresh j
  if bad.isSome then s.setJobState j 4 else s

/-- A job that goes on after an error starts again once its last core has stopped (R152, R333). -/
def State.settleStop (s : State) (j : Nat) : State := if (s.job j).freshAtStop && s.jobStopped j then s.startOver j else s

/-- What the intake does when an item has ended in error (R333): hold, or start every core again, once all have stopped, and go on; R355 forces the
hold. -/
def State.afterError (s : State) (j : Nat) (hold : Bool) : State :=
  if hold || !bit (s.jobGet j 0x0C) 1 then s.setJobState j 4
  else (s.updJob j fun b => { b with freshAtStop := true }).settleStop j

/-- A core of a job stops in error: the whole of R152, R153 and R333. -/
def State.coreError (s : State) (c : Nat) (r : ErrInfo) (hold : Bool) : State :=
  let j := (s.core c).job
  let s := s.stopCore c r
  if j = 0xFF then s
  else
    let s := { s with ops := s.ops.filter fun o => o.job ≠ j }
    ((s.stopOthers j c).endStarted j 1 r.word).afterError j hold

/-! ### Giving the lead its item -/

/-- An item's mailbox is written and the lead's PC set to its ENTRY; a write that is refused ends the item and its job as an error of the lead would
(R330, R333). -/
def State.giveItem (s : State) (j : Nat) (i : Item) : State :=
  match s.writeMailbox j i with
  | (s, some e) =>
    let r := statusWord 0 e.detail 0 0 0 e.status.code
    ((s.stopOthers j 22).finishItem i.stream i.sequence 1 r (s.core (s.lead j)).flags).afterError j false
  | (s, none) => (s.updCore (s.lead j) fun k => { k with item := some (i.stream, i.sequence) }).runFrom (s.lead j) i.entry

/-- Give the lead of a job its STARTED item again, in its mailbox and at its ENTRY (R330, R370; log 13). -/
def State.restartItem (s : State) (j : Nat) : State :=
  match s.startedItem j with
  | none => s
  | some i => (s.updItem i.stream i.sequence fun i => { i with started := s.now }).giveItem j i

/-! ### Endings by poison (R355, R356) -/

/-- POISON_ENDING entry (R364). -/
def State.logPoisonEnding (s : State) (c cause addr : Nat) : State :=
  s.fault { cls := 0x19, action := 0x07, tile := s.tileOf c, core := c, job := (s.core c).job, address := addr
            detail := [BitVec.ofNat 8 cause] }

/-- Egress of poison that a command of a core issued (R356). -/
def State.egressByCommand (s : State) (c cause : Nat) (r : ErrInfo) : State :=
  ((s.logPoisonEnding c cause r.addr).bump 0x4400 0x12).coreError c r true

/-- Egress of poison at a window read or a completion record: the lead of the job stops, where it runs the job (R356). -/
def State.egressByAccess (s : State) (j cause addr : Nat) : State :=
  let c := s.lead j
  let s := (s.logPoisonEnding c cause addr).bump 0x4400 0x12
  if (s.core c).job = j then
    s.coreError c { word := Status.poison.code, pc := (s.core c).pc, addr := addr, stamp := s.now } true
  else s.setJobState j 4

end Sys2Proof.Machine
end

