-- ==== Sys2Proof/Machine/Operands.lean ====
section
/-! DEFINITION. Operand forms: command words, tensor descriptors (R68 to R70, R169 to R171), the output control record (R129, R130),
activation tables (R134), and reading and writing tensors. -/

namespace Sys2Proof.Machine

open Sys2Proof

/-- How a check fails: status and the fields of the error record it fills (R174, R175). -/
structure CheckErr where
  status : Status
  detail : Nat := 0
  addr : Nat := 0
  desc : Nat := 0xFFFF
  segment : Nat := 0xFFFF
  entry : Nat := 0xFFFFFFFF
  deriving DecidableEq, Repr

/-- A check: what it finds, or how it fails. -/
abbrev Chk (α : Type) := Except CheckErr α

/-- Fail with an error unless a condition holds. -/
def need (b : Bool) (e : CheckErr) : Chk Unit := if b then .ok () else .error e

/-- FORMAT in word n of a command (R11, R174). -/
def formatAt (n : Nat) : CheckErr := { status := .format, detail := n }
/-- FIELD_RANGE in word n of a command. -/
def rangeAt (n : Nat) : CheckErr := { status := .fieldRange, detail := n }
/-- FIELD_RANGE inside the descriptor or record of a slot. -/
def rangeIn (slot : Nat) : CheckErr := { status := .fieldRange, detail := 8, desc := slot }
/-- FORMAT_ROLE for a slot (R63). -/
def roleOf (slot : Nat) : CheckErr := { status := .formatRole, desc := slot }

/-- Run a check on every element of a list. -/
def checkAll {α : Type} (f : α → Chk Unit) : List α → Chk Unit
  | [] => .ok ()
  | x :: r => match f x with
    | .ok _ => checkAll f r
    | .error e => .error e

/-- Word n of a command. -/
def Cmd.word (c : Cmd) (n : Nat) : Nat := c.words.getD n 0
/-- OPCODE (R165). -/
def Cmd.opcode (c : Cmd) : Nat := bits (c.word 0) 0 8
/-- WAIT_EN. -/
def Cmd.waitEn (c : Cmd) : Bool := bit (c.word 0) 8
/-- SIGNAL_EN. -/
def Cmd.signalEn (c : Cmd) : Bool := bit (c.word 0) 9
/-- FENCE. -/
def Cmd.fence (c : Cmd) : Bool := bit (c.word 0) 10
/-- POISON_OK. -/
def Cmd.poisonOk (c : Cmd) : Bool := bit (c.word 0) 11
/-- TAG. -/
def Cmd.tag (c : Cmd) : Nat := bits (c.word 0) 16 16

/-- Address of a descriptor slot (R169, R201). -/
def slotAddr (c slot : Nat) : Nat := spAddr c (0x3FC0000 + 64 * slot)

/-- A tensor descriptor after the loop advance (R159, R170). -/
structure Tensor where
  slot : Nat
  /-- BASE as the slot stores it, and after the advance. -/
  stored : Nat
  base : Nat
  format : Format
  rank : Nat
  dims : List Nat
  strides : List Int
  scaleOff : Nat
  loop : Nat
  poisoned : Bool
  deriving DecidableEq, Repr

/-- Size of a dimension. -/
def Tensor.dim (t : Tensor) (i : Nat) : Nat := t.dims.getD i 1
/-- Byte stride of a dimension. -/
def Tensor.stride (t : Tensor) (i : Nat) : Int := t.strides.getD i 0

/-- Where descriptor slots are read: 64 bytes and their poison, from memory or as a command read them at its start (R129, R169). -/
abbrev SlotView := Nat → Bytes × Bool

/-- The slots as memory holds them. -/
def State.slots (s : State) (c : Nat) : SlotView := fun n => (s.readBytes (slotAddr c n) 64, s.poisonAt (slotAddr c n))

/-- The slots as a started command read them. -/
def Active.slotView (a : Active) : SlotView := fun n =>
  let v := Tab.get 0 a.slots n
  (toLE 64 v, bit v 512)

/-- Keep the slots a command names as it starts. -/
def SlotView.keep (v : SlotView) (slots : List Nat) : Tab Nat :=
  slots.foldl (fun t n => if n = 0xFFF then t else Tab.set 0 t n (ofLE (v n).1 + if (v n).2 then 2 ^ 512 else 0)) []

/-- Read the descriptor of a slot: FORMAT for a reserved bit, a reserved LOOP_LEVEL or an unknown format code (R170), with BASE advanced by
the captured loop index (R159). -/
def readTensor (v : SlotView) (loops : List Nat) (slot : Nat) : Chk Tensor :=
  let bs := (v slot).1
  let lv := leAt bs 10 2
  match Format.ofCode (leAt bs 8 1) with
  | none => .error { status := .format, detail := 8, desc := slot }
  | some f =>
    if 5 ≤ lv then .error { status := .format, detail := 8, desc := slot }
    else
      let st := (List.range 4).map fun i => toSigned 64 (leAt bs (32 + 8 * i) 8)
      let adv : Int := if lv = 0 then 0 else (loops.getD (lv - 1) 0 : Nat) * st.getD 3 0
      .ok { slot := slot, stored := leAt bs 0 8, base := ofSigned 64 (((leAt bs 0 8 : Nat) : Int) + adv), format := f, rank := leAt bs 9 1
            dims := (List.range 4).map fun i => leAt bs (16 + 4 * i) 4, strides := st, scaleOff := leAt bs 12 4
            loop := lv, poisoned := (v slot).2 }

/-- Read the descriptor of an optional index; 0xFFF is none (R169). -/
def readOpt (v : SlotView) (loops : List Nat) (slot : Nat) : Chk (Option Tensor) :=
  if slot = 0xFFF then .ok none
  else match readTensor v loops slot with
    | .ok t => .ok (some t)
    | .error e => .error e

/-- Bytes of one dimension-0 run. -/
def Tensor.runBytes (t : Tensor) : Nat := t.format.runBytes (t.dim 0)

/-- The least and the greatest byte offset from BASE that an element reaches (R171). -/
def Tensor.extent (t : Tensor) : Int × Int :=
  [1, 2, 3].foldl (fun (e : Int × Int) d =>
    if d < t.rank then
      let k := t.stride d * ((t.dim d : Int) - 1)
      (e.1 + min 0 k, e.2 + max 0 k)
    else e) (0, (t.runBytes : Int) - 1)

/-- Blocks of a dimension-0 run (R69). -/
def Tensor.blocks (t : Tensor) : Nat := t.dim 0 / 32

/-- Bytes of the block-scale area (R69). -/
def Tensor.scaleBytes (t : Tensor) : Nat := if t.format.isMx then t.blocks * t.dim 1 * t.dim 2 * t.dim 3 else 0

/-- No byte is addressed twice: dimensions 1 to 3 in order of |stride|, each at least the extent below it (R171). -/
def Tensor.noOverlap (t : Tensor) : Bool :=
  let ds := ([1, 2, 3].filter fun d => d < t.rank && t.dim d ≠ 1).map fun d => ((t.stride d).natAbs, t.dim d)
  let sorted := ds.mergeSort fun x y => decide (x.1 ≤ y.1)
  (sorted.foldl (fun (st : Bool × Nat) d => (st.1 && decide (st.2 ≤ d.1), d.1 * (d.2 - 1) + st.2)) (true, t.runBytes)).1

/-- The rules of R171 on the values inside a descriptor; SPACE and the alignment of BASE are those of the stored value, and where the advance of
R159 takes an element falls to the checks of R25. A packed format with STRIDE0 other than 0 breaks R68 (FORMAT_ROLE) and R171 (FIELD_RANGE); the
model answers FIELD_RANGE, the earlier of the two in R174's order (DEDUCED, log 78). -/
def Tensor.rangeOk (t : Tensor) (dest : Bool) : Bool :=
  let whole := t.format.bits / 8
  decide (spaceOf t.stored ≤ 1)
    && decide (1 ≤ t.rank ∧ t.rank ≤ 4) && !(t.loop ≠ 0 && t.rank = 4)
    && (List.range 4).all (fun d => decide (1 ≤ t.dim d)
        && (decide (d < t.rank) || (t.dim d = 1 && (t.stride d = 0 || (d = 3 && t.loop ≠ 0)))))
    && t.stride 0 = (t.format.stride0 : Int)
    && (decide (whole ≤ 1) || (t.stored % whole = 0 && [1, 2, 3].all fun d => t.stride d % (whole : Int) = 0))
    && (t.format.isMx || t.scaleOff = 0)
    && (!dest || t.noOverlap)

/-- FIELD_RANGE checks of a descriptor. -/
def Tensor.checkRange (t : Tensor) (dest : Bool) : Chk Unit := need (t.rangeOk dest) (rangeIn t.slot)

/-- The packing of dimension 0 (R68, R69): FORMAT_ROLE otherwise. -/
def Tensor.checkPacking (t : Tensor) : Chk Unit := need (t.dim 0 % t.format.packing = 0) (roleOf t.slot)

/-- First address of the bytes an element reaches. -/
def Tensor.lowAddr (t : Tensor) : Int := (t.base : Int) + t.extent.1

/-- Whether the advance of R159 has taken BASE out of the memories, which the checks of R25 then find. -/
def Tensor.stray (t : Tensor) : Bool := decide (2 ≤ spaceOf t.base)

/-- The address checks of R25 on the elements and on the block-scale area, which must lie beside them (R69, R171). A range that fails at either
end is named by its lowest address, modulo 2^64 (DESIGN CHOICE, log 77). -/
def State.checkTensor (s : State) (j : Nat) (t : Tensor) : Chk Unit :=
  let lo := ofSigned 64 t.lowAddr
  let n := (t.extent.2 - t.extent.1 + 1).toNat
  let sa := t.base + t.scaleOff
  let region := addrRegion t.base
  let st := s.addrCheck j lo n
  if st ≠ .ok then .error { status := st, addr := lo, desc := t.slot }
  else if addrRegion lo ≠ region ∨ spaceOf lo ≠ spaceOf t.base then .error { status := .addrRange, addr := lo, desc := t.slot }
  else if t.scaleBytes = 0 then .ok ()
  else if addrReserved sa then .error { status := .addrReserved, addr := sa, desc := t.slot }
  else if addrRegion sa ≠ region then .error { status := .addrRange, addr := sa, desc := t.slot }
  else
    let st := s.addrCheck j sa t.scaleBytes
    if st ≠ .ok then .error { status := st, addr := sa, desc := t.slot } else .ok ()

/-- A poisoned descriptor slot stops the core whatever POISON_OK holds (R168). -/
def Tensor.checkPoison (t : Tensor) (c : Nat) : Chk Unit :=
  need (!t.poisoned) { status := .poison, desc := t.slot, addr := slotAddr c t.slot }

/-- All run indices (i1, i2, i3) in ascending order of dimension 3, then 2, then 1 (R182). -/
def Tensor.runs (t : Tensor) : List Idx :=
  (List.range (t.dim 3)).flatMap fun k3 => (List.range (t.dim 2)).flatMap fun k2 =>
    (List.range (t.dim 1)).map fun k1 => { i0 := 0, i1 := k1, i2 := k2, i3 := k3 }

/-- Address of a dimension-0 run. -/
def Tensor.runAddr (t : Tensor) (i : Idx) : Nat :=
  ((t.base : Int) + (i.i1 : Int) * t.stride 1 + (i.i2 : Int) * t.stride 2
    + (if t.rank = 4 then (i.i3 : Int) * t.stride 3 else 0)).toNat

/-- First byte and byte count that hold an element's bits, and the bit offset in them (R68). -/
def Tensor.elemPlace (t : Tensor) (i : Idx) : Nat × Nat × Nat :=
  let p := i.i0 * t.format.bits
  (t.runAddr i + p / 8, ceilDiv (p % 8 + t.format.bits) 8, p % 8)

/-- Address of the scale byte of an element's block (R69). -/
def Tensor.scaleAddr (t : Tensor) (i : Idx) : Nat :=
  t.base + t.scaleOff + (i.i0 / 32 + t.blocks * (i.i1 + t.dim 1 * (i.i2 + t.dim 2 * i.i3)))

/-- Read one element: its bits and its block's scale byte. -/
def State.readElem (s : State) (t : Tensor) (i : Idx) : Elem :=
  let (a, n, o) := t.elemPlace i
  { bits := ofLE (s.readBytes a n) / 2 ^ o % 2 ^ t.format.bits
    scale := if t.format.isMx then (s.readByte (t.scaleAddr i)).toNat else 127 }

/-- Whether an element or its scale lies in a poisoned granule (R128). -/
def State.elemPoison (s : State) (t : Tensor) (i : Idx) : Bool :=
  let (a, n, _) := t.elemPlace i
  s.anyPoison a n || (t.format.isMx && s.poisonAt (t.scaleAddr i))

/-- The exact value of an element (R70, R71). -/
def State.readNum (s : State) (t : Tensor) (i : Idx) : Num :=
  let e := s.readElem t i
  t.format.decodeScaled e.bits e.scale

/-- Elements of n bits packed along dimension 0 into bytes (R68). -/
def packBits (n : Nat) (ws : List Nat) : Bytes :=
  toLE (ceilDiv (n * ws.length) 8) (ws.foldr (fun w acc => w % 2 ^ n + acc * 2 ^ n) 0)

/-- An output control record as read from a slot (R130): FORMAT of the slot's reserved fields and values is FIELD_RANGE. -/
def decodeRecord (slot : Nat) (bs : Bytes) : Chk OutRec :=
  let w0 := leAt bs 0 8
  let w1 := leAt bs 8 8
  let w2 := leAt bs 16 8
  let act := bits w0 8 4
  let p0 := bits w1 32 32
  let p1 := bits w2 0 32
  match Rounding.ofField (bits w0 12 2) with
  | none => .error (rangeIn slot)
  | some r =>
    if bits w0 52 12 ≠ 0 ∨ bit w0 15 ∨ bits w0 4 4 ≠ 0 ∨ bits w2 32 32 ≠ 0 ∨ leAt bs 24 40 ≠ 0
        ∨ 0xA ≤ act ∨ bits w0 2 2 = 3
        ∨ (act = 0x2 ∧ !(f32 p0).isFin)
        ∨ (act = 0x8 ∧ ((f32 p0).isNan || (f32 p1).isNan || !((f32 p0).le (f32 p1)))) then .error (rangeIn slot)
    else .ok { scaleMode := bits w0 0 2, biasMode := bits w0 2 2, act := act, round := r, sat := bit w0 14
               scaleImm := bits w1 0 32, p0 := p0, p1 := p1, scaleDesc := bits w0 16 12, biasDesc := bits w0 28 12
               tableDesc := bits w0 40 12 }

/-- A fused-output setting: the record with its vectors and table, already read as descriptors (R129, R132, R134). -/
structure Fusion where
  setting : OutRec := {}
  slot : Option Nat := none
  scale : Option Tensor := none
  bias : Option Tensor := none
  table : Option Tensor := none
  poisoned : Bool := false
  deriving DecidableEq, Repr

/-- Read an optional descriptor that a condition makes required; 0xFFF is FIELD_RANGE inside the record (R169). -/
def readIf (v : SlotView) (loops : List Nat) (b : Bool) (slot inSlot : Nat) : Chk (Option Tensor) :=
  if !b then .ok none
  else if slot = 0xFFF then .error (rangeIn inSlot)
  else readOpt v loops slot

/-- Read the record a command names, or none (R129), with the descriptors it names (FORMAT and record range checks). -/
def readFusion (v : SlotView) (loops : List Nat) (slot : Nat) : Chk Fusion :=
  if slot = 0xFFF then .ok {}
  else do
    let r ← decodeRecord slot (v slot).1
    let sc ← readIf v loops (r.scaleMode = 2 || r.scaleMode = 3) r.scaleDesc slot
    let bi ← readIf v loops (r.biasMode ≠ 0) r.biasDesc slot
    let tb ← readIf v loops (r.act = 0x9) r.tableDesc slot
    .ok { setting := r, slot := some slot, scale := sc, bias := bi, table := tb, poisoned := (v slot).2 }

/-- Tensors a fused-output setting names. -/
def Fusion.tensors (f : Fusion) : List Tensor := f.scale.toList ++ f.bias.toList ++ f.table.toList

/-- Range checks of the vectors and the table: ranks and lengths (R132, R134). -/
def Fusion.checkRange (f : Fusion) (m n : Nat) : Chk Unit := do
  checkAll (Tensor.checkRange · false) f.tensors
  checkAll (fun t => need (t.rank = 1 && t.dim 0 = (if f.setting.scaleMode = 2 then m else n)) (rangeIn t.slot)) f.scale.toList
  checkAll (fun t => need (t.rank = 1 && t.dim 0 = (if f.setting.biasMode = 1 then m else n)) (rangeIn t.slot)) f.bias.toList

/-- Role checks of the vectors and the table (R132, R134). -/
def Fusion.checkRole (f : Fusion) : Chk Unit := do
  checkAll (fun t => need (t.format = .fp32) (roleOf t.slot)) f.scale.toList
  checkAll (fun t => need (t.format = .fp32 || t.format = .bf16) (roleOf t.slot)) f.bias.toList
  checkAll (fun t => need (t.format = .fp32 && t.rank = 1 && t.dim 0 = 1024) (roleOf t.slot)) f.table.toList

/-- Entries of an activation table (R134). -/
def State.tableEntries (s : State) (t : Tensor) : List TabEntry :=
  (List.range 256).map fun e =>
    let w (k : Nat) := (s.readElem t { i0 := 4 * e + k }).bits
    ⟨w 0, w 1, w 2⟩

/-- The first entry of an activation table that breaks R134. -/
def State.badTableEntry (s : State) (t : Tensor) : Option Nat :=
  let es := s.tableEntries t
  (List.range 256).find? fun e =>
    let x := es.getD e ⟨0, 0, 0⟩
    !((f32 x.x).isFin && (f32 x.v).isFin && (f32 x.m).isFin) || (s.readElem t { i0 := 4 * e + 3 }).bits ≠ 0
      || (e ≠ 0 && !((f32 (es.getD (e - 1) ⟨0, 0, 0⟩).x).lt (f32 x.x)))

/-- Table contents check (R134): FIELD_RANGE naming the first failing entry. -/
def State.checkTable (s : State) (f : Fusion) : Chk Unit :=
  checkAll (fun t => match s.badTableEntry t with
    | none => .ok ()
    | some e => .error { status := .fieldRange, detail := 8, entry := e }) f.table.toList

/-- Address and poison checks of a fused-output setting. -/
def State.checkFusion (s : State) (j : Nat) (f : Fusion) : Chk Unit := checkAll (s.checkTensor j) f.tensors

/-- A poisoned record or vector descriptor stops the core (R168). -/
def Fusion.checkPoison (f : Fusion) (c : Nat) : Chk Unit := do
  need (!f.poisoned) { status := .poison, desc := f.slot.getD 0xFFFF, addr := slotAddr c (f.slot.getD 0) }
  checkAll (Tensor.checkPoison · c) f.tensors

/-- FP32 bits of a vector entry, a BF16 one widened exactly (R132). -/
def State.vectorEntry (s : State) (t : Option Tensor) (i : Nat) : Nat :=
  match t with
  | none => 0
  | some t => (rn32 (s.readNum t { i0 := i })).bits

/-- Scale that applies at output row i, column j (R131). -/
def State.scaleAt (s : State) (f : Fusion) (i j : Nat) : Nat :=
  match f.setting.scaleMode with
  | 1 => f.setting.scaleImm
  | 2 => s.vectorEntry f.scale i
  | 3 => s.vectorEntry f.scale j
  | _ => 0x3F800000

/-- Bias that applies at output row i, column j (R131). -/
def State.biasAt (s : State) (f : Fusion) (i j : Nat) : Nat :=
  match f.setting.biasMode with
  | 1 => s.vectorEntry f.bias i
  | 2 => s.vectorEntry f.bias j
  | _ => 0

/-- Whether any vector or the table holds poison, which poisons every output (R128). -/
def State.fusionPoison (s : State) (f : Fusion) : Bool :=
  f.tensors.any fun t => (List.range (t.dim 0)).any fun i => s.elemPoison t { i0 := i }

/-- The value of one output before its conversion (R131). -/
def State.fuse (s : State) (f : Fusion) (tab : List TabEntry) (i j : Nat) (x : AccVal) : Num × ArithFlags :=
  fusedValue f.setting tab (s.scaleAt f i j) (s.biasAt f i j) x

end Sys2Proof.Machine
end

