-- ==== Sys2Proof/Machine/Checks.lean ====
section
/-! DEFINITION. The checks an engine makes on words 2 to 7 of a command as it starts (R143, R174), opcode by opcode: FORMAT, FIELD_RANGE,
FORMAT_ROLE, the address checks, POISON, in that order. -/

namespace Sys2Proof.Machine

open Sys2Proof

/-- What a command that passes its checks keeps from its start: slots read, ranges reserved, segment entries. -/
structure Setup where
  slots : List Nat := []
  reserved : List (Nat × Nat) := []
  segments : List Bytes := []
  deriving DecidableEq, Repr

/-- Fields of words 2 to 7 of an opcode: word, low bit, width; every other bit is reserved (chapter 7). -/
def layoutOf : Nat → List (Nat × Nat × Nat)
  | 0x01 => [(2, 0, 64), (3, 32, 2), (3, 0, 32), (4, 0, 32)]
  | 0x02 => [(2, 0, 64), (3, 50, 1), (3, 34, 16), (3, 32, 2), (3, 0, 32)]
  | 0x04 | 0x05 => [(2, 0, 64)]
  | 0x06 => [(2, 8, 8), (2, 2, 1), (2, 0, 2), (3, 0, 64)]
  | 0x07 => [(2, 0, 64)]
  | 0x09 => [(2, 0, 32)]
  | 0x0A => [(2, 32, 32), (2, 8, 13), (2, 0, 3)]
  | 0x10 | 0x13 | 0x14 => [(2, 0, 24)]
  | 0x11 => [(2, 0, 36), (3, 0, 64)]
  | 0x20 => [(2, 0, 49), (3, 0, 64), (4, 0, 32)]
  | 0x21 => [(2, 0, 49), (3, 0, 64), (4, 16, 9), (4, 0, 12)]
  | 0x22 => [(2, 0, 12)]
  | 0x23 => [(2, 0, 50)]
  | 0x24 => [(2, 0, 64), (3, 0, 64), (4, 0, 3)]
  | 0x25 => [(2, 0, 49), (3, 0, 64), (4, 0, 4)]
  | 0x30 => [(2, 0, 36)]
  | 0x40 | 0x41 | 0x42 => [(2, 0, 59), (3, 0, 64)]
  | 0x50 => [(2, 0, 24)]
  | 0x51 => [(2, 0, 32)]
  | 0x52 => [(2, 0, 36)]
  | 0x53 => [(2, 0, 24), (3, 0, 64), (4, 0, 2)]
  | 0x54 => [(2, 0, 24), (3, 0, 64)]
  | _ => []

/-- Bits of word n that no field of the opcode covers. -/
def Cmd.reservedBits (c : Cmd) (n : Nat) : Nat :=
  ((layoutOf c.opcode).filter fun f => f.1 = n).foldl (fun v f => setBits v f.2.1 f.2.2 0) (c.word n)

/-- Reserved values of encoded fields: word and whether it holds one. -/
def Cmd.reservedCode (c : Cmd) : List (Nat × Bool) :=
  match c.opcode with
  | 0x01 =>
    let k := bits (c.word 3) 32 2
    let v := bits (c.word 3) 0 32
    [(3, k = 3 || (k = 1 && decide (2 ^ 16 ≤ v)) || (k = 2 && decide (2 ≤ v)))]
  | 0x02 =>
    let w := c.word 3
    let k := bits w 32 2
    let v := bits w 0 32
    [(3, k = 3 || (k ≠ 1 && bits w 34 17 ≠ 0) || (!bit w 50 && bits w 34 16 ≠ 0)
      || (k = 0 && v = 0) || (k = 1 && v ≠ 0) || (k = 2 && decide (2 ≤ v)))]
  | 0x06 => [(2, bits (c.word 2) 0 2 = 3)]
  | 0x24 => [(4, bits (c.word 4) 0 2 = 3)]
  | 0x40 | 0x41 => [(2, bits (c.word 2) 56 2 = 3)]
  | 0x52 => [(2, 4 ≤ bits (c.word 2) 32 4)]
  | 0x53 => [(4, bits (c.word 4) 0 2 = 3)]
  | _ => []

/-- FORMAT of words 2 to 7 (R11). -/
def Cmd.checkFormat (c : Cmd) : Chk Unit := do
  checkAll (fun n => need (c.reservedBits n = 0 && c.reservedCode.all fun r => r.1 ≠ n || !r.2) (formatAt n)) [2, 3, 4, 5, 6, 7]

/-- The failure of a check, where it is of one status. -/
def onlyStatus {α : Type} (st : Status) (x : Chk α) : Chk Unit :=
  match x with
  | .error e => need (e.status ≠ st) e
  | .ok _ => .ok ()

/-- A required descriptor index (R169). -/
def required (t : Option Tensor) (word : Nat) : Chk Tensor :=
  match t with
  | some t => .ok t
  | none => .error (rangeAt word)

/-- 12-bit descriptor index at a bit of word 2. -/
def Cmd.desc (c : Cmd) (lo : Nat) : Nat := bits (c.word 2) lo 12

/-- Whether a tensor lies in a core's own scratchpad. -/
def Tensor.ownSp (t : Tensor) (c : Nat) : Bool := spaceOf t.base = 1 && spCore t.base = c
/-- Whether a tensor lies in device memory. -/
def Tensor.inDram (t : Tensor) : Bool := spaceOf t.base = 0
/-- Whether two tensors have the same four sizes. -/
def Tensor.sameDims (t u : Tensor) : Bool := t.dims = u.dims
/-- Slots of optional tensors. -/
def slotsOf (ts : List Tensor) : List Nat := ts.map (·.slot)

/-- Slots a fused-output setting names, its record among them. -/
def Fusion.slots (f : Fusion) : List Nat := f.slot.toList ++ slotsOf f.tensors

/-- Address checks of a destination: R25, and no direct write to a mirror range (R247). -/
def State.checkDest (s : State) (j : Nat) (t : Tensor) : Chk Unit := do
  s.checkTensor j t
  let lo := t.lowAddr.toNat
  let hi := ((t.base : Int) + t.extent.2).toNat
  need (!(t.inDram && (s.inMirrorRange lo || s.inMirrorRange hi))) { status := .protection, addr := lo, desc := t.slot }

/-- Check of a range at an address field of the command; a range that fails at either end is named by its first address (DESIGN CHOICE, log 77). -/
def State.checkRangeAt (s : State) (j a n : Nat) : Chk Unit :=
  let st := s.addrCheck j a n
  need (st = .ok) { status := st, addr := a }

/-- Ranges that a check reads are refused where their group is closed or their place does not serve (R207, R233). -/
def State.checkReads (s : State) (c : Nat) (rs : List (Nat × Nat)) : Chk Unit :=
  match s.rangesErr c rs with
  | some e => .error { status := e.status, detail := e.detail, addr := e.addr }
  | none => .ok ()

/-! ### Sequencer opcodes -/

/-- Checks of the sequencer opcodes (R177, R178, R180, R181, and the layouts of chapter 7). -/
def State.checkSequencer (s : State) (_c j : Nat) (cmd : Cmd) : Chk Setup := do
  let w2 := cmd.word 2
  match cmd.opcode with
  | 0x01 => do
    need (spaceOf w2 = 2) (rangeAt 2)
    need (decide (bits (cmd.word 4) 0 32 ≤ 1000000000)) (rangeAt 4)
    s.checkRangeAt j w2 8
    .ok {}
  | 0x02 => do
    need (spaceOf w2 = 2 || spaceOf w2 = 4) (rangeAt 2)
    s.checkRangeAt j w2 8
    .ok {}
  | 0x06 => do
    let lv := bits w2 8 8
    let stop := bit w2 2
    let dur := bits (cmd.word 3) 32 32
    need (if stop then lv = 0 else decide (1 ≤ lv ∧ lv ≤ 64)) (rangeAt 2)
    need ((if stop then dur = 0 else decide (1 ≤ dur ∧ dur ≤ 10000000)) && decide (bits (cmd.word 3) 0 32 ≤ 100000)) (rangeAt 3)
    .ok {}
  | 0x07 => do
    need (decide (spaceOf w2 ≤ 1) && w2 % 16 = 0) (rangeAt 2)
    s.checkRangeAt j w2 16
    .ok {}
  | 0x09 => do
    need (w2 ≠ 0) (rangeAt 2)
    .ok {}
  | 0x0A => do
    let lv := bits w2 0 3
    let body := bits w2 8 13
    need (decide (1 ≤ lv ∧ lv ≤ 4 ∧ 1 ≤ body ∧ body ≤ 4096) && bits w2 32 32 ≠ 0) (rangeAt 2)
    .ok {}
  | _ => .ok {}

/-! ### Access opcodes -/

/-- Whether the endpoints of an access opcode are those it may take (R182): source and destination. -/
def endpointsOk (op c : Nat) (src dst : Tensor) : Bool × Bool :=
  match op with
  | 0x13 => (src.ownSp c, dst.ownSp c || dst.inDram)
  | 0x14 => (src.inDram, dst.inDram)
  | _ => (src.ownSp c || src.inDram, dst.ownSp c)

/-- Checks of LOAD, GATHER, STORE and COPY (R182, R183). -/
def State.checkAccess (s : State) (c j : Nat) (loops : List Nat) (cmd : Cmd) : Chk Setup := do
  let v := s.slots c
  let gather := cmd.opcode = 0x11
  let src ← readOpt v loops (cmd.desc 0)
  let dst ← readOpt v loops (cmd.desc 12)
  let list ← readOpt v loops (if gather then cmd.desc 24 else 0xFFF)
  let src ← required src 2
  let dst ← required dst 2
  need (!gather || list.isSome) (rangeAt 2)
  let count := bits (cmd.word 3) 32 32
  let first := bits (cmd.word 3) 0 32
  need (!gather || count ≠ 0) (rangeAt 3)
  src.checkRange false
  dst.checkRange true
  checkAll (Tensor.checkRange · false) list.toList
  checkAll (fun l => need (l.rank = 1) (rangeIn l.slot)) list.toList
  checkAll (fun l => need (decide (first + count ≤ l.dim 0)) (rangeAt 3)) list.toList
  if gather then do
    need (src.format = dst.format && decide (src.rank ≤ 2) && src.dim 0 = dst.dim 0) (rangeIn src.slot)
    need (decide (dst.rank ≤ 2) && dst.dim 1 = count) (rangeIn dst.slot)
  else need (src.format = dst.format && src.sameDims dst) (rangeIn dst.slot)
  let ok := endpointsOk cmd.opcode c src dst
  need (ok.1 || src.stray) (rangeIn src.slot)
  need (ok.2 || dst.stray) (rangeIn dst.slot)
  checkAll Tensor.checkPacking [src, dst]
  checkAll (fun l => need (l.format = .int32) (roleOf l.slot)) list.toList
  checkAll (s.checkTensor j) (src :: list.toList)
  s.checkDest j dst
  checkAll (Tensor.checkPoison · c) ([src, dst] ++ list.toList)
  .ok { slots := slotsOf ([src, dst] ++ list.toList) }

/-! ### Execute opcodes -/

/-- Whether a tensor has no extent beyond dimension 1 (R172). -/
def Tensor.flat (t : Tensor) : Bool := t.dim 2 = 1 && t.dim 3 = 1

/-- Role of a pair (R88): the error names the second descriptor. -/
def checkPair (a b : Tensor) : Chk PairKind :=
  match pairKind a.format b.format with
  | some k => .ok k
  | none => .error (roleOf b.slot)

/-- Whether an area lies wholly in a core's scratchpad, aligned to n bytes. -/
def ownArea (c a len n : Nat) : Bool :=
  decide (spaceOf a = 1 ∧ spCore a = c ∧ bits a 31 29 = 0 ∧ a % n = 0 ∧ spOffset a + len ≤ 2 ^ 26)

/-- Checks of MM (R172, R184). -/
def State.checkMm (s : State) (c j : Nat) (loops : List Nat) (cmd : Cmd) : Chk Setup := do
  let v := s.slots c
  let a ← readOpt v loops (cmd.desc 0)
  let b ← readOpt v loops (cmd.desc 12)
  let d ← readOpt v loops (cmd.desc 24)
  let fu := readFusion v loops (cmd.desc 36)
  onlyStatus .format fu
  let a ← required a 2
  let b ← required b 2
  let d ← required d 2
  let kp := bits (cmd.word 4) 0 32
  let psum := cmd.word 3
  need (decide (kp % 32 = 0 ∧ 32 ≤ kp ∧ kp ≤ 65536)) (rangeAt 4)
  let fu ← fu
  a.checkRange false
  b.checkRange false
  d.checkRange true
  let k := a.dim 0
  let m := a.dim 1
  let n := b.dim 1
  checkAll (fun t => need t.flat (rangeIn t.slot)) [a, b, d]
  need (b.dim 0 = k) (rangeIn b.slot)
  need (d.dim 0 = n && d.dim 1 = m) (rangeIn d.slot)
  let int := pairKind a.format b.format = some .integer
  need (!int || decide (k ≤ 2 ^ 31)) (rangeIn a.slot)
  let len := m * n * (if int then 8 else 4)
  need (if kp < k then psum ≠ 0 && ownArea c psum len 64 else psum = 0) (rangeAt 3)
  fu.checkRange m n
  checkAll Tensor.checkPacking [a, b, d]
  let _ ← checkPair a b
  fu.checkRole
  checkAll (s.checkTensor j) [a, b]
  s.checkDest j d
  s.checkFusion j fu
  s.checkReads c (fu.table.toList.map fun t => (t.base, t.runBytes))
  s.checkTable fu
  checkAll (Tensor.checkPoison · c) [a, b, d]
  fu.checkPoison c
  .ok { slots := slotsOf [a, b, d] ++ fu.slots, reserved := if kp < k then [(psum, len)] else [] }

/-- A segment-table entry (R185). -/
structure Segment where
  first : Nat
  rows : Nat
  dest : Nat
  ka : Nat
  ada : Nat
  adb : Nat
  w : Nat
  deriving DecidableEq, Repr

/-- Read a segment-table entry. -/
def segmentOf (bs : Bytes) : Segment :=
  { first := leAt bs 0 4, rows := leAt bs 4 4, dest := leAt bs 8 4, ka := leAt bs 12 4
    ada := leAt bs 16 2, adb := leAt bs 18 2, w := leAt bs 20 2 }

/-- Name the segment in an error. -/
def inSegment {α : Type} (n : Nat) (x : Chk α) : Chk α :=
  match x with
  | .error e => .error { e with segment := n }
  | .ok a => .ok a

/-- Tensors a segment names: adapter activation, adapter weight, base weight override. -/
def Segment.tensors (g : Segment) (v : SlotView) (loops : List Nat) : Chk (Option Tensor × Option Tensor × Option Tensor) := do
  let a ← readOpt v loops g.ada
  let b ← readOpt v loops g.adb
  let w ← readOpt v loops g.w
  .ok (a, b, w)

/-- Range rules of a segment (R186). -/
def Segment.checkRange (g : Segment) (t : Option Tensor × Option Tensor × Option Tensor) (kb n rowsC listLen : Nat) : Chk Unit := do
  let bad : CheckErr := { status := .fieldRange, detail := 9 }
  need (decide (g.ka + kb ≤ 65536)) bad
  need (t.1.isSome = decide (g.ka ≠ 0) && t.2.1.isSome = decide (g.ka ≠ 0)) bad
  need (decide (g.first + g.rows ≤ listLen) && decide (g.dest + g.rows ≤ rowsC)) bad
  need (g.ka = 0 || kb % 32 = 0) bad
  checkAll (fun (x : Tensor) => need (x.dim 0 = g.ka && decide (g.dest + g.rows ≤ x.dim 1) && x.flat) bad) t.1.toList
  checkAll (fun (x : Tensor) => need (x.dim 0 = g.ka && x.dim 1 = n && x.flat) bad) t.2.1.toList
  checkAll (fun (x : Tensor) => need (x.dim 0 = kb && x.dim 1 = n && x.flat) bad) t.2.2.toList
  checkAll (Tensor.checkRange · false) (t.1.toList ++ t.2.1.toList ++ t.2.2.toList)

/-- Run a check on every segment, with its number. -/
def checkSegments (f : Nat → Segment → Chk Unit) (gs : List Segment) : Chk Unit :=
  checkAll (fun p => inSegment p.1 (f p.1 p.2)) ((List.range gs.length).zip gs)

/-- Row number a list entry holds. -/
def State.listEntry (s : State) (l : Tensor) (i : Nat) : Int := toSigned 32 (s.readElem l { i0 := i }).bits

/-- Checks of MM_SEG (R109, R111, R185, R186). -/
def State.checkMmSeg (s : State) (c j : Nat) (loops : List Nat) (cmd : Cmd) : Chk Setup := do
  let v := s.slots c
  let a ← readOpt v loops (cmd.desc 0)
  let b ← readOpt v loops (cmd.desc 12)
  let d ← readOpt v loops (cmd.desc 24)
  let fu := readFusion v loops (cmd.desc 36)
  onlyStatus .format fu
  let l ← readOpt v loops (bits (cmd.word 4) 0 12)
  let table := cmd.word 3
  let cnt := bits (cmd.word 4) 16 9
  let good := ownArea c table (32 * cnt) 32 && decide (1 ≤ cnt ∧ cnt ≤ 256)
  if good then s.checkReads c [(table, 32 * cnt)] else .ok ()
  let raw := if good then (List.range cnt).map fun i => s.readBytes (table + 32 * i) 32 else []
  let gs := raw.map segmentOf
  checkSegments (fun i g => do
    let r := raw.getD i []
    need (leAt r 22 10 = 0 && decide (g.ada < 4096 ∧ g.adb < 4096 ∧ g.w < 4096)) { status := .format, detail := 9 }
    let _ ← g.tensors v loops
    .ok ()) gs
  let a ← required a 2
  let b ← required b 2
  let d ← required d 2
  need (ownArea c table (32 * cnt) 32) (rangeAt 3)
  need (decide (1 ≤ cnt ∧ cnt ≤ 256)) (rangeAt 4)
  let l ← required l 4
  let fu ← fu
  a.checkRange false
  b.checkRange false
  d.checkRange true
  l.checkRange false
  need (l.rank = 1) (rangeIn l.slot)
  let kb := a.dim 0
  let n := b.dim 1
  checkAll (fun t => need t.flat (rangeIn t.slot)) [a, b, d]
  need (b.dim 0 = kb) (rangeIn b.slot)
  need (d.dim 0 = n) (rangeIn d.slot)
  checkSegments (fun _ g => do
    let t ← g.tensors v loops
    g.checkRange t kb n (d.dim 1) (l.dim 0)) gs
  fu.checkRange (d.dim 1) n
  checkAll Tensor.checkPacking [a, b, d]
  let _ ← checkPair a b
  need (l.format = .int32) (roleOf l.slot)
  checkSegments (fun _ g => do
    let t ← g.tensors v loops
    checkAll (fun (x : Tensor) => need (x.format = a.format) (roleOf x.slot)) t.1.toList
    checkAll (fun (x : Tensor) => need (x.format = b.format) (roleOf x.slot)) (t.2.1.toList ++ t.2.2.toList)
    checkAll Tensor.checkPacking (t.1.toList ++ t.2.1.toList ++ t.2.2.toList)) gs
  fu.checkRole
  checkAll (s.checkTensor j) [a, b, l]
  s.checkDest j d
  s.checkFusion j fu
  checkSegments (fun _ g => do
    let t ← g.tensors v loops
    checkAll (s.checkTensor j) (t.1.toList ++ t.2.1.toList ++ t.2.2.toList)) gs
  s.checkReads c (gs.map fun g => ((l.elemPlace { i0 := g.first }).1, 4 * g.rows))
  checkSegments (fun _ g =>
    checkAll (fun i =>
      let e := s.listEntry l (g.first + i)
      need (decide (0 ≤ e ∧ e < (a.dim 1 : Int))) { status := .addrRange, entry := g.first + i })
      (List.range g.rows)) gs
  s.checkReads c (fu.table.toList.map fun t => (t.base, t.runBytes))
  s.checkTable fu
  checkAll (Tensor.checkPoison · c) [a, b, d, l]
  fu.checkPoison c
  checkSegments (fun i g => do
    need (!s.anyPoison (table + 32 * i) 32) { status := .poison, addr := table + 32 * i }
    let t ← g.tensors v loops
    checkAll (Tensor.checkPoison · c) (t.1.toList ++ t.2.1.toList ++ t.2.2.toList)) gs
  .ok { slots := slotsOf [a, b, d, l] ++ fu.slots ++ gs.flatMap fun g => [g.ada, g.adb, g.w], segments := raw }

/-- Checks of WLOAD (R96, R187). -/
def State.checkWload (s : State) (c j : Nat) (loops : List Nat) (cmd : Cmd) : Chk Setup := do
  let w ← readOpt (s.slots c) loops (cmd.desc 0)
  let w ← required w 2
  w.checkRange false
  let two := w.format = .int4 || w.format = .e2m1 || w.format = .mxE2m1
  need (w.dim 0 = 256 || (two && w.dim 0 = 512)) (rangeIn w.slot)
  need (decide (w.dim 1 % 32 = 0 ∧ 32 ≤ w.dim 1 ∧ w.dim 1 ≤ 1024) && w.flat) (rangeIn w.slot)
  w.checkPacking
  need (pairKind w.format w.format).isSome (roleOf w.slot)
  s.checkTensor j w
  w.checkPoison c
  .ok { slots := [w.slot] }

/-- Checks of MM_W (R97, R98, R100, R101, R124, R187). A pair that R88 does not list names A_DESC, since the command has no descriptor of the
latched operand (DESIGN CHOICE, log 79). -/
def State.checkMmW (s : State) (c j : Nat) (loops : List Nat) (cmd : Cmd) : Chk Setup := do
  let v := s.slots c
  let a ← readOpt v loops (cmd.desc 0)
  let b ← readOpt v loops (cmd.desc 12)
  let d ← readOpt v loops (cmd.desc 24)
  let fu := readFusion v loops (cmd.desc 36)
  onlyStatus .format fu
  let tr := bit (cmd.word 2) 49
  need (!bit (cmd.word 2) 48) (rangeAt 2)
  let a ← required a 2
  let d ← required d 2
  let fu ← fu
  match (s.core c).latch with
  | none => .error { status := .latchInvalid }
  | some lt => do
    a.checkRange false
    d.checkRange true
    checkAll (Tensor.checkRange · false) b.toList
    let rows := lt.rows
    let m := a.dim 1
    let n := if tr then rows else lt.width
    checkAll (fun t => need t.flat (rangeIn t.slot)) ([a, d] ++ b.toList)
    need (a.dim 0 = (if tr then lt.width else rows)) (rangeIn a.slot)
    need (d.dim 0 = n && d.dim 1 = m) (rangeIn d.slot)
    checkAll (fun t => need (t.sameDims d) (rangeIn t.slot)) b.toList
    fu.checkRange m n
    checkAll Tensor.checkPacking [a, d]
    let wf := (Format.ofCode lt.format).getD .int8
    let kind := pairKind a.format wf
    need kind.isSome (roleOf a.slot)
    need (rows = 256 || a.format = wf) (roleOf a.slot)
    need (!(tr && wf.isMx)) (roleOf a.slot)
    checkAll (fun t => need (t.format = .fp32 && kind ≠ some .integer) (roleOf t.slot)) b.toList
    fu.checkRole
    checkAll (s.checkTensor j) ([a] ++ b.toList)
    s.checkDest j d
    s.checkFusion j fu
    s.checkReads c (fu.table.toList.map fun t => (t.base, t.runBytes))
    s.checkTable fu
    checkAll (Tensor.checkPoison · c) ([a, d] ++ b.toList)
    fu.checkPoison c
    .ok { slots := slotsOf ([a, d] ++ b.toList) ++ fu.slots }

/-- Checks of ACC_IO (R188). -/
def State.checkAccIo (s : State) (c j : Nat) (cmd : Cmd) : Chk Setup := do
  let w4 := cmd.word 4
  let dir := bits w4 0 2
  let len := 262144 * (if bit w4 2 then 8 else 4)
  let dr := cmd.word 2
  let rl := cmd.word 3
  need (if dir = 1 then dr = 0 else decide (spaceOf dr = 1 ∧ spCore dr = c ∧ dr % 64 = 0)) (rangeAt 2)
  need (if dir = 0 then rl = 0 else decide (spaceOf rl = 1 ∧ spCore rl = c ∧ rl % 64 = 0)) (rangeAt 3)
  need (!(dir = 2 && rangesMeet dr len rl len)) (rangeAt 3)
  if dir = 1 then .ok () else s.checkRangeAt j dr len
  if dir = 0 then .ok () else s.checkRangeAt j rl len
  .ok {}

/-- Checks of MM_F64 (R108, R137, R189). -/
def State.checkMmF64 (s : State) (c j : Nat) (loops : List Nat) (cmd : Cmd) : Chk Setup := do
  let v := s.slots c
  let a ← readOpt v loops (cmd.desc 0)
  let b ← readOpt v loops (cmd.desc 12)
  let d ← readOpt v loops (cmd.desc 24)
  let fu := readFusion v loops (cmd.desc 36)
  onlyStatus .format fu
  need (!bit (cmd.word 2) 48) (rangeAt 2)
  let a ← required a 2
  let b ← required b 2
  let d ← required d 2
  let work := cmd.word 3
  let sl := bits (cmd.word 4) 0 4
  need (decide (spaceOf work ≤ 1 ∧ work % 64 = 0)) (rangeAt 3)
  need (decide (6 ≤ sl ∧ sl ≤ 8)) (rangeAt 4)
  let fu ← fu
  need fu.setting.plain (rangeIn (cmd.desc 36))
  a.checkRange false
  b.checkRange false
  d.checkRange true
  let k := a.dim 0
  checkAll (fun t => need t.flat (rangeIn t.slot)) [a, b, d]
  need (decide (k ≤ 65536)) (rangeIn a.slot)
  need (b.dim 0 = k) (rangeIn b.slot)
  need (d.dim 0 = b.dim 1 && d.dim 1 = a.dim 1) (rangeIn d.slot)
  checkAll (fun t => need (t.format = .fp64) (roleOf t.slot)) [a, b]
  need (d.format = .fp64 || d.format = .fp32) (roleOf d.slot)
  checkAll (s.checkTensor j) [a, b]
  s.checkDest j d
  s.checkRangeAt j work (sl * k * 1280)
  checkAll (Tensor.checkPoison · c) [a, b, d]
  fu.checkPoison c
  .ok { slots := slotsOf [a, b, d] ++ fu.slots, reserved := [(work, sl * k * 1280)] }

/-! ### Output and vector opcodes -/

/-- Checks of FUSE_OUT (R138, R190). -/
def State.checkFuseOut (s : State) (c j : Nat) (loops : List Nat) (cmd : Cmd) : Chk Setup := do
  let v := s.slots c
  let src ← readOpt v loops (cmd.desc 0)
  let dst ← readOpt v loops (cmd.desc 12)
  let fu := readFusion v loops (cmd.desc 24)
  onlyStatus .format fu
  let src ← required src 2
  let dst ← required dst 2
  let fu ← fu
  src.checkRange false
  dst.checkRange true
  need (src.sameDims dst) (rangeIn dst.slot)
  need (src.ownSp c || src.stray) (rangeIn src.slot)
  need (dst.ownSp c || dst.stray) (rangeIn dst.slot)
  fu.checkRange (src.dim 1) (src.dim 0)
  checkAll Tensor.checkPacking [src, dst]
  need (src.format ≠ .int4 && (src.format ≠ .fp64 || fu.setting.plain)) (roleOf src.slot)
  fu.checkRole
  s.checkTensor j src
  s.checkDest j dst
  s.checkFusion j fu
  s.checkReads c (fu.table.toList.map fun t => (t.base, t.runBytes))
  s.checkTable fu
  checkAll (Tensor.checkPoison · c) [src, dst]
  fu.checkPoison c
  .ok { slots := slotsOf [src, dst] ++ fu.slots }

/-- Sources a vector operation uses beside s0: s1, s2, and whether s1 may be an immediate (R191). -/
def vecSources (opcode op : Nat) : Bool × Bool × Bool :=
  if opcode = 0x40 then
    match op with
    | 0x00 | 0x06 | 0x09 | 0x0A | 0x0B | 0x0C => (false, false, false)
    | 0x04 => (true, true, true)
    | _ => (true, false, true)
  else if opcode = 0x42 then (true, false, false)
  else (false, false, false)

/-- Whether an operation is listed and permitted in a domain (R192, R193). -/
def vecOpOk (opcode op dom : Nat) : Bool :=
  if opcode = 0x40 then
    if dom = 2 then [0x00, 0x01, 0x02, 0x03, 0x05, 0x07, 0x08, 0x09, 0x0A, 0x10, 0x11, 0x12, 0x13, 0x14].contains op
    else decide (op ≤ 0x0C)
  else decide (0x20 ≤ op ∧ op ≤ 0x23)

/-- Whether a source has a destination's sizes, sizes of 1 being broadcast (R191). -/
def Tensor.broadcastsTo (t d : Tensor) : Bool := (List.range 4).all fun i => t.dim i = d.dim i || t.dim i = 1

/-- Formats the vector unit takes (R63). -/
def Format.vector (f : Format) : Bool :=
  [Format.int8, .uint8, .int32, .int64, .bf16, .fp16, .fp32, .fp64].contains f

/-- Checks of VOP, VRED and VTAB (R191 to R194). -/
def State.checkVector (s : State) (c j : Nat) (loops : List Nat) (cmd : Cmd) : Chk Setup := do
  let v := s.slots c
  let w := cmd.word 2
  let op := bits w 48 6
  let dom := bits w 54 2
  let tab := cmd.opcode = 0x42
  let use := vecSources cmd.opcode op
  let s0 ← readOpt v loops (cmd.desc 0)
  let s1 ← readOpt v loops (cmd.desc 12)
  let s2 ← readOpt v loops (cmd.desc 24)
  let d ← readOpt v loops (cmd.desc 36)
  need (if tab then bits w 48 11 = 0 else decide (dom ≤ 2) && vecOpOk cmd.opcode op dom) (rangeAt 2)
  let s0 ← required s0 2
  let d ← required d 2
  need ((use.1 || s1.isNone) && (use.2.1 || s2.isNone) && (!use.2.1 || s2.isSome)) (rangeAt 2)
  need (!use.1 || s1.isSome || use.2.2) (rangeAt 2)
  need (cmd.word 3 = 0 || (use.1 && use.2.2 && s1.isNone)) (rangeAt 3)
  let srcs := [s0] ++ s1.toList ++ s2.toList
  checkAll (Tensor.checkRange · false) srcs
  d.checkRange true
  if tab then do
    checkAll (fun t => need (t.rank = 1 && decide (t.dim 0 ≤ 65536)) (rangeIn t.slot)) s1.toList
    need (d.sameDims s0) (rangeIn d.slot)
  else if cmd.opcode = 0x41 then
    need (d.dim 0 = 1 && d.dims.drop 1 = s0.dims.drop 1) (rangeIn d.slot)
  else checkAll (fun t => need (t.broadcastsTo d) (rangeIn t.slot)) srcs
  checkAll Tensor.checkPacking (srcs ++ [d])
  if tab then do
    need (s0.format = .int8 || s0.format = .uint8 || s0.format = .int32) (roleOf s0.slot)
    checkAll (fun t => need t.format.vector (roleOf t.slot)) s1.toList
    checkAll (fun t => need (d.format = t.format) (roleOf d.slot)) s1.toList
  else checkAll (fun t => need (((Domain.ofField dom).getD .fp32).accepts t.format) (roleOf t.slot)) srcs
  checkAll (s.checkTensor j) srcs
  s.checkDest j d
  checkAll (Tensor.checkPoison · c) (srcs ++ [d])
  .ok { slots := slotsOf (srcs ++ [d]) }

/-! ### Transfer opcodes -/

/-- A multicast or reduction group entry (R264): members, root, owner job, parents; none where unused. -/
def groupEntry (v : Nat) : Option (Nat × Nat × Nat × Nat) :=
  if bit v 63 then some (bits v 0 22, bits v 22 5, bits v 32 6, bits v 64 110) else none

/-- Group g of the multicast table 0x2200 or the reduction table 0x2300 (R274). -/
def State.group (s : State) (mcast : Bool) (g : Nat) : Option (Nat × Nat × Nat × Nat) :=
  groupEntry (s.get ((if mcast then 0x2200 else 0x2300) + g / 128) (1 + g % 128))

/-- GROUP of a transfer command. -/
def Cmd.group (c : Cmd) : Nat := bits (c.word 2) 24 8

/-- Whether a core may issue a group command: the source of an MCAST whose members are all the job's, or a member of a reduction
(R195, R196). -/
def State.mayUseGroup (s : State) (c j : Nat) (mcast : Bool) (g : Nat) : Bool :=
  match s.group mcast g with
  | none => false
  | some (m, root, owner, _) =>
    owner = j && (if mcast then root = c && (setPositions 22 m).all fun x => (s.jobCores j).contains x else bit m c)

/-- Destination of an MCAST on one member: its CORE replaced (R195). -/
def Tensor.onCore (t : Tensor) (c : Nat) : Tensor := { t with base := setBits t.base 26 5 c }

/-- Bytes of a tensor's dense image: every run, then the block scales (R197). -/
def Tensor.imageLen (t : Tensor) : Nat := t.runBytes * t.dim 1 * t.dim 2 * t.dim 3 + t.scaleBytes

/-- Checks of SEND, MCAST, REDUCE, RWRITE and RREAD (R195 to R197). -/
def State.checkTransfer (s : State) (c j : Nat) (loops : List Nat) (cmd : Cmd) : Chk Setup := do
  let v := s.slots c
  let op := cmd.opcode
  let src ← readOpt v loops (cmd.desc 0)
  let dst ← readOpt v loops (cmd.desc 12)
  let g := cmd.group
  let root := (s.group false g).any fun e => e.2.1 = c
  let member := (s.group false g).any fun e => bit e.1 c
  need (if op = 0x54 then src.isNone else src.isSome) (rangeAt 2)
  need (if op = 0x53 then dst.isNone else if op = 0x52 then dst.isSome = root || !member else dst.isSome) (rangeAt 2)
  need (!(op = 0x53 || op = 0x54) || spaceOf (cmd.word 3) = 4) (rangeAt 3)
  checkAll (Tensor.checkRange · false) src.toList
  checkAll (Tensor.checkRange · true) dst.toList
  checkAll (fun (t : Tensor) => need (t.ownSp c || t.inDram || t.stray) (rangeIn t.slot))
    (if op = 0x54 then dst.toList else src.toList)
  checkAll (fun (t : Tensor) => need (op ≠ 0x51 || spaceOf t.base = 1 || t.stray) (rangeIn t.slot)) dst.toList
  checkAll (fun (t : Tensor) => need (src.all fun u => u.sameDims t && (op = 0x52 || u.format = t.format)) (rangeIn t.slot)) dst.toList
  checkAll Tensor.checkPacking (src.toList ++ dst.toList)
  let rop := bits (cmd.word 2) 32 4
  checkAll (fun (t : Tensor) => need (op ≠ 0x52 || (match rop with
    | 0 => t.format = .fp32 || t.format = .bf16
    | 1 => t.format = .int64
    | _ => t.format = .fp32 || t.format = .int64)) (roleOf t.slot)) src.toList
  checkAll (fun (t : Tensor) => need (op ≠ 0x52 || (match rop with
    | 0 => t.format = .fp32
    | 1 => t.format = .int64
    | _ => src.all fun u => u.format = t.format)) (roleOf t.slot)) dst.toList
  let mode := bits (cmd.word 4) 0 2
  checkAll (fun (t : Tensor) => need (op ≠ 0x53 || mode = 0 || (mode = 1 && t.format = .fp32) || (mode = 2 && t.format = .int64))
    (roleOf t.slot)) src.toList
  need (!(op = 0x51 || op = 0x52) || s.mayUseGroup c j (op = 0x51) g) { status := .groupMismatch, detail := g }
  checkAll (s.checkTensor j) src.toList
  if op = 0x51 then
    let mem := ((s.group true g).map fun e => setPositions 22 e.1).getD []
    checkAll (fun (t : Tensor) => checkAll (fun m => s.checkDest j (t.onCore m)) mem) dst.toList
  else checkAll (s.checkDest j) dst.toList
  if op = 0x53 || op = 0x54 then
    checkAll (fun (t : Tensor) => s.checkRangeAt j (cmd.word 3) t.imageLen) (src.toList ++ dst.toList)
  else .ok ()
  checkAll (fun (t : Tensor) => need (!(op = 0x50 && spaceOf t.base = 1 && spCore t.base ≠ c && s.coreFenced (spCore t.base)))
    { status := .coreFenced, addr := t.base }) dst.toList
  checkAll (Tensor.checkPoison · c) (src.toList ++ dst.toList)
  .ok { slots := slotsOf (src.toList ++ dst.toList) }

/-- The first descriptor slot a command names; ACC_IO and the sequencer's opcodes name none (R169, R188). -/
def Cmd.firstSlot (c : Cmd) : Option Nat :=
  if c.opcode < 0x10 ∨ c.opcode = 0x24 then none else [c.desc 0, c.desc 12, c.desc 24].find? (· ≠ 0xFFF)

/-- The descriptor table can be read: its bank group is on (R201, R207). -/
def State.checkSlots (s : State) (c : Nat) (cmd : Cmd) : Chk Unit :=
  checkAll (fun n => need (s.groupState c 7 = 0) { status := .bankClosed, detail := 7, addr := slotAddr c n }) cmd.firstSlot.toList

/-- Every check of words 2 to 7 and of the descriptors (R143, R174). A slot, a list or a table in a closed group is refused where it is read,
before what it holds is checked (DEDUCED, log 81). -/
def State.checkCommand (s : State) (c j : Nat) (loops : List Nat) (cmd : Cmd) : Chk Setup := do
  cmd.checkFormat
  s.checkSlots c cmd
  match engineOf cmd.opcode with
  | some 0 => s.checkSequencer c j cmd
  | some 1 => s.checkAccess c j loops cmd
  | some 2 =>
    match cmd.opcode with
    | 0x20 => s.checkMm c j loops cmd
    | 0x21 => s.checkMmSeg c j loops cmd
    | 0x22 => s.checkWload c j loops cmd
    | 0x23 => s.checkMmW c j loops cmd
    | 0x24 => s.checkAccIo c j cmd
    | _ => s.checkMmF64 c j loops cmd
  | some 3 => s.checkFuseOut c j loops cmd
  | some 4 => s.checkVector c j loops cmd
  | _ => s.checkTransfer c j loops cmd

end Sys2Proof.Machine
end

