-- ==== Sys2Proof/Machine/Engine.lean ====
section
/-! DEFINITION. How commands reach the engines: COMMAND_FETCH, COMMAND_DISPATCH, COMMAND_START and COMMAND_COMPLETE (R141 to R153,
R165 to R168), and the shared operations on a started command. -/

namespace Sys2Proof.Machine

open Sys2Proof

/-! ### Started commands -/

/-- Queue of an engine. -/
def Core.queue (k : Core) (e : Nat) : List Queued := Tab.get [] k.queues e
/-- Started commands of an engine, in queue order. -/
def Core.started (k : Core) (e : Nat) : List Active := Tab.get [] k.active e
/-- Commands dispatched to an engine since the job started on the core. -/
def Core.sent (k : Core) (e : Nat) : Nat := Tab.get 0 k.dispatched e
/-- Commands an engine has completed. -/
def Core.ended (k : Core) (e : Nat) : Nat := Tab.get 0 k.completed e

/-- Replace the started commands of an engine. -/
def State.setStarted (s : State) (c e : Nat) (l : List Active) : State :=
  s.updCore c fun k => { k with active := Tab.set [] k.active e l }

/-- The first started command of an engine that has an opcode and is not done, with its position. -/
def Core.working (k : Core) (e op : Nat) : Option (Nat × Active) :=
  let l := k.started e
  ((List.range l.length).zip l).find? fun x => x.2.q.cmd.opcode = op && !x.2.done && !x.2.draining && !x.2.stopping

/-- Replace one started command. -/
def State.putActive (s : State) (c e i : Nat) (a : Active) : State := s.setStarted c e ((s.core c).started e |>.set i a)

/-- A command ends in error: it reports the error when it is first in its engine's queue order (R153). -/
def Active.fail (a : Active) (now : Nat) (e : CheckErr) : Active :=
  { a with done := true, status := e.status.code, detail := e.detail, addr := e.addr, desc := e.desc, segment := e.segment
           entry := e.entry, start := now }

/-- An access of it failed. -/
def Active.refuse (a : Active) (now : Nat) (e : AccErr) : Active :=
  a.fail now { status := e.status, detail := e.detail, addr := e.addr }

/-- Every write of it is made: OK, POISON under R168, or ARITH_TRAP under R140. -/
def Active.finish (a : Active) (now : Nat) (f : ArithFlags) : Active :=
  let a := { a with done := true, flags := f.byte, start := now }
  if f.poison && !a.q.cmd.poisonOk then { a with status := Status.poison.code }
  else if f.traps a.trap then { a with status := Status.arithTrap.code }
  else a

/-- The error record's fields for a command of an engine. -/
def errOf (e : Nat) (cmd : Cmd) (a : Active) (stamp : Nat) (later : Nat) : ErrInfo :=
  { word := statusWord cmd.opcode a.detail e cmd.tag a.flags a.status, pc := cmd.pc, addr := a.addr, stamp := stamp
    desc := a.desc, segment := a.segment, entry := a.entry, later := later, header := cmd.word 0 }

/-! ### Fetch -/

/-- The checks of a fetch (R141): the status that stops the core, OK otherwise, with its detail. -/
def State.fetchStatus (s : State) (c j pc : Nat) : Status × Nat :=
  if addrReserved pc then (.addrReserved, 0)
  else if spaceOf pc = 2 ∨ spaceOf pc = 4 ∨ pc % 64 ≠ 0 then (.addrRange, 0)
  else
    let st := s.addrCheck j pc 64
    if st ≠ .ok then (st, 0)
    else
      let a := s.accessStatus c pc
      if a.1 ≠ .ok then a else if s.anyPoison pc 64 then (.poison, 0) else (.ok, 0)

/-- Fetch one command (R141). -/
def State.fetchCmd (s : State) (c j pc : Nat) : Cmd :=
  let (st, d) := s.fetchStatus c j pc
  if st ≠ .ok then { pc := pc, status := st.code + d * 256 }
  else
    let bs := s.readBytes pc 64
    { pc := pc, words := (List.range 8).map fun i => leAt bs (8 * i) 8 }

/-- Whether a core executes: running, or its sequencer waiting (R164). -/
def Core.runs (k : Core) : Bool := k.job ≠ 0xFF && (k.state = 1 || k.state = 2)

/-- Stop a core for a command that never started: fetch or header (R141, R143). ENGINE names the engine of the command's opcode, the
sequencer where there is none (R173; DEDUCED, log 58). A fetch that failed has the PC in ADDRESS too, the address that failed (R25, R175; DEDUCED,
log 58). -/
def State.stopAtHeader (s : State) (c : Nat) (cmd : Cmd) (st : Nat) (d : Nat) : State :=
  s.coreError c (errOf ((engineOf cmd.opcode).getD 0) cmd { status := st, detail := d, addr := if cmd.status = 0 then 0 else cmd.pc } s.now
    (s.core c).laterErrors) false

/-- A command has been fetched: one that failed stops the core where nothing waits before it (R141). -/
def State.prefetched (s : State) (c : Nat) (cmd : Cmd) : State :=
  let k := s.core c
  if cmd.status ≠ 0 ∧ k.prefetch.isEmpty ∧ (k.queue 0).isEmpty ∧ (k.started 0).isEmpty then
    s.stopAtHeader c cmd (cmd.status % 256) (cmd.status / 256)
  else s.updCore c fun k => { k with prefetch := k.prefetch ++ [cmd] }

/-! ### Requests to a hub that does not answer -/

/-- A place that a request reaches: 0 read or 1 written, the address asked for, and where it is served or stored (R247). -/
structure Place where
  dir : Nat
  asked : Nat
  at_ : Nat

/-- The places that reads and writes reach. -/
def State.places (s : State) (reads writes : List Nat) : List Place :=
  (reads.flatMap fun a => (s.served a).toList.map fun b => ⟨0, a, b⟩) ++ writes.flatMap fun a => (s.writePlaces a).map fun b => ⟨1, a, b⟩

/-- Whether a direction of the layer that holds a place is held (R230, R231). -/
def State.heldAt (s : State) (d b : Nat) : Bool := spaceOf b = 0 && (s.channel (stackOf b) (s.layerOf b) d).held

/-- Whether a request from a hub is not performed at once at a place: its hub does not serve, no packet comes to it, or its channel is held (R230, R241,
R261, R263). -/
def State.away (s : State) (h : Nat) (x : Place) : Bool :=
  s.hub (s.hubOf x.at_) ≠ 0 || s.cutOff h (s.hubOf x.at_) || !s.pathOpen h (s.hubOf x.at_) || s.heldAt x.dir x.at_

/-- The first place that a core cannot reach now; its own scratchpad needs no hub (R25, R230, R241, R261, R263). -/
def State.awayPlace (s : State) (c : Nat) (xs : List Place) : Option Place :=
  xs.find? fun x => !(spaceOf x.at_ = 1 && spCore x.at_ = c) && s.away (s.tileOf c) x

/-- The first place that a ring station cannot reach now, by the attachment hub of its target (R241, R273). -/
def State.ringAway (s : State) (xs : List Place) : Option Place := xs.find? fun x => s.away (s.attachIn (s.hubOf x.at_)) x

/-- The request of a core's engine that is under way or backing off. -/
def State.txnOf (s : State) (c e : Nat) : Option (Nat × Txn) :=
  s.txns.findSome? fun x => x.2.bind fun t => if t.core = c ∧ t.engine = e ∧ t.phase ≠ 2 then some (x.1, t) else none

/-- Count a RETRY answer of a hub at its stack (R242, R249). -/
def State.countRetry (s : State) (h : Nat) : State := s.count (0x4500 + s.stackOn h) 0x09 64 1

/-- The number under which a core's fetch makes its requests, beside its engines. -/
def fetchPort : Nat := 6

/-- The started command that waits for a request ends with a status; a fetch that waits ends as one that failed (R141, R242, R259). -/
def State.failWaiting (s : State) (t : Txn) (st : Status) : State :=
  if t.engine = fetchPort then s.prefetched t.core { pc := t.address, status := st.code }
  else
  let l := (s.core t.core).started t.engine
  match ((List.range l.length).zip l).find? fun x => !x.2.done with
  | some (i, a) => s.putActive t.core t.engine i (a.refuse s.now ⟨st, 0, t.address⟩)
  | none => s

/-- Status of a request that is given up (R259). -/
def giveUpStatus (a : Nat) : Status := if spaceOf a = 0 then .stackLost else .coreOutOfService

/-- Keep on record the last 1,024 completed requests of a core (R259). -/
def State.pruneTxns (s : State) (c : Nat) : State :=
  let mine := s.txns.filter fun x => match x.2 with
    | some t => t.core = c && t.phase = 2
    | none => false
  (mine.take (mine.length - 1024)).foldl (fun s x => { s with txns := Tab.set none s.txns x.1 none }) s

/-- A new request of a core's engine on the armature. -/
def State.addTxn (s : State) (t : Txn) : State :=
  { s with txns := Tab.set none s.txns s.txnNext (some t), txnNext := s.txnNext + 1 }

/-- A request of a core's engine has been answered: its transaction is on record (R259). -/
def State.closeTxn (s : State) (c e : Nat) : State :=
  match s.txnOf c e with
  | some (r, t) => { s with txns := Tab.set none s.txns r (some { t with phase := 2 }) }.pruneTxns c
  | none => s

/-- Packets that leave a hub for another in the escape class are counted; how many a command sends is free (R260, R275; log 84). -/
def State.escapeSent (s : State) (h d : Nat) : State :=
  if h ≠ d && (s.routePort h d).2 then { s.count 0x4603 0x04 64 (1 + Config.morePackets s.fresh) with fresh := s.fresh + 1 } else s

/-- What a command asks of memory is performed: a request that waited is answered, and one that leaves its tile goes on record (R259). -/
def State.requestDone (s : State) (c e : Nat) (xs : List Place) : State :=
  if (s.txnOf c e).isSome then s.closeTxn c e
  else
    match xs.find? fun x => s.hubOf x.at_ ≠ s.tileOf c with
    | some x => ((s.escapeSent (s.tileOf c) (s.hubOf x.at_)).addTxn
        { core := c, engine := e, hub := s.hubOf x.at_, address := x.asked, phase := 2 }).pruneTxns c
    | none => s

/-- A request that is not performed now: a hub in reset answers RETRY, a dead one nothing, a packet that meets a dead hub on its way is lost, a held channel
lets it wait, and a hub that no route reaches is refused at once (R230, R241, R242, R259, R261, R263). -/
def State.awaitHub (s : State) (r : Nat) (t : Txn) (x : Place) : State :=
  let h := s.hubOf x.at_
  let home := s.tileOf t.core
  let t := { t with hub := h, address := x.asked }
  if s.cutOff home h then { s.failWaiting t (giveUpStatus x.asked) with txns := Tab.set none s.txns r none }
  else if s.hub h = 1 && s.pathOpen home h then
    let b := if t.backoff = 0 then 1000 else min 8000 (2 * t.backoff)
    { s with txns := Tab.set none s.txns r (some { t with phase := 1, backoff := b }) }.countRetry h
  else { s with txns := Tab.set none s.txns r (some { t with phase := 0 }) }

/-- Do what a command asks of memory where every place it reads or writes is reached; otherwise its engine's request waits, or waits on where it has just
been made again (R241, R242, R259). -/
def State.viaHubs (s : State) (c e : Nat) (reads writes : List Nat) (run : State → State) : State :=
  let xs := s.places reads writes
  match s.awayPlace c xs with
  | none => run (s.requestDone c e xs)
  | some x =>
    match s.txnOf c e with
    | some (r, t) => if t.phase = 3 then s.awaitHub r t x else s
    | none =>
      let t : Txn := { core := c, engine := e, hub := 0, address := 0 }
      (s.addTxn t).awaitHub s.txnNext t x

/-- End the requests that ask for a lost stack, and not for a range whose mirror survives (R21, R233, R247). -/
def State.endLost (s : State) : State :=
  s.txns.foldl (fun s x => match x.2 with
    | some t =>
      if t.phase ≠ 2 && s.serviceStatus t.address = .stackLost then
        { s.failWaiting t .stackLost with txns := Tab.set none s.txns x.1 none }
      else s
    | none => s) s

/-! ### Fetch -/

/-- COMMAND_FETCH: prefetch the next command, at most 128 ahead of dispatch (R141), from a stack whose hub serves (R241), with what its read finds
(R212, R213, R236). -/
def commandFetch (c : Nat) (ups : List Upset) (s : State) : State :=
  let k := s.core c
  if !k.runs ∨ 128 ≤ k.prefetch.length ∨ k.prefetch.any (·.status ≠ 0) then s
  else
    let pc := (k.pc + 64 * k.prefetch.length) % 2 ^ 64
    s.viaHubs c fetchPort (if 2 ≤ spaceOf pc then [] else [pc]) [] fun s =>
    let s := s.takeUpsets c [(pc, 64)] ups
    let cmd := s.fetchCmd c k.job pc
    let s := if cmd.status = 0 then s.countRead cmd.pc 64 else s
    s.prefetched c cmd

/-! ### Dispatch -/

/-- The header rules of R143, R146, R165 and R166: the word that breaks one. -/
def Cmd.headerFault (c : Cmd) : Option Nat :=
  let w0 := c.word 0
  let w1 := c.word 1
  let wk := bits w0 46 2
  let sk := bits w0 62 2
  let wv := bits w1 0 32
  let inc := bits w1 32 16
  let bad0 := bits w0 14 2 ≠ 0 || wk = 3 || sk = 3
    || (!c.waitEn && (bits w0 32 16 ≠ 0 || bit w0 12)) || (!c.signalEn && (bits w0 48 16 ≠ 0 || bit w0 13))
  let tok (lo : Nat) : Bool := decide (6 ≤ bits w1 lo 3) || (bits w1 lo 3 = 0 && bits w1 (lo + 3) 3 ≠ 0)
  let bad1 := bits w1 60 4 ≠ 0 || tok 48 || tok 54
    || (if c.waitEn then (wk = 1 && decide (2 ^ 16 ≤ wv)) || (wk = 2 && decide (2 ≤ wv)) else wv ≠ 0)
    || (if c.signalEn then (if sk = 0 then inc = 0 else inc ≠ 0) else inc ≠ 0)
  if bad0 then some 0 else if bad1 then some 1 else none

/-- Whether the sequencer of a core may dispatch now: running, its slot free, no DELAY counting (R142, R147, R157, R160). -/
def Core.mayDispatch (k : Core) : Bool :=
  k.job ≠ 0xFF && k.state = 1 && (k.queue 0).isEmpty && (k.started 0).isEmpty && k.delay = 0

/-- Put a dispatched command in its engine's queue, with the loop indices captured (R146, R159). -/
def Core.enqueue (k : Core) (e : Nat) (cmd : Cmd) : Core :=
  let q : Queued := { cmd := cmd, loops := (List.range 4).map fun i => (k.loops.getD i {}).i
                      before := (List.range 6).map k.sent }
  { k with prefetch := k.prefetch.drop 1, pc := cmd.pc + 64, queues := Tab.set [] k.queues e (k.queue e ++ [q])
           dispatched := Tab.upd 0 k.dispatched e (· + 1) }

/-- COMMAND_DISPATCH: check the header and dispatch the next command, or stall on a full queue (R142, R143). -/
def commandDispatch (c : Nat) (s : State) : State :=
  let k := s.core c
  if !k.mayDispatch then s
  else match k.prefetch with
    | [] => s
    | cmd :: _ =>
      if cmd.status ≠ 0 then s.stopAtHeader c cmd (cmd.status % 256) (cmd.status / 256)
      else match engineOf cmd.opcode with
        | none => s.stopAtHeader c cmd Status.badOpcode.code 0
        | some e =>
          match cmd.headerFault with
          | some w => s.stopAtHeader c cmd Status.format.code w
          | none =>
            if e ≠ 0 ∧ 256 ≤ (k.queue e).length then s.bump (coreObj c) 0x09
            else s.updCore c fun k => k.enqueue e cmd

/-! ### Start -/

/-- Opcodes that carry an implicit fence, and FENCE itself (R147). -/
def Cmd.fences (c : Cmd) : Bool := c.fence || [0x02, 0x03, 0x04, 0x05, 0x08].contains c.opcode

/-- Whether one queue token is satisfied (R146). -/
def Core.tokenMet (k : Core) (q : Queued) (lo : Nat) : Bool :=
  let w := q.cmd.word 1
  let e := bits w lo 3
  e = 0 || decide (q.before.getD e 0 ≤ k.ended e + bits w (lo + 3) 3)

/-- Whether every command dispatched before has completed (R147). -/
def Core.fenceMet (k : Core) (q : Queued) : Bool := (List.range 6).all fun e => decide (q.before.getD e 0 ≤ k.ended e)

/-- Whether an engine can take one more command (R142); a second execute command starts when the first drains. -/
def Core.hasRoom (k : Core) (e : Nat) : Bool :=
  let l := k.started e
  match e with
  | 1 => decide (l.length < 4)
  | 2 => decide (l.length < 2) && l.all fun a => a.done || a.draining
  | 5 => decide (l.length < 16)
  | _ => l.isEmpty

/-- Object of a header wait or signal: on this core or on the lead (R167). -/
def State.headerCore (s : State) (c : Nat) (atLead : Bool) : Nat := if atLead then s.lead (s.core c).job else c

/-- Drop the head of an engine's queue. -/
def State.popQueue (s : State) (c e : Nat) : State :=
  s.updCore c fun k => { k with queues := Tab.set [] k.queues e ((k.queue e).drop 1) }

/-- Change the head of an engine's queue. -/
def State.updHead (s : State) (c e : Nat) (f : Queued → Queued) : State :=
  s.updCore c fun k => { k with queues := Tab.set [] k.queues e (match k.queue e with
    | [] => []
    | q :: r => f q :: r) }

/-- Add a started command to its engine. -/
def State.addStarted (s : State) (c e : Nat) (a : Active) : State := s.setStarted c e ((s.core c).started e ++ [a])

/-- Make the checks of a command whose conditions hold and start it, or leave it ended in error (R115, R174). A start of MM, MM_SEG,
ACC_IO or MM_F64 invalidates the latches (R100). -/
def State.startHead (s : State) (c e : Nat) (q : Queued) : State :=
  let k := s.core c
  let a : Active := { q := q, start := s.now, trap := s.get (0x2100 + k.job) 0x01
                      deadline := if q.cmd.opcode = 0x51 ∨ q.cmd.opcode = 0x52 then some (s.now + s.waitDefault k.job) else none }
  let s := s.popQueue c e
  match s.checkCommand c k.job q.loops q.cmd with
  | .error err => (s.countClosed err.addr err.status).addStarted c e (a.fail s.now err)
  | .ok u =>
    let s := if [0x20, 0x21, 0x24, 0x25].contains q.cmd.opcode then s.updCore c fun k => { k with latch := none } else s
    let s := if [0x20, 0x21, 0x23, 0x25].contains q.cmd.opcode then s.leaveIdle else s
    s.addStarted c e { a with slots := (s.slots c).keep u.slots, segments := u.segments, reserved := u.reserved }

/-- Test the wait condition of a queue head, registering it the first time (R145, R148, R285). -/
def State.testWait (s : State) (c e : Nat) (q : Queued) : State :=
  let w := q.cmd.word 0
  let oc := s.headerCore c (bit w 12)
  let obj := syncAddr oc (bits w 32 14)
  let wt : Wait := { core := c, engine := e, object := obj, kind := bits w 46 2, target := bits (q.cmd.word 1) 0 32
                     tag := q.cmd.tag, start := s.now, deadline := s.now + s.waitDefault (s.core c).job, opcode := false }
  match s.registerWait wt with
  | (s, some true) => (s.updHead c e fun q => { q with waiting := true, waitMet := true }).startHead c e { q with waiting := true, waitMet := true }
  | (s, some false) =>
    let s := s.updHead c e fun q => { q with waiting := true }
    if e = 0 then s.setCoreState c 2 else s
  | (s, none) => (s.popQueue c e).addStarted c e (({ q := q } : Active).fail s.now { status := .syncKind, addr := obj })

/-- COMMAND_START: tokens, fence and wait in order, then the checks (R145). -/
def commandStart (c e : Nat) (s : State) : State :=
  let k := s.core c
  match k.queue e with
  | [] => s
  | q :: _ =>
    if !k.runs ∨ !k.hasRoom e ∨ !k.tokenMet q 48 ∨ !k.tokenMet q 54 ∨ (q.cmd.fences && !k.fenceMet q) then s
    else if q.cmd.waitEn && !q.waitMet then (if q.waiting then s else s.testWait c e q)
    else s.startHead c e q

/-! ### Completion -/

/-- Low 16 bits of the last step number begun: the generation a core's arrivals expect (R282). -/
def Core.expectedGen (k : Core) : Nat := k.step % 2 ^ 16

/-- Send the header signal of a completed command (R149, R166, R282, R367). -/
def State.headerSignal (s : State) (c e : Nat) (cmd : Cmd) : State :=
  if !cmd.signalEn then s
  else
    let w := cmd.word 0
    let kind := bits w 62 2
    let tag := if cmd.opcode = 0x05 then (c, (s.core c).interval - 1) else s.tagOf c
    s.sendSignal c (s.headerCore c (bit w 13)) (bits w 48 14) kind (if kind = 0 then bits (cmd.word 1) 32 16 else 1)
      (if kind = 1 then some (s.core c).expectedGen else none) (.header c e cmd) (some tag) none

/-- Count a completion: flags, step record, counters (R173, R353). -/
def State.countCompletion (s : State) (c e : Nat) (a : Active) : State :=
  (s.updCore c fun k =>
    { k with active := Tab.set [] k.active e ((k.started e).drop 1), completed := Tab.upd 0 k.completed e (· + 1)
             flags := ((ArithFlags.ofByte k.flags).or (ArithFlags.ofByte a.flags)).byte
             record := { k.record with completed := k.record.completed + 1 } }).bump (coreObj c) 0x08

/-- An error found after the core has stopped is only counted (R153). -/
def State.laterError (s : State) (c : Nat) : State :=
  let v := s.get (coreObj c) 0x07
  s.put (coreObj c) 0x07 (setBits v 320 32 (satAdd 32 (bits v 320 32) 1))

/-- COMMAND_COMPLETE: the oldest started command of an engine, if it is done, completes or ends in error (R144, R152, R153); an RWRITE
that withheld poison ends its job (R356). -/
def commandComplete (c e : Nat) (s : State) : State :=
  let k := s.core c
  match k.started e with
  | [] => s
  | a :: _ =>
    if !a.done then s
    else if a.status = 0 then ((s.countCompletion c e a).headerSignal c e a.q.cmd).settleStop k.job
    else if !k.runs then ((s.updCore c fun k => { k with active := Tab.set [] k.active e ((k.started e).drop 1) }).laterError c).settleStop k.job
    else
      let r := errOf e a.q.cmd a a.start (k.laterErrors - 1)
      if a.q.cmd.opcode = 0x53 ∧ a.status = Status.poison.code ∧ a.desc = 0xFFFF then s.egressByCommand c 1 r
      else s.coreError c r false

def execCommandFetch (c : CoreId) (ups : List Upset) (s : State) : Host.Outcome State Fault Refusal := .next (commandFetch c ups s)
def execCommandDispatch (c : CoreId) (s : State) : Host.Outcome State Fault Refusal := .next (commandDispatch c s)
def execCommandStart (c : CoreId) (e : EngineId) (s : State) : Host.Outcome State Fault Refusal := .next (commandStart c e s)
def execCommandComplete (c : CoreId) (e : EngineId) (s : State) : Host.Outcome State Fault Refusal := .next (commandComplete c e s)

end Sys2Proof.Machine
end

