-- ==== Sys2Proof/Machine/Move.lean ====
section
/-! DEFINITION. The access opcodes LOAD, GATHER, STORE and COPY (R182, R183), and the writing of converted elements (R68, R72, R73, R78,
R136) that every computing command shares. -/

namespace Sys2Proof.Machine

open Sys2Proof

/-! ### Copies -/

/-- The byte ranges a tensor's elements and scales reach. -/
def Tensor.reach (t : Tensor) : List (Nat × Nat) :=
  (t.lowAddr.toNat, (t.extent.2 - t.extent.1 + 1).toNat) :: (if t.scaleBytes = 0 then [] else [(t.base + t.scaleOff, t.scaleBytes)])

/-- The byte ranges of a tensor's runs and scales. -/
def Tensor.spans (t : Tensor) : List (Nat × Nat) :=
  t.runs.flatMap fun i => (t.runAddr i, t.runBytes) :: (if t.format.isMx then [(t.scaleAddr i, t.blocks)] else [])

/-- Whether two tensors reach a common byte. -/
def Tensor.overlaps (t u : Tensor) : Bool :=
  (t.reach.any fun r => u.reach.any fun q => rangesMeet r.1 r.2 q.1 q.2)
    && (t.spans.any fun r => u.spans.any fun q => rangesMeet r.1 r.2 q.1 q.2)

/-- Whether any element or scale of a tensor lies in a poisoned granule. -/
def State.tensorPoison (s : State) (t : Tensor) : Bool := t.spans.any fun r => s.anyPoison r.1 r.2

/-- The byte ranges of one dimension-0 run and of its scales. -/
def Tensor.runSpans (t : Tensor) (i : Idx) : List (Nat × Nat) :=
  (t.runAddr i, t.runBytes) :: (if t.format.isMx then [(t.scaleAddr i, t.blocks)] else [])

/-- Whether a run of a tensor or its scales hold poison. -/
def State.runPoison (s : State) (t : Tensor) (i : Idx) : Bool := (t.runSpans i).any fun r => s.anyPoison r.1 r.2

/-- Why a read of a whole tensor with its scales is refused now, if it is (R207, R209). -/
def State.tensorErr (s : State) (c : Nat) (t : Tensor) : Option AccErr := s.rangesErr c t.spans

/-- Why a read of the vectors or the table of a fused-output setting is refused now, if it is (R202, R207). -/
def State.fusionErr (s : State) (c : Nat) (f : Fusion) : Option AccErr := f.tensors.findSome? (s.tensorErr c)

/-- Ranges that the reading of a setting's vectors and table reaches. -/
def Fusion.reads (f : Fusion) : List (Nat × Nat) := f.tensors.flatMap Tensor.spans

/-- Copy one dimension-0 run and, for an MX tensor, its scales. -/
def State.moveRun (s : State) (c e : Nat) (free : Option (List Nat)) (taint : Bool) (src dst : Tensor) (i k : Idx) : State × Option AccErr :=
  match s.copyRun c e free taint (src.runAddr i) (dst.runAddr k) src.runBytes with
  | (s, some err) => (s, some err)
  | (s, none) =>
    if src.format.isMx then s.copyRun c e free taint (src.scaleAddr i) (dst.scaleAddr k) src.blocks else (s, none)

/-- Copy a whole tensor in ascending order of dimensions 3, 2 and 1 (R182); whether a run that it came to held poison (R127, R168). -/
def State.moveTensor (s : State) (c e : Nat) (q : Queued) (src dst : Tensor) : State × Option AccErr × Bool :=
  let free := s.openKey c q (src.overlaps dst)
  let r := src.runs.foldl (fun (st : State × Option AccErr × Bool) i =>
    match st.2.1 with
    | some _ => st
    | none =>
      let p := st.1.runPoison src i
      let w := st.1.moveRun c e free false src dst i i
      (w.1, w.2, st.2.2 || p)) (s, none, false)
  (r.1.useKey free, r.2)

/-- The tensor a started command read in a slot. -/
def Active.tensor (a : Active) (slot : Nat) : Option Tensor :=
  match readOpt a.slotView a.q.loops slot with
  | .ok t => t
  | .error _ => none

/-- A command of an engine that moved data ends: refused, with the flags of what it did (R127), or finished with its flags. -/
def endMove (c e i : Nat) (a : Active) (r : State × Option AccErr) (f : ArithFlags) : State :=
  r.1.putActive c e i (match r.2 with
    | some err => ({ a with flags := ((ArithFlags.ofByte a.flags).or f).byte } : Active).refuse r.1.now err
    | none => a.finish r.1.now f)

/-- A command of an engine ends at a read that is refused, which the core of a closed group counts (R207). -/
def State.refuseRead (s : State) (c e i : Nat) (a : Active) (err : AccErr) : State :=
  (s.countClosed err.addr err.status).putActive c e i (a.refuse s.now err)

/-- LOAD, STORE and COPY (R182): what reads find first, then the copy, then what its writes meet. -/
def accessMove (c op : Nat) (ups : List Upset) (s : State) : State :=
  match (s.core c).working 1 op with
  | none => s
  | some (i, a) =>
    match a.tensor (a.q.cmd.desc 0), a.tensor (a.q.cmd.desc 12) with
    | some src, some dst =>
      s.viaHubs c 1 [src.base] [dst.base] fun s =>
        let s := s.takeUpsets c src.spans ups
        let r := s.moveTensor c 1 a.q src dst
        endMove c 1 i a (r.1.writeUpsets dst.spans ups, r.2.1) { poison := r.2.2 }
    | _, _ => s

/-- GATHER (R183): row n of the destination from row list[FIRST + n] of the source; a bad entry ends it there. -/
def accessGather (c : Nat) (ups : List Upset) (s : State) : State :=
  match (s.core c).working 1 0x11 with
  | none => s
  | some (i, a) =>
    let cmd := a.q.cmd
    match a.tensor (cmd.desc 0), a.tensor (cmd.desc 12), a.tensor (cmd.desc 24) with
    | some src, some dst, some list =>
      s.viaHubs c 1 [src.base, list.base] [dst.base] fun s =>
        let first := bits (cmd.word 3) 0 32
        let listed := ((list.elemPlace { i0 := first }).1, 4 * bits (cmd.word 3) 32 32)
        match s.readErr c listed.1 listed.2 with
        | some err => s.refuseRead c 1 i a err
        | none =>
        let s := (s.countRead listed.1 listed.2).takeUpsets c (listed :: src.spans) ups
        let free := s.openKey c a.q (src.overlaps dst)
        let rows := (List.range (bits (cmd.word 3) 32 32)).map fun n => (n, s.listEntry list (first + n), s.elemPoison list { i0 := first + n })
        let good (r : Int) : Bool := decide (0 ≤ r ∧ r < (src.dim 1 : Int))
        let ok := rows.takeWhile fun x => good x.2.1
        let poison := rows.any (·.2.2) || ok.any fun x =>
          let k : Idx := { i1 := x.2.1.toNat }
          s.runPoison src k
        let r := eachUntil (fun s x => s.moveRun c 1 free x.2.2 src dst { i1 := x.2.1.toNat } { i1 := x.1 }) ok s
        let s := r.1.writeUpsets dst.spans ups
        let r := (s.useKey free, r.2)
        match r.2, rows.drop ok.length with
        | none, x :: _ =>
          r.1.putActive c 1 i (a.fail r.1.now { status := .addrRange, entry := first + x.1 })
        | _, _ => endMove c 1 i a r { poison := poison }
    | _, _, _ => s

def execLoad (c : CoreId) (ups : List Upset) (s : State) : Host.Outcome State Fault Refusal := .next (accessMove c 0x10 ups s)
def execGather (c : CoreId) (ups : List Upset) (s : State) : Host.Outcome State Fault Refusal := .next (accessGather c ups s)
def execStore (c : CoreId) (ups : List Upset) (s : State) : Host.Outcome State Fault Refusal := .next (accessMove c 0x13 ups s)
def execCopy (c : CoreId) (ups : List Upset) (s : State) : Host.Outcome State Fault Refusal := .next (accessMove c 0x14 ups s)

/-! ### Writing converted elements -/

/-- An element on its way to a destination: its exact value and its poison. -/
abbrev OutElem := Num × Bool

/-- The stochastic draw of an element of a descriptor (R78): the job's seed, the number of the last STEP_BEGIN that the core executed in the job. -/
def State.drawFor (s : State) (c slot : Nat) (i : Idx) : Nat :=
  let k := s.core c
  draw (s.jobGet k.job 0x03) k.step slot i

/-- Write packed element bytes at an address, each granule poisoned where an element in it is; n bits an element. -/
def State.putPacked (s : State) (c e a n : Nat) (bs : Bytes) (ps : List Bool) : State × Option AccErr :=
  eachUntil (fun s (x : Nat × Bytes) =>
    let lo := (x.1 - a) * 8 / n
    let hi := ceilDiv ((x.1 - a + x.2.length) * 8) n
    s.putPiece c e x.1 x.2 (((ps.drop lo).take (hi - lo)).any id)) (pieces 64 a bs) s

/-- Write consecutive elements of a run of a destination that is not MX, from index i (R73, R75 to R78). -/
def State.putPlainRun (s : State) (c e : Nat) (t : Tensor) (r : Rounding) (sat : Bool) (i : Idx) (xs : List OutElem) :
    State × Option AccErr × ArithFlags :=
  let cs := ((List.range xs.length).zip xs).map fun x =>
    Format.convert t.format r sat (s.drawFor c t.slot { i with i0 := i.i0 + x.1 }) x.2.1
  let w := s.putPacked c e (t.elemPlace i).1 t.format.bits (packBits t.format.bits (cs.map (·.bits))) (xs.map (·.2))
  (w.1, w.2, cs.foldl (fun f x => f.or x.flags) {})

/-- Write one whole block of 32 elements of an MX destination, and its scale (R69, R72, R136); every element and the scale come from the block's
greatest magnitude, so poison in one poisons all (R128). -/
def State.putBlock (s : State) (c e : Nat) (t : Tensor) (r : Rounding) (i : Idx) (xs : List OutElem) :
    State × Option AccErr × ArithFlags :=
  let vs := ((List.range xs.length).zip xs).map fun x => (x.2.1, s.drawFor c t.slot { i with i0 := i.i0 + x.1 })
  let b := Format.mxBlock t.format r vs
  let p := xs.any (·.2)
  match s.putPacked c e (t.elemPlace i).1 t.format.bits (packBits t.format.bits b.elems) (xs.map fun _ => p) with
  | (s, some err) => (s, some err, b.flags)
  | (s, none) => let w := s.putBytes c e (t.scaleAddr i) [BitVec.ofNat 8 b.scale] p; (w.1, w.2, b.flags)

/-- Write a whole dimension-0 run of a destination. -/
def State.putRun (s : State) (c e : Nat) (t : Tensor) (r : Rounding) (sat : Bool) (i : Idx) (xs : List OutElem) :
    State × Option AccErr × ArithFlags :=
  if t.format.isMx then
    ((List.range (xs.length / 32)).foldl (fun (st : State × Option AccErr × ArithFlags) b =>
      match st.2.1 with
      | some _ => st
      | none =>
        let w := st.1.putBlock c e t r { i with i0 := 32 * b } ((xs.drop (32 * b)).take 32)
        (w.1, w.2.1, st.2.2.or w.2.2)) (s, none, {}))
  else s.putPlainRun c e t r sat i xs

end Sys2Proof.Machine
end

