-- ==== Sys2Proof/Machine/Execute.lean ====
section
/-! DEFINITION. The execute opcodes (R85 to R128, R184 to R189): passes and their parts, streaming, the end of a pass with its
comparisons (R342 to R345), weight-resident mode, accumulator exchange and split-mode FP64. -/

namespace Sys2Proof.Machine

open Sys2Proof

/-! ### Passes -/

/-- What one array, or one quarter of one, computes in a pass: output rows i0 .. i0 + m − 1, output columns j0 .. j0 + n − 1, the
accumulator row and position of the first, and the segment (R89, R101, R106). -/
structure Part where
  array : Nat
  i0 : Nat
  m : Nat
  j0 : Nat
  n : Nat
  r0 : Nat
  p0 : Nat
  seg : Nat := 0
  deriving DecidableEq, Repr

/-- A pass: its products k0 .. k1 − 1, whether it is the first and the last of its tile, its parts (R91, R92). -/
structure Pass where
  k0 : Nat
  k1 : Nat
  first : Bool
  last : Bool
  parts : List Part
  deriving DecidableEq, Repr

/-- The four presented widths of a core (R104, R164). -/
def State.widths (s : State) (c : Nat) : List Nat := (List.range 4).map fun a => bits (s.get (coreObj c) 0x05) (16 * a) 16

/-- Sum of widths. -/
def wsum (ws : List Nat) : Nat := ws.foldl (· + ·) 0

/-- Fold columns j0 .. n − 1 onto array widths: array, first column, columns, position of the first (R106). -/
def foldCols (n : Nat) : List Nat → Nat → Nat → Nat → List (Nat × Nat × Nat × Nat)
  | [], _, _, _ => []
  | w :: ws, a, j0, p0 =>
    let k := min w (n - j0)
    (if k = 0 then [] else [(a, j0, k, p0)]) ++ foldCols n ws (a + 1) (j0 + k) (p0 + w)

/-- Parts of one full-mode tile: rows i0 .. i0 + m − 1, one column round from j0. -/
def fullParts (ws : List Nat) (n i0 m j0 seg : Nat) : List Part :=
  (foldCols n ws 0 j0 0).map fun x => ⟨x.1, i0, m, x.2.1, x.2.2.1, 0, x.2.2.2, seg⟩

/-- Column widths of a quarter position on the four arrays (R101): 128, or W − 128. -/
def quarterWidths (ws : List Nat) (q : Nat) : List Nat := if q % 2 = 0 then ws.map fun _ => 128 else ws.map (· - 128)

/-- Parts of one quarter position (R101): its rows start at accumulator row 0 or 128, its columns at presented column 0 or 128. -/
def quarterParts (ws : List Nat) (q n i0 m j0 seg : Nat) : List Part :=
  (foldCols n (quarterWidths ws q) 0 j0 0).map fun x =>
    ⟨x.1, i0, m, x.2.1, x.2.2.1, if q < 2 then 0 else 128, wsum (ws.take x.1) + (if q % 2 = 0 then 0 else 128), seg⟩

/-- M-tiles of a number of rows: first row and rows. -/
def mTiles (rows size : Nat) : List (Nat × Nat) :=
  (List.range (ceilDiv rows size)).map fun t => (size * t, min size (rows - size * t))

/-- The tiles of an MM: parts of each pass of one K pass, in order (R92, R102). -/
def mmTiles (ws : List Nat) (quarter : Bool) (m n : Nat) : List (List Part) :=
  if quarter then
    let ts := mTiles m 128
    (List.range (ceilDiv ts.length 4)).flatMap fun g =>
      let four := (List.range 4).filterMap fun q => ts[4 * g + q]?.map fun t => (q, t)
      let rounds := (four.map fun x => ceilDiv n (wsum (quarterWidths ws x.1))).foldl max 0
      (List.range rounds).map fun r => four.flatMap fun x =>
        quarterParts ws x.1 n x.2.1 x.2.2 (r * wsum (quarterWidths ws x.1)) 0
  else
    (mTiles m 256).flatMap fun t =>
      (List.range (ceilDiv n (wsum ws))).map fun r => fullParts ws n t.1 t.2 (r * wsum ws) 0

/-- The passes of an MM (R91, R92). -/
def mmPasses (ws : List Nat) (quarter : Bool) (k kp m n : Nat) : List Pass :=
  (List.range (ceilDiv k kp)).flatMap fun x =>
    (mmTiles ws quarter m n).map fun ps => ⟨kp * x, min k (kp * (x + 1)), x = 0, x + 1 = ceilDiv k kp, ps⟩

/-- One unit of an MM_SEG: segment, first row within it, rows, next column (R110). -/
abbrev SegUnit := Nat × Nat × Nat × Nat

/-- Take one position's columns off the front of a list of units. -/
def takeUnit (ws : List Nat) (q n : Nat) : List SegUnit → List Part × List SegUnit
  | [] => ([], [])
  | (g, i0, m, j0) :: r =>
    let w := wsum (quarterWidths ws q)
    (quarterParts ws q n i0 m j0 g, if j0 + w < n then (g, i0, m, j0 + w) :: r else r)

/-- Fill quarter passes with units in list order (R110). -/
def fillQuarters (ws : List Nat) (n : Nat) : Nat → List SegUnit → List (List Part)
  | 0, _ => []
  | f + 1, us =>
    if us.isEmpty then [] else
      let (p0, us) := takeUnit ws 0 n us
      let (p1, us) := takeUnit ws 1 n us
      let (p2, us) := takeUnit ws 2 n us
      let (p3, us) := takeUnit ws 3 n us
      (p0 ++ p1 ++ p2 ++ p3) :: fillQuarters ws n f us

/-- The tiles of an MM_SEG (R109, R110). -/
def segTiles (ws : List Nat) (quarter : Bool) (n : Nat) (gs : List Segment) : List (List Part) :=
  let units : List SegUnit := ((List.range gs.length).zip gs).flatMap fun x =>
    (mTiles x.2.rows (if quarter then 128 else 256)).map fun t => (x.1, t.1, t.2, 0)
  if quarter then fillQuarters ws n (units.length * (n + 1)) units
  else units.flatMap fun u => (List.range (ceilDiv n (wsum ws))).map fun r => fullParts ws n u.2.1 u.2.2.1 (r * wsum ws) u.1

/-! ### Streaming -/

/-- Products k0 .. k1 − 1 of one row or column of an operand. -/
def State.lineOf (s : State) (t : Tensor) (line k0 k1 : Nat) : List Elem :=
  (List.range (k1 - k0)).map fun k => s.readElem t { i0 := k0 + k, i1 := line }

/-- Whether a line's products hold poison. -/
def State.linePoison (s : State) (t : Tensor) (line k0 k1 : Nat) : Bool :=
  (List.range (k1 - k0)).any fun k => s.elemPoison t { i0 := k0 + k, i1 := line }

/-- The ranges of products k0 .. k1 − 1 of a line, and of their scales. -/
def Tensor.lineSpans (t : Tensor) (line k0 k1 : Nat) : List (Nat × Nat) :=
  let i : Idx := { i0 := k0, i1 := line }
  ((t.elemPlace i).1, ceilDiv ((k1 - k0) * t.format.bits) 8) :: (if t.format.isMx then [(t.scaleAddr i, ceilDiv (k1 - k0) 32)] else [])

/-- Why a line or its scales may not be read now (R207). -/
def State.lineErr (s : State) (c : Nat) (t : Tensor) (line : Nat) : Option AccErr := s.rangesErr c (t.runSpans { i1 := line })

/-- The operand lines of a part: elements, poison, the error of a read, the ranges read. -/
structure Lines where
  rows : List (List Elem)
  cols : List (List Elem)
  poison : Bool
  err : Option AccErr
  reads : List (Nat × Nat) := []

/-- Lines of a part of an MM. -/
def State.mmLines (s : State) (c : Nat) (a b : Tensor) (k0 k1 : Nat) (p : Part) : Lines :=
  let is := (List.range p.m).map (p.i0 + ·)
  let js := (List.range p.n).map (p.j0 + ·)
  { rows := is.map fun i => s.lineOf a i k0 k1, cols := js.map fun j => s.lineOf b j k0 k1
    poison := is.any (fun i => s.linePoison a i k0 k1) || js.any fun j => s.linePoison b j k0 k1
    err := (is.findSome? fun i => s.lineErr c a i) <|> js.findSome? fun j => s.lineErr c b j
    reads := (is.flatMap fun i => a.lineSpans i k0 k1) ++ js.flatMap fun j => b.lineSpans j k0 k1 }

/-- Operands of a segment: adapter activation and weight, base weight, adapter length, first list entry, destination row. -/
structure SegOps where
  ada : Option Tensor
  adb : Option Tensor
  w : Tensor
  ka : Nat
  first : Nat
  dest : Nat

/-- Lines of a part of an MM_SEG: each the base part, then the adapter part (R109, R186). -/
def State.segLines (s : State) (c : Nat) (a list : Tensor) (g : SegOps) (kb : Nat) (p : Part) : Lines :=
  let ns := (List.range p.m).map (p.i0 + ·)
  let js := (List.range p.n).map (p.j0 + ·)
  let base (n : Nat) : Nat := (s.listEntry list (g.first + n)).toNat
  let ad (o : Option Tensor) (line : Nat) : List Elem := (o.map fun t => s.lineOf t line 0 g.ka).getD []
  let adP (o : Option Tensor) (line : Nat) : Bool := o.any fun t => s.linePoison t line 0 g.ka
  let adE (o : Option Tensor) (line : Nat) : Option AccErr := o.bind fun t => s.lineErr c t line
  let adR (o : Option Tensor) (line : Nat) : List (Nat × Nat) := (o.map fun t => t.lineSpans line 0 g.ka).getD []
  { rows := ns.map fun n => s.lineOf a (base n) 0 kb ++ ad g.ada (g.dest + n)
    cols := js.map fun j => s.lineOf g.w j 0 kb ++ ad g.adb j
    poison := ns.any (fun n => s.linePoison a (base n) 0 kb || adP g.ada (g.dest + n) || s.elemPoison list { i0 := g.first + n })
      || js.any fun j => s.linePoison g.w j 0 kb || adP g.adb j
    err := (ns.findSome? fun n => s.readErr c (list.elemPlace { i0 := g.first + n }).1 4 <|> s.lineErr c a (base n) <|> adE g.ada (g.dest + n))
      <|> js.findSome? fun j => s.lineErr c g.w j <|> adE g.adb j
    reads := (ns.flatMap fun n => ((list.elemPlace { i0 := g.first + n }).1, 4) :: a.lineSpans (base n) 0 kb ++ adR g.ada (g.dest + n))
      ++ js.flatMap fun j => g.w.lineSpans j 0 kb ++ adR g.adb j }

/-- Round to FP64 with RNE. -/
def r64 (x : Num) : Num := f64 (rn64 x).bits

/-- Magnitude of a number. -/
def Num.mag : Num → Num
  | .fin _ m e => .fin false m e
  | .inf _ => .inf false
  | .nan => .nan

/-- How the checksums of a pair are formed: integer sums exactly, the others in FP64 with RNE, in ascending order (R343; log 14). -/
def PairKind.checkRound (k : PairKind) (x : Num) : Num := if k = .integer then x else r64 x

/-- A sum as the checksums form it. -/
def PairKind.sum (k : PairKind) (xs : List Num) : Num := xs.foldl (fun a x => k.checkRound (a.add x)) (.fin false 0 0)

/-- A sum of products as the checksums form it. -/
def PairKind.dot (k : PairKind) (xs ys : List Num) : Num :=
  (xs.zip ys).foldl (fun a p => k.checkRound (a.add (p.1.mul p.2))) (.fin false 0 0)

/-- The number that an accumulator holds. -/
def PairKind.accNum (k : PairKind) (w : Nat) : Num := if k = .integer then Num.ofInt (toSigned 64 w) else f32 w

/-- The residue of an exact block value modulo p = 2^31 − 1, in which 2^31 is 1 (R343). -/
def residue (x : Num) : Nat :=
  match x with
  | .fin s m e => ((signed s (m * 2 ^ (e % 31).toNat)) % (2 ^ 31 - 1 : Int)).toNat
  | _ => 0

/-- The residue that a cell or a checksum accumulator keeps of a product: over its blocks of 32, each exact (R118, R343). -/
def dotResidue (xs ys : List Num) : Nat :=
  ((chunks 32 (xs.zip ys)).foldl (fun a b => a + residue (b.foldl (fun v p => v.add (p.1.mul p.2)) (.fin false 0 0))) 0) % (2 ^ 31 - 1)

/-- A sum without rounding. -/
def exactSum (xs : List Num) : Num := xs.foldl Num.add (.fin false 0 0)

/-- The comparison of R344: drain-side sum, checksum, its magnitude sum, Z, tolerance as FP32, roundings, lines summed. -/
def sumPasses (r x mag z : Num) (rho : Num) (n lines : Nat) : Bool :=
  if !r.isFin && !x.isFin then true
  else if r.isFin != x.isFin then false
  else
    let bound := ((rho.mul (.fin false n (-24))).mul (mag.add z)).add (.fin false (lines * n) (-149))
    Num.le (r.add x.neg).mag bound

/-- What one checksum accumulator keeps: its sum, its magnitude sum, its residue (R343). -/
structure Checksum where
  sum : Num
  mag : Num
  residue : Nat

/-- What the checksum cells of a part hold and find (R342): columns and rows whose comparison fails, the checksums by column and by row. -/
structure Sums where
  cols : List Nat
  rows : List Nat
  x : List Checksum
  y : List Checksum

/-- Whether a column or a row passes its comparisons: integer sums are equal, residues of block-exact pairs agree where every operand is finite, and the
floating sums lie within the bound (R343, R344). -/
def PairKind.passes (kind : PairKind) (finite : Bool) (drained : Num) (c : Checksum) (cells : Nat) (z rho : Num) (n lines : Nat) : Bool :=
  match kind with
  | .integer => (drained.add c.sum.neg).isZero
  | .blockExact => (!finite || cells % (2 ^ 31 - 1) = c.residue) && sumPasses drained c.sum c.mag z rho n lines
  | .fused => sumPasses drained c.sum c.mag z rho n lines

/-- The sums of a part and the comparisons of it that fail (R342 to R344). -/
def partFails (kind : PairKind) (fa fb : Format) (rho : Num) (rows cols : List (List Elem)) (starts ends : List (List Num)) (n : Nat) : Sums :=
  let va := rows.map fun r => r.map fun e => fa.decodeScaled e.bits e.scale
  let vb := cols.map fun r => r.map fun e => fb.decodeScaled e.bits e.scale
  let k := (va.headD []).length
  let at' (l : List (List Num)) (x : Nat) : List Num := l.map fun r => r.getD x .nan
  let ks := List.range k
  let sums (l : List (List Num)) := ks.map fun x => kind.sum (at' l x)
  let mags (l : List (List Num)) := ks.map fun x => kind.sum ((at' l x).map Num.mag)
  let exact (l : List (List Num)) := ks.map fun x => exactSum (at' l x)
  let check (sums mags exact w : List Num) : Checksum := ⟨kind.dot sums w, kind.dot mags (w.map Num.mag), dotResidue exact w⟩
  let xs := vb.map (check (sums va) (mags va) (exact va))
  let ys := va.map (check (sums vb) (mags vb) (exact vb))
  let finite := (va ++ vb).all fun l => l.all Num.isFin
  let diff (e st : List Num) : Num := kind.sum ((e.zip st).map fun p => p.1.add p.2.neg)
  let z (st : List Num) : Num := kind.sum (st.map Num.mag)
  let js := ((List.range cols.length).zip (vb.zip xs)).filter fun x => !kind.passes finite (diff (at' ends x.1) (at' starts x.1)) x.2.2
    (va.foldl (fun a r => a + dotResidue r x.2.1) 0) (z (at' starts x.1)) rho n 256
  let is := ((List.range rows.length).zip (va.zip ys)).filter fun x => !kind.passes finite (diff (ends.getD x.1 []) (starts.getD x.1 [])) x.2.2
    (vb.foldl (fun a q => a + dotResidue x.2.1 q) 0) (z (starts.getD x.1 [])) rho n cols.length
  { cols := js.map (·.1), rows := is.map (·.1), x := xs, y := ys }

/-- Tolerance factor of a pair's class, as it stands at the comparison (R344, R360; DEDUCED, log 111). -/
def State.tolerance (s : State) (kind : PairKind) (fa : Format) : Num :=
  f32 (s.get 0x4400 (match kind with
    | .fused => if fa = .fp32 then 0x03 else 0x02
    | _ => 0x04))

/-- FP32 roundings of an element in a pass (R344). -/
def roundings (kind : PairKind) (k : Nat) : Nat :=
  match kind with
  | .fused => k
  | _ => ceilDiv k 32

/-- What one part computes: accumulator cells by key, flags, failed comparisons, the sums in the checksum row and the checksum column. -/
structure PartResult where
  cells : List (Nat × Nat)
  flags : ArithFlags
  bad : List Mismatch
  row : List (Nat × Nat)
  column : List (Nat × Nat)

/-- A checksum sum as its accumulator holds it: a 96-bit integer, or FP64 bits (R343). -/
def PairKind.sumBits (k : PairKind) (x : Num) : Nat :=
  match k, x with
  | .integer, .fin s m e => ofSigned 96 (signed s (m * 2 ^ e.toNat))
  | _, x => (rn64 x).bits

/-- What checksum accumulators hold from a position on: sums, residues 1,024 above them, magnitude sums 2,048 above them. -/
def PairKind.checkCells (k : PairKind) (pos : Nat) (cs : List Checksum) : List (Nat × Nat) :=
  ((List.range cs.length).zip cs).flatMap fun e =>
    [(pos + e.1, k.sumBits e.2.sum), (pos + 1024 + e.1, e.2.residue), (pos + 2048 + e.1, k.sumBits e.2.mag)]

/-- Run one part. -/
def State.runPart (s : State) (kind : PairKind) (fa fb : Format) (p : Part) (l : Lines) (starts : List (List Nat)) : PartResult :=
  let res := ((List.range l.rows.length).zip l.rows).map fun r =>
    ((List.range l.cols.length).zip l.cols).map fun q =>
      contract kind fa fb ((starts.getD r.1 []).getD q.1 0) (r.2.zip q.2)
  let cells := ((List.range res.length).zip res).flatMap fun r =>
    ((List.range r.2.length).zip r.2).map fun q => ((p.r0 + r.1) * 1024 + p.p0 + q.1, q.2.1)
  let fl := (res.flatMap id).foldl (fun f x => f.or x.2) {}
  let f := partFails kind fa fb (s.tolerance kind fa) l.rows l.cols (starts.map fun (r : List Nat) => r.map kind.accNum)
    (res.map fun r => r.map fun (x : Nat × ArithFlags) => kind.accNum x.1) (roundings kind (l.rows.headD []).length)
  let arr : Fin 4 := Fin.ofNat 4 p.array
  { cells := cells, flags := fl
    bad := f.cols.map (fun j => ⟨arr, BitVec.ofNat 16 (p.p0 + j), true⟩) ++ f.rows.map fun i => ⟨arr, BitVec.ofNat 16 (p.r0 + i), false⟩
    row := kind.checkCells p.p0 f.x, column := kind.checkCells (p.array * 256 + p.r0) f.y }

/-- Bytes of a partial sum of a pair (R123, R184). -/
def psumBytes (kind : PairKind) : Nat :=
  match kind with
  | .integer => 8
  | _ => 4

/-- Reload one partial sum (R123): FP32 bits, or the low 48 bits of an INT64. -/
def reloadValue (kind : PairKind) (v : Nat) : Nat :=
  match kind with
  | .integer => ofSigned 64 (toSigned 48 (v % 2 ^ 48))
  | _ => v % 2 ^ 32

/-- Start values of a part: zero, or the partial sums of the area (R122). -/
def State.startsOf (s : State) (kind : PairKind) (first : Bool) (psum n : Nat) (p : Part) : List (List Nat) :=
  let w := psumBytes kind
  (List.range p.m).map fun i => (List.range p.n).map fun j =>
    if first then 0 else reloadValue kind (ofLE (s.readBytes (psum + ((p.i0 + i) * n + p.j0 + j) * w) w))

/-- The ranges of the partial sums that a part reloads. -/
def startsReads (kind : PairKind) (first : Bool) (psum n : Nat) (p : Part) : List (Nat × Nat) :=
  let w := psumBytes kind
  if first then [] else (List.range p.m).map fun i => (psum + ((p.i0 + i) * n + p.j0) * w, p.n * w)

/-- Whether a part reloads poison. -/
def State.startsPoison (s : State) (kind : PairKind) (first : Bool) (psum n : Nat) (p : Part) : Bool :=
  (startsReads kind first psum n p).any fun r => s.anyPoison r.1 r.2

/-- Cells put one by one into an empty buffer. -/
def bufferOf (cells : List (Nat × Nat)) : Tab Nat := cells.foldl (fun t x => Tab.set 0 t x.1 x.2) []

/-- The cells of a part's start values. -/
def startCells (p : Part) (starts : List (List Nat)) : List (Nat × Nat) :=
  ((List.range starts.length).zip starts).flatMap fun r => ((List.range r.2.length).zip r.2).map fun q => ((p.r0 + r.1) * 1024 + p.p0 + q.1, q.2)

/-- Put one streamed pass into the arrays: reload buffers, accumulators, checksum cells, flags, poison, comparisons; a refused read ends the
command (R85, R94, R128). -/
def State.streamPass (s : State) (c i : Nat) (a : Active) (total : Nat)
    (parts : List (Part × Lines × List (List Nat) × Bool)) (kind : PairKind) (fa fb : Format) : State :=
  match parts.findSome? fun x => x.2.1.err with
  | some err => s.refuseRead c 2 i a err
  | none =>
    let rs := parts.map fun x => s.runPart kind fa fb x.1 x.2.1 x.2.2.1
    let fl := rs.foldl (fun f x => f.or x.flags) (ArithFlags.ofByte a.flags)
    let poison := parts.any fun x => x.2.1.poison || x.2.2.2
    let fl := if poison then { fl with poison := true } else fl
    (s.updCore c fun k =>
      { k with acc := bufferOf (rs.flatMap (·.cells)), reloadBuffer := bufferOf (parts.flatMap fun x => startCells x.1 x.2.2.1)
               checkRow := bufferOf (rs.flatMap (·.row)), checkColumn := bufferOf (rs.flatMap (·.column)) }).putActive c 2 i
      { a with streamed := a.streamed + 1, passPoison := poison, flags := fl.byte, bad := rs.flatMap (·.bad)
               draining := a.streamed + 1 = total }

/-- Whether the arrays are free for another pass: nothing streamed is still to be drained. -/
def Core.arraysFree (k : Core) : Bool := (k.started 2).all fun b => b.streamed = b.drained || b.done

/-- MM: stream its next pass (R89 to R92, R106). -/
def executeMm (c : Nat) (ups : List Upset) (s : State) : State :=
  let k := s.core c
  match k.working 2 0x20 with
  | none => s
  | some (i, a) =>
    if !k.arraysFree then s else
    match a.tensor (a.q.cmd.desc 0), a.tensor (a.q.cmd.desc 12) with
    | some ta, some tb =>
      let cmd := a.q.cmd
      let n := tb.dim 1
      let ps := mmPasses (s.widths c) (bit (cmd.word 2) 48) (ta.dim 0) (bits (cmd.word 4) 0 32) (ta.dim 1) n
      match ps[a.streamed]?, pairKind ta.format tb.format with
      | some p, some kind =>
        s.viaHubs c 2 [ta.base, tb.base] [] fun s =>
        let back := startsReads kind p.first (cmd.word 3) n
        let s := s.readRanges c (p.parts.flatMap fun x => (s.mmLines c ta tb p.k0 p.k1 x).reads ++ back x) ups
        let parts := p.parts.map fun x =>
          let l := s.mmLines c ta tb p.k0 p.k1 x
          (x, { l with err := l.err <|> s.rangesErr c (back x) }, s.startsOf kind p.first (cmd.word 3) n x
            , s.startsPoison kind p.first (cmd.word 3) n x)
        s.streamPass c i a ps.length parts kind ta.format tb.format
      | _, _ => s
    | _, _ => s

/-- Operands of a segment of a started MM_SEG. -/
def Active.segOps (a : Active) (g : Segment) (b : Tensor) : SegOps :=
  { ada := a.tensor g.ada, adb := a.tensor g.adb, w := (a.tensor g.w).getD b, ka := g.ka, first := g.first, dest := g.dest }

/-- MM_SEG: stream its next pass (R109, R110, R185). -/
def executeMmSeg (c : Nat) (ups : List Upset) (s : State) : State :=
  let k := s.core c
  match k.working 2 0x21 with
  | none => s
  | some (i, a) =>
    if !k.arraysFree then s else
    let cmd := a.q.cmd
    match a.tensor (cmd.desc 0), a.tensor (cmd.desc 12), a.tensor (bits (cmd.word 4) 0 12) with
    | some ta, some tb, some tl =>
      let gs := a.segments.map segmentOf
      let ts := segTiles (s.widths c) (bit (cmd.word 2) 48) (tb.dim 1) gs
      if ts.isEmpty then s.putActive c 2 i (a.finish s.now {})
      else match ts[a.streamed]?, pairKind ta.format tb.format with
      | some ps, some kind =>
        let lines (s : State) (x : Part) : Lines := s.segLines c ta tl (a.segOps (gs.getD x.seg (segmentOf [])) tb) (ta.dim 0) x
        s.viaHubs c 2 [ta.base, tb.base, tl.base] [] fun s =>
        let s := s.readRanges c (ps.flatMap fun x => (lines s x).reads) ups
        let parts := ps.map fun x => (x, lines s x, s.startsOf kind true 0 0 x, false)
        s.streamPass c i a ts.length parts kind ta.format tb.format
      | _, _ => s
    | _, _, _ => s

/-! ### The end of a pass -/

/-- The accumulator cell of a part, by its row and column within the part. -/
def Part.cell (p : Part) (acc : Tab Nat) (r j : Nat) : Nat := Tab.get 0 acc ((p.r0 + r) * 1024 + p.p0 + j)

/-- Log and count the comparisons of a pass that failed, and mark the step or poison the tile (R345). -/
def State.takeMismatches (s : State) (c i : Nat) (a : Active) (pass : Nat) (bad : List Mismatch) : State × Active :=
  if bad.isEmpty then (s, a)
  else
    let k := s.core c
    let s := bad.foldl (fun s b =>
      (s.bump (coreObj c + 2) 0x05).fault
        { cls := 0x0B, tile := s.tileOf c, core := c, job := k.job
          detail := [BitVec.ofNat 8 b.array.val] ++ toLE 4 pass ++ toLE 2 b.line.toNat ++ [if b.column then 1 else 0] }) s
    let a := if k.stepOpen then a else { a with passPoison := true, flags := ((ArithFlags.ofByte a.flags).or { poison := true }).byte }
    let s := if k.stepOpen then s.updCore c fun k => { k with record := { k.record with suspectChecksum := true } } else s
    (s.putActive c 2 i a, a)

/-- An element of an MX block on hold: FP32 bits, or a tagged integer, and its poison (R136). -/
def holdElem (x : OutElem) (int : Bool) : Nat :=
  (if int then 2 ^ 64 + (match x.1 with
    | .fin s m e => ofSigned 64 (signed s (m * 2 ^ e.toNat))
    | _ => 0) else (rn32 x.1).bits) + if x.2 then 2 ^ 65 else 0

/-- An element on hold, read back. -/
def heldElem (v : Nat) : OutElem :=
  (if bit v 64 then Num.ofInt (toSigned 64 (v % 2 ^ 64)) else f32 (v % 2 ^ 32), bit v 65)

/-- Write consecutive outputs of a row: at once, or for an MX destination block by block as blocks become whole (R136). -/
def State.putOutputs (s : State) (c : Nat) (t : Tensor) (r : OutRec) (int : Bool) (i j0 : Nat) (held : Tab (Option Nat))
    (xs : List OutElem) : State × Option AccErr × ArithFlags × Tab (Option Nat) :=
  if !t.format.isMx then
    let w := s.putPlainRun c 2 t r.round r.sat { i0 := j0, i1 := i } xs
    (w.1, w.2.1, w.2.2, held)
  else
    let n := t.dim 0
    let held := ((List.range xs.length).zip xs).foldl (fun h x => Tab.set none h (i * n + j0 + x.1) (some (holdElem x.2 int))) held
    let blocks := (List.range (ceilDiv (j0 + xs.length) 32 - j0 / 32)).map fun b => j0 / 32 + b
    blocks.foldl (fun (st : State × Option AccErr × ArithFlags × Tab (Option Nat)) b =>
      match st.2.1 with
      | some _ => st
      | none =>
        let vs := (List.range 32).map fun e => Tab.get none st.2.2.2 (i * n + 32 * b + e)
        if vs.any (·.isNone) then st
        else
          let w := st.1.putBlock c 2 t r.round { i0 := 32 * b, i1 := i } (vs.map fun v => heldElem (v.getD 0))
          (w.1, w.2.1, st.2.2.1.or w.2.2, Tab.clearRange st.2.2.2 (i * n + 32 * b) 32)) (s, none, {}, held)

/-- Drain one row of a part through fused output (R131, R136). -/
def State.drainRow (s : State) (c : Nat) (t : Tensor) (fu : Fusion) (tab : List TabEntry) (int : Bool) (p : Part) (outRow r : Nat)
    (acc : Tab Nat) (poison : Bool) (held : Tab (Option Nat)) : State × Option AccErr × ArithFlags × Tab (Option Nat) :=
  let ys := (List.range p.n).map fun j =>
    let w := p.cell acc r j
    s.fuse fu tab outRow (p.j0 + j) (if int then .int (toSigned 64 w) else .flt w)
  let fl := ys.foldl (fun f y => f.or y.2) {}
  let x := s.putOutputs c t fu.setting (int && fu.setting.plain) outRow p.j0 held (ys.map fun y => (y.1, poison))
  (x.1, x.2.1, x.2.2.1.or fl, x.2.2.2)

/-- Drain one row of a part to the partial-sum area (R92, R123). -/
def State.drainPsum (s : State) (c psum n : Nat) (kind : PairKind) (p : Part) (r : Nat) (acc : Tab Nat) (poison : Bool) :
    State × Option AccErr :=
  let w := psumBytes kind
  s.putBytes c 2 (psum + ((p.i0 + r) * n + p.j0) * w)
    ((List.range p.n).flatMap fun j => toLE w (reloadValue kind (p.cell acc r j))) poison

/-- Rows of a pass in the order they are written: row, then part (R473). -/
def rowOrder (ps : List Part) : List (Nat × Part) :=
  (List.range 256).flatMap fun r => (ps.filter fun p => decide (r < p.m)).map fun p => (r, p)

/-- What an area holds once its command has ended is not defined: free bytes (R184, R189; log 10). -/
def State.leaveArea (s : State) (key : List Nat) (rs : List (Nat × Nat)) : State :=
  { rs.foldl (fun s r => s.setBytes r.1 ((List.range r.2).map fun i => Config.areaByte (key ++ [1]) (r.1 + i))) s with fresh := s.fresh + 1 }

/-- The arrays hand the tile of a pass over to the drain buffers (R85, R93). -/
def State.handOver (s : State) (c : Nat) : State := s.updCore c fun k => { k with drainBuffer := k.acc }

/-- A pass has been drained: the next one may stream; after the last the command has finished; a refused write ends it with the flags raised so
far (R92, R127). -/
def State.afterDrain (s : State) (c i : Nat) (a : Active) (total : Nat) (r : Option AccErr) (fl : ArithFlags)
    (held : Tab (Option Nat)) : State :=
  let s := s.updCore c fun k => { k with acc := [] }
  let all := (ArithFlags.ofByte a.flags).or fl
  match r with
  | some err => s.putActive c 2 i (({ a with flags := all.byte } : Active).refuse s.now err)
  | none =>
    let a := { a with drained := a.drained + 1, flags := all.byte, held := held, passPoison := false, bad := [] }
    if a.drained = total then (s.leaveArea (s.freeKey c a.q) a.reserved).putActive c 2 i (a.finish s.now all) else s.putActive c 2 i a

/-- Drain a last pass to the destination (R92, R128, R131). -/
def State.drainOut (s : State) (c i : Nat) (a : Active) (t : Tensor) (fu : Fusion) (int : Bool) (total : Nat) (ps : List Part)
    (outRow : Part → Nat → Nat) (ups : List Upset) : State :=
  let s := (s.handOver c).readRanges c fu.reads ups
  match s.fusionErr c fu with
  | some err => (s.countClosed err.addr err.status).afterDrain c i a total (some err) {} a.held
  | none =>
  let acc := (s.core c).drainBuffer
  let fp := s.fusionPoison fu
  let tab := ((fu.table.map fun t => s.tableEntries t)).getD []
  let poison := a.passPoison || fp
  let r := (rowOrder ps).foldl (fun (st : State × Option AccErr × ArithFlags × Tab (Option Nat)) x =>
    match st.2.1 with
    | some _ => st
    | none =>
      let w := st.1.drainRow c t fu tab int x.2 (outRow x.2 x.1) x.1 acc poison st.2.2.2
      (w.1, w.2.1, st.2.2.1.or w.2.2.1, w.2.2.2)) (s, none, { poison := poison }, a.held)
  (r.1.writeUpsets t.spans ups).afterDrain c i a total r.2.1 r.2.2.1 r.2.2.2

/-- The fused-output setting a started command read. -/
def Active.fusion (a : Active) (slot : Nat) : Fusion :=
  match readFusion a.slotView a.q.loops slot with
  | .ok f => f
  | .error _ => {}

/-- Do what a pass asks of memory where its hubs serve (R241, R473); what its comparisons found is kept while it waits (R345). -/
def State.viaHubsWith (s : State) (c i : Nat) (a : Active) (bad : List Mismatch) (reads writes : List Nat) (run : State → State) : State :=
  let wait := (s.awayPlace c (s.places reads writes)).isSome && (s.txnOf c 2).isNone
  (if wait then s.putActive c 2 i { a with bad := a.bad ++ bad } else s).viaHubs c 2 reads writes run

/-- End of a pass of an MM. -/
def State.endMmPass (s : State) (c i : Nat) (a : Active) (bad : List Mismatch) (ups : List Upset) : State :=
  let cmd := a.q.cmd
  match a.tensor (cmd.desc 0), a.tensor (cmd.desc 12), a.tensor (cmd.desc 24) with
  | some ta, some tb, some td =>
    let n := tb.dim 1
    let ps := mmPasses (s.widths c) (bit (cmd.word 2) 48) (ta.dim 0) (bits (cmd.word 4) 0 32) (ta.dim 1) n
    let fu := a.fusion (cmd.desc 36)
    s.viaHubsWith c i a bad (fu.tensors.map (·.base)) [td.base] fun s =>
    let (s, a) := s.takeMismatches c i a a.drained (a.bad ++ bad)
    match ps[a.drained]?, pairKind ta.format tb.format with
    | some p, some kind =>
      if p.last then s.drainOut c i a td fu (kind = .integer) ps.length p.parts (fun x r => x.i0 + r) ups
      else
        let s := s.handOver c
        let acc := (s.core c).drainBuffer
        let r := eachUntil (fun s (x : Nat × Part) => s.drainPsum c (cmd.word 3) n kind x.2 x.1 acc a.passPoison) (rowOrder p.parts) s
        r.1.afterDrain c i a ps.length r.2 {} a.held
    | _, _ => s
  | _, _, _ => s

/-- End of a pass of an MM_SEG: output rows are those the segment names (R132, R186). Where two segments name the same row, which R32 leaves to
the order of the writes, a later pass and within a pass the later position stand (DESIGN CHOICE, log 80). -/
def State.endSegPass (s : State) (c i : Nat) (a : Active) (bad : List Mismatch) (ups : List Upset) : State :=
  let cmd := a.q.cmd
  match a.tensor (cmd.desc 0), a.tensor (cmd.desc 12), a.tensor (cmd.desc 24) with
  | some ta, some tb, some td =>
    let gs := a.segments.map segmentOf
    let ts := segTiles (s.widths c) (bit (cmd.word 2) 48) (tb.dim 1) gs
    let fu := a.fusion (cmd.desc 36)
    s.viaHubsWith c i a bad (fu.tensors.map (·.base)) [td.base] fun s =>
    let (s, a) := s.takeMismatches c i a a.drained (a.bad ++ bad)
    match ts[a.drained]? with
    | some ps =>
      s.drainOut c i a td fu (pairKind ta.format tb.format = some .integer) ts.length ps
        (fun x r => (gs.getD x.seg (segmentOf [])).dest + x.i0 + r) ups
    | none => s
  | _, _, _ => s

/-- A command whose core has stopped ends with the pass that it streamed, which is not drained (R152). -/
def State.dropPass (s : State) (c i : Nat) : State :=
  (s.updCore c fun k => { k with acc := [], active := Tab.set [] k.active 2 ((k.started 2).eraseIdx i) }).settleStop (s.core c).job

/-- PASS_END: compare, drain and hand over the tile of the pass in the arrays, with what the reads of scales, biases and the table find (R93,
R94, R212, R342, R345, R473). An output to device memory waits until its stack's hub serves (R241, R473). -/
def passEnd (c : Nat) (bad : List Mismatch) (ups : List Upset) (s : State) : State :=
  let l := (s.core c).started 2
  match ((List.range l.length).zip l).find? fun x => decide (x.2.drained < x.2.streamed) && !x.2.done with
  | none => s
  | some (i, a) =>
    if a.stopping then s.dropPass c i
    else if a.q.cmd.opcode = 0x20 then s.endMmPass c i a bad ups
    else s.endSegPass c i a bad ups

/-! ### Weight-resident mode -/

/-- The sums that a WLOAD forms in the checksum column: of each latched row and, 4,096 above, of each latched column (R342). -/
def State.latchSums (s : State) (t : Tensor) : Tab Nat :=
  let kind : PairKind := (pairKind t.format t.format).getD .fused
  let num (r j : Nat) : Num := let e := s.readElem t { i0 := r, i1 := j }; t.format.decodeScaled e.bits e.scale
  let rs := List.range (t.dim 0)
  let js := List.range (t.dim 1)
  bufferOf ((rs.map fun r => (r, kind.sumBits (kind.sum (js.map (num r)))))
    ++ js.map fun j => (4096 + j, kind.sumBits (kind.sum (rs.map fun r => num r j))))

/-- WLOAD: load a latch set (R96, R187). -/
def executeWload (c : Nat) (ups : List Upset) (s : State) : State :=
  let k := s.core c
  match k.working 2 0x22 with
  | none => s
  | some (i, a) =>
    if !k.arraysFree then s else
    match a.tensor (a.q.cmd.desc 0) with
    | none => s
    | some t =>
      s.viaHubs c 2 [t.base] [] fun s =>
      let s := s.readRanges c t.spans ups
      let cols := List.range (t.dim 1)
      match cols.findSome? fun j => s.lineErr c t j with
      | some err => s.refuseRead c 2 i a err
      | none =>
        let p := s.tensorPoison t
        let el := cols.flatMap fun j => (List.range (t.dim 0)).map fun r => (j * 512 + r, s.readElem t { i0 := r, i1 := j })
        let set : LatchSet :=
          { format := leAt (a.slotView t.slot).1 8 1, rows := t.dim 0, width := t.dim 1, poison := p
            elems := el.foldl (fun x e => Tab.set 0 x e.1 e.2.bits) []
            scales := el.foldl (fun x e => if e.1 % 32 = 0 then Tab.set 127 x (e.1 / 512 * 16 + e.1 % 512 / 32) e.2.scale else x) [] }
        (s.updCore c fun k => { k with latch := some set, checkColumn := s.latchSums t }).putActive c 2 i (a.finish s.now { poison := p })

/-- A latched element (R96). -/
def LatchSet.elem (l : LatchSet) (row col : Nat) : Elem :=
  { bits := Tab.get 0 l.elems (col * 512 + row), scale := Tab.get 127 l.scales (col * 16 + row / 32) }

/-- The operand lines of an MM_W: the rows streamed, the columns latched in the read direction, poison, the first refused read (R97, R122). -/
def State.mmwLines (s : State) (c : Nat) (a : Active) (lt : LatchSet) (ta td : Tensor) : Lines :=
  let carry := a.tensor (a.q.cmd.desc 12)
  let tr := bit (a.q.cmd.word 2) 49
  let kk := ta.dim 0
  let rows := List.range (ta.dim 1)
  { rows := rows.map fun r => s.lineOf ta r 0 kk
    cols := (List.range (td.dim 0)).map fun j => (List.range kk).map fun x => if tr then lt.elem j x else lt.elem x j
    poison := lt.poison || rows.any fun r => s.linePoison ta r 0 kk
    err := rows.findSome? fun r => s.lineErr c ta r <|> (carry.bind fun t => s.lineErr c t r)
    reads := ta.spans ++ (carry.map Tensor.spans).getD [] }

/-- The start values of an MM_W: its carry, or zero (R124). -/
def State.mmwStarts (s : State) (carry : Option Tensor) (m n : Nat) : List (List Nat) :=
  (List.range m).map fun r => (List.range n).map fun j => (carry.map fun t => (s.readElem t { i0 := j, i1 := r }).bits).getD 0

/-- The accumulator values of an MM_W with their flags (R88). -/
def mmwValues (kind : PairKind) (fa wf : Format) (l : Lines) (starts : List (List Nat)) (m n : Nat) : List (List (Nat × ArithFlags)) :=
  (List.range m).map fun r => (List.range n).map fun j =>
    contract kind fa wf ((starts.getD r []).getD j 0) ((l.rows.getD r []).zip (l.cols.getD j []))

/-- The comparisons of an MM_W that fail (R342, R345). -/
def State.mmwFails (s : State) (kind : PairKind) (fa wf : Format) (l : Lines) (starts : List (List Nat))
    (vals : List (List (Nat × ArithFlags))) (kk : Nat) : List Mismatch :=
  let fails := partFails kind fa wf (s.tolerance kind fa) l.rows l.cols (starts.map fun (r : List Nat) => r.map kind.accNum)
    (vals.map fun (r : List (Nat × ArithFlags)) => r.map fun (x : Nat × ArithFlags) => kind.accNum x.1) (roundings kind kk)
  fails.cols.map (fun j => (⟨0, BitVec.ofNat 16 j, true⟩ : Mismatch)) ++ fails.rows.map fun r => ⟨0, BitVec.ofNat 16 r, false⟩

/-- Write the rows of an MM_W through fused output (R131). -/
def State.mmwWrite (s : State) (c : Nat) (td : Tensor) (fu : Fusion) (int poison : Bool) (vals : List (List (Nat × ArithFlags)))
    (m n : Nat) (fl : ArithFlags) : State × Option AccErr × ArithFlags :=
  let tab := ((fu.table.map fun t => s.tableEntries t)).getD []
  (List.range m).foldl (fun (st : State × Option AccErr × ArithFlags) r =>
    match st.2.1 with
    | some _ => st
    | none =>
      let ys := (List.range n).map fun j =>
        let w := ((vals.getD r []).getD j (0, {})).1
        st.1.fuse fu tab r j (if int then .int (toSigned 64 w) else .flt w)
      let w := st.1.putRun c 2 td fu.setting.round fu.setting.sat { i1 := r } (ys.map fun y => (y.1, poison))
      (w.1, w.2.1, (st.2.2.or w.2.2).or (ys.foldl (fun f y => f.or y.2) {}))) (s, none, fl)

/-- MM_W: stream every row against the latch set (R97, R98, R122, R124, R342, R345). -/
def executeMmW (c : Nat) (bad : List Mismatch) (ups : List Upset) (s : State) : State :=
  let k := s.core c
  match k.working 2 0x23, k.latch with
  | some (i, a), some lt =>
    if !k.arraysFree then s else
    let cmd := a.q.cmd
    match a.tensor (cmd.desc 0), a.tensor (cmd.desc 24), Format.ofCode lt.format with
    | some ta, some td, some wf =>
      let carry := a.tensor (cmd.desc 12)
      let m := ta.dim 1
      let n := td.dim 0
      let fu := a.fusion (cmd.desc 36)
      s.viaHubsWith c i a bad ((ta :: carry.toList ++ fu.tensors).map (·.base)) [td.base] fun s =>
      let s := s.readRanges c ((s.mmwLines c a lt ta td).reads ++ fu.reads) ups
      let l := s.mmwLines c a lt ta td
      match l.err <|> s.fusionErr c fu, pairKind ta.format wf with
      | some err, _ => s.refuseRead c 2 i a err
      | none, none => s
      | none, some kind =>
        let starts := s.mmwStarts carry m n
        let vals := mmwValues kind ta.format wf l starts m n
        let open' := l.poison || (carry.any fun t => s.tensorPoison t) || s.fusionPoison fu
        let x := s.takeMismatches c i a 0 (s.mmwFails kind ta.format wf l starts vals (ta.dim 0) ++ a.bad ++ bad)
        let poison := open' || x.2.passPoison
        let fl : ArithFlags := (vals.flatMap id).foldl (fun f x => f.or x.2) { poison := poison }
        let r := x.1.mmwWrite c td fu (kind = .integer) poison vals m n fl
        endMove c 2 i x.2 (r.1.writeUpsets td.spans ups, r.2.1) r.2.2
    | _, _, _ => s
  | _, _ => s

/-! ### ACC_IO and MM_F64 -/

/-- One drained accumulator (R188): FP32, or the sign-extended 48-bit register. -/
def drainedBytes (wide : Bool) (v : Nat) : Bytes :=
  if wide then toLE 8 (ofSigned 64 (toSigned 48 (v % 2 ^ 48))) else toLE 4 (v % 2 ^ 32)

/-- The accumulators that an ACC_IO tile holds (R188): every presented position, read back. -/
def State.accLoaded (s : State) (rl w : Nat) (wide : Bool) : Tab Nat :=
  let sz := if wide then 8 else 4
  let cells := (List.range 256).flatMap fun r => (List.range w).map fun q => r * 1024 + q
  cells.foldl (fun t x =>
    let v := ofLE (s.readBytes (rl + x * sz) sz)
    Tab.set 0 t x (if wide then ofSigned 64 (toSigned 48 (v % 2 ^ 48)) else v)) []

/-- Write the accumulators to an ACC_IO tile, row by row, zero beyond the presented positions (R188). -/
def State.accDrain (s : State) (c base w : Nat) (wide : Bool) : State × Option AccErr :=
  let acc := (s.core c).acc
  eachUntil (fun s row => s.putBytes c 2 (base + row * 1024 * (if wide then 8 else 4))
    ((List.range 1024).flatMap fun q => drainedBytes wide (if q < w then Tab.get 0 acc (row * 1024 + q) else 0)) false) (List.range 256) s

/-- The ranges of an ACC_IO tile that a reload reads: the w presented positions of each row (R188). -/
def accRows (rl w : Nat) (wide : Bool) : List (Nat × Nat) :=
  let sz := if wide then 8 else 4
  (List.range 256).map fun r => (rl + r * 1024 * sz, w * sz)

/-- ACC_IO: drain, reload, or both in one stall window (R114, R188). -/
def executeAccIo (c : Nat) (ups : List Upset) (s : State) : State :=
  let k := s.core c
  match k.working 2 0x24 with
  | none => s
  | some (i, a) =>
    if !k.arraysFree then s else
    let cmd := a.q.cmd
    let dir := bits (cmd.word 4) 0 2
    let wide := bit (cmd.word 4) 2
    let w := min 1024 (wsum (s.widths c))
    let rl := cmd.word 3
    let reads := if dir = 0 then [] else accRows rl w wide
    let s := s.readRanges c reads ups
    match s.rangesErr c reads with
    | some err => s.refuseRead c 2 i a err
    | none =>
      let p := reads.any fun r => s.anyPoison r.1 r.2
      let loaded := s.accLoaded rl w wide
      let r := if dir = 1 then (s, none) else s.accDrain c (cmd.word 2) w wide
      match r.2 with
      | some err => r.1.putActive c 2 i (a.refuse r.1.now err)
      | none =>
        ((if dir = 0 then r.1 else r.1.updCore c fun k => { k with acc := loaded })).putActive c 2 i (a.finish r.1.now { poison := p })

/-- Free bytes in a slice workspace while its command runs (R189; log 10). -/
def State.fillWork (s : State) (c : Nat) (key : List Nat) (a n : Nat) : State × Option AccErr :=
  let r := s.putBytes c 2 a ((List.range n).map fun i => Config.areaByte key (a + i)) false
  ({ r.1 with fresh := r.1.fresh + 1 }, r.2)

/-- Write every tile of an MM_F64, its operands as they stood at the start: each element the rounded result of its slices (R81 to R83, R125,
R128, R137). -/
def State.f64Tiles (s src : State) (c sl : Nat) (ta tb td : Tensor) (cols : List (List Num)) (passPoison : Bool) :
    State × Option AccErr × ArithFlags :=
  let kk := ta.dim 0
  (mmTiles (s.widths c) false (ta.dim 1) (tb.dim 1)).foldl (fun (st : State × Option AccErr × ArithFlags) ps =>
    let poison := passPoison || ps.any fun p =>
      (List.range p.m).any (fun x => src.linePoison ta (p.i0 + x) 0 kk) || (List.range p.n).any fun x => src.linePoison tb (p.j0 + x) 0 kk
    (rowOrder ps).foldl (fun (st : State × Option AccErr × ArithFlags) x =>
      match st.2.1 with
      | some _ => st
      | none =>
        let row := (src.lineOf ta (x.2.i0 + x.1) 0 kk).map fun e => f64 e.bits
        let ys := (List.range x.2.n).map fun j =>
          let col := cols.getD (x.2.j0 + j) []
          f64Round td.format (f64Output sl row col)
        let bs := ys.flatMap fun y => toLE (td.format.bits / 8) y.1.bits
        let o := st.1.putBytes c 2 (td.elemPlace { i0 := x.2.j0, i1 := x.2.i0 + x.1 }).1 bs poison
        (o.1, o.2, ys.foldl (fun f y => f.or y.2) (st.2.2.or { poison := poison }))) st) (s, none, {})

/-- MM_F64: slice, multiply and recombine every tile, and write the rounded result; its slice passes leave the accumulators as every hand-over
does (R81 to R83, R108, R125, R128, R137, R189). -/
def executeMmF64 (c : Nat) (bad : List Mismatch) (ups : List Upset) (s : State) : State :=
  let k := s.core c
  match k.working 2 0x25 with
  | none => s
  | some (i, a) =>
    if !k.arraysFree then s else
    let cmd := a.q.cmd
    match a.tensor (cmd.desc 0), a.tensor (cmd.desc 12), a.tensor (cmd.desc 24) with
    | some ta, some tb, some td =>
      let sl := bits (cmd.word 4) 0 4
      let kk := ta.dim 0
      s.viaHubsWith c i a bad [ta.base, tb.base] [td.base, cmd.word 3] fun s =>
      let s := s.readRanges c (ta.spans ++ tb.spans) ups
      let errs := ((List.range (ta.dim 1)).findSome? fun r => s.lineErr c ta r) <|> ((List.range (tb.dim 1)).findSome? fun j => s.lineErr c tb j)
      match errs with
      | some err => s.refuseRead c 2 i a err
      | none =>
        let cols := (List.range (tb.dim 1)).map fun j => (s.lineOf tb j 0 kk).map fun e => f64 e.bits
        let x := s.takeMismatches c i a 0 (a.bad ++ bad)
        let w := x.1.fillWork c (x.1.freeKey c a.q) (cmd.word 3) (sl * kk * 1280)
        match w.2 with
        | some err => w.1.putActive c 2 i (x.2.refuse w.1.now err)
        | none =>
          let r := w.1.f64Tiles s c sl ta tb td cols x.2.passPoison
          endMove c 2 i x.2 ((r.1.writeUpsets td.spans ups).updCore c fun k => { k with acc := [] }, r.2.1) r.2.2
    | _, _, _ => s

def execMm (c : CoreId) (ups : List Upset) (s : State) : Host.Outcome State Fault Refusal := .next (executeMm c ups s)
def execMmSeg (c : CoreId) (ups : List Upset) (s : State) : Host.Outcome State Fault Refusal := .next (executeMmSeg c ups s)
def execWload (c : CoreId) (ups : List Upset) (s : State) : Host.Outcome State Fault Refusal := .next (executeWload c ups s)
def execMmW (c : CoreId) (bad : List Mismatch) (ups : List Upset) (s : State) : Host.Outcome State Fault Refusal :=
  .next (executeMmW c bad ups s)
def execAccIo (c : CoreId) (ups : List Upset) (s : State) : Host.Outcome State Fault Refusal := .next (executeAccIo c ups s)
def execMmF64 (c : CoreId) (bad : List Mismatch) (ups : List Upset) (s : State) : Host.Outcome State Fault Refusal :=
  .next (executeMmF64 c bad ups s)
def execPassEnd (c : CoreId) (bad : List Mismatch) (ups : List Upset) (s : State) : Host.Outcome State Fault Refusal :=
  .next (passEnd c bad ups s)

end Sys2Proof.Machine
end

