-- ==== Sys2Proof/Machine/Vector.lean ====
section
/-! DEFINITION. The output engine's FUSE_OUT (R138, R190) and the vector engine's VOP, VRED and VTAB (R191 to R194). -/

namespace Sys2Proof.Machine

open Sys2Proof

/-! ### Writing results -/

/-- An element computed: its exact value before the final conversion, the flags raised, its poison. -/
structure Computed where
  value : Num
  flags : ArithFlags := {}
  poison : Bool := false
  deriving DecidableEq, Repr

/-- Write free bytes over a run, and over its scales (R32; log 9). -/
def State.putFreeRun (s : State) (c e : Nat) (key : List Nat) (t : Tensor) (i : Idx) (p : Bool) : State × Option AccErr :=
  let free (a n : Nat) : Bytes := (List.range n).map fun b => Config.overlapByte key (a + b)
  match s.putBytes c e (t.runAddr i) (free (t.runAddr i) t.runBytes) p with
  | (s, some err) => (s, some err)
  | (s, none) => if t.format.isMx then s.putBytes c e (t.scaleAddr i) (free (t.scaleAddr i) t.blocks) p else (s, none)

/-- Write a destination run by run, each computed in turn from ranges that are read for it (R207); free bytes where the result is open. -/
def State.putComputed (s : State) (c e : Nat) (t : Tensor) (r : Rounding) (sat : Bool) (free : Option (List Nat)) (reads : Idx → List (Nat × Nat))
    (f : State → Idx → List Computed) : State × Option AccErr × ArithFlags :=
  let w := t.runs.foldl (fun (st : State × Option AccErr × ArithFlags) i =>
    match st.2.1, st.1.rangesErr c (reads i) with
    | some _, _ => st
    | none, some err => (st.1.countClosed err.addr err.status, some err, st.2.2)
    | none, none =>
      let ys := f st.1 i
      let fl := ys.foldl (fun g y => (g.or y.flags).or { poison := y.poison }) st.2.2
      match free with
      | some key => let x := st.1.putFreeRun c e key t i (ys.any (·.poison)); (x.1, x.2, fl)
      | none => let x := st.1.putRun c e t r sat i (ys.map fun y => (y.value, y.poison)); (x.1, x.2.1, fl.or x.2.2)) (s, none, {})
  (w.1.useKey free, w.2)

/-! ### FUSE_OUT -/

/-- One source element of FUSE_OUT as it enters the pipeline (R138). -/
def State.fuseElem (s : State) (fu : Fusion) (tab : List TabEntry) (t : Tensor) (i : Idx) : Num × ArithFlags :=
  match t.format with
  | .fp64 => (s.readNum t i, {})
  | .int8 | .uint8 | .int32 | .int64 => s.fuse fu tab i.i1 i.i0 (.int (t.format.intValue (s.readElem t i).bits))
  | _ =>
    let x := rn32 (s.readNum t i)
    let y := s.fuse fu tab i.i1 i.i0 (.flt x.bits)
    (y.1, x.flags.or y.2)

/-- FUSE_OUT (R128, R131, R138, R190). -/
def fuseOut (c : Nat) (ups : List Upset) (s : State) : State :=
  match (s.core c).working 3 0x30 with
  | none => s
  | some (i, a) =>
    let cmd := a.q.cmd
    match a.tensor (cmd.desc 0), a.tensor (cmd.desc 12), readFusion a.slotView a.q.loops (cmd.desc 24) with
    | some src, some dst, .ok fu =>
      s.viaHubs c 3 ((src :: fu.tensors).map (·.base)) [dst.base] fun s =>
      let s := s.readRanges c (src.spans ++ fu.reads) ups
      match s.fusionErr c fu with
      | some err => s.refuseRead c 3 i a err
      | none =>
      let tab := ((fu.table.map fun t => s.tableEntries t)).getD []
      let fp := s.fusionPoison fu
      let r := s.putComputed c 3 dst fu.setting.round fu.setting.sat (s.openKey c a.q (src.overlaps dst)) src.runSpans fun s k =>
        (List.range (dst.dim 0)).map fun e =>
          let y := s.fuseElem fu tab src { k with i0 := e }
          { value := y.1, flags := y.2, poison := fp || s.elemPoison src { k with i0 := e } }
      endMove c 3 i a (r.1.writeUpsets dst.spans ups, r.2.1) { r.2.2 with poison := r.2.2.poison || fp }
    | _, _, _ => s

/-! ### Vector sources -/

/-- The index at which a source, broadcast along its dimensions of size 1, supplies an element (R191). -/
def Tensor.broadcast (t : Tensor) (i : Idx) : Idx :=
  { i0 := if t.dim 0 = 1 then 0 else i.i0, i1 := if t.dim 1 = 1 then 0 else i.i1
    i2 := if t.dim 2 = 1 then 0 else i.i2, i3 := if t.dim 3 = 1 then 0 else i.i3 }

/-- An element converted into a domain, exactly (R191). -/
def State.vecElem (s : State) (d : Domain) (t : Tensor) (i : Idx) : VecVal :=
  match d with
  | .int64 => .int (t.format.intValue (s.readElem t i).bits)
  | _ => .flt (s.readNum t i)

/-- The immediate in a domain, with the flag of its rounding (R191). -/
def Domain.immediate (d : Domain) (w : Nat) : VecVal × ArithFlags :=
  match d with
  | .int64 => (.int (toSigned 64 w), {})
  | .fp64 => (.flt (f64 w), {})
  | .fp32 => let x := rn32 (f64 w); (.flt (f32 x.bits), x.flags)

/-- Whether a destination overlaps a source in any way but element upon element, which the manual leaves open (log 15). -/
def Tensor.clash (src dst : Tensor) : Bool :=
  src.overlaps dst && !(src.base = dst.base && src.format.bits = dst.format.bits && !src.format.isMx && src.dims = dst.dims
    && src.strides = dst.strides)

/-- The rounding and saturation fields of a vector command. -/
def Cmd.vecRound (c : Cmd) : Rounding := (Rounding.ofField (bits (c.word 2) 56 2)).getD .rne

/-- One element of a VOP (R191, R192). -/
def State.vopElem (s : State) (d : Domain) (op : Nat) (s0 : Tensor) (s1 s2 : Option Tensor) (imm : VecVal × ArithFlags) (i : Idx) :
    Computed :=
  let val (t : Option Tensor) (dflt : VecVal) : VecVal := (t.map fun t => s.vecElem d t (t.broadcast i)).getD dflt
  let bad (t : Option Tensor) : Bool := t.any fun t => s.elemPoison t (t.broadcast i)
  let fl : ArithFlags := if s1.isNone then imm.2 else {}
  match d.op op (s.vecElem d s0 (s0.broadcast i)) (val s1 imm.1) (val s2 (.int 0)) with
  | some r => { value := r.1.num, flags := fl.or r.2, poison := bad (some s0) || bad s1 || bad s2 }
  | none => { value := .fin false 0 0 }

/-- VOP (R191, R192). -/
def vectorVop (c : Nat) (ups : List Upset) (s : State) : State :=
  match (s.core c).working 4 0x40 with
  | none => s
  | some (i, a) =>
    let cmd := a.q.cmd
    let w := cmd.word 2
    match a.tensor (cmd.desc 0), a.tensor (cmd.desc 36), Domain.ofField (bits w 54 2) with
    | some s0, some dst, some d =>
      let s1 := a.tensor (cmd.desc 12)
      let s2 := a.tensor (cmd.desc 24)
      let imm := if (vecSources 0x40 (bits w 48 6)).1 then d.immediate (cmd.word 3) else (.int 0, {})
      let srcs := [s0] ++ s1.toList ++ s2.toList
      s.viaHubs c 4 (srcs.map (·.base)) [dst.base] fun s =>
      let s := s.readRanges c (srcs.flatMap Tensor.spans) ups
      let free := s.openKey c a.q (srcs.any fun t => t.clash dst)
      let r := s.putComputed c 4 dst cmd.vecRound (bit w 58) free (fun k => srcs.flatMap fun t => t.runSpans (t.broadcast k)) fun s k =>
        (List.range (dst.dim 0)).map fun e => s.vopElem d (bits w 48 6) s0 s1 s2 imm { k with i0 := e }
      endMove c 4 i a (r.1.writeUpsets dst.spans ups, r.2.1) r.2.2
    | _, _, _ => s

/-- VRED: each dimension-0 run of the source to one element (R193). -/
def vectorVred (c : Nat) (ups : List Upset) (s : State) : State :=
  match (s.core c).working 4 0x41 with
  | none => s
  | some (i, a) =>
    let cmd := a.q.cmd
    let w := cmd.word 2
    match a.tensor (cmd.desc 0), a.tensor (cmd.desc 36), Domain.ofField (bits w 54 2) with
    | some src, some dst, some d =>
      s.viaHubs c 4 [src.base] [dst.base] fun s =>
      let s := s.readRanges c src.spans ups
      let r := s.putComputed c 4 dst cmd.vecRound (bit w 58) (s.openKey c a.q (src.clash dst)) src.runSpans fun s k =>
        let idx := (List.range (src.dim 0)).map fun e => { k with i0 := e }
        match d.reduce (bits w 48 6) (idx.map (s.vecElem d src)) with
        | some y => [{ value := y.1.num, flags := y.2, poison := idx.any (s.elemPoison src) }]
        | none => []
      endMove c 4 i a (r.1.writeUpsets dst.spans ups, r.2.1) r.2.2
    | _, _, _ => s

/-! ### VTAB -/

/-- Position of an element in ascending dimension order (R194). -/
def Tensor.position (t : Tensor) (i : Idx) : Nat := i.i0 + t.dim 0 * (i.i1 + t.dim 1 * (i.i2 + t.dim 2 * i.i3))

/-- Write one run of a VTAB; the refusal of a read or a write of it, the position of a bad index, whether it holds poison (R194, R207). -/
def State.vtabRun (s : State) (c : Nat) (ix tab dst : Tensor) (free : Option (List Nat)) (k : Idx) : State × Option AccErr × Option Nat × Bool :=
  match s.rangesErr c (ix.runSpans k) with
  | some err => (s.countClosed err.addr err.status, some err, none, false)
  | none =>
  let es := (List.range (dst.dim 0)).map fun e =>
    let i : Idx := { k with i0 := e }
    let v := ix.format.intValue (s.readElem ix i).bits
    (i, v, s.elemPoison ix i || s.elemPoison tab { i0 := v.toNat })
  let good := es.takeWhile fun e => decide (0 ≤ e.2.1 ∧ e.2.1 < (tab.dim 0 : Int))
  let n := dst.format.bits / 8
  match s.rangesErr c (good.map fun e => ((tab.elemPlace { i0 := e.2.1.toNat }).1, n)) with
  | some err => (s.countClosed err.addr err.status, some err, none, false)
  | none =>
  let bs := good.flatMap fun e =>
    openBytes free (dst.elemPlace e.1).1 (toLE n (s.readElem tab { i0 := e.2.1.toNat }).bits)
  let w := s.putPacked c 4 (dst.runAddr k) dst.format.bits bs (good.map (·.2.2))
  (w.1, w.2, (es.drop good.length).head?.map fun e => ix.position e.1, good.any (·.2.2))

/-- VTAB (R194). -/
def vectorVtab (c : Nat) (ups : List Upset) (s : State) : State :=
  match (s.core c).working 4 0x42 with
  | none => s
  | some (i, a) =>
    let cmd := a.q.cmd
    match a.tensor (cmd.desc 0), a.tensor (cmd.desc 12), a.tensor (cmd.desc 36) with
    | some ix, some tab, some dst =>
      s.viaHubs c 4 [ix.base, tab.base] [dst.base] fun s =>
      let s := s.readRanges c (ix.spans ++ tab.spans) ups
      let free := s.openKey c a.q (tab.overlaps dst || ix.clash dst)
      let r := dst.runs.foldl (fun (st : State × Option AccErr × Option Nat × Bool) k =>
        match st.2.1, st.2.2.1 with
        | none, none => let w := st.1.vtabRun c ix tab dst free k; (w.1, w.2.1, w.2.2.1, st.2.2.2 || w.2.2.2)
        | _, _ => st) (s, none, none, false)
      let s := r.1.writeUpsets dst.spans ups
      let s := s.useKey free
      match r.2.1, r.2.2.1 with
      | none, some e => s.putActive c 4 i (a.fail s.now { status := .addrRange, entry := e })
      | err, _ => endMove c 4 i a (s, err) { poison := r.2.2.2 }
    | _, _, _ => s

def execFuseOut (c : CoreId) (ups : List Upset) (s : State) : Host.Outcome State Fault Refusal := .next (fuseOut c ups s)
def execVop (c : CoreId) (ups : List Upset) (s : State) : Host.Outcome State Fault Refusal := .next (vectorVop c ups s)
def execVred (c : CoreId) (ups : List Upset) (s : State) : Host.Outcome State Fault Refusal := .next (vectorVred c ups s)
def execVtab (c : CoreId) (ups : List Upset) (s : State) : Host.Outcome State Fault Refusal := .next (vectorVtab c ups s)

end Sys2Proof.Machine
end

