-- ==== Sys2Proof/Machine/Window.lean ====
section
/-! DEFINITION. Windows (R215 to R222, R288, R289): the entry, the checks of an access in their order, the refusal log, and the
accesses themselves. -/

namespace Sys2Proof.Machine

open Sys2Proof

/-- How an access ends: done, or refused with a reason at an offset (R218). -/
inductive WinResult where
  | ok (data : Bytes)
  | refused (reason offset : Nat)
  deriving DecidableEq, Repr

/-- BASE of a window entry. -/
def winBase (v : Nat) : Nat := bits v 0 64
/-- LENGTH. -/
def winLength (v : Nat) : Nat := bits v 64 36
/-- RIGHTS. -/
def winRights (v : Nat) : Nat := bits v 128 4
/-- VALID. -/
def winValid (v : Nat) : Bool := bit v 132
/-- SRC_LO. -/
def winSrcLo (v : Nat) : Nat := bits v 144 12
/-- SRC_HI. -/
def winSrcHi (v : Nat) : Nat := bits v 156 12
/-- GEN. -/
def winGen (v : Nat) : Nat := bits v 168 8
/-- JOB_TAG. -/
def winTag (v : Nat) : Nat := bits v 176 16

/-- The right an operation needs. -/
def opRight : Nat → Nat
  | 0 => 0
  | 1 => 1
  | 4 => 3
  | _ => 2

/-- Whether an access meets check 7 (R218). -/
def aligned (v : Nat) (x : WinAccess) : Bool :=
  if spaceOf (winBase v) = 2 then x.length = 8 && x.offset % 8 = 0
  else
    let n := if x.op = 2 then 4 else if x.op = 3 then 8 else 1
    (winBase v + x.offset) % n = 0 && x.length % n = 0

/-- Target address of an access; an object window counts 8 bytes an object (R222). -/
def winTarget (v off : Nat) : Nat := if spaceOf (winBase v) = 2 then winBase v + off / 8 else winBase v + off

/-- Logical core of a scratchpad or object target. -/
def targetCore (a : Nat) : Nat := if spaceOf a = 2 then syncCore a else spCore a

/-- Checks 1 to 7, made at the checking point: the reason that fails first (R218, R289). -/
def State.windowCheck (s : State) (x : WinAccess) : Option Nat :=
  let v := s.window x.window
  let a := winTarget v x.offset
  let closed := !winValid v || (spaceOf (winBase v) = 2 && !s.objectsOf (syncCore (winBase v)) (winOwner v))
  if closed then some 0x01
  else if x.source < winSrcLo v ∨ winSrcHi v < x.source then some 0x02
  else if x.tag ≠ winTag v then some 0x03
  else if x.gen ≠ winGen v then some 0x04
  else if !bit (winRights v) (opRight x.op) then some 0x05
  else if winLength v < x.offset + x.length then some 0x06
  else if !aligned v x || (x.op = 4 && spaceOf a ≠ 2) then some 0x07
  else none

/-- The first address of a range that a target refuses, with the reason: checks 8 to 12 (R218), for a job being rolled back too (R368). -/
def State.targetCheck (s : State) (j a n op : Nat) : Option (Nat × Nat) :=
  let places := granules a n
  let at' (g : Nat) : Nat := max a g
  let readable := if op = 0 then (places.find? s.poisonAt).map fun g => (0x0C, at' g)
    else (places.find? fun g => (s.reservedBy none (at' g) (min (g + 64) (a + n) - at' g)).isSome).map fun g => (0x0B, at' g)
  match spaceOf a with
  | 0 =>
    match places.find? fun g => s.serviceStatus g ≠ .ok || (if op = 0 then (s.served g).isNone else (s.writePlaces g).isEmpty) with
    | some g => some (0x09, at' g)
    | none => readable
  | 1 =>
    if s.coreOut (spCore a) || s.coreFenced (spCore a) || !s.stationUp (spCore a) || s.jobState j = 5 then some (0x08, a)
    else match places.find? fun g => s.groupState (spCore g) (groupOf g) ≠ 0 with
    | some g => some (0x0A, at' g)
    | none =>
      readable
  | _ => if s.coreOut (syncCore a) || s.coreFenced (syncCore a) || !s.stationUp (syncCore a) then some (0x08, a) else none

/-- The 32 bytes of a refusal log entry (R221). -/
def refusalEntry (x : WinAccess) (reason offset stamp : Nat) : Bytes :=
  toLE 8 stamp ++ toLE 8 offset ++ toLE 2 (x.source % 4096) ++ toLE 2 (x.window % 4096) ++ toLE 2 x.tag ++ toLE 1 0 ++ toLE 1 x.gen
    ++ toLE 1 reason ++ toLE 1 x.op ++ toLE 6 0

/-- A refusal at the destination: counted, logged, and evented where the window's last evented refusal is 1 s old (R221). -/
def State.logRefusal (s : State) (x : WinAccess) (reason offset : Nat) : State :=
  let idx := 0x2430 + x.window / 128
  let sub := 1 + x.window % 128
  let s := ((s.bump idx sub).bump 0x2420 0x02).bump 0x2420 (0x02 + reason)
  let log := s.refusals ++ [ofLE (refusalEntry x reason offset s.now)]
  let s := { s with refusals := log.drop (log.length - 256) }
  let last := Tab.get 0 s.refusalEvent x.window
  if last = 0 ∨ last + 1000000000 ≤ s.now + 1 then
    { s.event idx sub (s.get idx sub) with refusalEvent := Tab.set 0 s.refusalEvent x.window (s.now + 1) }
  else s

/-- Add two elements of a reduce-add (R197). -/
def reduceAdd (op x y : Nat) : Nat :=
  if op = 2 then (rn32 ((f32 x).add (f32 y))).bits else ofSigned 64 (satInt64 (toSigned 64 x + toSigned 64 y)).1

/-- The bytes a write or reduce-add leaves: the data, or each element added to what stands there (R197). -/
def State.winData (s : State) (a op : Nat) (data : Bytes) : Bytes :=
  if op = 1 then data
  else
    let n := if op = 2 then 4 else 8
    (List.range (data.length / n)).flatMap fun i => toLE n (reduceAdd op (ofLE (s.readBytes (a + n * i) n)) (leAt data (n * i) n))

/-- Store the bytes of a window write; a reduce-add keeps the poison of what it read. -/
def State.winStore (s : State) (a op : Nat) (data : Bytes) : State :=
  (pieces 64 a (s.winData a op data)).foldl (fun s p =>
    let poison := op ≠ 1 && s.anyPoison p.1 p.2.length
    s.storePlaces (s.writePlaces p.1) p.2 poison) s

/-- The checks of an access in order: none where it passes, or the reason and the offset of the first refused byte, with the records of
the refusal made (R218, R221, R356). -/
def State.windowAdmit (s : State) (x : WinAccess) : State × Option (Nat × Nat) :=
  match s.windowCheck x with
  | some r =>
    let off := if r = 0x06 then max x.offset (winLength (s.window x.window)) else x.offset
    (s.logRefusal x r off, some (r, off))
  | none =>
    let v := s.window x.window
    let a := winTarget v x.offset
    match s.targetCheck (winOwner v) a x.length x.op with
    | some (r, at') =>
      let off := x.offset + (at' - a)
      let s := s.logRefusal x r off
      let s := if r = 0x0A then s.bump (coreObj (spCore a) + 1) 0x06
               else if r = 0x0B then (match s.reservedBy none at' (64 - at' % 64) with
                 | some o => s.bump (coreObj o) 0x0A
                 | none => s)
               else if r = 0x0C then s.egressByAccess (winOwner v) 2 (at' / 64 * 64) else s
      (s, some (r, off))
    | none => (s, none)

/-- A signal through a window, checked where it arrives (R218, R288): the object it is for, or the refusal. -/
def State.windowSignal (s : State) (x : WinAccess) : State × (Nat ⊕ (Nat × Nat)) :=
  match s.windowAdmit x with
  | (s, some r) => (s, .inr r)
  | (s, none) => (s, .inl (winTarget (s.window x.window) x.offset))

/-- The armature packets of an access of n bytes: offset and length, up to 63 granules each, cut from the first granule on (R219, R252; DESIGN
CHOICE, log 40). An access to objects is one packet. -/
def winPackets (a n : Nat) : List (Nat × Nat) :=
  if spaceOf a = 2 then [(0, n)]
  else (List.range (max 1 (ceilDiv (a % 64 + n) 4032))).map fun i =>
    let lo := 4032 * i - a % 64
    (lo, min n (4032 * (i + 1) - a % 64) - lo)

/-- One packet of a read, a write or a reduce-add: its checks, then its operation; a refused packet changes nothing but the records of the refusal
(R218 to R222). What a read finds in the granules is taken once the checks of the entry pass, what a write
meets after it (R212, R213, R236). -/
def State.windowPacket (s : State) (x : WinAccess) (data : Bytes) (reader : Option Nat) (ups : List Upset) :
    State × WinResult :=
  let a := winTarget (s.window x.window) x.offset
  let s := if (s.windowCheck x).isNone && decide (x.op ≤ 3) && x.op ≠ 1 then s.findUpsets reader [(a, x.length)] ups else s
  match s.windowAdmit x with
  | (s, some (r, off)) => (s, .refused r off)
  | (s, none) =>
    if spaceOf a = 2 then (s, .ok (toLE 8 (s.syncGet (syncCore a) (syncIndex a))))
    else if x.op = 0 then (s.countRead a x.length, .ok (s.readBytes a x.length))
    else (((if x.op = 1 then s else s.countRead a x.length).winStore a x.op data).writeUpsets [(a, x.length)] ups, .ok [])

/-- Carry out an access packet by packet: packets accepted before a refusal remain written, and a refusal returns no data (R219). -/
def State.windowAccess (s : State) (x : WinAccess) (data : Bytes) (reader : Option Nat) (ups : List Upset) : State × WinResult :=
  (winPackets (winTarget (s.window x.window) x.offset) x.length).foldl (fun st p =>
    match st.2 with
    | .ok got =>
      let r := st.1.windowPacket { x with offset := x.offset + p.1, length := p.2 } ((data.drop p.1).take p.2) reader ups
      (r.1, match r.2 with
        | .ok bs => .ok (got ++ bs)
        | e => e)
    | _ => st) (s, .ok [])

end Sys2Proof.Machine
end

