-- ==== Sys2Proof/Machine/Ctp.lean ====
section
/-! DEFINITION. The Chroly transport (R302 to R312): ports that are up, connections, sending with window and credit, acknowledgement and
resending, the end of a connection, and what a connection's progress means to the transfer commands that wait on it. -/

namespace Sys2Proof.Machine

open Sys2Proof

/-! ### Ports -/

/-- Index of a port's status objects; + 1 its transceiver (R321). -/
def portObj (p : Nat) : Nat := 0x6000 + 0x40 * p
/-- port_state. -/
def State.portState (s : State) (p : Nat) : Nat := s.get (portObj p) 0x01
/-- Whether a port is up, narrowed or not (R321). -/
def State.portUp (s : State) (p : Nat) : Bool := s.portState p = 2 || s.portState p = 3
/-- A port beside its objects. -/
def State.portOf (s : State) (p : Nat) : Port := Tab.get {} s.ports p
/-- Change a port beside its objects. -/
def State.updPort (s : State) (p : Nat) (f : Port → Port) : State := { s with ports := Tab.upd {} s.ports p f }
/-- The host port: H0, or F0 after a move (R297, R298). -/
def State.hostPort (s : State) : Nat := if (s.portOf 0).roleMoved then 1 else 0
/-- Index of the configuration that a port follows: F0 takes H0's port_mode, addresses and flow control with the host role (R298, R319). -/
def State.portCfg (s : State) (p : Nat) : Nat := if p = s.hostPort then 0x2600 else 0x2600 + p
/-- The module's own number (R320). -/
def State.moduleNo (s : State) : Nat := s.get 0x2620 0x01

/-- Bytes of the receive buffer (R299). -/
def bufferBytes : Nat := 32 * 2 ^ 20

/-- Whole cells of 4 KiB that a frame takes (R299). -/
def cellsOf (n : Nat) : Nat := ceilDiv n 4096 * 4096

/-- Bytes of a port's receive buffer that are taken. -/
def State.bufferUsed (s : State) (p : Nat) : Nat := ((s.portOf p).buffer.map fun f => cellsOf f.1).sum

/-- The priorities of a flow-control frame that the host port sends: those of pfc_priorities under PFC, none named by PAUSE (R300). -/
def State.flowPriorities (s : State) : Option Nat := if s.get 0x2600 0x06 = 2 then some (s.get 0x2600 0x07) else none

/-- Send XON once free space reaches 24 MiB (R300). -/
def State.sendXon (s : State) (p : Nat) : State :=
  if (s.portOf p).xoff && decide (s.bufferUsed p ≤ 8 * 2 ^ 20) then
    (s.updPort p fun q => { q with xoff := false }).emit (.xon p s.flowPriorities)
  else s

/-- Whether PAUSE, or PFC of the priority that packets carry, stops a port's transmitter (R300). -/
def Port.stopped (q : Port) : Bool := Tab.get 0 q.paused 8 ≠ 0 || Tab.get 0 q.paused Config.ctpPriority.val ≠ 0

/-- A frame that carries a packet leaves the port for ctp_udp_port, is held while the transmitter is stopped, or is lost while the link is down
(R295, R300, R302). -/
def State.transmit (s : State) (p : Nat) (k : CtpPacket) : State :=
  if !s.portUp p then s
  else if (s.portOf p).stopped then s.updPort p fun q => { q with transmit := q.transmit ++ [k] }
  else s.emit (.packet p (s.get (0x2600 + p) 0x05) k)

/-! ### Connections -/

/-- A connection. -/
def State.conn (s : State) (n : Nat) : Option Conn := Tab.get none s.conns n
/-- Set a connection. -/
def State.setConn (s : State) (n : Nat) (c : Conn) : State := { s with conns := Tab.set none s.conns n (some c) }
/-- Change a connection, if it exists. -/
def State.updConn (s : State) (n : Nat) (f : Conn → Conn) : State :=
  match s.conn n with
  | some c => s.setConn n (f c)
  | none => s
/-- The connections that exist, with their numbers. -/
def State.connList (s : State) : List (Nat × Conn) := s.conns.filterMap fun e => e.2.map fun c => (e.1, c)
/-- The lowest connection number that is free. -/
def State.freeConn (s : State) : Option Nat := (List.range 4096).find? fun n => (s.conn n).isNone

/-- a − b modulo 2³², read as a signed number (R307). -/
def psnDiff (a b : Nat) : Int := toSigned 32 (a + 2 ^ 32 - b % 2 ^ 32)

/-- The next PSN. -/
def psnNext (a : Nat) : Nat := (a + 1) % 2 ^ 32

/-- Buffer space of a port that credits may draw on (R300, R310). -/
def State.creditSpace (s : State) (p : Nat) : Nat :=
  (if p = s.hostPort && s.get 0x2600 0x06 ≠ 0 then 12 * 2 ^ 20 else bufferBytes) - s.bufferUsed p

/-- Packets of a connection's largest payload for which its port has space not granted to others, up to its window (R310). -/
def State.creditRoom (s : State) (n : Nat) (c : Conn) : Nat :=
  let others := ((s.connList.filter fun e => e.1 ≠ n && e.2.port = c.port).map fun e => e.2.granted * e.2.limit).sum
  min c.window ((s.creditSpace c.port - others) / max c.limit 1)

/-- Draw the credit granted to a connection anew: a free division within the bounds of R310 (log 17). -/
def State.drawCredit (s : State) (n : Nat) : State :=
  match s.conn n with
  | none => s
  | some c =>
    let room := s.creditRoom n c
    let g := Config.creditDraw s.fresh % (room + 1)
    let g := if c.probed ≠ 0 ∧ g = 0 ∧ 0 < room then 1 else g
    { s.setConn n { c with granted := g, probed := if 0 < g then 0 else c.probed } with fresh := s.fresh + 1 }

/-- A connection granted nothing has probed for credit: it waits behind those that probed before it (R310). -/
def State.noteProbe (s : State) (n : Nat) : State :=
  let last := (s.connList.map (·.2.probed)).foldl max 0
  s.updConn n fun c => if c.granted = 0 ∧ c.probed = 0 then { c with probed := last + 1 } else c

/-- The connections of a port that wait for credit, in the order of their first probe (R310). -/
def State.waitingConns (s : State) (p : Nat) : List Nat :=
  ((s.connList.filter fun e => e.2.port = p && e.2.probed ≠ 0).mergeSort fun a b => decide (a.2.probed ≤ b.2.probed)).map (·.1)

/-- The header with its CRC field zero, and the payload: what the CRC covers (R303). -/
def packetImage (k : CtpPacket) : Bytes :=
  [k.version, k.type] ++ toLE 2 k.flags.toNat ++ toLE 2 k.src.toNat ++ toLE 2 k.dst.toNat ++ toLE 2 k.conn.toNat ++ toLE 2 k.length.toNat
    ++ toLE 4 k.psn.toNat ++ toLE 4 k.ackPsn.toNat ++ toLE 2 k.credit.toNat ++ toLE 2 k.jobTag.toNat ++ [k.gen] ++ toLE 3 k.reserved.toNat
    ++ toLE 4 0 ++ k.payload

/-- Whether a packet's CRC passes (R303, R304). -/
def packetCrcOk (k : CtpPacket) : Bool := k.crc.toNat = crc32c (packetImage k)

/-- A packet with the CRC that its source computes (R303). -/
def sealPacket (k : CtpPacket) : CtpPacket := { k with crc := BitVec.ofNat 32 (crc32c (packetImage k)) }

/-- A packet of a connection, its acknowledgement and credit in the header (R303). -/
def State.packet (s : State) (c : Conn) (type flags psn jobTag gen : Nat) (payload : Bytes) : CtpPacket :=
  sealPacket
  { version := BitVec.ofNat 8 (if type ≤ 2 then 1 else c.version), type := BitVec.ofNat 8 type
    flags := BitVec.ofNat 16 flags, src := BitVec.ofNat 16 s.moduleNo, dst := BitVec.ofNat 16 c.peer
    conn := if type = 1 then 0xFFFF else BitVec.ofNat 16 c.peerConn, length := BitVec.ofNat 16 payload.length
    psn := BitVec.ofNat 32 psn, ackPsn := if bit flags 0 then BitVec.ofNat 32 c.expect else 0
    credit := if bit flags 0 then BitVec.ofNat 16 c.granted else 0
    jobTag := BitVec.ofNat 16 jobTag, gen := BitVec.ofNat 8 gen, reserved := 0, crc := 0, payload := payload }

/-- Send one packet of a connection on its port: the first that acknowledges after the connection has moved, or its port has come up, carries ACK_REQ
and RESEND (R296). -/
def State.sendPacket (s : State) (n type flags psn jobTag gen : Nat) (payload : Bytes) : State :=
  match s.conn n with
  | some c =>
    let again := c.resync && bit flags 0 && s.portUp c.port
    (s.transmit c.port (s.packet c type (if again then 7 else flags) psn jobTag gen payload)).updConn n fun c =>
      { c with resync := c.resync && !again }
  | none => s

/-- Send a message; its header acknowledges (R308). -/
def State.sendOne (s : State) (n : Nat) (m : Message) : State :=
  (s.sendPacket n m.type 1 m.psn m.jobTag m.gen m.payload).updConn n fun c => { c with owed := 0 }

/-- Packets a connection may have under way: the smaller of its window and the peer's last CREDIT (R310). -/
def Conn.allowance (c : Conn) : Nat := min c.window c.credit

/-- Send every queued message that window and credit let go (R310). -/
def State.pump (s : State) (n : Nat) : State :=
  match s.conn n with
  | none => s
  | some c =>
    if c.phase = 0 then s
    else
      let go := c.queue.filter fun m => !m.sent && decide (psnDiff m.psn c.acked < (c.allowance : Int))
      let s := s.setConn n { c with queue := c.queue.map fun m => if go.any (·.psn = m.psn) then { m with sent := true } else m
                                    timer := if c.queue.any (·.sent) then c.timer else s.now }
      go.foldl (fun s m => s.sendOne n m) s

/-- Queue a sequenced message; its PSN (R307). Once a CLOSE has arrived or been sent nothing new is queued (R306; DEDUCED, log 92: no answer to
what is acted on later either). -/
def State.queueMessage (s : State) (n type jobTag gen : Nat) (payload : Bytes) : State × Nat :=
  match s.conn n with
  | none => (s, 0)
  | some c =>
    if 2 ≤ c.phase then (s, 0)
    else ((s.setConn n { c with next := psnNext c.next, queue := c.queue ++ [⟨c.next, type, jobTag, gen, payload, false, 0⟩] }).pump n, c.next)

/-- Start, end pairs of the PSNs held ahead of the next one expected, at most 16 (R305, R307). -/
def sackBlocks (c : Conn) : List (Nat × Nat) :=
  let ps := (c.held.map fun k => k.psn.toNat).mergeSort fun a b => decide (psnDiff a c.expect ≤ psnDiff b c.expect)
  let bs := ps.foldl (fun (l : List (Nat × Nat)) p => match l.getLast? with
    | some (a, b) => if b = p then l.dropLast ++ [(a, psnNext p)] else l ++ [(p, psnNext p)]
    | none => [(p, psnNext p)]) []
  bs.take 16

/-- Send an ACK message, with SACK blocks in version 2 (R305, R307, R308); request asks for one in turn. -/
def State.sendAck (s : State) (n : Nat) (request : Bool) : State :=
  match s.conn n with
  | none => s
  | some c =>
    let s := s.drawCredit n
    let sacks := if c.version = 2 then (sackBlocks c).flatMap fun b => toLE 4 b.1 ++ toLE 4 b.2 else []
    (s.sendPacket n 0x04 (if request then 3 else 1) 0 0 0 sacks).updConn n fun c => { c with owed := 0 }

/-- Serve the connections of a port that wait for credit, in their order, while there is space (R310). -/
def State.serveProbes (s : State) (p : Nat) : State :=
  (s.waitingConns p).foldl (fun s n => match s.conn n with
    | some c => if c.probed ≠ 0 && decide (0 < s.creditRoom n c) then s.sendAck n false else s
    | none => s) s

/-- Resend a message, counted in ctp_retransmits (R309). -/
def State.resend (s : State) (n : Nat) (m : Message) : State :=
  match s.conn n with
  | some c => (s.sendOne n m).bump (portObj c.port) 0x0C
  | none => s

/-- Resend every sent, unacknowledged message at once (R296, R309). -/
def State.resendAll (s : State) (n : Nat) : State :=
  match s.conn n with
  | none => s
  | some c => (c.queue.filter (·.sent)).foldl (fun s m => s.resend n m) s

/-- Status of a synchronisation error (R283). -/
def SignalResult.status : SignalResult → Status
  | .ok => .ok
  | .kindError => .syncKind
  | .overrun => .barrierOverrun
  | .refused => .windowRefused

/-! ### Transfers that wait on a connection -/

/-- The started command that awaits a message of a connection: core, engine, place, command, message. -/
def State.awaiting (s : State) (f : Pending → Bool) : Option (Nat × Nat × Nat × Active × Pending) :=
  (List.range 22).findSome? fun c => [0, 5].findSome? fun e =>
    let l := Tab.get [] (s.core c).active e
    ((List.range l.length).zip l).findSome? fun x =>
      if x.2.done then none else (x.2.messages.find? fun p => !p.answered && f p).map fun p => (c, e, x.1, x.2, p)

/-- A command that waits for its messages has had them all answered (R144, R152, R168). -/
def Active.settle (a : Active) (now : Nat) : Active :=
  if a.messages.all (·.answered) then
    if a.status ≠ 0 then { a with done := true, start := now } else a.finish now (ArithFlags.ofByte a.flags)
  else a

/-- A message of a command has been answered. -/
def State.answered (s : State) (x : Nat × Nat × Nat × Active × Pending) : State :=
  let (c, e, i, a, p) := x
  let a := { a with messages := a.messages.map fun q => if q = p then { q with answered := true } else q }
  s.putActive c e i (a.settle s.now)

/-- A command ends in error: what it still awaits no longer concerns it. -/
def State.failTransfer (s : State) (x : Nat × Nat × Nat × Active × Pending) (st : Status) (detail addr : Nat) : State :=
  let (c, e, i, a, _) := x
  if a.status ≠ 0 then s.putActive c e i { a with done := true, start := s.now }
  else s.putActive c e i (a.fail s.now { status := st, detail := detail, addr := addr })

/-- Messages acknowledged: those that need no answer of their own are complete (R144, R281). -/
def State.acknowledged (s : State) (n : Nat) (ms : List Message) : State :=
  ms.foldl (fun s m =>
    if m.type = 0x23 then s
    else match s.awaiting fun p => p.conn = n && p.psn = m.psn with
      | some x => s.answered x
      | none => s) s

/-- Deliveries of completions that a connection carried are confirmed (R332). -/
def State.confirmCompletion (s : State) (m : Message) : State :=
  if m.type = 0x12 then
    let s : State := { s with items := s.items.map fun i =>
        if i.state = 3 && i.completion = m.payload then { i with messageConfirmed := true } else i }
    s.retireItems
  else s

/-- A header acknowledges up to a PSN and carries the peer's credit (R307, R309, R310). -/
def State.ackReceived (s : State) (n ack credit : Nat) : State :=
  match s.conn n with
  | none => s
  | some c =>
    if psnDiff ack c.acked < 0 ∨ psnDiff c.next ack < 0 then s
    else
      let gone := c.queue.filter fun m => decide (psnDiff m.psn ack < 0)
      let s := s.setConn n { c with acked := ack, queue := c.queue.filter fun m => decide (0 ≤ psnDiff m.psn ack), credit := credit
                                    timeouts := if gone.isEmpty then c.timeouts else 0, timer := if gone.isEmpty then c.timer else s.now
                                    probeTimer := if credit = 0 ∧ c.credit ≠ 0 then s.now else c.probeTimer }
      (gone.foldl State.confirmCompletion (s.acknowledged n gone)).pump n

/-- A connection ends: what its messages left unanswered ends at its source with REMOTE_UNREACHABLE (R309). -/
def State.dropConn (s : State) (n : Nat) : State :=
  match s.conn n with
  | none => s
  | some _ =>
    let gone (x : SignalFrom) : SignalFrom := match x with
      | .message m p psn => .message (if m = n then 0xFFFF else m) p psn
      | x => x
    let s : State := { s with conns := Tab.set none s.conns n none
                              items := s.items.map fun i => if i.conn = n then { i with conn := 0xFFFF, sent := false } else i
                              streams := s.streams.map fun e => (e.1, { e.2 with answers := e.2.answers.map fun h =>
                                if h.conn = n then { h with conn := 0xFFFF } else h })
                              signals := s.signals.map fun g => { g with source := gone g.source } }
    (List.range (22 * 17)).foldl (fun s _ =>
      match s.awaiting fun p => p.conn = n with
      | some x => s.failTransfer x .remoteUnreachable 0 0
      | none => s) s

/-- A connection closes once nothing is unacknowledged, reads unanswered among it; the peer is answered with CLOSE (R306). -/
def State.closeIfIdle (s : State) (n : Nat) : State :=
  match s.conn n with
  | none => s
  | some c =>
    if c.phase = 2 ∧ c.queue.isEmpty ∧ c.held.isEmpty ∧ (s.awaiting fun p => p.conn = n).isNone then
      (s.sendPacket n 0x03 1 0 0 0 []).dropConn n
    else s

/-! ### Opening -/

/-- Entry of a peer in the table (R320). -/
def State.peerEntry (s : State) (m : Nat) : Nat := s.get (0x2640 + m / 128) (1 + m % 128)

/-- The next up port of a mask of fabric ports, searching upward in cyclic order from a port (R296). -/
def State.nextPort (s : State) (mask p : Nat) : Option Nat :=
  ((List.range 16).map fun i => (p + i) % 16 + 1).find? fun q => bit mask (q - 1) && s.portUp q

/-- Largest payload a port can carry: 8,208 bytes, or its MTU less 80 on IPv6, less 60 on IPv4 (R302). -/
def State.portLimit (s : State) (p : Nat) (ip4 : Bool) : Nat := min 8208 (s.get (0x2600 + p) 0x02 - (if ip4 then 60 else 80))

/-- The 16 bytes of an offer (R306). -/
def offerBytes (versions window psn credit limit conn status : Nat) : Bytes :=
  toLE 2 versions ++ toLE 2 window ++ toLE 4 psn ++ toLE 2 credit ++ toLE 2 limit ++ toLE 2 conn ++ toLE 1 status ++ toLE 1 0

/-- Largest window the module offers: 4,096, or 256 where it may run version 1 alone (R306). -/
def State.windowOffer (s : State) : Nat := if bit (s.get 0x2620 0x03) 1 then 4096 else 256

/-- Begin a connection of the module's own, with its drawn PSN and credit, on a port (R306). -/
def State.beginConn (s : State) (n peer port : Nat) : State :=
  let psn := Config.initialPsn s.fresh % 2 ^ 32
  let c : Conn := { peer := peer, port := port, next := psn, acked := psn, window := s.windowOffer, limit := s.portLimit port false
                    timer := s.now }
  let s := ({ s with fresh := s.fresh + 1 }.setConn n c).drawCredit n
  s.updConn n fun c => { c with grantedInit := c.granted
                                offer := offerBytes (s.get 0x2620 0x03) c.window psn c.granted c.limit n 0 }

/-- The connection that carries the module's own messages to another module: one that exists, or one opened by HELLO; none where the
peer table names no peer or no number is free (R306, R320). -/
def State.connTo (s : State) (m : Nat) : State × Option Nat :=
  match s.connList.find? fun e => e.2.peer = m && e.2.port ≠ s.hostPort && e.2.phase ≤ 1 with
  | some e => (s, some e.1)
  | none =>
    let mask := bits (s.peerEntry m) 128 16
    match s.freeConn, (s.nextPort mask 0 <|> (setPositions 16 mask).head?.map (· + 1)) with
    | some n, some p =>
      if s.peerEntry m = 0 then (s, none)
      else
        let s := s.beginConn n m p
        (s.sendPacket n 0x01 0 0 0 0 (((s.conn n).map (·.offer)).getD []), some n)
    | _, _ => (s, none)

/-- Move every connection bound to a port that has left the up state (R296). -/
def State.moveConns (s : State) (p : Nat) : State :=
  s.connList.foldl (fun s e =>
    if e.2.port ≠ p ∨ p = s.hostPort then s
    else match s.nextPort (bits (s.peerEntry e.2.peer) 128 16) p with
      | none => s
      | some q =>
        let c := { e.2 with port := q, credit := e.2.creditInit, resync := true }
        ((s.setConn e.1 { c with granted := min c.grantedInit (s.creditRoom e.1 c) }).resendAll e.1).pump e.1) s

/-- A port has come up: its connections resend what is unacknowledged, the first packet with ACK_REQ and RESEND (R296). -/
def State.portCameUp (s : State) (p : Nat) : State :=
  s.connList.foldl (fun s e => if e.2.port = p then ((s.updConn e.1 fun c => { c with resync := true }).resendAll e.1).pump e.1 else s) s

/-- The module closes a connection: it sends CLOSE, and repeats it (R306). -/
def State.beginClose (s : State) (n : Nat) : State :=
  match s.conn n with
  | some c => if c.phase = 1 then (s.setConn n { c with phase := 3, repeats := 0, timer := s.now }).sendPacket n 0x03 1 0 0 0 [] else s
  | none => s

/-! ### Window messages -/

/-- SPACE 0x4 address (R24). -/
def winAddr (m w off : Nat) : Nat := 4 * 2 ^ 60 + m % 4096 * 2 ^ 48 + w % 4096 * 2 ^ 36 + off % 2 ^ 36
/-- MODULE of a window address. -/
def winModule (a : Nat) : Nat := bits a 48 12
/-- WINDOW of a window address. -/
def winNumber (a : Nat) : Nat := bits a 36 12
/-- OFFSET of a window address. -/
def winOffset (a : Nat) : Nat := bits a 0 36

/-- The 16-byte prefix of a window message (R311). -/
def winPrefix (remote arg kind gv gen : Nat) : Bytes :=
  toLE 8 remote ++ toLE 4 arg ++ toLE 1 kind ++ toLE 1 gv ++ toLE 2 gen

/-- A window message type's operation code (R221). -/
def typeOp : Nat → Nat
  | 0x20 => 1
  | 0x21 => 2
  | 0x22 => 3
  | 0x25 => 4
  | _ => 0

end Sys2Proof.Machine
end

