-- ==== Sys2Proof/Machine/Sequencer.lean ====
section
/-! DEFINITION. The opcodes the sequencer executes (R147, R154 to R160, R176 to R181), step commits (R155, R346 to R348, R355 to R358,
R367), waits and their ends (R285 to R287). SIGNAL stands with the transfers, what object units apply with the messages that arrive. -/

namespace Sys2Proof.Machine

open Sys2Proof

/-- Run an operation on the sequencer's command, where it is one of an opcode and has not been done. -/
def State.withSeq (s : State) (c op : Nat) (f : Active → State → State) : State :=
  match (s.core c).working 0 op with
  | some (_, a) => f a s
  | none => s

/-- The sequencer's command has executed. -/
def State.seqDone (s : State) (c : Nat) (a : Active) : State := s.setStarted c 0 [{ a with done := true, start := s.now }]

/-- The sequencer's command ends in error. -/
def State.seqFail (s : State) (c : Nat) (a : Active) (e : CheckErr) : State := s.setStarted c 0 [a.fail s.now e]

/-- Leave the state "sequencer waiting" (R164). -/
def State.seqResume (s : State) (c : Nat) : State := if (s.core c).state = 2 then s.setCoreState c 1 else s

/-! ### Waits -/

/-- A wait whose time stops, if it has not (R286). -/
def Wait.freeze (now : Nat) (w : Wait) : Wait := if w.frozen.isSome then w else { w with frozen := some (w.deadline - now) }

/-- A wait whose time goes on (R286). -/
def Wait.thaw (now : Nat) (w : Wait) : Wait :=
  match w.frozen with
  | some n => { w with frozen := none, deadline := now + n }
  | none => w

/-- Whether a core's tile is borrowed for a run of a suspect step (R351). -/
def State.lent (s : State) (d : Nat) : Bool := s.replays.any fun x => x.borrowed = some d

/-- WAIT: register the wait that the command names (R177, R285, R286). -/
def seqWait (c : Nat) (s : State) : State :=
  s.withSeq c 0x01 fun a s =>
    if a.streamed ≠ 0 then s
    else
      let cmd := a.q.cmd
      let us := bits (cmd.word 4) 0 32
      let j := (s.core c).job
      let obj := cmd.word 2
      let w : Wait := { core := c, engine := 0, object := obj, kind := bits (cmd.word 3) 32 2, target := bits (cmd.word 3) 0 32
                        tag := cmd.tag, start := s.now, deadline := s.now + (if us = 0 then s.waitDefault j else us * 1000)
                        opcode := true }
      match s.registerWait w with
      | (s, some true) => s.seqDone c a
      | (s, some false) => (s.setStarted c 0 [{ a with streamed := 1 }]).setCoreState c 2
      | (s, none) => s.seqFail c a { status := .syncKind, addr := obj }

/-- WAKE_NOTICE: the oldest wake for an engine reaches it, not before its core is given back; a wait of the wrong kind ends in SYNC_KIND (R284,
R285, R351). -/
def wakeNotice (c e : Nat) (s : State) : State :=
  if s.lent c then s else
  match s.wakes.find? fun w => w.core = c && w.engine = e with
  | none => s
  | some w =>
    let s := { s with wakes := s.wakes.erase w }
    let s := if e = 0 then s.seqResume c else s
    if w.opcode then
      s.withSeq c 0x01 fun a s => if w.ok then s.seqDone c a else s.seqFail c a { status := .syncKind, addr := w.object }
    else if w.ok then s.updHead c e fun q => { q with waitMet := true }
    else match (s.core c).queue e with
      | [] => s
      | q :: _ => (s.popQueue c e).addStarted c e (({ q := q } : Active).fail s.now { status := .syncKind, addr := w.object })

/-- The command that a wait of a core and engine belongs to. -/
def State.waiter (s : State) (w : Wait) : Cmd :=
  if w.opcode then (((s.core w.core).started 0).head?.map (·.q.cmd)).getD {}
  else (((s.core w.core).queue w.engine).head?.map (·.cmd)).getD {}

/-- WAIT_DEADLINE: the oldest wait of an engine that a hub still holds reaches its deadline unsatisfied (R152, R271, R286, R287). -/
def waitDeadline (c e : Nat) (s : State) : State :=
  match s.waits.find? fun w => w.core = c && w.engine = e && w.frozen.isNone && s.stationUp (syncCore w.object) with
  | none => s
  | some w =>
    let s := { s with now := max s.now w.deadline }
    let cmd := s.waiter w
    let k := s.core c
    let r := errOf e cmd { status := Status.waitTimeout.code, detail := if w.opcode then 1 else 0, addr := w.object } s.now k.laterErrors
    let rec' := ofLE (r.bytes c k.job k.openStep)
    let log := s.timeouts ++ [rec']
    ((({ s with waits := s.waits.erase w, timeouts := log.drop (log.length - 64) }).bump 0x7000 0x02).seqResume c).coreError c r false

/-! ### Steps -/

/-- STEP_BEGIN (R100, R154, R348, R358, R361, R367). -/
def stepBegin (c : Nat) (s : State) : State :=
  s.withSeq c 0x04 fun a s =>
    let k := s.core c
    let n := a.q.cmd.word 2
    let area := s.get (coreObj c + 2) 0x01
    let mirror := s.get (coreObj c + 2) 0x03
    if k.stepOpen ∨ n ≤ k.committed ∨ area = 0 ∨ (s.mirroredCommits k.job && mirror = 0) then s.seqFail c a { status := .stepState }
    else
      (s.updCore c fun k =>
        { k with latch := none, step := n, stepOpen := true, flags := 0, stepArea := area
                 regionMiB := s.get (coreObj c + 2) 0x02, mirrorArea := mirror
                 record := { intervalImages := k.record.intervalImages, beginAt := { k.resumePoint with step := n }, fresh := s.fresh
                             trap := s.get (0x2100 + k.job) 0x01 } }).useKey (some [])
        |>.seqDone c a

/-- Pages a core wrote since its last commit. -/
def Core.dirtyPages (k : Core) : List Nat :=
  let a := k.record.stepImages.map (·.1)
  a ++ (k.record.intervalImages.map (·.1)).filter fun p => !a.contains p

/-- Bring the commit image of a core up to date (R357, R358). -/
def State.commitMirror (s : State) (j c : Nat) (r : ResumePoint) : State :=
  let k := s.core c
  if !s.mirroredCommits j ∨ k.mirrorArea = 0 then s
  else
    let h := s.mirrorHealth c k.mirrorArea
    let s := s.change (coreObj c + 2) 0x06 h
    if h = 3 then s
    else
      let mask := s.saveMask c
      let base := k.mirrorArea
      let s := k.dirtyPages.foldl (fun s p =>
        match (savedGroups mask).find? fun g => spaceOf p = 1 && spCore p = c && g.1 = groupOf p with
        | some g => s.copyPages p (base + g.2 + spOffset p % 2 ^ 23) 4096
        | none => s) s
      let s := (s.saveObjects c base).putPlain base (contextHeader j c mask 1 r s.now ++ toLE 8 0)
      s.putPlain (base + 0xFF8) (toLE 4 (s.imageCrc base mask))

/-- Whether a quiesce request stands for a job: a control operation's or a swap's (R157). -/
def State.quiesceWanted (s : State) (j : Nat) : Bool := (s.job j).quiesce || s.swap.jobs.contains j

/-- The step of a core commits (R155, R157, R357, R367, R372). -/
def State.commitStep (s : State) (c : Nat) : State :=
  let k := s.core c
  let j := k.job
  let r : ResumePoint := { k.resumePoint with committed := k.step }
  let s := s.commitMirror j c r
  let s := s.updCore c fun k =>
    { k with stepOpen := false, committed := k.step, commit := some r, interval := k.interval + 1, record := {}, foreign := false, again := none }
  let s := ((s.bump 0x4400 0x07).put (coreObj c + 2) 0x07 s.now).foldLogs (s.jobCores j) j
  if s.quiesceWanted j then s.setCoreState c 3 else s

/-- Put back the pages an open step wrote, from its images, which are held no more (R353, R355). -/
def State.undoStep (s : State) (c : Nat) : State :=
  let s := (s.core c).record.stepImages.foldl (fun s e => match e.2 with
    | some i => s.restorePage e.1 i
    | none => s) s
  s.updCore c fun k => { k with record := { k.record with stepImages := [] } }

/-- A step that stored poison does not commit (R355). -/
def State.poisonCommit (s : State) (c : Nat) (a : Active) : State :=
  let s := ((s.undoStep c).logPoisonEnding c 0 0).bump 0x4400 0x11
  s.coreError c (errOf 0 a.q.cmd { status := Status.poison.code } s.now (s.core c).laterErrors) true

/-- Why a step is suspect (R346, R396). -/
def StepRecord.suspect (r : StepRecord) : Bool := r.suspectChecksum || r.suspectCorrected || r.suspectAudit || r.suspectMargin

/-- Count in a counter object where a condition holds. -/
def State.bumpIf (s : State) (b : Bool) (idx sub : Nat) : State := if b then s.bump idx sub else s

/-! ### Tiles for replays (R351) -/

/-- Whether a core may be borrowed: blocked in a WAIT, its engines empty, with a context area that can hold its groups (R351; the test of the area is
DEDUCED, log 75). -/
def State.borrowable (s : State) (d : Nat) : Bool :=
  let k := s.core d
  k.state = 2 && (k.working 0 0x01).isSome && ((List.range 5).all fun e => (k.queue (e + 1)).isEmpty && (k.started (e + 1)).isEmpty)
    && s.canSave d && !s.lent d

/-- Whether a tile is free for a run of a suspect step: not the original's nor one that made a run of it, in service, and not in use. -/
def State.freeForRun (s : State) (x : Replay) (g : Nat) : Bool :=
  g ≠ s.tileOf x.core && !s.tileFenced g && s.fieldUp g && !(s.tests.any fun t => t.tile = g) && !(x.runs.any fun r => r.tile = g)
    && !s.replays.any fun y => y.tile = some g

/-- The tile that a run takes now, with the core that it borrows: a pool tile, the nearest whose core is idle, the nearest whose core is borrowable,
cores of the step's own job first (R351). Among pool tiles, which the rule does not order, the nearest (DESIGN CHOICE, log 75). -/
def State.runTile (s : State) (x : Replay) : Option (Nat × Option Nat) :=
  let h := s.tileOf x.core
  let free := (List.range 24).filter (s.freeForRun x)
  let core (p : Nat → Bool) := nearestTile h (free.filter fun g => (s.coreOn g).any p)
  let lend (g : Nat) := (g, s.coreOn g)
  ((nearestTile h (free.filter s.tileInPool)).map fun g => (g, none))
    <|> ((core fun d => (s.core d).state = 0).map fun g => (g, none))
    <|> (core fun d => s.borrowable d && (s.core d).job = (s.core x.core).job).map lend
    <|> (core s.borrowable).map lend

/-- Groups of a core that are on (R205). -/
def State.groupsOn (s : State) (c : Nat) : Nat := ((List.range 8).filter fun g => s.groupState c g = 0).foldl (fun v g => setBit v g true) 0

/-- Start the run of a suspect step on a tile; a core borrowed for it has its groups saved, and its waits stand still (R351). -/
def State.startRun (s : State) (x : Replay) (g : Nat) (lent : Option Nat) : State :=
  let mask := (lent.map s.groupsOn).getD 0
  let y := { x with tile := some g, borrowed := lent, saved := mask }
  let s : State := { s with replays := s.replays.map fun z => if z.core = x.core then y else z }
  match lent with
  | none => s
  | some d =>
    let s := (savedGroups mask).foldl (fun s e => s.copyPages (spAddr d (e.1 * 2 ^ 23)) (s.contextArea d + e.2) (2 ^ 23)) s
    { s with waits := s.waits.map fun w => if w.core = d then w.freeze s.now else w }

/-- Give the suspect steps that wait tiles, in their order, as far as tiles are free (R351). -/
def State.assignRuns (s : State) : State :=
  s.replays.foldl (fun s x =>
    if x.tile.isSome then s
    else match s.runTile x with
    | some (g, d) => s.startRun x g d
    | none => s) s

/-- Give a borrowed core back: its groups are restored, and the time of its waits goes on (R351); a core that has been stopped meanwhile keeps what
it holds (DESIGN CHOICE, log 75). -/
def State.endLoan (s : State) (x : Replay) : State :=
  match x.borrowed with
  | none => s
  | some d =>
    let s := if (s.core d).state ≠ 2 then s
      else (savedGroups x.saved).foldl (fun s e => s.copyPages (s.contextArea d + e.2) (spAddr d (e.1 * 2 ^ 23)) (2 ^ 23)) s
    { s with waits := s.waits.map fun w => if w.core = d then w.thaw s.now else w }

/-- The run of a suspect step no longer has its tile. -/
def State.freeRun (s : State) (x : Replay) : State :=
  { s.endLoan x with replays := s.replays.map fun z => if z.core = x.core then { z with tile := none, borrowed := none, saved := 0 } else z }

/-- A tile is taken from a run: the run is abandoned, and queued again at the head (R351). -/
def State.abandonRun (s : State) (h : Nat) : State :=
  match s.replays.find? fun x => x.tile = some h with
  | none => s
  | some x =>
    let s := s.freeRun x
    { s with replays := (s.replays.filter fun y => y.core = x.core) ++ s.replays.filter fun y => y.core ≠ x.core }

/-- The suspect steps of cores leave the line; each is replayed when it commits again (R369). -/
def State.dropReplays (s : State) (cs : List Nat) : State :=
  let s := (s.replays.filter fun x => cs.contains x.core).foldl
    (fun s x => (s.endLoan x).updCore x.core fun k => { k with again := some k.step }) s
  { s with replays := s.replays.filter fun x => !cs.contains x.core }

/-- Count a suspect step by its causes and put it in line for replay (R351, R360). -/
def State.queueReplay (s : State) (c : Nat) : State :=
  let r := (s.core c).record
  let s := ((s.bumpIf r.suspectChecksum 0x4400 0x08).bumpIf r.suspectCorrected 0x4400 0x09).bumpIf r.suspectAudit 0x4400 0x0A
  let s : State := { s with replays := s.replays ++ [{ core := c }] }
  (s.put 0x4400 0x13 (max (s.get 0x4400 0x13) s.replays.length)).assignRuns

/-- The audit sampler draws a step that is not suspect once (R347; the draw is a free value, log 4). -/
def State.auditStep (s : State) (c : Nat) : State :=
  if (s.core c).record.suspect then s
  else
    let drawn := Config.auditDraw s.fresh % (s.get 0x4400 0x01) = 0
    let s := { s with fresh := s.fresh + 1 }
    if drawn then s.updCore c fun k => { k with record := { k.record with suspectAudit := true } } else s

/-- STEP_COMMIT (R155, R179, R347, R351, R355, R369). -/
def stepCommit (c : Nat) (s : State) : State :=
  s.withSeq c 0x05 fun a s =>
    let k := s.core c
    if s.replays.any (·.core = c) then s
    else if !k.stepOpen ∨ a.q.cmd.word 2 ≠ k.step then s.seqFail c a { status := .stepState }
    else if k.record.poisonStored then s.poisonCommit c a
    else
      let s := s.auditStep c
      if (s.core c).record.suspect || k.again = some k.step then s.queueReplay c
      else (s.commitStep c).seqDone c a

/-! ### The other sequencer opcodes -/

/-- HINT: announce or end a phase of a class (R180, R390). -/
def seqHint (c : Nat) (s : State) : State :=
  s.withSeq c 0x06 fun a s =>
    let w2 := a.q.cmd.word 2
    let w3 := a.q.cmd.word 3
    let start := s.now + bits w3 0 32 * 1000
    let h : Option Hint := if bit w2 2 then none else some ⟨bits w2 8 8, start, start + bits w3 32 32 * 1000⟩
    (s.updCore c fun k => { k with hints := Tab.set none k.hints (bits w2 0 2) h }).seqDone c a

/-- TIMESTAMP: the timebase and the accumulated flags, 16 bytes (R181). -/
def seqTimestamp (c : Nat) (s : State) : State :=
  s.withSeq c 0x07 fun a s =>
    let bs := toLE 8 (s.now % 2 ^ 64) ++ toLE 8 (s.core c).flags
    s.viaHubs c 0 [] [a.q.cmd.word 2] fun s =>
    match s.putBytes c 0 (a.q.cmd.word 2) bs false with
    | (s, none) => s.seqDone c a
    | (s, some err) => s.setStarted c 0 [a.refuse s.now err]

/-- END: a step must not be open; on the lead the work item is complete, and the core idles (R155, R176, R331, R390). -/
def seqEnd (c : Nat) (s : State) : State :=
  s.withSeq c 0x08 fun a s =>
    let k := s.core c
    if k.stepOpen then s.seqFail c a { status := .stepState }
    else
      let s := match k.item with
        | some (st, seq) => s.finishItem st seq 0 0 k.flags
        | none => s
      ((s.updCore c fun k => { k with item := none, prefetch := [], hints := [] }).setCoreState c 0).seqDone c a

/-- DELAY: hold dispatch for a count of tile cycles (R160). -/
def seqDelay (c : Nat) (s : State) : State :=
  s.withSeq c 0x09 fun a s =>
    if a.streamed ≠ 0 then s
    else (s.updCore c fun k => { k with delay := bits (a.q.cmd.word 2) 0 32 }).setStarted c 0 [{ a with streamed := 1 }]

/-- DELAY_EXPIRY: the count has run out (R160). -/
def delayExpiry (c : Nat) (s : State) : State :=
  s.withSeq c 0x09 fun a s =>
    if a.streamed = 0 then s
    else
      let d := (s.core c).delay
      ((s.updCore c fun k => { k with delay := 0 }).count (coreObj c) 0x0D 64 d).seqDone c a

/-- Set a loop slot. -/
def Core.setLoop (k : Core) (l : Nat) (v : LoopSlot) : Core :=
  { k with loops := (List.range 4).map fun i => if i + 1 = l then v else k.loops.getD i {} }

/-- Jump back: what was prefetched is fetched again (R158). -/
def Core.jump (k : Core) (pc : Nat) : Core := { k with pc := pc, prefetch := [] }

/-- LOOP (R158); a slot of greater level that is held is met first, whatever the LOOP's own slot and count (DEDUCED, log 105). -/
def seqLoop (c : Nat) (s : State) : State :=
  s.withSeq c 0x0A fun a s =>
    let k := s.core c
    let cmd := a.q.cmd
    let w := cmd.word 2
    let l := bits w 0 3
    let count := bits w 32 32
    let back := cmd.pc - 64 * bits w 8 13
    let below := decide (cmd.pc < k.runStart + 64 * bits w 8 13)
    let slot := k.loops.getD (l - 1) {}
    let inner := (k.loops.drop l).any fun x => x.count ≠ 0
    let nest : CheckErr := { status := .loopNest }
    if inner then s.seqFail c a nest
    else if slot.count = 0 then
      if count = 1 then s.seqDone c a
      else if below then s.seqFail c a nest
      else (s.updCore c fun k => (k.setLoop l ⟨cmd.pc, count, 1⟩).jump back).seqDone c a
    else if slot.pc ≠ cmd.pc then s.seqFail c a nest
    else if slot.i + 1 = slot.count then (s.updCore c fun k => k.setLoop l {}).seqDone c a
    else if below then s.seqFail c a nest
    else (s.updCore c fun k => (k.setLoop l { slot with i := slot.i + 1 }).jump back).seqDone c a

/-- NOP and FENCE do nothing but complete; FENCE's test is made at its start (R147, R176). -/
def seqNop (c op : Nat) (s : State) : State := s.withSeq c op fun a s => s.seqDone c a

def execNop (c : CoreId) (s : State) : Host.Outcome State Fault Refusal := .next (seqNop c 0x00 s)
def execWait (c : CoreId) (s : State) : Host.Outcome State Fault Refusal := .next (seqWait c s)
def execFence (c : CoreId) (s : State) : Host.Outcome State Fault Refusal := .next (seqNop c 0x03 s)
def execStepBegin (c : CoreId) (s : State) : Host.Outcome State Fault Refusal := .next (stepBegin c s)
def execStepCommit (c : CoreId) (s : State) : Host.Outcome State Fault Refusal := .next (stepCommit c s)
def execHint (c : CoreId) (s : State) : Host.Outcome State Fault Refusal := .next (seqHint c s)
def execTimestamp (c : CoreId) (s : State) : Host.Outcome State Fault Refusal := .next (seqTimestamp c s)
def execEndRun (c : CoreId) (s : State) : Host.Outcome State Fault Refusal := .next (seqEnd c s)
def execDelay (c : CoreId) (s : State) : Host.Outcome State Fault Refusal := .next (seqDelay c s)
def execLoop (c : CoreId) (s : State) : Host.Outcome State Fault Refusal := .next (seqLoop c s)
def execDelayExpiry (c : CoreId) (s : State) : Host.Outcome State Fault Refusal := .next (delayExpiry c s)
def execWaitDeadline (c : CoreId) (e : EngineId) (s : State) : Host.Outcome State Fault Refusal := .next (waitDeadline c e s)
def execWakeNotice (c : CoreId) (e : EngineId) (s : State) : Host.Outcome State Fault Refusal := .next (wakeNotice c e s)

end Sys2Proof.Machine
end

