-- ==== Sys2Proof/Machine/Transfer.lean ====
section
/-! DEFINITION. The transfer opcodes SEND, MCAST, REDUCE, RWRITE and RREAD (R195 to R197, R264 to R270), SIGNAL (R178), and the deadlines
of group operations. -/

namespace Sys2Proof.Machine

open Sys2Proof

/-- The first started command of an engine that has an opcode and has not yet begun its messages, with its position. -/
def Core.unsent (k : Core) (e op : Nat) : Option (Nat × Active) :=
  let l := k.started e
  ((List.range l.length).zip l).find? fun x => x.2.q.cmd.opcode = op && !x.2.done && x.2.streamed = 0

/-! ### Messages formed -/

/-- Keep the CRC-32C of a message that a transfer command of a core formed (R353). -/
def State.noteMessage (s : State) (c : Nat) (q : Queued) (bs : Bytes) (limit : Nat := 0) : State :=
  let m : Formed := { order := q.before.foldl (· + ·) 0, cmd := q.cmd, loops := q.loops, crc := crc32c bs, limit := limit }
  s.updCore c fun k => { k with record := { k.record with messages := k.record.messages ++ [m] } }

/-- Another core's scratchpad has been written for this one (R372). -/
def State.markForeign (s : State) (c a : Nat) : State :=
  if spaceOf a = 1 && spCore a ≠ c then s.updCore (spCore a) fun k => { k with foreign := true } else s

/-- The byte ranges of a tensor's dense image, in its order: runs, then block scales (R197). -/
def Tensor.imageRanges (t : Tensor) : List (Nat × Nat) :=
  (t.runs.map fun i => (t.runAddr i, t.runBytes)) ++ (if t.format.isMx then t.runs.map fun i => (t.scaleAddr i, t.blocks) else [])

/-- A tensor's dense image. -/
def State.imageOf (s : State) (t : Tensor) : Bytes := t.imageRanges.flatMap fun r => s.readBytes r.1 r.2

/-- SEND (R195). -/
def executeSend (c : Nat) (ups : List Upset) (s : State) : State :=
  match (s.core c).working 5 0x50 with
  | none => s
  | some (i, a) =>
    match a.tensor (a.q.cmd.desc 0), a.tensor (a.q.cmd.desc 12) with
    | some src, some dst =>
      s.viaHubs c 5 [src.base] [dst.base] fun s =>
        let s := s.takeUpsets c src.spans ups
        let r := ((s.noteMessage c a.q (s.imageOf src)).markForeign c dst.base).moveTensor c 5 a.q src dst
        endMove c 5 i a (r.1.writeUpsets dst.spans ups, r.2.1) { poison := r.2.2 }
    | _, _ => s

/-! ### Groups -/

/-- Members of a group, a core of it last (R264). -/
def groupMembers (m last : Nat) : List Nat :=
  (setPositions 22 m).filter (· ≠ last) ++ (if bit m last then [last] else [])

/-- Parent of a member in the operation's tree (R264). -/
def GroupOp.parent (o : GroupOp) (c : Nat) : Nat := bits o.parents (5 * c) 5

/-- Children of a member, ascending. -/
def GroupOp.children (o : GroupOp) (n : Nat) : List Nat :=
  (setPositions 22 o.members).filter fun c => c ≠ o.root && o.parent c = n

/-- Members of the subtree of a node, with depth as fuel. -/
def GroupOp.subtree (o : GroupOp) : Nat → Nat → List Nat
  | 0, n => [n]
  | f + 1, n => n :: (o.children n).flatMap (o.subtree f)

/-- A member and those above it up to the root, with depth as fuel. -/
def GroupOp.wayUp (o : GroupOp) : Nat → Nat → List Nat
  | 0, n => [n]
  | f + 1, n => if n = o.root then [n] else n :: o.wayUp f (o.parent n)

/-- Whether the hub of a member serves and packets pass between it and its parent's (R263, R266, R270). -/
def State.nodeServes (s : State) (o : GroupOp) (down : Bool) (n : Nat) : Bool :=
  let h := s.tileOf n
  let p := s.tileOf (o.parent n)
  s.hub h = 0 && (n = o.root || (if down then s.pathOpen p h else s.pathOpen h p))

/-- An operation of a group that is in its contexts. -/
def State.opOf (s : State) (mcast : Bool) (g n : Nat) : Option GroupOp :=
  s.ops.find? fun o => o.mcast = mcast && o.group = g && o.number = n

/-- Replace an operation. -/
def State.putOp (s : State) (o : GroupOp) : State :=
  { s with ops := s.ops.map fun p => if p.mcast = o.mcast && p.group = o.group && p.number = o.number then o else p }

/-- Remove an operation. -/
def State.dropOp (s : State) (o : GroupOp) : State :=
  { s with ops := s.ops.filter fun p => p.mcast ≠ o.mcast || p.group ≠ o.group || p.number ≠ o.number }

/-- The started MCAST or REDUCE of a core in an operation of a group. -/
def State.groupOn (s : State) (op c g n : Nat) : Option (Nat × Active) :=
  let l := (s.core c).started 5
  ((List.range l.length).zip l).find? fun x =>
    x.2.q.cmd.opcode = op && x.2.q.cmd.group = g && !x.2.done && x.2.operation = some n

/-! ### Multicast -/

/-- What an MCAST sends: pieces of granules of the destination with their poison, at the addresses of the command's own destination; free bytes
stand for a source that overlaps the root's copy (R32). -/
def State.mcastData (s : State) (free : Option (List Nat)) (src dst : Tensor) : List (Nat × Bytes × Bool) :=
  src.runs.flatMap fun i => ((src.runSpans i).zip (dst.runSpans i)).flatMap fun x =>
    (pieces 64 x.2.1 (s.readBytes x.1.1 x.1.2)).map fun p =>
      (p.1, openBytes free p.1 p.2, s.anyPoison (x.1.1 + (p.1 - x.2.1)) p.2.length)

/-- Write one member: every flit is stored at its own core's offset; a refusal is kept for the source, and the others are written (R266). -/
def State.writeMember (s : State) (o : GroupOp) (m : Nat) : State :=
  let r := eachUntil (fun s (x : Nat × Bytes × Bool) => s.putPiece o.root 5 (setBits x.1 26 5 m) x.2.1 x.2.2) o.data
    ((s.markForeign o.root (spAddr m 0)).escapeSent (s.tileOf (o.parent m)) (s.tileOf m))
  let o := { o with toWrite := o.toWrite.filter (· ≠ m) }
  r.1.putOp (match r.2 with
    | some e => if o.refusal = 0 then { o with refusal := e.status.code, detail := e.detail, address := e.addr } else o
    | none => o)

/-- Whether the data of an operation comes to a member: every node of its way serves, and the operation before has left its context (R266). -/
def State.mcastComes (s : State) (o : GroupOp) (m : Nat) : Bool :=
  (o.wayUp 22 m).all (s.nodeServes o true)
    && !s.ops.any fun p => p.mcast && p.group = o.group && decide (p.number < o.number) && p.toWrite.contains m

/-- An MCAST that every member has acknowledged ends at its source (R266). -/
def State.endMcast (s : State) (o : GroupOp) : State :=
  match s.groupOn 0x51 o.root o.group o.number with
  | none => s.dropOp o
  | some (i, a) =>
    let f : ArithFlags := { poison := o.data.any (·.2.2) }
    (s.dropOp o).putActive o.root 5 i (if o.refusal = 0 then a.finish s.now f
      else { a with done := true, status := o.refusal, detail := o.detail, addr := o.address, flags := f.byte, start := s.now })

/-- Carry an MCAST to every member that it can reach, the root last. -/
def State.advanceMcast (s : State) (g n : Nat) : State :=
  match s.opOf true g n with
  | none => s
  | some o =>
    let s := (o.toWrite.filter (s.mcastComes o)).foldl (fun s m => match s.opOf true g n with
      | some o => s.writeMember o m
      | none => s) s
    match s.opOf true g n with
    | some o => if o.toWrite.isEmpty then s.endMcast o else s
    | none => s

/-- MCAST: the source is read at the root and sent down the tree; a member whose hub does not serve, and those below it, wait (R195, R266). -/
def executeMcast (c : Nat) (ups : List Upset) (s : State) : State :=
  match (s.core c).unsent 5 0x51 with
  | none => s
  | some (i, a) =>
    let cmd := a.q.cmd
    match a.tensor (cmd.desc 0), a.tensor (cmd.desc 12), s.group true cmd.group with
    | some src, some dst, some (ms, root, _, par) =>
      s.viaHubs c 5 [src.base] [] fun s =>
        match s.tensorErr c src with
        | some err => s.refuseRead c 5 i a err
        | none =>
          let s := s.readRanges c src.spans ups
          let k := s.core c
          let g := cmd.group
          let n := Tab.get 0 k.groupOps g
          let free := s.openKey c a.q (src.overlaps (dst.onCore c))
          let o : GroupOp := { mcast := true, group := g, number := n, job := k.job, root := root, members := ms, parents := par, op := 0
                               contributions := [], data := s.mcastData free src dst, toWrite := groupMembers ms c, refusal := 0, detail := 0
                               address := 0 }
          let s := (s.noteMessage c a.q (s.imageOf src)).updCore c fun k => { k with groupOps := Tab.upd 0 k.groupOps g (· + 1) }
          let s := { s.useKey free with ops := s.ops ++ [o] }
          (s.putActive c 5 i { a with streamed := 1, operation := some n }).advanceMcast g n
    | _, _, _ => s

/-- MCAST_TIMEOUT: the job's default wait timeout has passed; members written keep the data, and the operation leaves its contexts (R195). -/
def mcastTimeout (c : Nat) (s : State) : State :=
  match (s.core c).working 5 0x51 with
  | none => s
  | some (i, a) =>
    let s : State := { s with now := max s.now (a.deadline.getD s.now)
                              ops := s.ops.filter fun o => !o.mcast || o.group ≠ a.q.cmd.group || some o.number ≠ a.operation }
    s.putActive c 5 i (a.fail s.now { status := .waitTimeout, detail := 2 })

/-! ### Reduction -/

/-- Key under which a core counts the operations it has issued on a reduction group; multicast groups count below (R367). -/
def reduceKey (g : Nat) : Nat := 256 + g

/-- Flits of a contribution of n bytes: packets of up to 63 granules in 4 flits (R252). -/
def flitsOf (n : Nat) : Nat := n / 4032 * 4 + (if n % 4032 = 0 then 0 else ceilDiv (64 + n % 4032) 1024)

/-- Contribution of a member to an operation. -/
def GroupOp.of (o : GroupOp) (c : Nat) : Option Contribution := o.contributions.find? (·.core = c)

/-- Whether every member of a node's subtree has contributed. -/
def GroupOp.whole (o : GroupOp) (n : Nat) : Bool := (o.subtree 22 n).all fun c => (o.of c).isSome

/-- Combine two partials of an element (R267), with flags (R269). -/
def reduceStep (op : Nat) (wide : Bool) (x y : Nat) : Nat × ArithFlags :=
  if wide then
    let a := toSigned 64 x
    let b := toSigned 64 y
    match op with
    | 1 => let r := satInt64 (a + b); (ofSigned 64 r.1, r.2)
    | 2 => (ofSigned 64 (max a b), {})
    | _ => (ofSigned 64 (min a b), {})
  else
    let a := f32 x
    let b := f32 y
    match op with
    | 0 => let r := (rn32 (a.add b)).bits; (r, stageFlags [a, b] (f32 r))
    | 2 => ((rn32 (a.maximum b)).bits, {})
    | _ => ((rn32 (a.minimum b)).bits, {})

/-- Combine two lists of partials, element by element, with poison (R267, R269). -/
def reduceLists (op : Nat) (wide : Bool) (xs ys : List (Nat × Bool)) (fl : ArithFlags) : List (Nat × Bool) × ArithFlags :=
  let zs := (xs.zip ys).map fun p => (reduceStep op wide p.1.1 p.2.1, p.1.2 || p.2.2)
  (zs.map fun z => (z.1.1, z.2), zs.foldl (fun f z => f.or z.1.2) fl)

/-- node_value of R267 over all elements, with depth as fuel. -/
def GroupOp.nodeValue (o : GroupOp) (wide : Bool) : Nat → Nat → List (Nat × Bool) × ArithFlags
  | 0, _ => ([], {})
  | f + 1, n =>
    let own := ((o.of n).map fun x => x.values.zip x.poison).getD []
    (o.children n).foldl (fun (st : List (Nat × Bool) × ArithFlags) c =>
      let v := o.nodeValue wide f c
      reduceLists o.op wide st.1 v.1 (st.2.or v.2)) (own, {})

/-- Whether a contribution and another agree in element count and source format (R196). -/
def Contribution.agrees (x y : Contribution) : Bool := x.values.length = y.values.length && x.format = y.format

/-- Whether some node has met an input of one of its children that disagrees with its own (R196). -/
def GroupOp.mismatch (o : GroupOp) : Bool :=
  o.contributions.any fun x => x.core ≠ o.root && (o.of (o.parent x.core)).any fun y => !x.agrees y

/-- Whether the operation before has left a node's context (R268): it is over, or the node's own partial of it has been taken. -/
def State.contextFree (s : State) (g n node : Nat) : Bool :=
  n = 0 || (match s.opOf false g (n - 1) with
    | none => true
    | some o => node ≠ o.root && (o.of node).any (·.taken))

/-- Flits of an operation that a node may have combined, with depth as fuel: its own contribution and every earlier child's are there, and it has
sent all but the 12 flits that its slot in its parent's context holds (R196, R268; DEDUCED, log 83). -/
def State.combined (s : State) (o : GroupOp) (flits : Nat) : Nat → Nat → Nat → Nat
  | 0, _, _ => 0
  | f + 1, n, before =>
    if (o.of n).isNone || !((o.children n).filter (· < before)).all o.whole || !s.contextFree o.group o.number n then 0
    else if n = o.root then flits
    else min flits (12 + s.combined o flits f (o.parent n) n)

/-- Whether a member's parent has taken its last flit: its subtree is whole, the context serves this operation, and a contribution longer
than 12 flits has been combined so far with the inputs before it (R196, R268). -/
def State.partialTaken (s : State) (o : GroupOp) (m : Nat) : Bool :=
  let p := o.parent m
  let bytes := ((o.of m).map fun x => x.values.length * (if x.format = Format.int64.bits then 8 else 4)).getD 0
  o.whole m && (o.subtree 22 m).all (s.nodeServes o false) && s.hub (s.tileOf p) = 0 && s.contextFree o.group o.number p
    && decide (flitsOf bytes ≤ 12 + s.combined o (flitsOf bytes) 22 p m)

/-- A contribution that cannot pass to its parent is a request without a response, which is sent again (R259, R270). -/
def State.awaitParent (s : State) (o : GroupOp) (m : Nat) : State :=
  let h := s.tileOf (o.parent m)
  if o.whole m && !s.pathOpen (s.tileOf m) h && (s.txnOf m 5).isNone then
    s.addTxn { core := m, engine := 5, hub := h, address := spAddr (o.parent m) 0 }
  else s

/-- A member's REDUCE has been taken by its parent: it completes (R196). -/
def State.takePartial (s : State) (g n m : Nat) : State :=
  match s.opOf false g n with
  | none => s
  | some o =>
    if m = o.root || !((o.of m).any fun x => !x.taken) then s
    else if !s.partialTaken o m then s.awaitParent o m
    else
      let s := s.putOp { o with contributions := o.contributions.map fun x => if x.core = m then { x with taken := true } else x }
      let s := s.escapeSent (s.tileOf m) (s.tileOf (o.parent m))
      let s := if (s.txnOf m 5).any fun x => x.2.address = spAddr (o.parent m) 0 then s.closeTxn m 5 else s
      match s.groupOn 0x52 m g n with
      | some (i, a) => s.putActive m 5 i (a.finish s.now {})
      | none => s

/-- The result of a whole operation, written at the root (R267, R269). -/
def State.writeResult (s : State) (o : GroupOp) (i : Nat) (a : Active) : State :=
  match a.tensor (a.q.cmd.desc 12) with
  | none => s
  | some dst =>
    let wide := dst.format = .int64
    let v := o.nodeValue wide 23 o.root
    let n := dst.dim 0
    let num (x : Nat) : Num := if wide then Num.ofInt (toSigned 64 x) else f32 x
    let r := dst.runs.foldl (fun (st : State × Option AccErr × ArithFlags) k =>
      match st.2.1 with
      | some _ => st
      | none =>
        let w := st.1.putRun o.root 5 dst .rne false k (((v.1.drop (dst.position k)).take n).map fun x => (num x.1, x.2))
        (w.1, w.2.1, st.2.2.or w.2.2)) (s.markForeign o.root dst.base, none, v.2)
    let fl : ArithFlags := { r.2.2 with poison := v.1.any (·.2) }
    (endMove o.root 5 i a (r.1, r.2.1) fl).updCore o.root fun k =>
      { k with record := { k.record with resultFlags := ((ArithFlags.ofByte k.record.resultFlags).or fl).byte } }

/-- A mismatch ends the root's REDUCE and every member's that is not complete; nothing is written (R196). -/
def State.endMismatch (s : State) (o : GroupOp) : State :=
  (setPositions 22 o.members).foldl (fun s c =>
    match s.groupOn 0x52 c o.group o.number with
    | some (i, a) =>
      if (o.of c).isSome then s.putActive c 5 i (a.fail s.now { status := .groupMismatch, detail := o.group }) else s
    | none => s) (s.dropOp o)

/-- Carry an operation as far as its inputs allow: combine upward, and finish at the root (R196, R267, R268). -/
def State.advanceOp (s : State) (g n : Nat) : State :=
  match s.opOf false g n with
  | none => s
  | some o =>
    if o.mismatch then s.endMismatch o
    else
      let s := (setPositions 22 o.members).foldl (fun s m => s.takePartial g n m) s
      if o.whole o.root && (setPositions 22 o.members).all (s.nodeServes o false) && s.contextFree g n o.root then
        match s.groupOn 0x52 o.root g n with
        | some (i, a) =>
          s.viaHubs o.root 5 [] ((a.tensor (a.q.cmd.desc 12)).toList.map (·.base)) fun s => (s.writeResult o i a).dropOp o
        | none => s
      else s

/-- The operation a member contributes to next, made if it is not yet in the contexts (R196, R264). -/
def State.openOp (s : State) (j g n op : Nat) : State :=
  if (s.opOf false g n).isSome then s
  else match s.group false g with
  | none => s
  | some (m, root, _, par) =>
    let o : GroupOp := { mcast := false, group := g, number := n, job := j, root := root, members := m, parents := par, op := op
                         contributions := [], data := [], toWrite := [], refusal := 0, detail := 0, address := 0 }
    { s with ops := s.ops ++ [o] }

/-- REDUCE: contribute once; the operation advances as far as it can, and the operations after it (R196, R267, R268). -/
def executeReduce (c : Nat) (ups : List Upset) (s : State) : State :=
  match (s.core c).unsent 5 0x52 with
  | none => s
  | some (i, a) =>
    let cmd := a.q.cmd
    let g := cmd.group
    match a.tensor (cmd.desc 0) with
    | none => s
    | some src =>
      s.viaHubs c 5 [src.base] [] fun s =>
      match s.tensorErr c src with
      | some err => s.refuseRead c 5 i a err
      | none =>
      let s := s.readRanges c src.spans ups
      let k := s.core c
      let n := Tab.get 0 k.groupOps (reduceKey g)
      let idx := src.runs.flatMap fun r => (List.range (src.dim 0)).map fun e => { r with i0 := e }
      let wide := src.format = .int64
      let x : Contribution :=
        { core := c, format := src.format.bits, taken := false, poison := idx.map (s.elemPoison src)
          values := idx.map fun e => if wide then (s.readElem src e).bits else (rn32 (s.readNum src e)).bits }
      let s := (s.noteMessage c a.q (s.imageOf src)).updCore c fun k => { k with groupOps := Tab.upd 0 k.groupOps (reduceKey g) (· + 1) }
      let s := (s.putActive c 5 i { a with streamed := 1, operation := some n }).openOp k.job g n (bits (cmd.word 2) 32 4)
      match s.opOf false g n with
      | none => s
      | some o =>
        let o := { o with contributions := o.contributions ++ [x], op := if o.root = c then bits (cmd.word 2) 32 4 else o.op }
        (List.range 23).foldl (fun s d => s.advanceOp g (n + d)) (s.putOp o)

/-- REDUCE_DEADLINE: a REDUCE has not completed by its deadline; the operation is cleared and nothing is written (R196). -/
def reduceDeadline (c : Nat) (s : State) : State :=
  match (s.core c).working 5 0x52 with
  | none => s
  | some (i, a) =>
    let s : State := { s with now := max s.now (a.deadline.getD s.now)
                              ops := s.ops.filter fun o => o.mcast || o.group ≠ a.q.cmd.group || some o.number ≠ a.operation }
    s.putActive c 5 i (a.fail s.now { status := .waitTimeout, detail := 2 })

/-- Carry every operation in the hubs' contexts as far as it goes (R266 to R268). -/
def State.advanceGroups (s : State) : State :=
  s.ops.foldl (fun s o => if o.mcast then s.advanceMcast o.group o.number else s.advanceOp o.group o.number) s

/-! ### Remote transfers -/

/-- What a window access of a job's command carries (R217). -/
def State.accessOf (s : State) (j remote len op : Nat) : WinAccess :=
  { source := s.moduleNo, tag := s.jobGet j 0x04, gen := s.jobGet j 0x05, window := winNumber remote, offset := winOffset remote
    length := len, op := op }

/-- The largest boundary at which a connection of a payload limit lets an image be cut: 8,192 bytes, or fewer in whole granules (R311). -/
def cutSize (limit : Nat) : Nat := if 8192 ≤ limit - 16 then 8192 else max 64 ((limit - 16) / 64 * 64)

/-- The runs of bytes without poison of one piece, from an image offset; fuel is the count of bytes. -/
def cleanRuns : List (Byte × Bool) → Nat → List (Nat × Bytes) → List (Nat × Bytes)
  | [], _, acc => acc
  | (_, true) :: r, o, acc => cleanRuns r (o + 1) acc
  | (b, false) :: r, o, acc =>
    cleanRuns r (o + 1) (match acc.getLast? with
      | some (p, bs) => if p + bs.length = o then acc.dropLast ++ [(p, bs ++ [b])] else acc ++ [(o, [b])]
      | none => [(o, [b])])

/-- The messages of an RWRITE: image offset and bytes, cut at the boundaries of REMOTE's offset, poisoned granules withheld (R168, R311). -/
def State.writeParts (s : State) (t : Tensor) (remote cut : Nat) : List (Nat × Bytes) :=
  let img := t.imageRanges.flatMap fun r => (List.range r.2).map fun i => (s.readByte (r.1 + i), s.poisonAt (r.1 + i))
  let off := winOffset remote
  (List.range (ceilDiv (off % cut + img.length) cut)).flatMap fun p =>
    let lo := p * cut - off % cut
    let hi := (p + 1) * cut - off % cut
    cleanRuns ((img.drop lo).take (hi - lo)) lo []

/-- The first poisoned granule of a tensor's image. -/
def State.firstPoison (s : State) (t : Tensor) : Option Nat :=
  t.imageRanges.findSome? fun r => (granules r.1 r.2).find? s.poisonAt

/-- A refusal ends a command with its reason and the address of the first refused byte (R220). -/
def refusedError (remote reason off : Nat) : CheckErr :=
  { status := .windowRefused, detail := reason, addr := winAddr (winModule remote) (winNumber remote) off }

/-- How a window result ends a command: nothing for OK (R220, R222). -/
def winError (remote : Nat) : WinResult → Option CheckErr
  | .ok _ => none
  | .refused r off => some (refusedError remote r off)

/-- RWRITE in the module's own windows: each message in turn, up to a refusal (R26, R197). -/
def State.writeOwn (s : State) (j remote op : Nat) (reader : Option Nat) (ups : List Upset) : List (Nat × Bytes) → State × Option CheckErr
  | [] => (s, none)
  | (o, bs) :: r =>
    let w := s.windowAccess (s.accessOf j (remote + o) bs.length op) bs reader ups
    match winError (remote + o) w.2 with
    | some e => (w.1, some e)
    | none => State.writeOwn w.1 j remote op reader ups r

/-- Queue window messages on a connection; each awaited by image offset and length. -/
def State.queueAll (s : State) (n type tag gen : Nat) (ms : List (Nat × Nat × Bytes)) : State × List Pending :=
  ms.foldl (fun (st : State × List Pending) m =>
    let q := st.1.queueMessage n type tag gen m.2.2
    (q.1, st.2 ++ [{ offset := m.1, length := m.2.1, conn := n, psn := q.2 }])) (s, [])

/-- Where an access to a window of the module's own lies, if that is in memory. -/
def State.ownTarget (s : State) (own : Bool) (remote : Nat) : List Nat :=
  let a := winTarget (s.window (winNumber remote)) (winOffset remote)
  if own && decide (spaceOf a < 2) then [a] else []

/-- RWRITE (R168, R197, R311, R356). -/
def executeRwrite (c : Nat) (ups : List Upset) (s : State) : State :=
  match (s.core c).unsent 5 0x53 with
  | none => s
  | some (i, a) =>
    let cmd := a.q.cmd
    let remote := cmd.word 3
    match a.tensor (cmd.desc 0) with
    | none => s
    | some t =>
      let j := (s.core c).job
      let mode := bits (cmd.word 4) 0 2
      let own := winModule remote = s.moduleNo
      s.viaHubs c 5 [t.base] (s.ownTarget own remote) fun s =>
      match s.rangesErr c t.imageRanges with
      | some err => s.refuseRead c 5 i a err
      | none =>
        let s := s.readRanges c t.imageRanges ups
        let link := if own then (s, none) else s.connTo (winModule remote)
        let s := link.1
        let limit := (link.2.bind s.conn).map (·.limit) |>.getD 8208
        let bad := s.firstPoison t
        let a := { a with streamed := 1, flags := if bad.isSome then 16 else 0
                          status := if bad.isSome then Status.poison.code else 0, addr := bad.getD 0 }
        let parts := s.writeParts t remote (cutSize limit)
        let s := parts.foldl (fun s p => s.noteMessage c a.q (winPrefix (remote + p.1) 0 0 0 0 ++ p.2) limit) s
        if own then
          match s.writeOwn j remote (1 + mode) (some c) ups parts with
          | (s, some e) => s.putActive c 5 i (if a.status ≠ 0 then { a with done := true, start := s.now } else a.fail s.now e)
          | (s, none) => s.putActive c 5 i (a.settle s.now)
        else match link.2 with
        | none => s.putActive c 5 i ({ a with status := 0 }.fail s.now { status := .remoteUnreachable, addr := remote })
        | some n =>
          let q := s.queueAll n (0x20 + mode) (s.jobGet j 0x04) (s.jobGet j 0x05)
            (parts.map fun p => (p.1, p.2.length, winPrefix (remote + p.1) 0 0 0 0 ++ p.2))
          q.1.putActive c 5 i ({ a with messages := q.2 }.settle s.now)

/-- Write part of a tensor's dense image, from an image offset on (R197). -/
def State.scatter (s : State) (c : Nat) (t : Tensor) (off : Nat) (data : Bytes) : State × Option AccErr :=
  let r := t.imageRanges.foldl (fun (st : (State × Option AccErr) × Nat) x =>
    match st.1.2 with
    | some _ => st
    | none =>
      let lo := max off st.2
      let hi := min (off + data.length) (st.2 + x.2)
      if hi ≤ lo then (st.1, st.2 + x.2)
      else (st.1.1.putBytes c 5 (x.1 + (lo - st.2)) ((data.drop (lo - off)).take (hi - lo)) false, st.2 + x.2)) ((s, none), 0)
  r.1

/-- RREAD in the module's own windows (R26, R197). -/
def State.readOwn (s : State) (c j : Nat) (t : Tensor) (remote : Nat) (ups : List Upset) : List (Nat × Nat) → State × Option CheckErr
  | [] => (s, none)
  | (o, n) :: r =>
    let w := s.windowAccess (s.accessOf j (remote + o) n 0) [] (some c) ups
    match w.2 with
    | .ok bs =>
      match w.1.scatter c t o bs with
      | (s, some e) => (s, some { status := e.status, detail := e.detail, addr := e.addr })
      | (s, none) => State.readOwn s c j t remote ups r
    | x => (w.1, winError (remote + o) x)

/-- Pieces of an image of n bytes: offset and length (R311). -/
def readParts (n remote cut : Nat) : List (Nat × Nat) :=
  let off := winOffset remote
  (List.range (ceilDiv (off % cut + n) cut)).map fun p =>
    let lo := p * cut - off % cut
    (lo, min ((p + 1) * cut - off % cut) n - lo)

/-- RREAD (R197, R311). -/
def executeRread (c : Nat) (ups : List Upset) (s : State) : State :=
  match (s.core c).unsent 5 0x54 with
  | none => s
  | some (i, a) =>
    let cmd := a.q.cmd
    let remote := cmd.word 3
    match a.tensor (cmd.desc 12) with
    | none => s
    | some t =>
      let j := (s.core c).job
      let own := winModule remote = s.moduleNo
      s.viaHubs c 5 (s.ownTarget own remote) [t.base] fun s =>
      let link := if own then (s, none) else s.connTo (winModule remote)
      let s := link.1
      let limit := (link.2.bind s.conn).map (·.limit) |>.getD 8208
      let parts := readParts t.imageLen remote (cutSize limit)
      let s := parts.foldl (fun s p => s.noteMessage c a.q (winPrefix (remote + p.1) p.2 0 0 0) limit) s
      let a := { a with streamed := 1 }
      if own then
        match s.readOwn c j t remote ups parts with
        | (s, some e) => s.putActive c 5 i (a.fail s.now e)
        | (s, none) => s.putActive c 5 i (a.finish s.now {})
      else match link.2 with
      | none => s.putActive c 5 i (a.fail s.now { status := .remoteUnreachable, addr := remote })
      | some n =>
        let q := s.queueAll n 0x23 (s.jobGet j 0x04) (s.jobGet j 0x05) (parts.map fun p => (p.1, p.2, winPrefix (remote + p.1) p.2 0 0 0))
        q.1.putActive c 5 i { a with messages := q.2 }

/-! ### SIGNAL -/

/-- SIGNAL: to an object of the module, or through a window of this module or another (R178, R281, R282, R288). -/
def seqSignal (c : Nat) (s : State) : State :=
  s.withSeq c 0x02 fun a s =>
    if a.streamed ≠ 0 then s
    else
      let cmd := a.q.cmd
      let w3 := cmd.word 3
      let k := s.core c
      let obj := cmd.word 2
      let kind := bits w3 32 2
      let value := if kind = 1 then 1 else bits w3 0 32
      let gen := if kind ≠ 1 then none else some (if bit w3 50 then bits w3 34 16 else k.expectedGen)
      let going := s.setStarted c 0 [{ a with streamed := 1 }]
      if spaceOf obj = 2 then going.sendSignal c (syncCore obj) (syncIndex obj) kind value gen (.opcode c) (some (s.tagOf c)) none
      else if winModule obj = s.moduleNo then
        let x := s.accessOf k.job obj 8 4
        match going.windowSignal x with
        | (s, .inr (r, off)) => s.seqFail c a (refusedError obj r off)
        | (s, .inl o) => s.sendSignal c (syncCore o) (syncIndex o) kind value gen (.opcode c) none (some x)
      else match s.connTo (winModule obj) with
      | (s, none) => s.seqFail c a { status := .remoteUnreachable, addr := obj }
      | (s, some n) =>
        let q := s.queueMessage n 0x25 (s.jobGet k.job 0x04) (s.jobGet k.job 0x05)
          (winPrefix obj (if kind = 1 then 0 else value) kind (if kind = 1 then 1 else 0) (gen.getD 0))
        q.1.setStarted c 0 [{ a with streamed := 1, messages := [{ offset := 0, length := 8, conn := n, psn := q.2 }] }]

def execSignal (c : CoreId) (s : State) : Host.Outcome State Fault Refusal := .next (seqSignal c s)
def execSend (c : CoreId) (ups : List Upset) (s : State) : Host.Outcome State Fault Refusal := .next (executeSend c ups s)
def execMcast (c : CoreId) (ups : List Upset) (s : State) : Host.Outcome State Fault Refusal := .next (executeMcast c ups s)
def execReduce (c : CoreId) (ups : List Upset) (s : State) : Host.Outcome State Fault Refusal := .next (executeReduce c ups s)
def execRwrite (c : CoreId) (ups : List Upset) (s : State) : Host.Outcome State Fault Refusal := .next (executeRwrite c ups s)
def execRread (c : CoreId) (ups : List Upset) (s : State) : Host.Outcome State Fault Refusal := .next (executeRread c ups s)
def execMcastTimeout (c : CoreId) (s : State) : Host.Outcome State Fault Refusal := .next (mcastTimeout c s)
def execReduceDeadline (c : CoreId) (s : State) : Host.Outcome State Fault Refusal := .next (reduceDeadline c s)

end Sys2Proof.Machine
end

