-- ==== Sys2Proof/Machine/Intake.lean ====
section
/-! DEFINITION. The work intake (R322 to R333, R338, R339): acceptance, the journal, dispatch, delivery of completions, the copy of a
lost journal partition, and the rebuild after a parity error. -/

namespace Sys2Proof.Machine

open Sys2Proof

/-! ### Streams and pairs -/

/-- Entry of a stream (R341). -/
def State.streamEntry (s : State) (st : Nat) : Nat := s.get (0x2500 + st / 128) (1 + st % 128)
/-- A stream. -/
def State.stream (s : State) (st : Nat) : Stream := Tab.get {} s.streams st
/-- Change a stream. -/
def State.updStream (s : State) (st : Nat) (f : Stream → Stream) : State := { s with streams := Tab.upd {} s.streams st f }
/-- Whether a stream is open (R322). -/
def State.streamOpen (s : State) (st : Nat) : Bool := bit (s.streamEntry st) 64
/-- NEXT_SEQ; a stream whose entry has become valid begins at 1. -/
def State.nextSeq (s : State) (st : Nat) : Nat := max 1 (s.stream st).next

/-- Whether a partition is lost (R245). -/
def State.partitionLost (s : State) (p : Nat) : Bool := Tab.get false s.intake.lostPartitions p
/-- The journal pairs in service: p with p + 12 (R245). -/
def State.pairsUp (s : State) : List Nat := (List.range 12).filter fun p => !s.partitionLost p && !s.partitionLost (p + 12)

/-- The next pair in service, round-robin (R325). -/
def State.choosePair (s : State) : Option Nat :=
  ((List.range 12).map fun i => (s.intake.nextPair + i) % 12).find? fun p => s.pairsUp.contains p

/-! ### Form of an item -/

/-- Whether every byte of a range of a string is zero. -/
def zeroBytes (bs : Bytes) (lo n : Nat) : Bool := ((bs.drop lo).take n).all (· = 0)

/-- The form of a work item (R324, R325): FORMAT, CRC, or 0. -/
def workForm (w : Bytes) : Nat :=
  let mode := leAt w 32 1
  let addr := leAt w 40 8
  let entry := leAt w 16 8
  let st := leAt w 8 2
  if w.length < 128 ∨ leAt w 12 2 ≠ w.length - 128 ∨ 4096 < leAt w 12 2 ∨ leAt w 0 8 = 0 ∨ 4096 ≤ st ∨ 64 ≤ leAt w 10 1 ∨ 4 ≤ leAt w 11 1
      ∨ 4 ≤ leAt w 14 2 ∨ mode = 0 ∨ 4 ≤ mode ∨ !zeroBytes w 33 7 ∨ !zeroBytes w 120 4
      ∨ (if bit mode 1 then spaceOf addr ≠ 0 ∨ addr % 64 ≠ 0 else addr ≠ 0)
      ∨ (if st = 0 then entry ≠ 0 ∨ !zeroBytes w 58 62 else 2 ≤ spaceOf entry ∨ entry % 64 ≠ 0 ∨ !zeroBytes w 56 64) then 0x10
  else if leAt w 124 4 ≠ crc32c (w.take 124 ++ toLE 4 0 ++ w.drop 128) then 0x11
  else 0

/-- Whether a control operation is defined, with flags and payload of its shape (R334). -/
def controlOk (w : Bytes) : Bool :=
  let op := leAt w 56 1
  let fl := leAt w 57 1
  decide (1 ≤ op ∧ op ≤ 7) && decide (fl < (if op = 2 ∨ op = 3 then 2 else 1))
    && decide (w.length - 128 = if op = 1 ∨ op = 5 then 469 else 0)

/-- Tests 1 to 3 of R325: the REASON of a refusal, or 0. -/
def State.workRefusal (s : State) (src : Nat) (w : Bytes) : Nat :=
  let form := workForm w
  let st := leAt w 8 2
  let e := s.streamEntry st
  let j := leAt w 10 1
  if form ≠ 0 then form
  else if !s.streamOpen st then 0x12
  else if src < bits e 0 12 ∨ bits e 16 12 < src then 0x13
  else if bit (leAt w 32 1) 1 && s.addrCheck j (leAt w 40 8) 64 ≠ .ok then 0x14
  else if st = 0 then (if controlOk w then 0 else 0x15)
  else if s.jobGet j 0x01 = 0 ∨ leAt w 16 8 = 0 then 0x14
  else 0

/-- Items of a stream, with those whose journal writes are in flight, which count against its LIMIT (R325). -/
def State.streamItems (s : State) (st : Nat) : Nat := (s.items.filter (·.stream = st)).length
/-- Items of a job, with those whose journal writes are in flight; control items name a job and are not its items (R325, R340). -/
def State.jobItems (s : State) (j : Nat) : Nat := (s.items.filter fun i => i.job = j && i.stream ≠ 0).length
/-- Items outstanding: accepted and not retired (R328, R340, R341). -/
def outstanding (l : List Item) : Nat := (l.filter (·.state ≠ 0)).length

/-- The capacity test of R325 and the wait of R339: the REASON of a BUSY answer, or 0. -/
def State.capacity (s : State) (st src j : Nat) : Nat :=
  let w := Tab.get 0 (s.stream st).busy src
  if s.now < w / 256 then w % 256
  else if 1048576 ≤ s.items.length then 0x01
  else if bits (s.streamEntry st) 32 32 ≤ s.streamItems st then 0x02
  else if st ≠ 0 ∧ s.jobGet j 0x0F ≤ s.jobItems j then 0x03
  else if s.choosePair.isNone then 0x04
  else 0

/-! ### Answers -/

/-- The 32 bytes of a WORK_RESPONSE (R327). -/
def responseBytes (seq st status reason state next stamp : Nat) : Bytes :=
  toLE 8 seq ++ toLE 2 st ++ toLE 1 status ++ toLE 1 reason ++ toLE 1 state ++ toLE 3 0 ++ toLE 8 next ++ toLE 8 stamp

/-- Send a WORK_RESPONSE; after each BUSY answer the stream accepts nothing from that source for 16 µs (R339). -/
def State.sendResponse (s : State) (conn src st seq status reason state stamp : Nat) : State :=
  let s := (s.bumpIf (status = 2) 0x2540 0x05).bumpIf (status = 1 || status = 4) 0x2540 0x04
  let s := if status = 2 then s.updStream st fun r => { r with busy := Tab.set 0 r.busy src ((s.now + 16000) * 256 + reason) } else s
  (s.queueMessage conn 0x11 0 0 (responseBytes seq st status reason state (s.nextSeq st) stamp)).1

/-- What a duplicate is answered (R326): STATUS, REASON, ITEM_STATE, stamp; one whose original was lost to a journal fault is BUSY. -/
def State.duplicateAnswer (s : State) (st seq crc : Nat) : Nat × Nat × Nat × Nat :=
  match s.findItem st seq with
  | some i => if leAt i.descriptor 124 4 = crc then (1, 0, i.state, i.accepted) else (4, 0, 0, 0)
  | none => if s.nextSeq st ≤ seq then (2, 0x04, 0, 0) else (1, 0, 4, Tab.get 0 (s.stream st).stamps seq)

/-- Whether an item of a stream at or below a sequence has its writes in flight. -/
def State.inFlight (s : State) (st seq : Nat) : Bool := s.items.any fun i => i.stream = st && i.state = 0 && decide (i.sequence ≤ seq)

/-- Source of a connection. -/
def State.sourceOf (s : State) (n : Nat) : Nat := ((s.conn n).map (·.peer)).getD 0

/-- Send the answers of a stream that no earlier item holds back, in the order they were formed (R327). -/
def State.flushAnswers (s : State) (st : Nat) : State :=
  let go := (s.stream st).answers.filter fun h => !s.inFlight st h.sequence
  let s := s.updStream st fun r => { r with answers := r.answers.filter fun h => s.inFlight st h.sequence }
  go.foldl (fun s h =>
    let a := if h.status = 1 then s.duplicateAnswer st h.sequence h.crc else (h.status, h.reason, 0, 0)
    s.sendResponse h.conn (s.sourceOf h.conn) st h.sequence a.1 a.2.1 a.2.2.1 a.2.2.2) s

/-- Answer an item that is not taken, after the answers of earlier items of its stream (R327). -/
def State.answerWork (s : State) (conn st seq crc status reason : Nat) : State :=
  (s.updStream st fun r => { r with answers := r.answers ++ [⟨conn, seq, crc, status, reason⟩] }).flushAnswers st

/-! ### Acceptance -/

/-- WORK: the tests of R325 in order, then both journal writes. -/
def State.takeWork (s : State) (n : Nat) (w : Bytes) : State :=
  let src := s.sourceOf n
  let st := leAt w 8 2 % 4096
  let seq := leAt w 0 8
  let crc := leAt w 124 4
  let j := leAt w 10 1
  if s.intake.rebuilding || s.unmanaged then s.answerWork n st seq crc 2 0x05
  else
    let bad := s.workRefusal src w
    if bad ≠ 0 then s.answerWork n st seq crc 5 bad
    else if seq < s.nextSeq st then s.answerWork n st seq crc 1 0
    else if s.nextSeq st < seq then s.answerWork n st seq crc 3 0
    else
      let full := s.capacity st src j
      if full ≠ 0 then s.answerWork n st seq crc 2 full
      else match s.choosePair with
        | none => s.answerWork n st seq crc 2 0x04
        | some p =>
          let i : Item := { stream := st, sequence := seq, job := j, state := 0, pair := p, source := src, conn := n, accepted := 0
                            started := 0, descriptor := w.take 128, payload := w.drop 128, completion := [], deliveredOnce := false
                            messageConfirmed := false, addrConfirmed := false, resumed := false }
          let s : State := { s with items := s.items ++ [i], intake := { s.intake with nextPair := (p + 1) % 12 } }
          s.updStream st fun r => { r with next := seq + 1 }

/-- The oldest item of a stream whose writes are in flight. -/
def State.oldestInFlight (s : State) (st : Nat) : Option Item :=
  let l := (s.items.filter fun i => i.stream = st && i.state = 0).mergeSort fun a b => decide (a.sequence ≤ b.sequence)
  l.head?

/-- Accept the items of a stream that are stored, oldest first, as far as they follow one another (R325, R327). -/
def State.acceptStored (s : State) (st : Nat) : Nat → State
  | 0 => s
  | f + 1 =>
    match s.oldestInFlight st with
    | none => s.flushAnswers st
    | some i =>
      if !i.stored then s.flushAnswers st
      else
        let s := (s.updItem st i.sequence fun x => { x with state := 1, accepted := s.now }).bump 0x2540 0x03
        ((s.sendResponse i.conn i.source st i.sequence 0 0 0 s.now).flushAnswers st).acceptStored st f

/-- JOURNAL_WRITE_FAIL: the item and every later one of its stream in flight are answered BUSY, and NEXT_SEQ returns (R327). -/
def journalWriteFail (st seq : Nat) (s : State) : State :=
  if (s.findItem st seq).all (·.state ≠ 0) then s
  else
    let gone := (s.items.filter fun i => i.stream = st && i.state = 0 && decide (seq ≤ i.sequence)).mergeSort
      fun a b => decide (a.sequence ≤ b.sequence)
    let s : State := { s with items := s.items.filter fun i => !(i.stream = st && i.state = 0 && decide (seq ≤ i.sequence)) }
    let s := s.updStream st fun r => { r with next := seq }
    let s := s.updStream st fun r =>
      { r with answers := (gone.map fun i => ⟨i.conn, i.sequence, leAt i.descriptor 124 4, 2, 0x04⟩) ++ r.answers }
    s.flushAnswers st

/-- Both copies of an item are stored (R325, R328). -/
def State.journalStored (s : State) (st seq : Nat) (i : Item) : State :=
  let s := (s.journal st seq i.recordBytes).updItem st seq fun i => { i with stored := true }
  s.acceptStored st s.items.length

/-- JOURNAL_WRITE_DONE: both copies of an item are stored; a copy whose partition is lost has failed, and one whose hub does not answer is on its
way (R241, R245, R325, R327, R328). -/
def journalWriteDone (st seq : Nat) (s : State) : State :=
  match s.findItem st seq with
  | none => s
  | some i =>
    if i.state ≠ 0 ∨ i.stored then s
    else if i.partitions.any s.partitionLost then journalWriteFail st seq s
    else
      let away := s.ringAway (i.partitions.map fun p => ⟨1, s.partitionAddr p, s.partitionAddr p⟩)
      match away with
      | some x => if s.hub (s.hubOf x.at_) = 1 then s.countRetry (s.hubOf x.at_) else s
      | none => s.journalStored st seq i

/-! ### Dispatch -/

/-- Whether an item is eligible (R329). -/
def State.eligible (s : State) (i : Item) : Bool :=
  i.state = 1 && i.stream ≠ 0 && !s.items.any fun x => x.stream = i.stream && decide (x.sequence < i.sequence) && decide (x.state ≤ 1)

/-- How an eligible item ranks: PRIORITY, URGENT, then its stream's place after the one last dispatched (R329). -/
def State.rankOf (s : State) (i : Item) : Nat :=
  (i.priority * 2 + (if i.urgent then 0 else 1)) * 4096 + (i.stream + 4096 - (s.intake.lastStream + 1)) % 4096

/-- The item a job's lead takes next (R329). -/
def State.nextItem (s : State) (j : Nat) : Option Item :=
  (s.items.filter fun i => i.job = j && s.eligible i).foldl (fun b i => match b with
    | none => some i
    | some x => if s.rankOf i < s.rankOf x then some i else b) none

/-- Whether the intake may start work on a job's lead now (R57, R157, R200, R329). -/
def State.leadFree (s : State) (j : Nat) : Bool :=
  let k := s.core (s.lead j)
  s.jobState j = 2 && !s.quiesceWanted j && (s.startedItem j).isNone && k.item.isNone && k.job = j && k.state = 0
    && (k.queue 0).isEmpty && (k.started 0).isEmpty && !s.intake.rebuilding

/-- ITEM_DISPATCH: the best eligible item of a job is put in the mailbox and started at its ENTRY (R329, R330, R390). -/
def itemDispatch (j : Nat) (s : State) : State :=
  if !s.leadFree j then s
  else match s.nextItem j with
  | none => s
  | some i =>
    let s : State := { s with intake := { s.intake with lastStream := i.stream } }
    let s := (s.journal i.stream i.sequence 128).updItem i.stream i.sequence fun x => { x with state := 2, started := s.now }
    let s := if i.long then s.updCore (s.lead j) fun k => { k with hints := Tab.set none k.hints 0 (some ⟨64, s.now, s.now + 100000000⟩) } else s
    s.giveItem j i

/-! ### Delivery -/

/-- Whether an item's connection takes messages (R306, R332). -/
def State.connOpen (s : State) (i : Item) : Bool := (s.conn i.conn).any fun c => c.phase = 1

/-- Whether the record in memory is to be written, and its hub can be reached (R241, R332). -/
def State.writeDue (s : State) (i : Item) : Bool :=
  bit i.mode 1 && !i.written && (s.ringAway ((s.writePlaces i.complAddr).map fun w => ⟨1, i.complAddr, w⟩)).isNone

/-- Whether the COMPLETION is to be sent, and there is a connection that takes it (R306, R332). -/
def State.messageDue (s : State) (i : Item) : Bool := bit i.mode 0 && !i.sent && !i.messageConfirmed && s.connOpen i

/-- The first item of a stream with a delivery to make: it is DONE, and every earlier item has been delivered at least once (R332). -/
def State.deliverable (s : State) (st : Nat) : Option Item :=
  let l := (s.items.filter (·.stream = st)).mergeSort fun a b => decide (a.sequence ≤ b.sequence)
  let led := l.takeWhile fun i => i.state = 3 && i.deliveredOnce
  (led ++ ((l.drop led.length).take 1).filter (·.state = 3)).find? fun i => s.writeDue i || s.messageDue i

/-- Write a completion record to memory, poison clear (R332); the record is the intake's own and never poisoned, so that none of its writes ends a job
under R356 (log 98). -/
def State.writeCompletion (s : State) (i : Item) : State := s.putPlain i.complAddr i.completion

/-- Every delivery that an item asks for has been made once. -/
def Item.delivered (i : Item) : Bool := (!bit i.mode 0 || i.sent) && (!bit i.mode 1 || i.written)

/-- COMPLETION_DELIVERY: the next completion of a stream is sent and written as COMPL_MODE asks; with no connection to its source, or no hub that answers,
that delivery waits (R332). -/
def completionDelivery (st : Nat) (s : State) : State :=
  match s.deliverable st with
  | none => s
  | some i =>
    let write := s.writeDue i
    let send := s.messageDue i
    let s := if write then s.writeCompletion i else s
    let s := if send then (s.queueMessage i.conn 0x12 0 0 i.completion).1 else s
    s.updItem st i.sequence fun x =>
      let y := { x with written := x.written || write, sent := x.sent || send }
      { y with deliveredOnce := y.deliveredOnce || y.delivered }

/-- COMPL_ADDR_WRITE_DONE: the memory record of a delivered item is complete; it retires once everything is confirmed (R328, R332). -/
def complAddrWriteDone (st seq : Nat) (s : State) : State :=
  match s.findItem st seq with
  | none => s
  | some i =>
    if i.state = 3 && i.written && bit i.mode 1 then
      (s.updItem st seq fun x => { x with addrConfirmed := true }).retireItems
    else s

/-! ### Loss and rebuild -/

/-- JOURNAL_PARTITION_COPY: the records of a pair that has lost a partition are copied from its partner to another pair (R245). -/
def journalPartitionCopy (p : Nat) (s : State) : State :=
  if !s.partitionLost p || Tab.get false s.intake.copied p || s.partitionLost ((p + 12) % 24) then s
  else match s.choosePair with
  | none => s
  | some d =>
    let moved := s.items.filter fun i => i.pair = p % 12
    let n := moved.length
    let s := moved.foldl (fun s i =>
      [d, d + 12].foldl (fun s q => s.countWritten (s.partitionAddr q) i.recordBytes)
        (s.count (0x4500 + s.stackOn ((p + 12) % 24)) 0x0B 64 i.recordBytes)) s
    let s : State := { s with items := s.items.map fun i => if i.pair = p % 12 then { i with pair := d } else i
                              intake := { s.intake with nextPair := (d + 1) % 12, copied := Tab.set false s.intake.copied p true } }
    s.fault { cls := 0x16, action := 0x01, detail := toLE 1 p ++ toLE 1 d ++ toLE 4 n }

/-- Every DONE item is delivered again from the start (R332, R338). -/
def State.redeliver (s : State) : State :=
  { s with items := s.items.map fun i =>
      if i.state = 3 then { i with deliveredOnce := false, messageConfirmed := false, addrConfirmed := false, sent := false, written := false } else i }

/-- Items whose journal writes were not complete are forgotten, and NEXT_SEQ returns to them (R327, R328). -/
def State.dropUnstored (s : State) : State :=
  let gone := s.items.filter fun i => i.state = 0 && !i.stored
  let s : State := { s with items := s.items.filter fun i => !(i.state = 0 && !i.stored) }
  gone.foldl (fun s i =>
    let s : State := { s with items := s.items.filter fun x => !(x.stream = i.stream && decide (i.sequence < x.sequence)) }
    s.updStream i.stream fun r => { r with next := min r.next i.sequence }) s

/-- The rebuild ends, and what was formed meanwhile is stored (R338). -/
def State.applyFormed (s : State) : State :=
  s.intake.formed.foldl (fun s r => s.itemDone r.1 r.2.1 r.2.2) { s with intake := { s.intake with rebuilding := false, formed := [] } }

/-- INTAKE_REBUILD: a parity error starts the rebuild, during which items are answered BUSY; its end brings the streams and items back
from the journal (R328, R338; log 18: the row is both instants). -/
def intakeRebuild (s : State) : State :=
  if !s.intake.rebuilding then { s with intake := { s.intake with rebuilding := true } }
  else
    let s := s.dropUnstored
    let streams := (s.items.map (·.stream)).eraseDups
    let s := streams.foldl (fun s st => s.acceptStored st s.items.length) s
    let s := s.redeliver.applyFormed
    let s := s.fault { cls := 0x15, action := 0x01, detail := toLE 4 s.items.length }
    s.change 0x2540 0x07 (satAdd 32 (s.get 0x2540 0x07) 1)

def execJournalWriteDone (stream : StreamId) (sequence : BitVec 64) (s : State) : Host.Outcome State Fault Refusal :=
  .next (journalWriteDone stream sequence.toNat s)
def execJournalWriteFail (stream : StreamId) (sequence : BitVec 64) (s : State) : Host.Outcome State Fault Refusal :=
  .next (journalWriteFail stream sequence.toNat s)
def execItemDispatch (j : JobId) (s : State) : Host.Outcome State Fault Refusal := .next (itemDispatch j s)
def execCompletionDelivery (stream : StreamId) (s : State) : Host.Outcome State Fault Refusal := .next (completionDelivery stream s)
def execComplAddrWriteDone (stream : StreamId) (sequence : BitVec 64) (s : State) : Host.Outcome State Fault Refusal :=
  .next (complAddrWriteDone stream sequence.toNat s)
def execJournalPartitionCopy (p : Fin 24) (s : State) : Host.Outcome State Fault Refusal := .next (journalPartitionCopy p s)
def execIntakeRebuild (s : State) : Host.Outcome State Fault Refusal := .next (intakeRebuild s)

end Sys2Proof.Machine
end

