-- ==== Sys2Proof/Machine/Objects.lean ====
section
/-! DEFINITION. What a read of a dictionary object returns, and which values a write of one may carry (R35, R36, R47, the listings). -/

namespace Sys2Proof.Machine

open Sys2Proof

/-! ### Reading -/

/-- queue_occupancy (R164): access, execute, output, vector, transfer, 9 bits each. -/
def Core.occupancy (k : Core) : Nat :=
  (List.range 5).foldl (fun v i => v + min 511 (k.queue (i + 1)).length * 2 ^ (9 * i)) 0

/-- The 24 bytes of an entry of the event log (R61). -/
def Event.bytes (e : Event) : Bytes :=
  toLE 4 e.seq ++ toLE 2 e.index ++ toLE 1 e.sub ++ [0] ++ toLE 8 e.stamp ++ toLE 8 e.value

/-- The 24 bytes of an entry of the wait table (R292). -/
def Wait.bytes (w : Wait) : Bytes :=
  toLE 8 w.object ++ toLE 1 w.core ++ toLE 1 w.engine ++ toLE 2 w.tag ++ toLE 4 w.target ++ toLE 8 w.start

/-- Read one fault log entry by its number (R363). -/
def State.faultEntry (s : State) (n : Nat) : Nat := (s.faults.find? fun v => bits v 64 32 = n).getD 0

/-- Windows open in the active set (R223). -/
def State.windowsOpen (s : State) : Nat :=
  (s.obj.filter fun e => decide (okey 0x2400 0 ≤ e.1) && decide (e.1 < okey 0x2420 0) && bit e.2 132).length

/-- Sessions open (R61). -/
def State.sessionCount (s : State) : Nat := s.sessions.length

/-- Items not retired of one stream's status (R341). -/
def State.streamStatus (s : State) (st : Nat) : Nat :=
  if s.streamOpen st then s.nextSeq st + outstanding (s.items.filter (·.stream = st)) * 2 ^ 64 else 0

/-- Entries of the repair record as bytes. -/
def State.repairBytes (s : State) (inField : Bool) : Bytes :=
  if inField then
    let es := inForce s.repair.inField.flatten
    (es.drop (es.length - 32768)).flatten
  else s.repair.factory.flatten

/-- The 128 bytes of a wear record (R317). -/
def Wear.bytes (w : Wear) : Bytes :=
  padTo 16 w.serial ++ List.replicate 24 0 ++ toLE 3 w.oui ++ toLE 1 w.retired ++ toLE 4 (w.seconds / 3600) ++ toLE 8 w.first
    ++ toLE 8 w.last ++ padTo 16 (w.baseline.flatMap (toLE 2)) ++ padTo 16 (w.trend.flatMap (toLE 2)) ++ List.replicate 32 0

/-- Logs whose length grows, oldest entry first. -/
def State.viewLog (s : State) (idx sub : Nat) : Option Bytes :=
  match idx, sub with
  | 0x1031, 0 => some (s.events.flatMap Event.bytes)
  | 0x2421, 0 => some (s.refusals.flatMap (toLE 32))
  | 0x4000, 1 => some (s.faults.flatMap (toLE 64))
  | 0x7001, 0 => some (s.timeouts.flatMap (toLE 64))
  | 0x7003, 0 => some (s.waits.flatMap Wait.bytes)
  | 0x7011, 0 => some (s.manual.flatMap (toLE 48))
  | 0x1070, 5 => some (s.security.programLog.flatten)
  | 0x4200, 1 => some (s.repairBytes false)
  | 0x6800, 0 => some (padTo 65536 (s.wear.flatMap Wear.bytes))
  | 0x4200, 2 => some (s.repairBytes true)
  | _, _ => none

/-- Strikes of a tile within strike_window_h (R354, R360). -/
def State.strikesOf (s : State) (h : Nat) : List Nat :=
  (s.tile h).strikes.filter fun t => decide (s.now < t + s.get 0x4400 0x06 * hourNs)

/-- The per-core objects that fields of a core hold. -/
def State.viewCore (s : State) (c sub : Nat) : Option Nat :=
  let k := s.core c
  match sub with
  | 1 => some k.state
  | 2 => some k.job
  | 3 => some k.pc
  | 4 => some k.step
  | 6 => some k.occupancy
  | _ => none

/-- Objects whose value other fields of the state hold. -/
def State.viewField (s : State) (idx sub : Nat) : Option Nat :=
  if 0x8000 ≤ idx ∧ idx < 0x8B00 ∧ idx % 0x80 = 0 then s.viewCore ((idx - 0x8000) / 0x80) sub
  else if 0x8000 ≤ idx ∧ idx < 0x8B00 ∧ idx % 0x80 = 2 ∧ sub = 4 then
    some (s.core ((idx - 0x8000) / 0x80)).record.stepImages.length
  else if 0x2520 ≤ idx ∧ idx < 0x2540 ∧ sub ≠ 0 then some (s.streamStatus ((idx - 0x2520) * 128 + sub - 1))
  else if 0x2000 ≤ idx ∧ idx < 0x2040 ∧ sub = 0x0E then
      some (outstanding (s.items.filter fun i => i.job = idx - 0x2000 && i.stream ≠ 0))
  else if idx = 0x4401 ∧ sub ≠ 0 then some (s.strikesOf (sub - 1)).length
  else match idx, sub with
    | 0x1032, 0 => some s.sessionCount
    | 0xF000, 7 => some s.maq.length
    | 0x2420, 1 => some s.windowsOpen
    | 0x2540, 2 => some (outstanding s.items)
    | 0x2540, 6 => some s.pairsUp.length
    | 0x4000, 2 => some s.faultNext
    | 0x4000, 4 => some (s.faultEntry (s.get 0x4000 0x03))
    | 0x4200, 3 => some s.repair.inField.length
    | 0x1070, 4 => some s.security.programLog.length
    | 0x7002, 2 => some (s.syncGet (syncCore (s.get 0x7002 1)) (syncIndex (s.get 0x7002 1)))
    | 0x3120, 1 => some s.now
    | _, _ => none

/-- The value that a read of an object returns (R36). -/
def State.view (s : State) (idx sub : Nat) : Nat := (s.viewField idx sub).getD (s.get idx sub)

/-- The bytes that a read of an object returns; the maquette value of an RWM object where the request asks for it (R36). The
flag means nothing for another object (DEDUCED, log 104). -/
def State.viewBytes (s : State) (row : ObjRow) (idx sub : Nat) (maquette : Bool) : Bytes :=
  match s.viewLog idx sub with
  | some b => b
  | none =>
    let v := if maquette && row.access = .rwm then s.maqGet idx sub else s.view idx sub
    toLE (row.bytes v) v

/-! ### Writing -/

/-- Input cap in watts and highest clock step of the variant (R1). -/
def State.variant (s : State) : Nat × Nat :=
  match s.get 0x1002 0 / 2 ^ 40 with
  | 0x4C => (9000, 9)
  | 0x45 => (6500, 4)
  | _ => (12000, 12)

/-- A unified address that an ADDR64 object takes (R35). -/
def addr64Ok (v : Nat) : Bool := !addrReserved v && !addrOut v

/-- Whether a binary32 lies in [lo, hi], both positive, by their codes; a NaN does not. -/
def f32In (v lo hi : Nat) : Bool := decide (lo ≤ v ∧ v ≤ hi)

/-- Layout codes of a core that R199 allows. -/
def layoutOk (v : Nat) : Bool :=
  (List.range 8).all fun g =>
    let code := bits v (3 * g) 3
    let span := match code with
      | 2 => 2
      | 3 => 4
      | 4 => 8
      | _ => 1
    decide (code ≤ 4) && (List.range span).all fun i => bits v (3 * (g / span * span + i)) 3 = code

/-- A write clears the reserved bits (R11), and bit 7 of context_save_mask reads 1 (R164). -/
def writeMask (idx sub v : Nat) : Nat :=
  if 0x2100 ≤ idx ∧ idx < 0x2140 then v % 16
  else if 0x8000 ≤ idx ∧ idx < 0x8B00 ∧ idx % 0x80 = 0 ∧ sub = 0x0C then setBit v 7 true
  else if 0x8000 ≤ idx ∧ idx < 0x8B00 ∧ idx % 0x80 = 1 ∧ sub = 1 then v % 2 ^ 24
  else if 0x2000 ≤ idx ∧ idx < 0x2040 ∧ sub = 2 then v % 2 ^ 22
  else if 0x2000 ≤ idx ∧ idx < 0x2040 ∧ sub = 0x0C then v % 4
  else if 0x2200 ≤ idx ∧ idx < 0x2302 then
    bits v 0 27 % 2 ^ 27 + bits v 32 6 * 2 ^ 32 + bits v 63 1 * 2 ^ 63 + bits v 64 110 * 2 ^ 64
  else if 0x2400 ≤ idx ∧ idx < 0x2420 then
    bits v 0 100 + bits v 128 5 * 2 ^ 128 + bits v 136 6 * 2 ^ 136 + bits v 144 48 * 2 ^ 144
  else if 0x2500 ≤ idx ∧ idx < 0x2520 then
    bits v 0 12 + bits v 16 12 * 2 ^ 16 + bits v 32 32 * 2 ^ 32 + bits v 64 1 * 2 ^ 64
  else if 0x2640 ≤ idx ∧ idx < 0x2660 then v % 2 ^ 144
  else if idx = 0x2700 then bits v 0 165 + bits v 192 1 * 2 ^ 192 + bits v 200 6 * 2 ^ 200
  else match idx, sub with
    | 0x2620, 3 => v % 4
    | 0x2701, 3 => v % 2 ^ 24
    | 0x4101, _ => v % 32
    | 0x1040, _ => v % 2 ^ 520
    | _, _ => if 0x5100 ≤ idx ∧ idx < 0x5180 ∧ sub = 1 then
        bits v 0 26 + bits v 32 6 * 2 ^ 32 + bits v 40 5 * 2 ^ 40 + bits v 64 96 * 2 ^ 64
      else v

/-- Ranges of the per-core objects (R164, R224, R360). -/
def coreRange (place sub v : Nat) : Bool :=
  match place, sub with
  | 0, 0x0B => addr64Ok v && spaceOf v = 0 && v % 4096 = 0
  | 1, 0x09 => decide (100 ≤ v ∧ v ≤ 600000)
  | 2, 0x01 | 2, 0x03 => addr64Ok v && spaceOf v = 0
  | 2, 0x02 => decide (80 ≤ v ∧ v ≤ 4096) && v % 2 = 0
  | _, _ => true

/-- Ranges of the job table (R340). -/
def jobRange (sub v : Nat) : Bool :=
  match sub with
  | 0x01 => decide (v ≤ 1)
  | 0x06 => decide (1 ≤ v ∧ v ≤ 1000000000)
  | 0x07 => addr64Ok v && spaceOf v = 0 && v % 16 = 0
  | 0x08 => decide (v ≤ 65536)
  | 0x09 => v % 64 = 0 && decide (v + 4224 ≤ 0x3FC0000)
  | 0x0F => decide (1 ≤ v ∧ v ≤ 1048576)
  | _ => true

/-- Ranges of the port configuration (R294, R319): M0 and M1 are 10BASE-T1S and nothing else. -/
def portRange (p sub v : Nat) : Bool :=
  match sub with
  | 0x01 => if 17 ≤ p then v = 0x10 else [0, 1, 2, 4, 5, 6].contains v
  | 0x02 => decide (1500 ≤ v ∧ v ≤ 9216)
  | 0x06 | 0x08 => decide (v ≤ 2)
  | 0x09 | 0x0A => decide (v ≤ 1)
  | 0x0B => decide (v ≤ 254)
  | _ => true

/-- The remaining single objects. -/
def State.settingRange (s : State) (idx sub v : Nat) : Bool :=
  let cap := s.variant.1
  let floors (a b c : Nat) : Bool := decide (2 * (a + b + c) ≤ cap)
  match idx, sub with
  | 0xF000, 0x06 => decide (1 ≤ v ∧ v ≤ 600000)
  | 0xF002, 0x02 => decide (10 ≤ v ∧ v ≤ 3600)
  | 0x2620, 0x01 | 0x2620, 0x02 => decide (v ≤ 4095)
  | 0x2620, 0x03 => decide (1 ≤ v ∧ v ≤ 3)
  | 0x2620, 0x04 => decide (20 ≤ v ∧ v ≤ 100000)
  | 0x2620, 0x05 => decide (3 ≤ v ∧ v ≤ 32)
  | 0x2620, 0x06 => decide (101 ≤ v ∧ v ≤ 300)
  | 0x2620, 0x07 => decide (s.get 0x2620 0x06 < v ∧ v ≤ 400)
  | 0x2701, 0x01 => decide (1 ≤ v ∧ v ≤ 168)
  | 0x2701, 0x02 => decide (1 ≤ v ∧ v ≤ 100)
  | 0x2801, 0x01 => decide (20 ≤ v ∧ v ≤ 1000)
  | 0x2540, 0x01 => decide (1 ≤ v ∧ v ≤ 2500)
  | 0x4400, 0x01 => decide (1 ≤ v ∧ v ≤ 65536) && 65536 % v = 0
  | 0x4400, 0x02 | 0x4400, 0x03 | 0x4400, 0x04 => f32In v 0x3F800000 0x44800000
  | 0x4400, 0x05 => decide (1 ≤ v ∧ v ≤ 16)
  | 0x4400, 0x06 => decide (1 ≤ v ∧ v ≤ 720)
  | 0x4002, 0x01 => decide (10 ≤ v ∧ v ≤ 60000)
  | 0x7002, 0x01 => addr64Ok v && spaceOf v = 2
  | 0x7010, 0x01 => addr64Ok v
  | 0x7010, 0x02 => decide (1 ≤ v ∧ v ≤ 5)
  | 0x3000, 0x01 => decide (1000 ≤ v ∧ v ≤ cap)
  | 0x3010, 0x01 => decide (v ≤ 2000) && floors v (s.get 0x3010 2) (s.get 0x3010 3)
  | 0x3010, 0x02 => decide (v ≤ 4000) && floors (s.get 0x3010 1) v (s.get 0x3010 3)
  | 0x3010, 0x03 => decide (v ≤ 6000) && floors (s.get 0x3010 1) (s.get 0x3010 2) v
  | 0x3100, 0x01 => decide (v ≤ s.variant.2)
  | 0x3100, 0x02 => decide (1600 ≤ v ∧ v ≤ 2000) && v % 100 = 0
  | 0x3110, 0x01 => decide (v ≤ 3)
  | 0x3111, 0x01 => decide (v ≤ 1)
  | 0x3111, 0x03 => decide (30 ≤ v ∧ v ≤ 200)
  | 0x3120, 0x02 => decide (v ≤ 16 ∨ v = 0xFF)
  | 0x4202, 0x01 => decide (v ≤ 1)
  | 0x4202, 0x02 => decide (v ≤ 30000)
  | 0x1040, _ => decide (bits v 512 8 ≤ 3)
  | 0x1060, 0x01 => decide (v ≤ 2)
  | 0x1070, 0x01 => addr64Ok v
  | 0x1070, 0x02 => decide (1 ≤ v ∧ v ≤ 67108864)
  | _, _ => true

/-- Whether a value, its reserved bits cleared, lies within the range its object's listing gives (R35, R47). -/
def State.rangeOk (s : State) (idx sub v : Nat) : Bool :=
  if 0x8000 ≤ idx ∧ idx < 0x8B00 then coreRange (idx % 0x80) sub v
  else if 0x2000 ≤ idx ∧ idx < 0x2040 then jobRange sub v
  else if 0x2600 ≤ idx ∧ idx < 0x2613 then !portUnused idx sub && portRange (idx - 0x2600) sub v
  else s.settingRange idx sub v

/-- The values a command object's listing names (R62); group_request's and the others' fields are checked by their actions. -/
def cmdValueOk (idx sub v : Nat) : Bool :=
  match idx, sub with
  | 0xF000, 0 => decide (1 ≤ v ∧ v ≤ 3)
  | 0xF002, 0 | 0xF010, 0 | 0x1060, 4 | 0x5000, 1 => decide (1 ≤ v ∧ v ≤ 2)
  | 0xF020, 0 => decide (v ≤ 4)
  | 0xF001, 0 | 0x7010, 4 | 0x1061, 2 | 0x1070, 3 | 0x1080, 5 => v = 1
  | _, _ =>
    if 0x5100 ≤ idx ∧ idx < 0x5180 ∧ sub = 5 then decide (1 ≤ v ∧ v ≤ 3)
    else if 0x8000 ≤ idx ∧ idx < 0x8B00 ∧ idx % 0x80 = 1 ∧ sub = 4 then decide (bits v 8 2 ≤ 2)
    else true

end Sys2Proof.Machine
end

