-- ==== Sys2Proof/Machine/Groups.lean ====
section
/-! DEFINITION. Scratchpad groups: layouts (R199, R200), power states and their transitions (R205 to R211), scrubbing (R214). -/

namespace Sys2Proof.Machine

open Sys2Proof

/-! ### Layout -/

/-- Whether a mask covers whole spans (R206). -/
def wholeSpans (layout mask : Nat) : Bool :=
  (setPositions 8 mask).all fun g => (spanOf layout g).all fun i => bit mask i

/-- SP_LAYOUT_APPLY: a held layout is applied once its core is idle (R200). -/
def spLayoutApply (c : Nat) (s : State) : State := if s.layoutHeld c && s.layoutFree c then s.applyLayout c else s

/-! ### Power -/

/-- Whether some group of a core is in transition (R206). -/
def State.groupsMoving (s : State) (c : Nat) : Bool := (List.range 8).any fun g => [1, 2, 5].contains (s.groupState c g)

/-- Groups of a core whose state is among some codes. -/
def State.groupsIn (s : State) (c : Nat) (codes : List Nat) : List Nat := (List.range 8).filter fun g => codes.contains (s.groupState c g)

/-- Close groups that are on and let them drain toward a target state (R205, R207). -/
def State.closeGroups (s : State) (c : Nat) (gs : List Nat) (goal : Nat) : State :=
  let gs := gs.filter fun g => s.groupState c g = 0
  if gs.isEmpty then s
  else
    (s.updCore c fun k => { k with groupGoal := gs.foldl (fun t g => Tab.set 0 t g goal) k.groupGoal }).passGroups c gs [1, 2]

/-- Wake groups in retention or off; one that was off is filled with zeros (R205, R210). -/
def State.wakeGroups (s : State) (c : Nat) (gs : List Nat) : State :=
  let s := (gs.filter fun g => s.groupState c g = 4).foldl (fun s g => s.zeroGroup c g) s
  s.passGroups c (gs.filter fun g => [3, 4].contains (s.groupState c g)) [5]

/-- GROUP_DRAIN_END: the draining groups of a core have no request left and go to retention or off (R208). -/
def groupDrainEnd (c : Nat) (s : State) : State :=
  let gs := s.groupsIn c [2]
  let goal (g : Nat) : Nat := Tab.get 3 (s.core c).groupGoal g
  let toOff := gs.filter fun g => goal g = 4
  let s := toOff.foldl (fun s g => s.zeroGroup c g) s
  let s := s.setGroups c fun g v => if gs.contains g then (if toOff.contains g then 4 else 3) else v
  s.updCore c fun k => { k with groupGoal := [] }

/-- GROUP_WAKE_END: the waking groups of a core are on (R205, R210). -/
def groupWakeEnd (c : Nat) (s : State) : State :=
  let gs := s.groupsIn c [5]
  s.setGroups c fun g v => if gs.contains g then 0 else v

/-- A write of group_request (R206): the status of its answer. Groups of the mask that are in retention or off, and not in the target state,
wake to on whatever the target. -/
def State.groupRequest (s : State) (c v : Nat) : State × Nat :=
  let mask := bits v 0 8
  let target := bits v 8 2
  let gs := setPositions 8 mask
  let k := s.core c
  if !wholeSpans (s.layoutApplied c) mask then (s, 0x07)
  else if bit mask 7 && target ≠ 0 && k.job ≠ 0xFF then (s, 0x09)
  else if s.groupsMoving c || gs.any fun g => k.reservedRanges.any fun r => rangesMeet r.1 r.2 (spAddr c (g * 2 ^ 23)) (2 ^ 23) then (s, 0x08)
  else match target with
    | 0 => (s.wakeGroups c gs, 0)
    | 1 => ((s.closeGroups c gs 3).wakeGroups c (gs.filter fun g => s.groupState c g = 4), 0)
    | _ => ((s.closeGroups c gs 4).wakeGroups c (gs.filter fun g => s.groupState c g = 3), 0)

/-! ### Scrubbing -/

/-- SP_SCRUB_INTERVAL: a pass over the groups that are on, with what it finds; a scrub marks no step (R212 to R214). -/
def spScrub (c : Nat) (ups : List Upset) (s : State) : State :=
  let on (u : Upset) : Bool := spaceOf u.addr.toNat = 1 && spCore u.addr.toNat = c && s.groupState c (groupOf u.addr.toNat) = 0
  ((ups.filter on).foldl (fun s u => s.takeUpset none u) s).bump (coreObj c + 1) 0x0A

def execSpScrubInterval (c : CoreId) (ups : List Upset) (s : State) : Host.Outcome State Fault Refusal := .next (spScrub c ups s)
def execSpLayoutApply (c : CoreId) (s : State) : Host.Outcome State Fault Refusal := .next (spLayoutApply c s)

end Sys2Proof.Machine
end

