-- ==== Sys2Proof/Machine/Stack.lean ====
section
/-! DEFINITION. Stacks: the rows of their vertical channels and losses (R229 to R233), the two-layer reformat (R234), scrubbing (R237) and the mirror
table (R247). -/

namespace Sys2Proof.Machine

open Sys2Proof

/-! ### Mirrored ranges -/

/-- A mirror entry changes at a swap (R247): one no longer in use; a new pairing of the survivor, which begins to copy; an entry hit by a loss. -/
def State.swapMirror (s : State) (e : Nat) (old new : Option (Nat × Nat × Nat)) : State :=
  match new with
  | none => s.setMirror e 0 false
  | some (p, m, _) =>
    let keep := match old with
      | some (_, m', _) => s.mirrorState e ≠ 0 && s.mirrorState e ≠ 1 && s.mirrorSurvivor e && m = m'
      | none => false
    let same := match old with
      | some (p', m', _) => p = p' && m = m'
      | none => false
    if same then s
    else if s.rangeLost (if keep then p else m) then s.setMirror e 2 keep else s.setMirror e 3 keep

/-- MIRROR_RESYNC_DONE: the survivor has been copied to the other range, and the entry is paired (R247). -/
def mirrorResyncDone (e : Nat) (s : State) : State :=
  match mirrorEntry (s.get 0x2700 (e + 1)) with
  | none => s
  | some (p, m, n) =>
    if s.mirrorState e ≠ 3 then s
    else
      let s := if s.mirrorSurvivor e then s.copyMem m p n else s.copyMem p m n
      s.setMirror e 1 false

/-! ### Rows -/

/-- COIL_LINK_FAIL: a link position fails (R229 to R232). -/
def coilLinkFail (k l : Nat) (dir : Sys2Proof.Dir) (position : Nat) (s : State) : State :=
  (s.linkFail k l (Dir.code dir) position).endLost

/-- SPARE_SWAP_DONE: a trained spare is switched in, ending any hold (R229 to R231; with none in training it
ends the hold of a change of width: DESIGN CHOICE, log 106). -/
def spareSwapDone (k l : Nat) (dir : Sys2Proof.Dir) (s : State) : State := s.swapSpare k l (Dir.code dir)

/-- Begin the two-layer reformat of a stack at a swap: zeros over the layers that survive, every access refused until it ends (R234). -/
def State.reformat (s : State) (k : Nat) : State :=
  let gone := ((List.range 3).find? fun l => s.layerLost k l).getD 0
  { s.zeroMem (dramAddr k 0) 0x1800000000 with
    reformatting := s.reformatting ++ [k], leftOut := Tab.set 0 s.leftOut k (gone + 1) }

/-- STACK_REFORMAT_DONE: the fill has ended, and the stack serves its range below 64 GiB (R234). -/
def stackReformatDone (k : Nat) (s : State) : State := { s with reformatting := s.reformatting.filter (· ≠ k) }

/-- DRAM_SCRUB_INTERVAL: a pass over every layer in service, with what it finds (R237). -/
def dramScrub (k : Nat) (ups : List Upset) (s : State) : State :=
  if s.stackLost k then s
  else
    let here (u : Upset) : Bool := spaceOf u.addr.toNat = 0 && stackOf u.addr.toNat = k && !s.locationLost u.addr.toNat
    ((ups.filter here).foldl (fun s u => s.takeUpset none u) s).bump (0x4500 + k) 0x0A

def execCoilLinkFail (k : StackId) (layer : Fin 3) (dir : Sys2Proof.Dir) (position : BitVec 16) (s : State) :
    Host.Outcome State Fault Refusal := .next (coilLinkFail k layer dir position.toNat s)
def execSpareSwapDone (k : StackId) (layer : Fin 3) (dir : Sys2Proof.Dir) (s : State) : Host.Outcome State Fault Refusal :=
  .next (spareSwapDone k layer dir s)
def execDramScrubInterval (k : StackId) (ups : List Upset) (s : State) : Host.Outcome State Fault Refusal := .next (dramScrub k ups s)
def execStackReformatDone (k : StackId) (s : State) : Host.Outcome State Fault Refusal := .next (stackReformatDone k s)
def execMirrorResyncDone (e : Fin 64) (s : State) : Host.Outcome State Fault Refusal := .next (mirrorResyncDone e s)
def execVmemVppShort (k : StackId) (s : State) : Host.Outcome State Fault Refusal := .next (s.loseStack k 1).endLost
def execLayerFault (k : StackId) (layer : Fin 3) (cause : BitVec 8) (s : State) : Host.Outcome State Fault Refusal :=
  .next (s.loseLayer k layer cause.toNat).endLost

end Sys2Proof.Machine
end

