-- ==== Sys2Proof/Machine/Armature.lean ====
section
/-! DEFINITION. The armature: links and their delivery (R250 to R255), routes (R260 to R263), resets of hubs (R241) and transactions (R242, R259). -/

namespace Sys2Proof.Machine

open Sys2Proof

/-! ### Links -/

/-- Width code of a count of good wires (R254). -/
def wiresWidth (good : Nat) : Nat := if 8320 ≤ good then 0 else if 4224 ≤ good then 1 else 2

/-- link_state with the free spares and the state of one direction (R275). -/
def linkValue (v d good width : Nat) : Nat := setBits (setBits v (8 * d) 8 (good - 8320)) (16 + 2 * d) 2 width

/-- Good wires of a direction: of 8,192 data, 128 sideband and 64 spare wires (R251, R254). -/
def LinkSide.good (k : LinkSide) : Nat := 8384 - k.failed.length

/-- The wire that carries a data or sideband position: its own or, where that has failed, the next spare in turn at full width; the good wires in turn
at half width (R254; DESIGN CHOICE, log 47). -/
def LinkSide.wire (k : LinkSide) (p : Nat) : Option Nat :=
  let good := (List.range 8384).filter fun w => !k.failed.contains w
  if wiresWidth k.good = 0 then
    if k.failed.contains p then (good.filter (8320 ≤ ·))[((List.range p).filter fun q => k.failed.contains q).length]? else some p
  else if wiresWidth k.good = 1 then (if p < 4224 then good[p]? else none)
  else none

/-! ### Routes -/

/-- Whether a hub is in transit by the tables to come: it serves, and no reset of it is asked for (R241, R263). -/
def State.inTransit (s : State) (h : Nat) : Bool := s.hub h = 0 && Tab.get 0 s.hubResets h = 0

/-- Whether the rest of a primary path crosses a dead hub, a down link, or a hub out of transit that is not its end (R260, R263). -/
def State.pathBlocked (s : State) (d : Nat) : Nat → Nat → Bool
  | 0, _ => false
  | f + 1, h =>
    match neighbour h (primaryPort h d) with
    | none => false
    | some n => s.linkDown (linkAt h (primaryPort h d)) || (n ≠ d && !s.inTransit n) || s.pathBlocked d f n

/-- The hub at a port, where the escape tree may use it: the link up, the hub live and in transit (R261, R263). -/
def State.treeStep (s : State) (h p : Nat) : Option Nat :=
  match neighbour h p with
  | some n => if s.linkDown (linkAt h p) || !s.inTransit n then none else some n
  | none => none

/-- The breadth-first tree as (hub, parent), in the order N, E, S, W (R261). -/
def State.treeGo (s : State) : Nat → List Nat → List (Nat × Nat) → List (Nat × Nat)
  | 0, _, tree => tree
  | _, [], tree => tree
  | f + 1, h :: q, tree =>
    let new := ([1, 2, 3, 4].filterMap (s.treeStep h)).filter fun n => !tree.any fun e => e.1 = n
    s.treeGo f (q ++ new) (tree ++ new.map fun n => (n, h))

/-- The escape tree (R261). -/
def State.escapeTree (s : State) : List (Nat × Nat) :=
  match (List.range 24).find? s.inTransit with
  | some r => s.treeGo 24 [r] [(r, r)]
  | none => []

/-- A hub and its ancestors up to the root. -/
def pathUp (tree : List (Nat × Nat)) : Nat → Nat → List Nat
  | 0, h => [h]
  | f + 1, h =>
    match tree.find? fun e => e.1 = h with
    | some (_, p) => if p = h then [h] else h :: pathUp tree f p
    | none => [h]

/-- The port of a hub that leads to a neighbour. -/
def portTo (h n : Nat) : Nat := ([1, 2, 3, 4].find? fun p => neighbour h p = some n).getD 0

/-- ESCAPE_PORT of hub h for hub d: up the tree to the common ancestor, then down (R261). -/
def escapePort (tree : List (Nat × Nat)) (h d : Nat) : Nat :=
  if h = d then 0
  else if !(tree.any fun e => e.1 = h) || !(tree.any fun e => e.1 = d) then 7
  else
    let up := pathUp tree 24 d
    match up.idxOf? h with
    | some i => portTo h (up.getD (i - 1) h)
    | none => portTo h ((pathUp tree 1 h).getD 1 h)

/-- The other end of a hub's row. -/
def rowEnd (h : Nat) : Nat := if tileX h < 2 then h - tileX h + 3 else h - tileX h

/-- ATTACH of a hub (R273). -/
def State.attachOf (s : State) (h : Nat) : Nat :=
  let perimeter := tileX h = 0 ∨ tileX h = 3 ∨ tileY h = 0 ∨ tileY h = 5
  let a := if perimeter then h else if tileX h = 1 then h - 1 else h + 1
  if s.hub a = 2 ∨ (a ≠ h ∧ !s.inTransit a) then rowEnd h else a

/-- The route table of a hub for what is dead, down or out of transit (R260, R261, R263, R273). -/
def State.routeTable (s : State) (tree : List (Nat × Nat)) (h : Nat) : Nat :=
  let ports := (List.range 24).foldl (fun v d => v + escapePort tree h d * 2 ^ (8 * d)) 0
  let blocked := (List.range 24).foldl (fun v d => if s.pathBlocked d 9 h then v + 2 ^ d else v) 0
  ports + blocked * 2 ^ 192 + s.attachOf h * 2 ^ 216

/-- The route tables of all hubs. -/
def State.routeTables (s : State) : List Nat := let t := s.escapeTree; (List.range 24).map (s.routeTable t)

/-- Put route tables in force (R260). -/
def State.setRoutes (s : State) (ts : List Nat) : State :=
  ((List.range 24).zip ts).foldl (fun s x => s.change 0x2800 (x.1 + 1) x.2) s

/-! ### Flits -/

/-- Endpoint numbers that are not reserved (R257). -/
def endpointOk (d : Nat) : Bool := d < 24 || decide (0x20 ≤ d ∧ d ≤ 0x33)

/-- ATTACH in a hub's route table: the hub by which its ring traffic enters and leaves (R260, R273). -/
def State.attach (s : State) (h : Nat) : Nat := bits (s.get 0x2800 (h + 1)) 216 8

/-- The hub by which a flit leaves the armature: its destination, or the hub that joins the ring for its source (R257, R273). -/
def State.flitGoal (s : State) (f : Flit) : Nat :=
  let d := f.dest.toNat
  if d < 24 then d else if d = 0x32 then 0 else if d = 0x33 then 23 else s.attach f.src.toNat

/-- Whether a flit enters the armature at a hub: at its local port, or at its ring port from the ring (R260, R273). -/
def State.entersAt (s : State) (h : Nat) (f : Flit) : Bool :=
  let c := f.src.toNat
  if c < 24 then c = h else if c = 0x32 then h = 0 else if c = 0x33 then h = 23 else s.attach f.dest.toNat = h

/-- The input port of a hub that a flit which enters there takes: 5 local, 6 ring, after 1 N, 2 E, 3 S, 4 W (R256). -/
def entryPort (f : Flit) : Nat := if f.src.toNat < 24 then 5 else 6

/-- Number of a flit's buffer: primary 0 to 3, escape 4 to 7 (R255). -/
def flitBuffer (f : Flit) : Nat := f.vc.val + (if f.escape then 4 else 0)

/-- Depth of a buffer (R255). -/
def bufferDepth (b : Nat) : Nat := if 4 ≤ b then 4 else if b < 2 then 16 else 12

/-- Whether a flit carries a packet (R252). -/
def carries (f : Flit) : Bool := f.dest ≠ 0x3F

/-- The port of a hub by which a flit goes on; 0 where it leaves the armature, 7 where no route leads (R260, R261). -/
def State.outPort (s : State) (h : Nat) (f : Flit) : Nat :=
  let g := s.flitGoal f
  if f.escape then (s.routePort h g).1 else primaryPort h g

/-- The direction that leads out of a port of a hub. -/
def outSide (h p : Nat) : Nat × Nat := (linkAt h p, portDir p)

/-- The input port of the receiving hub of a direction. -/
def inPort (l d : Nat) : Nat := portTo (linkHubs l d).2 (linkHubs l d).1

/-- An entry of an input buffer is free again: its credit goes back on the reverse direction (R255). The local and the ring port have none here. -/
def State.freeEntry (s : State) (h p : Nat) (f : Flit) : State :=
  if p = 0 ∨ 5 ≤ p then s else s.updLink (linkAt h p) (1 - portDir p) fun k => { k with freed := Tab.upd 0 k.freed (flitBuffer f) (· + 1) }

/-- Credits that a flit can return: at most 3 a buffer (R252). -/
def LinkSide.credits (k : LinkSide) : Nat := (List.range 8).foldl (fun v b => v + min 3 (Tab.get 0 k.freed b) * 4 ^ b) 0

/-- Credits have been returned. -/
def LinkSide.returned (k : LinkSide) : LinkSide :=
  { k with freed := (List.range 8).foldl (fun t b => Tab.upd 0 t b (· - 3)) k.freed }

/-- Send a flit of an input port with the next SEQ, keeping it for a resend; its packet holds its VC and class until LAST (R253, R256). -/
def LinkSide.send (k : LinkSide) (p : Nat) (f : Flit) : LinkSide :=
  let b := flitBuffer f
  let k := { k with next := (k.next + 1) % 256, buffer := k.buffer ++ [f] }
  if !carries f then k
  else
    { k with spent := Tab.upd 0 k.spent b (· + 1), lastVc := f.vc.val, lastPort := Tab.set 0 k.lastPort f.vc.val p
             packet := Tab.upd (0, 0) k.packet b fun x => if f.last then (0, 0) else (p + 1, x.2 + 1) }

/-- Send a flit on a direction: SEQ, ACK and CREDIT are the sending hub's (R252, R253). -/
def State.sendFlit (s : State) (l d p : Nat) (f : Flit) : State :=
  let back := s.linkSide l (1 - d)
  let g := { f with seq := BitVec.ofNat 8 (s.linkSide l d).next, ack := BitVec.ofNat 8 (back.expect + 255)
                    credit := BitVec.ofNat 16 back.credits, crcOk := true }
  (s.updLink l (1 - d) LinkSide.returned).updLink l d (·.send p g)

/-- Whether a direction may take a flit of a buffer now: up, not held, its far hub out of reset, room to keep it (R253, R254, R263). -/
def State.sideOpen (s : State) (l d : Nat) : Bool :=
  let k := s.linkSide l d
  !s.linkDown l && !k.held && s.hub (linkHubs l d).2 ≠ 1 && s.hub (linkHubs l d).1 ≠ 1 && decide (k.buffer.length < 64)

/-- The flit of a VC and class that an output grants next, against a credit: of the packet that holds it, else of the next input port in turn
(R255, R256). -/
def LinkSide.ready (k : LinkSide) (vc : Nat) (escape : Bool) : Option (Nat × Flit) :=
  let b := vc + (if escape then 4 else 0)
  let of (p : Nat) := k.waiting.find? fun x => x.1 = p && flitBuffer x.2 = b
  if bufferDepth b ≤ Tab.get 0 k.spent b then none
  else match Tab.get (0, 0) k.packet b with
    | (0, _) => ((List.range 6).map fun i => (Tab.get 0 k.lastPort vc + i) % 6 + 1).findSome? of
    | (p + 1, _) => of p

/-- What an output grants next: the VCs in turn, the escape class first (R256). -/
def LinkSide.grant (k : LinkSide) : Option (Nat × Flit) :=
  ((List.range 4).map fun i => (k.lastVc + 1 + i) % 4).findSome? fun v => k.ready v true <|> k.ready v false

/-- Send what waits at an output, as far as it is open and credits go (R255, R256). -/
def State.drainSide (l d : Nat) : Nat → State → State
  | 0, s => s
  | n + 1, s =>
    if !s.sideOpen l d then s
    else match (s.linkSide l d).grant with
      | none => s
      | some x =>
        let s := (s.updLink l d fun k => { k with waiting := k.waiting.erase x }).freeEntry (linkHubs l d).1 x.1 x.2
        (s.sendFlit l d x.1 x.2).drainSide l d n

/-- Everything that waits at an output may go. -/
def State.drain (s : State) (l d : Nat) : State := s.drainSide l d (s.linkSide l d).waiting.length

/-- A flit leaves the armature at a hub: a packet is taken when it is whole; a response ends its request (R256, R259, R273). -/
def State.deliver (s : State) (h : Nat) (f : Flit) : State :=
  let key := if 24 ≤ f.dest.toNat then 64 + h else if 24 ≤ f.src.toNat then 32 + h else h
  let same (g : Flit) : Bool := g.src = f.src && g.vc = f.vc && g.escape = f.escape
  let s := { s with arrived := Tab.upd [] s.arrived key fun l => if f.last then l.filter (! same ·) else l ++ [f] }
  if f.last && f.vc.val = 1 then { s with requests := Tab.upd [] s.requests h fun l => l.erase f.txn.toNat } else s

/-- A flit in an input port of a hub: it leaves there, waits for its output, or is lost where no route leads (R260, R261, R263). -/
def State.placeFlit (s : State) (h p : Nat) (f : Flit) : State :=
  let q := s.outPort h f
  if q = 0 then (s.deliver h f).freeEntry h p f
  else if (neighbour h q).isNone then s.freeEntry h p f
  else
    let x := outSide h q
    (s.updLink x.1 x.2 fun k => { k with waiting := k.waiting ++ [(p, f)] }).drain x.1 x.2

/-- At the instant of new route tables, packets held for a link that is down switch to the escape class where they are held (R263, R275);
what waits for a link that is up goes on. -/
def State.releaseSide (s : State) (l d : Nat) : State :=
  if !s.linkDown l then s.drain l d
  else
    let fs := (s.linkSide l d).waiting
    let s := s.updLink l d fun k => { k with waiting := [], packet := [] }
    fs.foldl (fun s x =>
      let s := if !x.2.escape && x.2.head then s.bump 0x4603 0x04 else s
      s.placeFlit (linkHubs l d).1 x.1 { x.2 with escape := true }) s

/-- Every direction's held packets. -/
def State.releaseHeld (s : State) : State := (List.range 76).foldl (fun s i => s.releaseSide (i / 2) (i % 2)) s

/-- Free the flits of a retry buffer up to an acknowledged SEQ (R253). -/
def LinkSide.acked (k : LinkSide) (seq : Nat) : LinkSide :=
  match (List.range k.buffer.length).find? fun i => (k.buffer.map (·.seq.toNat)).getD i 256 = seq with
  | some i => { k with buffer := k.buffer.drop (i + 1) }
  | none => k

/-- Take the credits that a flit returns (R252, R255). -/
def LinkSide.credited (k : LinkSide) (credit : Nat) : LinkSide :=
  { k with spent := (List.range 8).foldl (fun t b => Tab.upd 0 t b (· - bits credit (2 * b) 2)) k.spent }

/-- A flit comes over a direction: taken when its CRC is good and its SEQ the one expected, discarded otherwise (R253). -/
def State.flitIn (s : State) (l d : Nat) (f : Flit) : State :=
  if !f.crcOk || f.seq.toNat ≠ (s.linkSide l d).expect then s
  else
    let s := s.updLink l d fun k => { k with expect := (k.expect + 1) % 256 }
    let s := (s.updLink l (1 - d) fun k => (k.acked f.ack.toNat).credited f.credit.toNat).drain l (1 - d)
    if carries f then s.placeFlit (linkHubs l d).2 (inPort l d) f else s

/-- A flit that a hub sends for the first time on a direction, as it enters the armature there: a packet of 1 to 4 flits in the class that BLOCKED
chooses, a request while fewer than 512 are outstanding; or credits and acknowledgements alone (R252, R256, R260). None where no hub sends it. -/
def State.injected (s : State) (l d : Nat) (f : Flit) : Option Flit :=
  let h := (linkHubs l d).1
  let k := s.linkSide l d
  if !carries f then (if f.granules = 0 then some f else none)
  else if !s.entersAt h f || !endpointOk f.dest.toNat || !endpointOk f.src.toNat then none
  else
    let held := [false, true].find? fun e => (Tab.get (0, 0) k.packet (f.vc.val + (if e then 4 else 0))).1 = entryPort f + 1
    let f := { f with escape := held.getD (s.routePort h (s.flitGoal f)).2 }
    let x := Tab.get (0, 0) k.packet (flitBuffer f)
    let form := if f.head then x.1 = 0 else x.1 = entryPort f + 1 && decide (x.2 < 4) && (x.2 < 3 || f.last)
    let full := f.head && f.vc.val = 0 && decide (f.src.toNat < 24 ∧ 512 ≤ (Tab.get [] s.requests h).length)
    if !form || full || outSide h (s.outPort h f) ≠ (l, d) || 7 ≤ s.outPort h f || s.outPort h f = 0
        || bufferDepth (flitBuffer f) ≤ Tab.get 0 k.spent (flitBuffer f) then none
    else some f

/-- FLIT_RECEIVE: a flit comes over a direction of a link. One that its sender keeps is that flit again; one with the sender's next SEQ is sent by
this, as the hub forms it; no other is sent (R252, R253). -/
def flitReceive (l d : Nat) (f : Flit) (s : State) : State :=
  let k := s.linkSide l d
  if s.linkDown l || k.held || s.hub (linkHubs l d).1 = 1 || s.hub (linkHubs l d).2 = 1 then s
  else match k.buffer.find? fun g => g.seq = f.seq with
    | some g => s.flitIn l d { g with crcOk := f.crcOk }
    | none =>
      if f.seq.toNat ≠ k.next || !s.sideOpen l d then s
      else match s.injected l d f with
        | none => s
        | some g =>
          let first := carries g && g.head
          let s := if first && g.escape then s.bump 0x4603 0x04 else s
          let s := if first && g.vc.val = 0 && decide (g.src.toNat < 24) then
              { s with requests := Tab.upd [] s.requests g.src.toNat (· ++ [g.txn.toNat]) } else s
          let s := s.sendFlit l d (entryPort g) g
          match (s.linkSide l d).buffer.getLast? with
          | some g => s.flitIn l d { g with crcOk := f.crcOk }
          | none => s

/-- LINK_RETRY_TIMEOUT: ACK has not advanced for 32 cycles, and the sender sends its retry buffer again, which the rows that follow deliver; four
resends within 1 ms start a lane retry (R253, R254). -/
def linkRetryTimeout (l d : Nat) (s : State) : State :=
  let k := s.linkSide l d
  if k.buffer.isEmpty || k.held || s.linkDown l then s
  else
    let recent := (k.retries.filter fun t => decide (s.now < t + 1000000)) ++ [s.now]
    (s.bump 0x4601 (l + 1)).updLink l d fun k =>
      { k with retries := if 4 ≤ recent.length then [] else recent, held := decide (4 ≤ recent.length) }

/-- LANE_RETRY: the held direction has tested its wires and mapped the failing ones to spares (R254). -/
def laneRetry (l d : Nat) (wires : List Nat) (s : State) : State :=
  let k := s.linkSide l d
  if !k.held then s
  else
    let failed := (k.failed ++ wires).eraseDups.filter (· < 8384)
    let good := 8384 - failed.length
    let width := wiresWidth good
    let v := linkValue (s.get 0x4600 (l + 1)) d good width
    let s := s.updLink l d fun k => { k with held := false, failed := failed }
    let s := if good = k.good then s
      else (s.fault { cls := 0x08, action := if width = 0 then 0x01 else if width = 1 then 0x02 else 0x00, link := l
                      detail := toLE 1 d ++ toLE 2 (k.good - good) ++ toLE 1 width }).count 0x4602 (l + 1) 64 (k.good - good)
    let s := s.change 0x4600 (l + 1) v
    if width = 2 then s else s.drain l d

/-- Bitmap of the links that are down. -/
def State.downLinks (s : State) : Nat := (List.range 38).foldl (fun v l => if s.linkDown l then v + 2 ^ l else v) 0

/-- Bitmap of the dead hubs. -/
def State.deadHubs (s : State) : Nat := (List.range 24).foldl (fun v h => if s.hub h = 2 then v + 2 ^ h else v) 0

/-- Whether a swap of route tables alone waits for its turn (R50, R263). -/
def State.routesAsked (s : State) : Bool := s.changes.any fun c => c.purpose = .routes

/-- Ask for route tables that fit what is dead, down or out of transit: a swap of the controller's own (R50, R263). -/
def State.askRoutes (s : State) : State := if s.routesAsked then s else { s with changes := s.changes ++ [⟨.routes, []⟩] }

/-- The route tables that will be in force: of the swap under way, where that is one of route tables (R263). -/
def State.tablesToCome (s : State) : List Nat :=
  let edits := if s.swap.purpose = .routes then s.maq else []
  (List.range 24).map fun h => Tab.get (s.get 0x2800 (h + 1)) edits (okey 0x2800 (h + 1))

/-- Route tables for what is dead or down, with the entry of the log (R263). -/
def State.reroute (s : State) (link : Nat) (follows : Nat := 0xFFFFFFFF) : State :=
  if s.unmanaged || s.routesAsked || s.tablesToCome = s.routeTables then s
  else (s.fault { cls := 0x09, action := 0x03, link := link, detail := toLE 4 s.deadHubs ++ toLE 8 s.downLinks
                  cause := follows }).askRoutes

/-! ### Resets of hubs -/

/-- The layers of a hub's stack enter self-refresh, or leave it where the module is not in Hold or Keep (R240, R241, R249). -/
def State.hubRefresh (s : State) (h : Nat) (on : Bool) : State :=
  let k := s.stackOn h
  (s.layersUp k).foldl (fun s l => s.setLayerField k l 6 1 (if on || decide (3 ≤ s.get 0x3300 0x01) then 1 else 0)) s

/-- The controller is to reset a hub: it asks for tables that take the hub out of transit (R241, R263). -/
def State.askReset (s : State) (h cause : Nat) : State :=
  if s.unmanaged || s.hub h ≠ 0 || Tab.get 0 s.hubResets h ≠ 0 then s
  else
    let before := s.get (0x4500 + s.stackOn h) 0x09
    { s with hubResets := Tab.set 0 s.hubResets h (1 + cause + 512 * before) }.askRoutes

/-- A hub that is out of transit is reset, its layers in self-refresh; nothing is lost in it (R241, R263). -/
def State.enterReset (s : State) (h : Nat) : State :=
  if s.hub h = 0 && Tab.get 0 s.hubResets h ≠ 0 then { s with hubs := Tab.set 0 s.hubs h 1 }.hubRefresh h true else s

/-- New route tables are in force: counted, hubs that leave transit by them are reset, held packets go on, and what waits for a way is carried
on (R241, R263, R275). -/
def State.routesActive (s : State) : State := ((List.range 24).foldl State.enterReset (s.countRare 0x4603 0x03)).releaseHeld.advanceGroups

/-- What is inside a dead hub is lost (R263). -/
def State.loseFlits (s : State) (h : Nat) : State :=
  let s := { s with arrived := s.arrived.filter fun e => e.1 % 32 ≠ h, requests := Tab.set [] s.requests h [] }
  [1, 2, 3, 4].foldl (fun s p => if (neighbour h p).isNone then s
    else s.updLink (linkAt h p) (portDir p) fun k => { k with waiting := [], packet := [], buffer := [], spent := [], freed := [] }) s

/-- A target of a swap is lost with its field or its hub: what it has not acknowledged is awaited no more (R53). -/
def State.loseTarget (s : State) (t : Nat) : State :=
  { s with swap := { s.swap with image := s.swap.image.erase t, go := s.swap.go.erase t, confirm := s.swap.confirm.erase t } }

/-- A hub is dead: its links are down, and what it serves cannot be reached (R53, R233, R263). -/
def State.hubDead (s : State) (h : Nat) (cause : Byte) (follows : Nat := 0xFFFFFFFF) : State :=
  ((({ s with hubs := Tab.set 0 s.hubs h 2, hubResets := Tab.set 0 s.hubResets h 0 }.loseTarget h).loseFlits h).loseStack (s.stackOn h) cause
    follows).endLost.watch

/-- The handshake of a hub's reset ends: it serves again, in transit by the tables that follow; one that does not come back is dead (R241, R263). -/
def State.resetDone (s : State) (h : Nat) (ok : Bool) : State :=
  if s.hub h ≠ 1 then s
  else
    let v := Tab.get 0 s.hubResets h
    let given := (s.get (0x4500 + s.stackOn h) 0x09 + 2 ^ 64 - v / 512) % 2 ^ 32
    let n := s.faultNext
    let s := s.fault { cls := 0x0A, action := if ok then 0x01 else 0x08, tile := h, detail := toLE 1 (v % 512 - 1) ++ toLE 4 given }
    let s := { s with hubResets := Tab.set 0 s.hubResets h 0 }
    if ok then ({ s with hubs := Tab.set 0 s.hubs h 0 }.hubRefresh h false).askRoutes.releaseHeld.advanceGroups
    else ({ s with fresh := s.fresh + 1 }.hubDead h (Config.deviceByte s.fresh) n).askRoutes

/-! ### Transactions -/

/-- The request of an engine is carried out now: its command does what it asks. -/
def runEngine (c e : Nat) (s : State) : State :=
  if e = fetchPort then commandFetch c [] s
  else
  match ((s.core c).started e).find? fun a => !a.done with
  | some a =>
    match a.q.cmd.opcode with
    | 0x07 => seqTimestamp c s
    | 0x10 | 0x13 | 0x14 => accessMove c a.q.cmd.opcode [] s
    | 0x11 => accessGather c [] s
    | 0x20 => if a.drained < a.streamed then passEnd c [] [] s else executeMm c [] s
    | 0x21 => if a.drained < a.streamed then passEnd c [] [] s else executeMmSeg c [] s
    | 0x22 => executeWload c [] s
    | 0x23 => executeMmW c [] [] s
    | 0x25 => executeMmF64 c [] [] s
    | 0x30 => fuseOut c [] s
    | 0x40 => vectorVop c [] s
    | 0x41 => vectorVred c [] s
    | 0x42 => vectorVtab c [] s
    | 0x50 => executeSend c [] s
    | 0x51 => if a.streamed = 0 then executeMcast c [] s else s.advanceGroups
    | 0x52 => if a.streamed = 0 then executeReduce c [] s else s.advanceGroups
    | 0x53 => executeRwrite c [] s
    | 0x54 => executeRread c [] s
    | _ => s
  | none => s

/-- A request at hand. -/
def State.txn (s : State) (r : Nat) : Option Txn := Tab.get none s.txns r

/-- Change a request. -/
def State.setTxn (s : State) (r : Nat) (t : Option Txn) : State := { s with txns := Tab.set none s.txns r t }

/-- A request is made again: it is carried out where every place it needs is reached, and waits on otherwise; one whose command is gone ends (R241, R242,
R259). -/
def State.atHub (s : State) (r : Nat) (t : Txn) : State :=
  let s := runEngine t.core t.engine (s.setTxn r (some { t with phase := 3 }))
  match s.txn r with
  | some u => if u.phase = 3 then s.setTxn r none else s
  | none => s

/-- RETRY_BACKOFF_EXPIRY: the requester issues the request again (R242). -/
def retryBackoffExpiry (r : Nat) (s : State) : State :=
  match s.txn r with
  | some t => if t.phase = 1 then s.atHub r t else s
  | none => s

/-- TRANSACTION_ARRIVAL: a request reaches its destination; one completed before is answered from the record (R259). -/
def transactionArrival (r : Nat) (s : State) : State :=
  match s.txn r with
  | some t => if t.phase = 0 then s.atHub r t else if t.phase = 2 then s.bump 0x4603 0x02 else s
  | none => s

/-- ARMATURE_RESEND_TIMEOUT: a request without a response is sent again, three times at most, then given up (R259). -/
def armatureResendTimeout (r : Nat) (s : State) : State :=
  match s.txn r with
  | some t =>
    if t.phase ≠ 0 then s
    else if t.resends < 3 then (s.setTxn r (some { t with resends := t.resends + 1 })).bump 0x4603 0x01
    else (s.failWaiting t (giveUpStatus t.address)).setTxn r none
  | none => s

def execRetryBackoffExpiry (r : RequestId) (s : State) : Host.Outcome State Fault Refusal := .next (retryBackoffExpiry r s)
def execFlitReceive (l : LinkId) (dir : Sys2Proof.LinkDir) (f : Flit) (s : State) : Host.Outcome State Fault Refusal :=
  .next (flitReceive l (LinkDir.code dir) f s)
def execLinkRetryTimeout (l : LinkId) (dir : Sys2Proof.LinkDir) (s : State) : Host.Outcome State Fault Refusal :=
  .next (linkRetryTimeout l (LinkDir.code dir) s)
def execLaneRetry (l : LinkId) (dir : Sys2Proof.LinkDir) (wires : List (BitVec 16)) (s : State) : Host.Outcome State Fault Refusal :=
  .next (laneRetry l (LinkDir.code dir) (wires.map (·.toNat)) s)
def execTransactionArrival (r : RequestId) (s : State) : Host.Outcome State Fault Refusal := .next (transactionArrival r s)
def execArmatureResendTimeout (r : RequestId) (s : State) : Host.Outcome State Fault Refusal := .next (armatureResendTimeout r s)

end Sys2Proof.Machine
end

