-- ==== Sys2Proof/Machine/Receive.lean ====
section
/-! DEFINITION. CTP packets that arrive (R297, R303 to R312): the header checks, connections opened and closed, sequence and
acknowledgement, the messages and what they do; and the timers of a connection. -/

namespace Sys2Proof.Machine

open Sys2Proof

/-! ### Header -/

/-- Flag bits of a header (R303). -/
def headerFlag (k : CtpPacket) (i : Nat) : Bool := bit k.flags.toNat i

/-- The packet at the front of a port's receive buffer, which drains in arrival order (R299), where it is of a type. -/
def State.frontPacket (s : State) (p type : Nat) : Option Arrival :=
  match (s.portOf p).buffer.head? with
  | some (_, some a) => if a.packet.type.toNat = type then some a else none
  | _ => none

/-- The frame at the front leaves the buffer (R299); XON follows once 24 MiB are free (R300), and connections that wait for credit are served (R310). -/
def State.takeFrame (s : State) (p : Nat) : State :=
  ((s.updPort p fun q => { q with buffer := q.buffer.tail }).sendXon p).serveProbes p

/-- Serve the packet at the front of a port's buffer, where it is of a type; each row of a message is one such service. -/
def State.serving (s : State) (p type : Nat) (f : Arrival → State → State) : State :=
  match s.frontPacket p type with
  | some a => f a (s.takeFrame p)
  | none => s

/-- The host port replaces SRC_MODULE with host_source_number once the CRC has passed (R297). -/
def State.sourced (s : State) (p : Nat) (k : CtpPacket) : CtpPacket :=
  if p = s.hostPort then { k with src := BitVec.ofNat 16 (s.get 0x2620 0x02) } else k

/-- Prefix rules of a window message (R311). -/
def prefixOk (k : CtpPacket) : Bool :=
  let b := k.payload
  let t := k.type.toNat
  let a := leAt b 0 8
  let arg := leAt b 8 4
  let kind := leAt b 12 1
  let gv := leAt b 13 1
  let gen := leAt b 14 2
  decide (16 ≤ b.length) && spaceOf a = 4 && winModule a = k.dst.toNat
    && (if t = 0x23 then decide (1 ≤ arg ∧ arg ≤ 8192) && b.length = 16
        else if t = 0x24 then decide (1 ≤ arg ∧ arg ≤ 8192) && b.length = 16 + arg
        else if t = 0x25 then b.length = 16 else arg = 0)
    && (if t = 0x25 then decide (kind ≤ 2) && decide (gv ≤ 1) && (gv = 0 || kind = 1) && (gv = 1 || gen = 0)
        else kind = 0 && gv = 0 && gen = 0)

/-- Whether a TYPE is listed (R305). -/
def knownType (t : Nat) : Bool := [0x01, 0x02, 0x03, 0x04, 0x10, 0x11, 0x12, 0x20, 0x21, 0x22, 0x23, 0x24, 0x25, 0x26, 0x30].contains t

/-- Payload of each type; a reserved code in it is a format error (R11, R305, R306, R311, R312). -/
def payloadOk (k : CtpPacket) (version : Nat) : Bool :=
  let n := k.payload.length
  match k.type.toNat with
  | 0x01 | 0x02 => n = 16 && leAt k.payload 15 1 = 0 && decide (leAt k.payload 14 1 ≤ 2) && decide (leAt k.payload 12 2 < 4096)
  | 0x03 => n = 0
  | 0x04 => if version = 2 then n % 8 = 0 && decide (n ≤ 128) else n = 0
  | 0x10 | 0x30 => true
  | 0x11 => n = 32
  | 0x12 => n = 64
  | 0x20 | 0x21 | 0x22 | 0x23 | 0x25 => prefixOk k
  | 0x24 => prefixOk { k with dst := BitVec.ofNat 16 (winModule (leAt k.payload 0 8)) }
  | 0x26 => n = 24 && zeroBytes k.payload 16 8 && decide (leAt k.payload 8 2 < 4096) && decide (leAt k.payload 11 1 ≤ 4)
      && (decide (1 ≤ leAt k.payload 10 1 ∧ leAt k.payload 10 1 ≤ 12) || decide (0x80 ≤ leAt k.payload 10 1 ∧ leAt k.payload 10 1 ≤ 0x81))
  | _ => false

/-- The rules of R11 on a header, for a version and payload limit (R302, R303). -/
def headerOk (k : CtpPacket) (version limit : Nat) : Bool :=
  k.version.toNat = version && decide (k.flags.toNat < 8) && (!headerFlag k 2 || headerFlag k 0) && decide (k.src.toNat < 4096)
    && decide (k.dst.toNat < 4096) && k.reserved = 0 && k.length.toNat = k.payload.length && decide (k.payload.length ≤ limit)
    && (decide (0x10 ≤ k.type.toNat) || k.psn = 0) && payloadOk k version

/-- A packet is discarded without response and counted (R304). -/
def State.dropPacket (s : State) (p : Nat) : State := s.bump (portObj p) 0x0D

/-- Whether a packet's source IPv6 address is the one that the peer table gives its SRC_MODULE; not asked on the host port (R304, R320). -/
def State.sourceOk (s : State) (p : Nat) (a : Arrival) : Bool :=
  let e := s.peerEntry a.packet.src.toNat
  p = s.hostPort || (e ≠ 0 && a.source.any fun x => x.toNat = bits e 0 128)

/-- The checks of R304 that need no connection: CRC, DST_MODULE, source address. -/
def State.addressed (s : State) (p : Nat) (a : Arrival) : Bool :=
  packetCrcOk a.packet && decide (a.packet.dst.toNat = s.moduleNo) && s.sourceOk p a

/-- The open connection a packet is for, if it passes every check of R304; its payload is bounded by the connection's limit and the port's (R302, R306). -/
def State.admitted (s : State) (p : Nat) (a : Arrival) : Option (Nat × Conn) :=
  let k := s.sourced p a.packet
  match s.conn k.conn.toNat with
  | none => none
  | some c =>
    if s.addressed p a && decide (1 ≤ c.phase) && headerOk k c.version (min c.limit (s.portLimit p c.ip4)) then some (k.conn.toNat, c) else none

/-! ### What messages do -/

/-- The window access a message asks for (R217, R311). -/
def accessIn (k : CtpPacket) : WinAccess :=
  let a := leAt k.payload 0 8
  let op := typeOp k.type.toNat
  { source := k.src.toNat, tag := k.jobTag.toNat, gen := k.gen.toNat, window := winNumber a, offset := winOffset a
    length := if op = 0 then leAt k.payload 8 4 else if op = 4 then 8 else k.payload.length - 16, op := op }

/-- The 24 bytes of a WIN_STATUS (R312). -/
def statusBytes (x : WinAccess) (reason off psn : Nat) : Bytes :=
  toLE 8 off ++ toLE 2 x.window ++ toLE 1 reason ++ toLE 1 x.op ++ toLE 4 psn ++ toLE 8 0

/-- A window write, reduce-add or read is checked and carried out, and answered where the rules ask for an answer (R218 to R222, R308, R312). -/
def State.actWindow (s : State) (n : Nat) (k : CtpPacket) (ups : List Upset) : State :=
  let x := accessIn k
  let r := s.windowAccess x (k.payload.drop 16) none ups
  match r.2 with
  | .ok bs => if x.op = 0 then (r.1.queueMessage n 0x24 0 0 (k.payload.take 16 ++ bs)).1 else r.1
  | .refused why off => (r.1.queueMessage n 0x26 0 0 (statusBytes x why off k.psn.toNat)).1

/-- A window signal is checked at the ring station of its port, enters the control plane there, and holds its connection until the object unit has applied
it; a refusal is answered at once (R218, R288, R308, R472). -/
def State.actSignal (s : State) (n p : Nat) (k : CtpPacket) : State :=
  let x := accessIn k
  let gen := if leAt k.payload 13 1 = 1 then some (leAt k.payload 14 2) else none
  let kind := leAt k.payload 12 1
  match s.windowSignal x with
  | (s, .inr (why, off)) => (s.queueMessage n 0x26 0 0 (statusBytes x why off k.psn.toNat)).1
  | (s, .inl o) =>
    let s := s.queueSignal ⟨syncCore o, syncIndex o, kind, if kind = 1 then 1 else leAt k.payload 8 4, gen, stopPort p (s.tileOf (syncCore o)), none
                            , .message n p k.psn.toNat, some x⟩
    s.updConn n fun c => { c with signalling := true }

/-- The RREAD whose message a WIN_READ_DATA answers: core, engine, place, command, message (R197). -/
def State.readAnswered (s : State) (n : Nat) (k : CtpPacket) : Option (Nat × Nat × Nat × Active × Pending) :=
  let a := leAt k.payload 0 8
  let len := leAt k.payload 8 4
  (List.range 22).findSome? fun c =>
    let l := Tab.get [] (s.core c).active 5
    ((List.range l.length).zip l).findSome? fun x =>
      if x.2.done ∨ x.2.q.cmd.opcode ≠ 0x54 then none
      else (x.2.messages.find? fun p => !p.answered && p.conn = n && p.length = len && x.2.q.cmd.word 3 + p.offset = a).map
        fun p => (c, 5, x.1, x.2, p)

/-- Read data arrives for an RREAD and is written to its local tensor (R197). -/
def State.actReadData (s : State) (n : Nat) (k : CtpPacket) (ups : List Upset) : State :=
  match s.readAnswered n k with
  | none => s
  | some x =>
    match x.2.2.2.1.tensor (x.2.2.2.1.q.cmd.desc 12) with
    | none => s
    | some t =>
      match s.scatter x.1 t x.2.2.2.2.offset (k.payload.drop 16) with
      | (s, none) => (s.writeUpsets t.imageRanges ups).answered x
      | (s, some e) => s.failTransfer x e.status e.detail e.addr

/-- The places in memory that a message reaches, once its window's own checks have passed (R218). -/
def State.messagePlaces (s : State) (n : Nat) (k : CtpPacket) : List Place :=
  if k.type.toNat = 0x24 then
    match s.readAnswered n k with
    | some x => s.places [] ((x.2.2.2.1.tensor (x.2.2.2.1.q.cmd.desc 12)).toList.map (·.base))
    | none => []
  else if [0x20, 0x21, 0x22, 0x23].contains k.type.toNat then
    let x := accessIn k
    let a := winTarget (s.window x.window) x.offset
    if (s.windowCheck x).isSome || spaceOf a = 2 then []
    else s.places (if x.op = 1 then [] else [a]) (if x.op = 0 then [] else [a])
  else []

/-- A refusal or a synchronisation error ends the command whose message it answers (R220, R312). -/
def State.actStatus (s : State) (n : Nat) (k : CtpPacket) : State :=
  let b := k.payload
  let reason := leAt b 10 1
  let addr := winAddr (s.sourceOf n) (leAt b 8 2) (leAt b 0 8)
  match s.awaiting fun p => p.conn = n && p.psn = leAt b 12 4 with
  | none => s
  | some x =>
    if reason = 0x80 then s.failTransfer x .syncKind 0 addr
    else if reason = 0x81 then s.failTransfer x .barrierOverrun 0 addr
    else s.failTransfer x .windowRefused reason addr

/-- A Tchikebel unit from its bytes (R42). -/
def unitOf (b : Bytes) : TchUnit :=
  let h := leAt b 0 16
  { version := BitVec.ofNat 8 (bits h 0 8), service := BitVec.ofNat 8 (bits h 8 8), transaction := BitVec.ofNat 16 (bits h 16 16)
    status := BitVec.ofNat 8 (bits h 32 8), response := bit h 40, maquette := bit h 41, envelope := bit h 42, last := bit h 43
    reserved := BitVec.ofNat 4 (bits h 44 4), length := BitVec.ofNat 16 (bits h 48 16), index := BitVec.ofNat 16 (bits h 64 16)
    subindex := BitVec.ofNat 8 (bits h 80 8), type := BitVec.ofNat 8 (bits h 88 8), param := BitVec.ofNat 32 (bits h 96 32)
    data := b.drop 16 }

/-- The bytes of a Tchikebel unit (R42). -/
def unitBytes (u : TchUnit) : Bytes :=
  [u.version, u.service] ++ toLE 2 u.transaction.toNat ++ [u.status]
    ++ toLE 1 ((if u.response then 1 else 0) + (if u.maquette then 2 else 0) + (if u.envelope then 4 else 0) + (if u.last then 8 else 0)
        + 16 * u.reserved.toNat)
    ++ toLE 2 u.length.toNat ++ toLE 2 u.index.toNat ++ [u.subindex, u.type] ++ toLE 4 u.param.toNat ++ u.data

/-- An in-band unit in clear is queued at the recovery controller (R308, R441); a request that repeats one still queued is discarded (R46), further
segments and acknowledgements of a transfer are no repeats (R45). -/
def State.actMgmt (s : State) (n p : Nat) (k : CtpPacket) : State :=
  let src : Source := { port := Fin.ofNat 19 p, peer := BitVec.ofNat 48 (k.src.toNat + n * 2 ^ 16), env := none }
  let u := unitOf k.payload
  let again := [0x01, 0x02, 0x03, 0x04].contains u.service.toNat
    && s.mgmt.any fun e => e.1 = src && e.2.transaction = u.transaction && e.2.service = u.service
  if k.payload.length < 16 || u.version ≠ 1 || again then s else { s with mgmt := s.mgmt ++ [(src, u)] }

/-- Items that the intake's input queue holds (R339; DEDUCED, log 93): those taken in whose journal writes have not ended. -/
def State.inputQueue (s : State) : Nat := (s.items.filter (·.state = 0)).length

/-- Whether a message waits for its destination: the hub of its target, or room in the intake's input queue (R241, R299, R339). -/
def State.mustWait (s : State) (n : Nat) (k : CtpPacket) : Bool :=
  (s.ringAway (s.messagePlaces n k)).isSome || (k.type.toNat = 0x10 && decide (4096 ≤ s.inputQueue))

/-- What a sequenced message does (R305). -/
def State.act (s : State) (n p : Nat) (k : CtpPacket) (ups : List Upset) : State :=
  match k.type.toNat with
  | 0x10 => s.takeWork n k.payload
  | 0x20 | 0x21 | 0x22 | 0x23 => s.actWindow n k ups
  | 0x25 => s.actSignal n p k
  | 0x24 => s.actReadData n k ups
  | 0x26 => s.actStatus n k
  | 0x30 => s.actMgmt n p k
  | _ => s

/-! ### Sequence -/

/-- The held packet that is next in order. -/
def Conn.nextHeld (c : Conn) : Option CtpPacket := c.held.find? fun k => k.psn.toNat = c.expect

/-- A message has been acted on: ACK_PSN passes it (R308). -/
def State.actedOn (s : State) (n : Nat) (k : CtpPacket) : State :=
  s.updConn n fun c => { c with held := c.held.erase k, expect := psnNext c.expect, owed := c.owed + 1, signalling := false }

/-- Act on every held packet that is next in order (R307), up to a signal on its way (R308) or a destination that does not answer. -/
def State.actHeld (s : State) (n p : Nat) (ups : List Upset) : Nat → State
  | 0 => s
  | f + 1 =>
    match s.conn n with
    | none => s
    | some c =>
      match c.nextHeld with
      | none => s
      | some k =>
        if c.signalling || s.mustWait n k then s
        else
          let s := s.act n p k ups
          if ((s.conn n).map (·.signalling)).getD false then s else (s.actedOn n k).actHeld n p ups f

/-- Whether a receiver keeps a packet: version 1 the next one, version 2 one at most a window ahead (R307). -/
def Conn.keeps (c : Conn) (psn : Nat) : Bool :=
  let d := psnDiff psn c.expect
  (if c.version = 1 then d = 0 else decide (0 ≤ d ∧ d ≤ (c.window : Int))) && !c.held.any fun k => k.psn.toNat = psn

/-- The acknowledgement, credit and resend request that a header carries (R309, R310). -/
def State.headerAck (s : State) (n : Nat) (k : CtpPacket) : State :=
  if !headerFlag k 0 then s
  else
    let s := s.ackReceived n k.ackPsn.toNat k.credit.toNat
    if headerFlag k 2 then (s.updConn n fun c => { c with timeouts := 0, timer := s.now }).resendAll n else s

/-- Acknowledge at once on request, or once 16 packets are owed (R308); a request at CREDIT 0 is a probe (R310). -/
def State.ackBack (s : State) (n : Nat) (request : Bool) : State :=
  match s.conn n with
  | none => s
  | some c =>
    if request then ((s.noteProbe n).sendAck n false).serveProbes c.port
    else if 16 ≤ c.owed then s.sendAck n false else s

/-- A sequenced packet that has passed the checks (R307); one kept ahead of the next expected is acknowledged at once, with SACK blocks
(R308). -/
def State.receiveMessage (s : State) (n p : Nat) (c : Conn) (k : CtpPacket) (ups : List Upset) : State :=
  let psn := k.psn.toNat
  let s :=
    if psnDiff psn c.expect < 0 then s.sendAck n false
    else if c.keeps psn then
      let s := (s.updConn n fun c => { c with held := c.held ++ [k] }).actHeld n p ups (c.held.length + 1)
      if psnDiff psn c.expect = 0 then s else s.sendAck n false
    else s.actHeld n p ups (c.held.length + 1)
  ((s.headerAck n k).ackBack n (headerFlag k 1)).closeIfIdle n

/-- Count the RETRY that a hub in reset answers to a ring station (R241, R242). -/
def State.ringRetry (s : State) (xs : List Place) : State :=
  match s.ringAway xs with
  | some x => if s.hub (s.hubOf x.at_) = 1 then s.countRetry (s.hubOf x.at_) else s
  | none => s

/-- Any sequenced message: the packet at the front of a port's buffer (R297, R304, R307). One that is next in order and whose destination does not
answer stays there, and holds back what is queued behind it (R299, R339). -/
def receive (type p : Nat) (ups : List Upset) (s : State) : State :=
  match s.frontPacket p type with
  | none => s
  | some a =>
    match s.admitted p a with
    | none => (s.takeFrame p).dropPacket p
    | some (n, c) =>
      let k := s.sourced p a.packet
      if k.psn.toNat = c.expect && c.keeps c.expect && s.mustWait n k then s.ringRetry (s.messagePlaces n k)
      else (s.takeFrame p).receiveMessage n p c k ups

/-! ### ACK, HELLO, HELLO_ACK, CLOSE -/

/-- The SACK blocks of an ACK. -/
def sacksOf (b : Bytes) : List (Nat × Nat) := (List.range (b.length / 8)).map fun i => (leAt b (8 * i) 4, leAt b (8 * i + 4) 4)

/-- Each packet that three SACKs have reported missing ahead of later ones is sent again (R309). -/
def State.takeSacks (s : State) (n : Nat) (bs : List (Nat × Nat)) : State :=
  match s.conn n with
  | none => s
  | some c =>
    let inBlock (m : Message) : Bool := bs.any fun b => decide (0 ≤ psnDiff m.psn b.1 ∧ psnDiff m.psn b.2 < 0)
    let isMissing (m : Message) : Bool := m.sent && !inBlock m && bs.any fun b => decide (psnDiff m.psn b.1 < 0)
    let q := c.queue.map fun m => if isMissing m then { m with missing := m.missing + 1 } else m
    let again := q.filter fun m => m.missing = 3
    let s := s.setConn n { c with queue := q.map fun m => if m.missing = 3 then { m with missing := 0 } else m }
    again.foldl (fun s m => s.resend n m) s

/-- ACK (R305, R309). -/
def receiveAck (p : Nat) (s : State) : State :=
  s.serving p 0x04 fun a s =>
    let k := s.sourced p a.packet
    match s.admitted p a with
    | none => s.dropPacket p
    | some (n, _) => (((s.headerAck n k).takeSacks n (sacksOf k.payload)).ackBack n (headerFlag k 1)).closeIfIdle n

/-- The highest version in two bitmaps (R306). -/
def commonVersion (a b : Nat) : Nat := if bit a 1 && bit b 1 then 2 else if bit a 0 && bit b 0 then 1 else 0

/-- A connection with what both ends offered (R306). -/
def Conn.negotiate (c : Conn) (versions : Nat) (own : Nat) (b : Bytes) : Conn :=
  let v := commonVersion versions (leAt b 0 2)
  { c with version := v, window := min (min own (leAt b 2 2)) (if v = 1 then 256 else 4096), limit := min c.limit (leAt b 10 2)
           peerConn := leAt b 12 2, expect := leAt b 4 4, credit := leAt b 8 2, creditInit := leAt b 8 2, asked := b }

/-- An answer to an offer on no connection of the module's (R306). -/
def State.answerOffer (s : State) (p peer conn : Nat) (b : Bytes) : State :=
  s.transmit p (s.packet { peer := peer, peerConn := conn } 0x02 0 0 0 0 b)

/-- A connection has opened from a source: the completions of its items that have no connection to go on go on this one (R306, R332). -/
def State.adoptItems (s : State) (n src : Nat) : State :=
  let lost (i : Item) : Bool := match s.conn i.conn with
    | some c => 2 ≤ c.phase && !i.sent
    | none => true
  { s with items := s.items.map fun i => if i.source = src && lost i then { i with conn := n } else i }

/-- HELLO: an offer is answered, and opens a connection or is refused (R306). An offer that repeats one already accepted is answered
as before. -/
def receiveHello (p : Nat) (s : State) : State :=
  s.serving p 0x01 fun a s =>
    let k := s.sourced p a.packet
    let b := k.payload
    let vs := s.get 0x2620 0x03
    if !(s.addressed p a && headerOk k 1 8208 && k.conn = 0xFFFF) then s.dropPacket p
    else match s.connList.find? fun e => e.2.peer = k.src.toNat && e.2.asked = b with
    | some e => s.answerOffer p k.src.toNat (leAt b 12 2) e.2.offer
    | none =>
      if commonVersion vs (leAt b 0 2) = 0 then s.answerOffer p k.src.toNat (leAt b 12 2) (offerBytes vs 0 0 0 0 0 1)
      else match s.freeConn with
      | none => s.answerOffer p k.src.toNat (leAt b 12 2) (offerBytes vs 0 0 0 0 0 2)
      | some n =>
        let psn := Config.initialPsn s.fresh % 2 ^ 32
        let ip4 := a.source.isNone
        let c : Conn := { phase := 1, peer := k.src.toNat, port := p, next := psn, acked := psn, limit := s.portLimit p ip4, ip4 := ip4 }
        let s := ({ s with fresh := s.fresh + 1 }.setConn n (c.negotiate vs s.windowOffer b)).drawCredit n
        let g := ((s.conn n).map (·.granted)).getD 0
        let offer := offerBytes vs s.windowOffer psn g (s.portLimit p ip4) n 0
        let s := s.updConn n fun c => { c with grantedInit := g, offer := offer }
        (s.answerOffer p k.src.toNat (leAt b 12 2) offer).adoptItems n k.src.toNat

/-- HELLO_ACK: the offer's answer opens the connection, or ends it (R306). -/
def receiveHelloAck (p : Nat) (s : State) : State :=
  s.serving p 0x02 fun a s =>
    let k := s.sourced p a.packet
    let b := k.payload
    match s.conn k.conn.toNat with
    | none => s.dropPacket p
    | some c =>
      if !(s.addressed p a && headerOk k 1 8208) then s.dropPacket p
      else if c.phase ≠ 0 then s
      else
        let d := c.negotiate (s.get 0x2620 0x03) c.window b
        if leAt b 14 1 ≠ 0 ∨ d.version = 0 then s.dropConn k.conn.toNat
        else (s.setConn k.conn.toNat { d with phase := 1, repeats := 0 }).pump k.conn.toNat

/-- CLOSE: the answer to the module's own, or the peer's, at once or once nothing is unacknowledged (R306). -/
def receiveClose (p : Nat) (s : State) : State :=
  s.serving p 0x03 fun a s =>
    let k := s.sourced p a.packet
    match s.admitted p a with
    | none => s.dropPacket p
    | some (n, c) =>
      if c.phase = 3 then s.dropConn n
      else ((s.headerAck n k).updConn n fun c => { c with phase := 2 }).closeIfIdle n

/-! ### Timers -/

/-- rto in nanoseconds (R320). -/
def State.rtoNs (s : State) : Nat := s.get 0x2620 0x04 * 1000

/-- CTP_RTO_EXPIRY: a wait of rto, doubled by each timeout before it up to 16 × rto, without progress resends, or fails the connection at retry_limit
(R309). -/
def ctpRtoExpiry (n : Nat) (s : State) : State :=
  match s.conn n with
  | none => s
  | some c =>
    match c.queue.filter (·.sent) with
    | [] => s
    | m :: r =>
      let s := { s with now := max s.now (c.timer + s.rtoNs * min 16 (2 ^ c.timeouts)) }
      let t := c.timeouts + 1
      if s.get 0x2620 0x05 ≤ t then s.dropConn n
      else (if c.version = 1 then m :: r else [m]).foldl (fun s m => s.resend n m) (s.setConn n { c with timeouts := t, timer := s.now })

/-- CTP_ACK_TIMER: 4 µs after the first unacknowledged packet acted on (R308). -/
def ctpAckTimer (n : Nat) (s : State) : State :=
  match s.conn n with
  | some c => if 0 < c.owed then s.sendAck n false else s
  | none => s

/-- Repeat HELLO or CLOSE every rto, up to retry_limit times; unanswered, the connection is given up (R306). -/
def State.repeatPacket (s : State) (n phase type : Nat) (payload : Conn → Bytes) : State :=
  match s.conn n with
  | none => s
  | some c =>
    if c.phase ≠ phase then s
    else
      let s := { s with now := max s.now (c.timer + s.rtoNs) }
      if s.get 0x2620 0x05 ≤ c.repeats then s.dropConn n
      else (s.setConn n { c with repeats := c.repeats + 1, timer := s.now }).sendPacket n type (if type = 3 then 1 else 0) 0 0 0 (payload c)

/-- CREDIT_PROBE: at CREDIT 0 the sender asks for credit every rto (R310). -/
def creditProbe (n : Nat) (s : State) : State :=
  match s.conn n with
  | some c =>
    if 1 ≤ c.phase ∧ c.credit = 0 ∧ (c.queue.any fun m => !m.sent) then
      let s := { s with now := max s.now (c.probeTimer + s.rtoNs) }
      (s.setConn n { c with probeTimer := s.now }).sendAck n true
    else s
  | none => s

/-! ### Signals at their objects -/

/-- A signal of a core has failed: the command that sent it stops its core, or is one more error of a core that has stopped; a core that its job has left
is told nothing (R152, R178, R283). -/
def State.signalFailed (s : State) (c e : Nat) (cmd : Cmd) (st : Status) (obj : Nat) : State :=
  let k := s.core c
  let r := errOf e cmd { status := st.code, addr := obj } s.now k.laterErrors
  if k.job = 0xFF ∨ 4 ≤ k.state then s else s.coreError c r false

/-- The message of a window signal has been acted on, with its result where that is not success, and its connection goes on (R221, R283, R308, R312). -/
def State.signalAnswered (s : State) (n p : Nat) (g : Signal) (x : WinAccess) (r : SignalResult) : State :=
  match s.conn n with
  | none => s
  | some c =>
    match c.nextHeld with
    | none => s
    | some k =>
      let answer (why : Nat) (s : State) : State := (s.queueMessage n 0x26 0 0 (statusBytes x why x.offset k.psn.toNat)).1
      let s := match r with
        | .ok => s
        | .kindError => answer 0x80 s
        | .overrun => answer 0x81 { s with remoteOverruns := Tab.upd 0 s.remoteOverruns x.source (· + 1) }
        | .refused => answer 0x01 (s.logRefusal x 0x01 x.offset)
      (((s.actedOn n k).actHeld n p [] c.held.length).ackBack n false).closeIfIdle n

/-- A signal's result reaches what sent it (R178, R220, R283, R289). -/
def State.signalResult (s : State) (g : Signal) (r : SignalResult) : State :=
  let obj := syncAddr g.core g.index
  match g.source with
  | .opcode c =>
    let s := match r, g.win with
      | .refused, some x => s.logRefusal x 0x01 x.offset
      | _, _ => s
    s.withSeq c 0x02 fun a s =>
      if r = .ok then s.seqDone c a
      else if r = .refused then s.seqFail c a (refusedError (a.q.cmd.word 2) 0x01 ((g.win.map (·.offset)).getD 0))
      else s.seqFail c a { status := r.status, addr := obj }
  | .header c e cmd => if r = .ok then s else s.signalFailed c e cmd r.status obj
  | .message n p _ => match g.win with
    | some x => s.signalAnswered n p g x r
    | none => s

/-- SIGNAL_ARRIVAL: the object unit takes the signals that stand at its ports, in port order, then evaluates waits once (R280). -/
def signalArrival (c ports : Nat) (s : State) : State :=
  let (s, rs) := s.signalCycle c (setPositions 5 ports)
  rs.foldl (fun s x => s.signalResult x.1 x.2) s

def execSignalArrival (c : CoreId) (ports : BitVec 5) (s : State) : Host.Outcome State Fault Refusal :=
  .next (signalArrival c ports.toNat s)
def execHello (p : PortId) (s : State) : Host.Outcome State Fault Refusal := .next (receiveHello p s)
def execHelloAck (p : PortId) (s : State) : Host.Outcome State Fault Refusal := .next (receiveHelloAck p s)
def execClose (p : PortId) (s : State) : Host.Outcome State Fault Refusal := .next (receiveClose p s)
def execAck (p : PortId) (s : State) : Host.Outcome State Fault Refusal := .next (receiveAck p s)
def execWork (p : PortId) (s : State) : Host.Outcome State Fault Refusal := .next (receive 0x10 p [] s)
def execWinSignal (p : PortId) (s : State) : Host.Outcome State Fault Refusal := .next (receive 0x25 p [] s)
def execWinStatus (p : PortId) (s : State) : Host.Outcome State Fault Refusal := .next (receive 0x26 p [] s)
def execMgmt (p : PortId) (s : State) : Host.Outcome State Fault Refusal := .next (receive 0x30 p [] s)
def execWinWrite (p : PortId) (ups : List Upset) (s : State) : Host.Outcome State Fault Refusal := .next (receive 0x20 p ups s)
def execWinReduceFp32 (p : PortId) (ups : List Upset) (s : State) : Host.Outcome State Fault Refusal := .next (receive 0x21 p ups s)
def execWinReduceInt64 (p : PortId) (ups : List Upset) (s : State) : Host.Outcome State Fault Refusal := .next (receive 0x22 p ups s)
def execWinReadReq (p : PortId) (ups : List Upset) (s : State) : Host.Outcome State Fault Refusal := .next (receive 0x23 p ups s)
def execWinReadData (p : PortId) (ups : List Upset) (s : State) : Host.Outcome State Fault Refusal := .next (receive 0x24 p ups s)
def execCtpRtoExpiry (n : ConnId) (s : State) : Host.Outcome State Fault Refusal := .next (ctpRtoExpiry n s)
def execCtpAckTimer (n : ConnId) (s : State) : Host.Outcome State Fault Refusal := .next (ctpAckTimer n s)
def execHelloRepeat (n : ConnId) (s : State) : Host.Outcome State Fault Refusal :=
  .next (s.repeatPacket n 0 0x01 (·.offer))
def execCloseRepeat (n : ConnId) (s : State) : Host.Outcome State Fault Refusal := .next (s.repeatPacket n 3 0x03 fun _ => [])
def execCreditProbe (n : ConnId) (s : State) : Host.Outcome State Fault Refusal := .next (creditProbe n s)

end Sys2Proof.Machine
end

