-- ==== Sys2Proof/Machine/Ports.lean ====
section
/-! DEFINITION. Ethernet ports: lanes and modes (R294, R295), links (R296), the host role (R298), receive buffers and flow control (R299, R300),
ring stations (R313), transceivers and their wear (R315 to R318, R463). -/

namespace Sys2Proof.Machine

open Sys2Proof

/-! ### Modes and lanes -/

/-- Configured mode of a port. -/
def State.portMode (s : State) (p : Nat) : Nat := s.get (s.portCfg p) 0x01

/-- Whether a mode uses all eight lanes (R294). -/
def eightLanes (m : Nat) : Bool := m = 1 || m = 2 || m = 4

/-- The narrowed mode of an 8-lane mode (R294). -/
def narrowMode (m : Nat) : Nat := if m = 1 then 3 else if m = 2 then 5 else if m = 4 then 6 else m

/-- Whether the four lanes of a group are all good. -/
def groupGood (lanes : Nat) (high : Bool) : Bool := bits lanes (if high then 4 else 0) 4 = 15

/-- Mode and lane group that a configured mode can run in with the lanes that are good (R294, R295). -/
def modeFor (m lanes : Nat) : Option (Nat × Bool) :=
  if m = 0 then none
  else if eightLanes m && lanes = 255 then some (m, false)
  else if groupGood lanes false then some (narrowMode m, false)
  else if groupGood lanes true then some (narrowMode m, true)
  else none

/-- Whether a port uses a lane. -/
def State.laneUsed (s : State) (p lane : Nat) : Bool :=
  eightLanes (s.get (portObj p) 0x02) || (decide (4 ≤ lane)) = (s.portOf p).highGroup

/-- Leave the up state: connections move at once (R296). -/
def State.leaveUp (s : State) (p state : Nat) : State :=
  let s := (s.change (portObj p) 0x01 state).updPort p fun q => { q with downSince := s.now }
  s.moveConns p

/-- Bitmap of the lanes that a mode uses on a lane group (R294). -/
def modeLanes (m : Nat) (high : Bool) : Nat := if eightLanes m then 0xFF else if high then 0xF0 else 0x0F

/-- Train a port in a mode and on a lane group, its transceiver's controls written for them (R315), or take it down where it can run in none. -/
def State.trainIn (s : State) (p : Nat) (m : Option (Nat × Bool)) : State :=
  match m with
  | some (m, high) =>
    let same := s.get (portObj p) 0x02 = m && (s.portOf p).highGroup = high
    let s := if same then s else s.emit (.lanes p m (modeLanes m high))
    ((s.put (portObj p) 0x02 m).updPort p fun q => { q with highGroup := high }).leaveUp p 1
  | none => (s.put (portObj p) 0x02 0).leaveUp p 0

/-- Train a port in its configured mode, or its narrowed one (R294, R313). -/
def State.trainPort (s : State) (p : Nat) : State := s.trainIn p (modeFor (s.portMode p) (s.get (portObj p) 0x03))

/-- The mode a port goes to without a lane it uses: its narrowed mode on the good group, or the other group (R295). -/
def State.modeWithout (s : State) (p : Nat) : Option (Nat × Bool) :=
  let lanes := s.get (portObj p) 0x03
  let m := narrowMode (s.get (portObj p) 0x02)
  if groupGood lanes false then some (m, false) else if groupGood lanes true then some (m, true) else none

/-- LANE_FAIL: it is logged and counted; where the port uses the lane, the port retrains without it, or goes down (R295). -/
def laneFail (p lane : Nat) (s : State) : State :=
  let lanes := s.get (portObj p) 0x03
  if !bit lanes lane || s.portState p = 0 || 4 ≤ s.portState p then s
  else
    let used := s.laneUsed p lane
    let s := s.put (portObj p) 0x03 (setBit lanes lane false)
    let m := if used then s.modeWithout p else some (s.get (portObj p) 0x02, (s.portOf p).highGroup)
    let s := s.fault { cls := 0x11, action := if used && m.isSome then 0x02 else 0x00, port := p
                       detail := toLE 1 lane ++ toLE 1 ((m.map (·.1)).getD 0) }
    let s := s.countRare (portObj p) 0x0A
    if used then s.trainIn p m else s

/-- The host role stands with F0 once that port is up (R298): H0 reads so. -/
def State.roleStands (s : State) (p : Nat) : State :=
  if p = 1 && (s.portOf 0).roleMoved then s.change (portObj 0) 0x01 5 else s

/-- PORT_LINK_UP: the port comes up in the mode it trained in, and its connections resend (R295, R296); H0 without its role is only ready (R298). -/
def portLinkUp (p : Nat) (s : State) : State :=
  if p = 0 && (s.portOf 0).roleMoved then s.updPort 0 fun q => { q with ready := true }
  else if s.portUp p then s
  else
    let s := if s.get (portObj p) 0x02 = 0 then s.trainPort p else s
    let m := s.get (portObj p) 0x02
    if m = 0 then s
    else
      let s := s.updPort p fun q => { q with afterReset := false }
      ((s.change (portObj p) 0x01 (if m = s.portMode p then 2 else 3)).portCameUp p).roleStands p

/-- PORT_DOWN_TIMEOUT: the link has not come up in time; after a reset of its station the port has failed (R295, R313). -/
def portDownTimeout (p : Nat) (s : State) : State :=
  if s.portState p ≠ 1 then s
  else
    let q := s.portOf p
    let s := { s with now := max s.now (q.downSince + (if q.afterReset then 20000000 else 10000000)) }
    (s.change (portObj p) 0x01 (if q.afterReset then 4 else 0)).watch

/-! ### The host role -/

/-- End every connection bound to a port. -/
def State.dropPort (s : State) (p : Nat) : State := s.connList.foldl (fun s e => if e.2.port = p then s.dropConn e.1 else s) s

/-- HOST_ROLE_MOVE: F0 takes over from H0, which has stayed down: its connections move, it takes H0's settings, and trains as the host port; H0 reads
so once it is up (R298). -/
def hostRoleMove (s : State) : State :=
  if s.get 0x2600 0x0A = 0 || (s.portOf 0).roleMoved || s.portUp 0 || s.portMode 0 = 0 then s
  else
    let s := if s.portState 0 = 4 then s else { s with now := max s.now ((s.portOf 0).downSince + 10000000) }
    let s := s.leaveUp 1 0
    ((s.dropPort 0).updPort 0 fun q => { q with roleMoved := true }).trainPort 1

/-- The host role returns to H0 (R298). -/
def State.returnRole (s : State) : State :=
  if s.portState 0 ≠ 5 || !(s.portOf 0).ready then s
  else
    let s := s.dropPort 1
    let s := (s.updPort 0 fun q => { q with ready := false, roleMoved := false }).change (portObj 0) 0x01 1
    (portLinkUp 0 s).trainPort 1

/-! ### Frames -/

/-- Send XOFF where flow control is on and less than 20 MiB are free (R300). -/
def State.sendXoff (s : State) (p : Nat) : State :=
  if p = s.hostPort && s.get 0x2600 0x06 ≠ 0 && !(s.portOf p).xoff && decide (12 * 2 ^ 20 < s.bufferUsed p) then
    ((s.updPort p fun q => { q with xoff := true }).emit (.xoff p s.flowPriorities)).bump (portObj p) 0x09
  else s

/-- A frame in the receive buffer, and the highest occupancy (R299, R321). -/
def State.bufferFrame (s : State) (p length : Nat) (k : Option Arrival) : State :=
  let s := s.updPort p fun q => { q with buffer := q.buffer ++ [(length, k)] }
  (s.put (portObj p) 0x08 (max (s.get (portObj p) 0x08) (s.bufferUsed p))).sendXoff p

/-- What leaves the buffer at once: a frame that carries no packet for the transport. -/
def State.unbufferFrame (s : State) (p length : Nat) : State :=
  (s.updPort p fun q => { q with buffer := q.buffer.erase (length, none) }).sendXon p

/-- Bits per nanosecond of a mode (R294). -/
def modeRate (m : Nat) : Nat := if m = 1 then 1600 else if m = 2 ∨ m = 3 then 800 else if m = 4 ∨ m = 5 then 400 else 200

/-- What a transmitter held is sent, as far as it is not stopped (R300). -/
def State.resumePort (s : State) (p : Nat) : State :=
  let ks := (s.portOf p).transmit
  ks.foldl (fun s k => s.transmit p k) (s.updPort p fun q => { q with transmit := [] })

/-- The pauses that a flow-control frame sets, by priority, 8 for all, in quanta, where flow_control heeds it (R300). -/
def State.pausesOf (s : State) (f : FlowFrame) : List (Nat × Nat) :=
  match s.get 0x2600 0x06, f with
  | 1, .pause q => [(8, q.toNat)]
  | 2, .pfc e ts => ((setPositions 8 e.toNat).filter fun i => bit (s.get 0x2600 0x07) i).map fun i => (i, (ts.getD i 0).toNat)
  | _, _ => []

/-- The transmitter stops for a number of quanta of 512 bit times, by priority under PFC; 0 ends a pause (R300). -/
def State.heedFlow (s : State) (p : Nat) (f : FlowFrame) : State :=
  let until_ (q : Nat) : Nat := if q = 0 then 0 else s.now + max 1 (q * 512 / modeRate (s.get (portObj p) 0x02))
  ((s.pausesOf f).foldl (fun s x => s.updPort p fun q => { q with paused := Tab.set 0 q.paused x.1 (until_ x.2) }) s).resumePort p

/-- The octets of the MAC address of M0 or M1, first in bits 7..0: the OUI of the factory header, and the low half that the Identity entry of the repair
record holds (R314, R424). -/
def State.macOf (s : State) (p : Nat) : Nat :=
  let id := (s.repair.factory ++ s.repair.inField.flatten).filter fun e => leAt e 8 1 = 0x0C
  let low := match id.getLast? with
    | some e => leAt e (26 + 3 * (p - 17)) 3
    | none => (Config.factoryMac (p - 17)).toNat
  Config.factoryOui.toNat + low * 2 ^ 24

/-- Whether M0 or M1 answers at an address: its own, or mgmt_multicast where that is set (R314). -/
def State.answersAt (s : State) (p mac : Nat) : Bool :=
  mac = s.macOf p || (s.get (0x2600 + p) 0x0C ≠ 0 && mac = s.get (0x2600 + p) 0x0C)

/-- A frame that has passed its FCS at a high-speed port, which has room for it (R297, R299, R300, R302, R304, R305): a packet of a known TYPE to
ctp_udp_port waits in the buffer; what carries none for the transport leaves it at once. -/
def State.takeIn (s : State) (p n : Nat) (k : FrameKind) : State :=
  let through := (s.bufferFrame p n none).unbufferFrame p n
  let drop := s.bump (portObj p) 0x07
  match k with
  | .udp port a =>
    if a.source.isNone && p ≠ s.hostPort then drop
    else if port.toNat ≠ s.get (0x2600 + p) 0x05 then through
    else if knownType a.packet.type.toNat then s.bufferFrame p n (some a) else through.dropPacket p
  | .ip4 => if p = s.hostPort then through else drop
  | .flow f => if p = s.hostPort then s.heedFlow p f else drop
  | .field _ | .other => through

/-- FRAME_RECEIVE: a frame at a port (R297, R299, R314, R321). -/
def frameReceive (p : Nat) (f : Frame) (s : State) : State :=
  if !s.portUp p then s
  else
    let s := s.bump (portObj p) 0x06
    let drop := s.bump (portObj p) 0x07
    if 17 ≤ p then
      match f.kind with
      | .field form => if f.fcsOk && s.answersAt p f.dest.toNat && [0x01, 0xE0, 0xE1].contains form.toNat then s else drop
      | _ => drop
    else
      let s := (s.count (portObj p) 0x04 64 f.fecCorrected.toNat).count (portObj p) 0x05 64 f.fecUncorrected.toNat
      if !f.fcsOk || decide (bufferBytes < s.bufferUsed p + cellsOf f.length.toNat) then s.bump (portObj p) 0x07
      else s.takeIn p f.length.toNat f.kind

/-- PAUSE_RECEIVE: a flow-control frame; a fabric port discards it (R297, R300). -/
def pauseReceive (p : Nat) (f : FlowFrame) (s : State) : State :=
  if !s.portUp p then s
  else
    let s := s.bump (portObj p) 0x06
    if p = s.hostPort then s.heedFlow p f else s.bump (portObj p) 0x07

/-- PAUSE_EXPIRY: the pause that ends first is over (R300). -/
def pauseExpiry (p : Nat) (s : State) : State :=
  match (s.portOf p).paused.map (·.2) with
  | [] => s
  | t :: r =>
    let t := r.foldl min t
    let s := { s with now := max s.now t }
    (s.updPort p fun q => { q with paused := q.paused.filter fun e => decide (t < e.2) }).resumePort p

/-- XOFF_REFRESH: XOFF again while space stays below 24 MiB (R300). -/
def xoffRefresh (p : Nat) (s : State) : State :=
  if !(s.portOf p).xoff then s
  else if 8 * 2 ^ 20 < s.bufferUsed p then (s.emit (.xoff p s.flowPriorities)).bump (portObj p) 0x09
  else s.sendXon p

/-- RING_STATION_RESET: the port goes down, buffers and queues are discarded, and the link retrains (R313). -/
def ringStationReset (p cause : Nat) (s : State) : State :=
  if s.unmanaged then s
  else
    let s := s.fault { cls := 0x12, action := 0x01, port := p, detail := toLE 1 cause }
    let s := s.countRare (portObj p) 0x0B
    let moved := s.portState p = 5
    let s := if moved then s else s.leaveUp p 0
    let s := s.updPort p fun q => { q with buffer := [], transmit := [], paused := [], xoff := false, afterReset := true, ready := false }
    if moved then s else s.trainPort p

/-! ### Transceivers -/

/-- A port's transceiver. -/
def State.xcvr (s : State) (p : Nat) : Xcvr := Tab.get {} s.xcvrs p

/-- Change a port's transceiver. -/
def State.updXcvr (s : State) (p : Nat) (f : Xcvr → Xcvr) : State := { s with xcvrs := Tab.upd {} s.xcvrs p f }

/-- Revisions that are fully managed (R316). -/
def managedRevision (r : Nat) : Bool := [0x40, 0x50, 0x52].contains r

/-- Set a bit of xcvr_state, which is evented. -/
def State.setXcvrState (s : State) (p i : Nat) (b : Bool) : State :=
  s.change (portObj p + 1) 0x08 (setBit (s.get (portObj p + 1) 0x08) i b)

/-- Place of a transceiver's wear record. -/
def State.wearPlace (s : State) (oui : Nat) (serial : Bytes) : Option Nat :=
  (List.range s.wear.length).find? fun i => match s.wear[i]? with
    | some w => w.oui = oui && w.serial = serial
    | none => false

/-- Keep a record for a transceiver: the one it has, or a new one in place of the one seen least recently (R317). -/
def State.keepWear (s : State) (oui : Nat) (serial : Bytes) : State :=
  if (s.wearPlace oui serial).isSome then s
  else
    let w : Wear := { oui := oui, serial := serial, first := s.now, last := s.now }
    if s.wear.length < 512 then { s with wear := s.wear ++ [w] }
    else
      let oldest := (s.wear.map (·.last)).foldl min s.now
      match s.wear.findIdx? fun w => w.last = oldest with
      | some i => { s with wear := s.wear.set i w }
      | none => s

/-- The wear record of a port's transceiver. -/
def State.wearOf (s : State) (p : Nat) : Option Wear := s.wear.find? fun w => w.oui = (s.xcvr p).oui && w.serial = (s.xcvr p).serial

/-- Change the wear record of a port's transceiver. -/
def State.updWear (s : State) (p : Nat) (f : Wear → Wear) : State :=
  { s with wear := s.wear.map fun w => if w.oui = (s.xcvr p).oui && w.serial = (s.xcvr p).serial then f w else w }

/-- Lane sums with one poll more. -/
def addBias (sums bias : List Nat) : List Nat := (List.range 8).map fun l => sums.getD l 0 + bias.getD l 0

/-- One second of service: means of the first 168 h and of each full 24 h, in whole CMIS units (R317; log 20). -/
def Wear.serve (w : Wear) (bias : List Nat) (now : Nat) : Wear :=
  let w := { w with seconds := w.seconds + 1, last := now }
  let w := if w.baseline.isEmpty then
      let sum := addBias w.baseSum bias
      if 168 * 3600 ≤ w.baseN + 1 then { w with baseline := sum.map (· / (w.baseN + 1)), baseSum := [], baseN := 0 }
      else { w with baseSum := sum, baseN := w.baseN + 1 }
    else w
  let sum := addBias w.daySum bias
  if 24 * 3600 ≤ w.dayN + 1 then { w with trend := sum.map (· / (w.dayN + 1)), daySum := [], dayN := 0 }
  else { w with daySum := sum, dayN := w.dayN + 1 }

/-- Whether a lane's ratio of trend to baseline reaches a percentage (R318). -/
def Wear.reaches (w : Wear) (l percent : Nat) : Bool :=
  let b := w.baseline.getD l 0
  b ≠ 0 && decide (percent * b ≤ 100 * w.trend.getD l 0)

/-- Percent of a lane's ratio, saturating at 255; 0 without a baseline (R321). -/
def Wear.ratio (w : Wear) (l : Nat) : Nat :=
  let b := w.baseline.getD l 0
  if b = 0 then 0 else min 255 (100 * w.trend.getD l 0 / b)

/-- Lanes good but for those retired; a port that uses one of these retrains without it (R318). -/
def State.dropLanes (s : State) (p retired : Nat) : State :=
  let lanes := s.get (portObj p) 0x03
  let lost := (setPositions 8 retired).filter fun l => bit lanes l
  let used := lost.any fun l => s.laneUsed p l
  let s := s.put (portObj p) 0x03 (lost.foldl (fun v l => setBit v l false) lanes)
  let s := if lost.isEmpty then s else s.emit (.lanes p (s.get (portObj p) 0x02) (s.get (portObj p) 0x03))
  if used && (s.portUp p || s.portState p = 1) then s.trainIn p (s.modeWithout p) else s

/-- An alarm on a lane under the retiring policy (R318): the lane is retired, or, where it cannot be excluded, left in use. -/
def State.wearAlarm (s : State) (p l percent : Nat) : State :=
  let lanes := setBit (s.get (portObj p) 0x03) l false
  let f : FaultInfo := { cls := 0x13, port := p, detail := toLE 1 l ++ toLE 1 percent }
  if s.get (0x2600 + p) 0x09 ≠ 1 then s
  else if s.laneUsed p l && !(groupGood lanes false || groupGood lanes true) then (s.fault f).setXcvrState p 5 true
  else ((s.fault { f with action := 0x02 }).updWear p fun w => { w with retired := setBit w.retired l true }).dropLanes p (2 ^ l)

/-- Warnings and alarms of a transceiver (R318). -/
def State.wearAlarms (s : State) (p : Nat) (w : Wear) (high : Nat) : State :=
  let warn := (List.range 8).foldl (fun v l => if w.reaches l (s.get 0x2620 0x06) then v + 2 ^ (8 + l) else v) 0
  let alarm := (List.range 8).filter fun l => w.reaches l (s.get 0x2620 0x07) || bit high l
  let hours := if s.get 0x2620 0x08 ≤ w.seconds / 3600 then 2 ^ 16 else 0
  let old := s.get (portObj p + 1) 0x07
  let s := s.change (portObj p + 1) 0x07 (warn + hours + alarm.foldl (fun v l => v + 2 ^ l) 0)
  (alarm.filter fun l => !bit old l).foldl (fun s l => s.wearAlarm p l (w.ratio l)) s

/-- The alarms that stand act under a policy that has begun to retire lanes (R318). -/
def State.standingAlarms (s : State) (p : Nat) : State :=
  (setPositions 8 (s.get (portObj p + 1) 0x07)).foldl (fun s l => s.wearAlarm p l (((s.wearOf p).map fun w => w.ratio l).getD 0)) s

/-- A transceiver not seen last: its identity is read, and its record begun or found (R315 to R318). -/
def State.newXcvr (s : State) (p : Nat) (d : Cmis) : State :=
  let r := d.revision.toNat
  let s := s.updXcvr p fun x => { x with revision := r, oui := d.oui.toNat, serial := d.serial, vendor := d.vendor, part := d.part
                                         dateCode := d.dateCode, capabilities := d.capabilities }
  let s := ((s.put (portObj p + 1) 0x01 r).put (portObj p + 1) 0x02 (ofLE d.serial)).put (portObj p + 1) 0x03 (ofLE d.part)
  let s := ((s.put (portObj p + 1) 0x04 0).put (portObj p + 1) 0x05 0).change (portObj p + 1) 0x07 0
  let s := (s.setXcvrState p 5 false).setXcvrState p 7 (!managedRevision r)
  let s := s.put (portObj p) 0x03 0xFF
  if managedRevision r then
    let s := s.keepWear d.oui.toNat d.serial
    s.dropLanes p (((s.wearOf p).map (·.retired)).getD 0)
  else s

/-- The wear of one poll (R317, R318). -/
def State.pollWear (s : State) (p : Nat) (d : Cmis) : State :=
  let bias := d.bias.map (·.toNat)
  let s := s.updWear p fun w => if d.highPower then w.serve bias s.now else { w with last := s.now }
  match s.wearOf p with
  | none => s
  | some w =>
    let s := s.put (portObj p + 1) 0x04 (w.seconds / 3600)
    let s := s.put (portObj p + 1) 0x05 ((List.range 8).foldl (fun v l => v + w.ratio l * 2 ^ (8 * l)) 0)
    s.wearAlarms p w d.biasHighAlarm.toNat

/-- XCVR_POLL: once per second while a transceiver is seated (R315, R316, R463). -/
def xcvrPoll (p : Nat) (d : Cmis) (s : State) : State :=
  let x := s.xcvr p
  if !x.present then s
  else if d.silent then
    let s := s.updXcvr p fun x => { x with silentPolls := x.silentPolls + 1 }
    if 5 ≤ x.silentPolls + 1 then s.setXcvrState p 6 true else s
  else
    let s := s.updXcvr p fun x =>
      { x with silentPolls := 0, identifier := d.identifier.toNat, moduleState := d.moduleState.toNat, moduleFlags := d.moduleFlags
               temperature := d.temperature.toNat, supply := d.supply.toNat, laneFlags := d.laneFlags }
    let s := s.setXcvrState p 6 false
    let s := if s.get (portObj p + 1) 0x01 = 0 || x.serial ≠ d.serial then s.newXcvr p d else s
    let lane (l : Nat) : Bytes := [d.bias, d.txPower, d.rxPower].flatMap fun v => toLE 2 (v.getD l 0).toNat
    let s := s.put (portObj p + 1) 0x06 (ofLE ((List.range 8).flatMap lane))
    if managedRevision d.revision.toNat then s.pollWear p d else s

/-- XCVR_PRESENT_EDGE: a transceiver is seated and polled from now on, or removed (R463). -/
def xcvrPresentEdge (p : Nat) (present : Bool) (s : State) : State :=
  if (s.xcvr p).present = present then s
  else if present then s.updXcvr p fun x => { x with present := true }
  else
    let s := s.updXcvr p fun _ => {}
    let s := [0x01, 0x02, 0x03, 0x04, 0x05, 0x06].foldl (fun s i => s.put (portObj p + 1) i 0) s
    (s.change (portObj p + 1) 0x07 0).change (portObj p + 1) 0x08 0

/-- Wear records are written to flash, every 6 h and before a reset or Keep (R317). -/
def State.flushWear (s : State) : State := { s with wearFlash := s.wear }

def execLaneFail (p : PortId) (lane : Fin 8) (s : State) : Host.Outcome State Fault Refusal := .next (laneFail p lane s)
def execPortLinkUp (p : PortId) (s : State) : Host.Outcome State Fault Refusal := .next (portLinkUp p s)
def execPortDownTimeout (p : PortId) (s : State) : Host.Outcome State Fault Refusal := .next (portDownTimeout p s)
def execHostRoleMove (s : State) : Host.Outcome State Fault Refusal := .next (hostRoleMove s)
def execFrameReceive (p : Fin 19) (f : Frame) (s : State) : Host.Outcome State Fault Refusal := .next (frameReceive p f s)
def execPauseReceive (p : PortId) (f : FlowFrame) (s : State) : Host.Outcome State Fault Refusal := .next (pauseReceive p f s)
def execPauseExpiry (p : PortId) (s : State) : Host.Outcome State Fault Refusal := .next (pauseExpiry p s)
def execXoffRefresh (p : PortId) (s : State) : Host.Outcome State Fault Refusal := .next (xoffRefresh p s)
def execRingStationReset (p : PortId) (cause : BitVec 8) (s : State) : Host.Outcome State Fault Refusal :=
  .next (ringStationReset p cause.toNat s)
def execXcvrPoll (p : PortId) (data : Cmis) (s : State) : Host.Outcome State Fault Refusal := .next (xcvrPoll p data s)
def execXcvrPresentEdge (p : PortId) (present : Bool) (s : State) : Host.Outcome State Fault Refusal := .next (xcvrPresentEdge p present s)
def execWearRecordFlush (s : State) : Host.Outcome State Fault Refusal := .next s.flushWear

end Sys2Proof.Machine
end

