-- ==== Sys2Proof/Machine/Maquette.lean ====
section
/-! DEFINITION. The maquette (R36, R49 to R58): its checks as a whole (R51), and what its objects do when it is swapped in (R56). -/

namespace Sys2Proof.Machine

open Sys2Proof

/-! ### The maquette as an active set -/

/-- Put one edit into the active set; a core entry of 0x4101 sets the tile of its entry in 0x4100 (R377). -/
def State.putEdit (s : State) (e : Nat × Nat) : State :=
  if e.1 / 256 = 0x4101 then s.put 0x4100 (e.1 % 256) e.2 else s.put (e.1 / 256) (e.1 % 256) e.2

/-- The state as it would be with the maquette active. -/
def State.withEdits (s : State) : State := s.maq.foldl State.putEdit s

/-- Logical cores whose entry the maquette changes (R23). -/
def State.changedCores (s : State) : List Nat :=
  (List.range 22).filter fun c => s.maq.any fun e => e.1 = okey 0x4101 (c + 1)

/-! ### The checks of R51 -/

/-- Core entries of cores in service that fail: a fenced tile; another core on the tile; a changed entry that does not take its tile out of the
pool, one that stays with its tile in the pool (R51, R377). -/
def State.badMap (s m : State) : List Nat :=
  ((List.range 22).filter fun c =>
    let h := m.tileOf c
    !m.coreOut c && (s.tileFenced h || s.tileInPool h ≠ s.changedCores.contains c
      || (List.range 22).any fun d => d ≠ c && m.tileOf d = h && !m.coreOut d)).map fun c => okey 0x4101 (c + 1)

/-- Stack entries on a lost field that are not lost themselves (R51). -/
def State.badStacks (m : State) : List Nat :=
  ((List.range 24).filter fun k => !m.stackLost k && bit m.lostFields (m.stackTile k)).map fun k => okey 0x4100 (k + 0x17)

/-- Whether a range of n bytes lies in one logical stack in service, below its 96 GiB (R340). -/
def State.rangeFits (s : State) (a n : Nat) : Bool :=
  decide (spaceOf a = 0 ∧ 1 ≤ n ∧ dramOffset a + n ≤ 0x1800000000) && !addrReserved a && !addrOut a && !s.stackLost (stackOf a)

/-- Whether an entry address of the job table is one (R340). -/
def entryOk (a : Nat) : Bool := a = 0 || (decide (spaceOf a ≤ 1) && addr64Ok a && a % 64 = 0)

/-- Objects of one job's record that fail (R51, R340). -/
def State.badJob (m : State) (j : Nat) : List Nat :=
  if m.jobGet j 0x01 = 0 then []
  else
    let cores := m.jobCores j
    let lead := cores.headD 22
    let coresBad := cores.isEmpty || cores.any fun c => m.coreOut c
    let entriesBad := (List.range 22).any fun c =>
      let a := m.jobEntry j c
      if cores.contains c && c ≠ lead then !entryOk a else a ≠ 0
    let rangesBad := (rangesOf (m.jobGet j 0x0B)).any fun r => !m.rangeFits r.1 r.2
    (if coresBad then [okey (0x2000 + j) 0x02] else []) ++ (if entriesBad then [okey (0x2000 + j) 0x0A] else [])
      ++ (if rangesBad then [okey (0x2000 + j) 0x0B] else [])

/-- Members, parents and flags of a group entry (R264). -/
def groupEntryMembers (v : Nat) : List Nat := setPositions 22 v

/-- Whether following PARENT from a member reaches the root (R265). -/
def reachesRoot (v root : Nat) : Nat → Nat → Bool
  | 0, _ => false
  | f + 1, c => c = root || (bit v c && bits v (64 + 5 * c) 5 ≠ c && reachesRoot v root f (bits v (64 + 5 * c) 5))

/-- Whether a group entry passes R265, its per-core limit apart. -/
def State.groupOk (m : State) (v : Nat) : Bool :=
  let ms := groupEntryMembers v
  let root := bits v 22 5
  let job := bits v 32 6
  m.jobGet job 0x01 = 1 && (ms.all fun c => (m.jobCores job).contains c) && ms.contains root && bits v (64 + 5 * root) 5 = root
    && (ms.all fun c => reachesRoot v root 22 c)
    && (ms.all fun p => decide ((ms.filter fun c => c ≠ root && bits v (64 + 5 * c) 5 = p).length ≤ 4))
    && ((List.range 22).all fun c => ms.contains c || bits v (64 + 5 * c) 5 = 0)
    && ms.all fun c => !m.coreOut c && m.hub (m.tileOf c) ≠ 2

/-- Entries of one group table that fail (R265). -/
def State.badGroups (m : State) (base : Nat) : List Nat :=
  let es := (Tab.range m.obj (okey base 1) 512).filter fun e => e.1 % 256 ≠ 0
  let crowded := (List.range 22).any fun c => decide (16 < (es.filter fun e => bit e.2 63 && bit e.2 c).length)
  (es.filter fun e => if bit e.2 63 then crowded || !m.groupOk e.2 else true).map (·.1)

/-- Whether n bytes at a lie in the union of some ranges, with as many steps as ranges. -/
def coveredGo (rs : List (Nat × Nat)) : Nat → Nat → Nat → Bool
  | 0, _, n => n = 0
  | f + 1, a, n =>
    if n = 0 then true
    else match rs.find? fun r => decide (r.1 ≤ a ∧ a < r.1 + r.2) with
      | some r => coveredGo rs f (r.1 + r.2) (n - min n (r.1 + r.2 - a))
      | none => false

/-- Whether a job's record grants n bytes at a (R216, R246). -/
def State.jobCovers (m : State) (j a n : Nat) : Bool :=
  match spaceOf a with
  | 0 => coveredGo (rangesOf (m.jobGet j 0x0B)) 16 a n
  | 1 => (m.jobCores j).contains (spCore a)
  | 2 => (m.jobCores j).contains (syncCore a)
  | _ => false

/-- Bytes of the target that a window covers, in its address space's own unit. -/
def winSpan (v : Nat) : Nat × Nat := (winBase v, if spaceOf (winBase v) = 2 then winLength v / 8 else winLength v)

/-- Whether an open window entry is within its listed range (R216). -/
def State.windowOk (m : State) (v : Nat) : Bool :=
  let a := winBase v
  let n := winLength v
  let r := winRights v
  let place := match spaceOf a with
    | 0 => m.rangeFits a n && r < 8
    | 1 => addr64Ok a && decide (spOffset a + n ≤ 2 ^ 26) && r < 8
    | 2 => addr64Ok a && n % 8 = 0 && decide (syncIndex a + n / 8 ≤ 16384) && [1, 8, 9].contains r
    | _ => false
  place && decide (1 ≤ n) && r ≠ 0 && decide (winSrcLo v ≤ winSrcHi v) && m.jobGet (winOwner v) 0x01 = 1 && m.jobCovers (winOwner v) a n

/-- Window entries of the active set that are not all zero: key and value. -/
def State.windowEntries (m : State) : List (Nat × Nat) :=
  (Tab.range m.obj (okey 0x2400 0) (32 * 256)).filter fun e => e.1 % 256 ≠ 0

/-- Window entries that fail (R215, R216). -/
def State.badWindows (m : State) : List Nat :=
  let es := m.windowEntries
  let writes (v : Nat) : Bool := bits (winRights v) 1 2 ≠ 0
  let clash (x y : Nat × Nat) : Bool :=
    x.1 ≠ y.1 && winValid y.2 && winOwner x.2 = winOwner y.2 && (writes x.2 || writes y.2)
      && rangesMeet (winSpan x.2).1 (winSpan x.2).2 (winSpan y.2).1 (winSpan y.2).2
  (es.filter fun e => if winValid e.2 then !m.windowOk e.2 || es.any (clash e) else true).map (·.1)

/-- Stream entries that fail: no limit while valid, or cleared with items outstanding (R322, R341). -/
def State.badStreams (s m : State) : List Nat :=
  (((List.range s.maq.length).zip s.maq).filterMap fun x =>
    let k := x.2.1
    let i := k / 256
    if i < 0x2500 ∨ 0x2520 ≤ i ∨ k % 256 = 0 then none
    else
      let st := (i - 0x2500) * 128 + (k % 256 - 1)
      let v := m.streamEntry st
      let limit := bits v 32 32
      if bit v 64 then (if limit = 0 ∨ 1048576 < limit then some k else none)
      else if s.streamItems st ≠ 0 then some k else none)

/-- Layouts that R199 does not allow. -/
def State.badLayouts (m : State) : List Nat :=
  ((List.range 22).filter fun c => !layoutOk (m.get (coreObj c + 1) 0x01)).map fun c => okey (coreObj c + 1) 0x01

/-- Mirror entries that fail (R246). -/
def State.badMirrors (m : State) : List Nat :=
  let es := Tab.range m.obj (okey 0x2700 1) 64
  let two := 2 ^ 21
  let spans (v : Nat) : List (Nat × Nat) := [(bits v 0 64, bits v 128 37), (bits v 64 64, bits v 128 37)]
  let ok (e : Nat × Nat) : Bool :=
    let v := e.2
    let p := bits v 0 64
    let r := bits v 64 64
    let n := bits v 128 37
    let job := bits v 200 6
    p % two = 0 && r % two = 0 && n % two = 0 && m.rangeFits p n && m.rangeFits r n && m.jobGet job 0x01 = 1 && m.jobCovers job p n
      && m.jobCovers job r n && stackOf p ≠ stackOf r && !rangesMeet p n r n
      && (es.all fun f => f.1 = e.1 || !bit f.2 192 || (spans v).all fun x => (spans f.2).all fun y => !rangesMeet x.1 x.2 y.1 y.2)
      && m.windowEntries.all fun w => !(winValid w.2 && bits (winRights w.2) 1 2 ≠ 0 && rangesMeet (winBase w.2) (winLength w.2) r n)
  (es.filter fun e => if bit e.2 192 then !ok e else true).map (·.1)

/-- stack_interleave fails where it names a stack without exactly one lost layer; and, the spec giving no way back, where it no longer names one that
interleaves over two layers and has them still (R234; DESIGN CHOICE, log 100). -/
def State.badInterleave (s m : State) : List Nat :=
  let one (k : Nat) : Bool := !s.stackLost k && (s.layersUp k).length = 2
  if (List.range 24).any fun k => if m.twoLayer k then !one k else s.twoLayer k && one k then [okey 0x2701 0x03] else []

/-- Step areas and commit mirror areas that fail (R361). -/
def State.badAreas (m : State) : List Nat :=
  (List.range 22).flatMap fun c =>
    let i := coreObj c + 2
    let bad (a n : Nat) : Bool := a ≠ 0 && (a % 2 ^ 21 ≠ 0 || !m.rangeFits a n)
    (if bad (m.get i 0x01) (3 * m.get i 0x02 * 2 ^ 20) then [okey i 0x01] else [])
      ++ (if bad (m.get i 0x03) 0x4021000 then [okey i 0x03] else [])

/-- Every object that fails the check of the maquette as a whole (R51). -/
def State.maquetteBad (s : State) : List Nat :=
  let m := s.withEdits
  s.badMap m ++ m.badStacks ++ (List.range 64).flatMap m.badJob ++ m.badGroups 0x2200 ++ m.badGroups 0x2300 ++ m.badWindows
    ++ s.badStreams m ++ m.badLayouts ++ m.badMirrors ++ s.badInterleave m ++ m.badAreas

/-- The first object that fails, in index order (R51). -/
def State.maquetteFirstBad (s : State) : Option Nat :=
  match s.maquetteBad with
  | [] => none
  | k :: r => some (r.foldl min k)

/-! ### What swapped objects do -/

/-- Presented widths of a tile, one in each 16 bits (R104, R164). -/
def State.widthsOf (s : State) (h : Nat) : Nat := (List.range 4).foldl (fun v a => v + s.arrayWidth h a * 2 ^ (16 * a)) 0

/-- The core map's entry of the repair record (R424, R427). -/
def State.recordMap (s : State) : State :=
  s.appendRepair 0x0B 0xFF ((List.range 22).map fun c => BitVec.ofNat 8 (s.tileOf c + (if s.coreOut c then 128 else 0)))

/-- A tile returns to the pool when no core needs it, unless it is fenced or its field is lost (R19). -/
def State.returnTile (s : State) (h : Nat) : State :=
  if s.tileFenced h || bit s.lostFields h then s else s.put 0x4100 0x2F (setBit (s.get 0x4100 0x2F) h true)

/-- The pool without a tile; a run of a suspect step on it is abandoned (R19, R351). -/
def State.takeTile (s : State) (h : Nat) : State := (s.abandonRun h).put 0x4100 0x2F (setBit (s.get 0x4100 0x2F) h false)

/-- A core has moved from one tile to another, or to none (R19, R105, R377). -/
def State.coreMoved (s : State) (c old : Nat) : State :=
  let h := s.tileOf c
  let s := if old = h then s else s.returnTile old
  if s.coreOut c then (s.setCoreState c 6).watch
  else
    let s := (s.takeTile h).put (coreObj c) 0x05 (s.widthsOf h)
    if (s.core c).state = 5 ∨ (s.core c).state = 6 then s.setCoreState c 0 else s

/-- Close every connection (R306). -/
def State.closeAll (s : State) : State := s.connList.foldl (fun s e => s.dropConn e.1) s

/-- A job-table entry becomes valid or is cleared (R340). -/
def State.jobDefined (s : State) (j old : Nat) : State :=
  if s.jobGet j 0x01 = old then s
  else if s.jobGet j 0x01 = 1 then s.setJobState j 1
  else { s.setJobState j 0 with jobs := Tab.set {} s.jobs j {} }

/-- The peer table names a module no more: the module closes its connections to it (R306, R320; DESIGN CHOICE, log 94). -/
def State.closePeer (s : State) (m : Nat) : State :=
  s.connList.foldl (fun s e => if e.2.peer = m && e.2.port ≠ s.hostPort then s.beginClose e.1 else s) s

/-- The owner clears a retired lane by rewriting a port's wear_policy (R318). -/
def State.clearRetired (s : State) (p : Nat) : State :=
  let retired := ((s.wearOf p).map (·.retired)).getD 0
  let s := s.updWear p fun w => { w with retired := 0 }
  (s.put (portObj p) 0x03 ((setPositions 8 retired).foldl (fun v l => setBit v l true) (s.get (portObj p) 0x03))).setXcvrState p 5 false

/-- What one object does at the swap, with its value before (R56). -/
def State.swapped (s : State) (idx sub old : Nat) : State :=
  if idx = 0x4101 then s.coreMoved (sub - 1) (bits old 0 5)
  else if 0x8000 ≤ idx ∧ idx < 0x8B00 ∧ idx % 0x80 = 1 ∧ sub = 1 then
    let c := (idx - 0x8000) / 0x80
    if s.layoutFree c then s.applyLayout c else s
  else if 0x2000 ≤ idx ∧ idx < 0x2040 ∧ sub = 1 then s.jobDefined (idx - 0x2000) old
  else if 0x2500 ≤ idx ∧ idx < 0x2520 then
    let st := (idx - 0x2500) * 128 + (sub - 1)
    if bit old 64 = s.streamOpen st then s else s.updStream st fun _ => if s.streamOpen st then { next := 1 } else {}
  else if idx = 0x2700 then s.swapMirror (sub - 1) (mirrorEntry old) (mirrorEntry (s.get idx sub))
  else if idx = 0x2701 ∧ sub = 3 then
    ((List.range 24).filter fun k => s.twoLayer k && !bit old k).foldl (fun s k => s.reformat k) s
  else if 0x2600 ≤ idx ∧ idx < 0x2611 ∧ sub = 1 then
    let p := if idx = 0x2600 ∧ s.hostPort = 1 then 1 else idx - 0x2600
    (s.put (portObj p) 0x03 (0xFF - ((s.wearOf p).map (·.retired)).getD 0)).trainPort p
  else if 0x2600 ≤ idx ∧ idx < 0x2611 ∧ sub = 9 then
    let p := idx - 0x2600
    let s := s.clearRetired p
    if old = 0 ∧ s.get idx sub = 1 then s.standingAlarms p else s
  else if idx = 0x2600 ∧ sub = 0x0A then if old = 0 then s.returnRole else s
  else if idx = 0x2620 ∧ sub = 1 then s.closeAll
  else if 0x2640 ≤ idx ∧ idx < 0x2660 then (if s.get idx sub = 0 then s.closePeer ((idx - 0x2640) * 128 + (sub - 1)) else s)
  else s

/-- The maquette becomes the active set, and each object that differs takes effect (R22, R56, R58). -/
def State.applyEdits (s : State) : State :=
  let edits := s.maq
  let old := edits.map fun e => (e.1, s.get (e.1 / 256) (e.1 % 256))
  let moved := s.changedCores ≠ []
  let again := s.rewritten
  let s := { edits.foldl (fun s e =>
    s.change (if e.1 / 256 = 0x4101 then 0x4100 else e.1 / 256) (e.1 % 256) e.2) s with maq := [], rewritten := [] }
  let old := old ++ again.map fun k => (k, s.get (k / 256) (k % 256))
  let s := old.foldl (fun s e => s.swapped (e.1 / 256) (e.1 % 256) e.2) s
  if moved then s.recordMap else s

end Sys2Proof.Machine
end

