-- ==== Sys2Proof/Machine/PowerStates.lean ====
section
/-! DEFINITION. Power states (R393, R394, R211): Run, Idle, Rest, Hold and Keep. Hold and Keep are entered and left as the scratchpad groups
complete their own transitions. -/

namespace Sys2Proof.Machine

open Sys2Proof

/-- power_state (R403): 0 Run, 1 Idle, 2 Rest, 3 Hold, 4 Keep. -/
def State.powerState (s : State) : Nat := s.get 0x3300 0x01

/-- Set power_state: stamped, and evented except for Idle (R403). -/
def State.setPowerState (s : State) (v : Nat) : State :=
  let old := s.powerState
  if old = v then s
  else if v = 1 || (old = 1 && v = 0) then s.put 0x3300 0x01 v
  else (s.put 0x3300 0x02 s.now).change 0x3300 0x01 v

/-- Wait deadlines do not run down while tile clocks are stopped (R286, R394). -/
def State.freezeWaits (s : State) : State :=
  { s with waits := s.waits.map (Wait.freeze s.now) }

/-- Tile clocks run again (R286, R394); the waits of a core that is borrowed stand still (R351). -/
def State.thawWaits (s : State) : State :=
  { s with waits := s.waits.map fun w => if s.lent w.core then w else w.thaw s.now }

/-- Take down the high-speed ports of a list that are not down, failed or without their role. -/
def State.dropLinks (s : State) (ps : List Nat) : State :=
  ps.foldl (fun s p => if [1, 2, 3].contains (s.portState p) then s.leaveUp p 0 else s) s

/-- Train the high-speed ports that are down (R394, R420). -/
def State.trainDown (s : State) : State := (List.range 17).foldl (fun s p => if s.portState p = 0 then s.trainPort p else s) s

/-- Set or clear bit 6 of each layer in service: self-refresh (R240, R249). -/
def State.selfRefresh (s : State) (on : Bool) : State :=
  (List.range 24).foldl (fun s k => (s.layersUp k).foldl (fun s l => s.setLayerField k l 6 1 (if on then 1 else 0)) s) s

/-- Tiles that carry TC power outside Hold and Keep: neither fenced nor in a lost field. -/
def State.tileServes (s : State) (h : Nat) : Bool := !s.tileFenced h && !bit s.lostFields h

/-- tile_step of every tile: 0xFF with TC off, step 0 when TC comes on (R394, R417). -/
def State.showSteps (s : State) (on : Bool) : State :=
  (List.range 24).foldl (fun s h => s.put 0x3101 (h + 1) (if on && s.tileServes h then 0 else 0xFF)) s

/-- Save the energy counter in flash (R386). -/
def State.flushEnergy (s : State) : State := { s with power := { s.power with energyFlash := s.get 0x3040 0x01 } }

/-! ### Rest -/

/-- Enter Rest: H0 stays up, the other high-speed ports go down (R393). -/
def State.enterRest (s : State) : State :=
  ((s.dropLinks ((List.range 17).filter (· ≠ s.hostPort))).freezeWaits).setPowerState 2

/-- Leave Rest (R394). -/
def State.leaveRest (s : State) : State := if s.powerState = 2 then (s.thawWaits.trainDown).setPowerState 0 else s

/-! ### Hold and Keep -/

/-- Where a group in transition is going, for the states held before Hold or Keep. -/
def settledCode (goal v : Nat) : Nat := if v = 1 ∨ v = 2 then goal else if v = 5 then 0 else v

/-- Close the groups of a core and let them drain toward retention or off; in Keep those in retention and those that drain go off too. One that wakes
follows once it is on (R211). -/
def State.lowerGroups (s : State) (c goal : Nat) : State :=
  let gs := s.groupsIn c (if goal = 4 then [0, 3] else [0])
  let drain := if goal = 4 then gs ++ s.groupsIn c [1, 2] else gs
  let s := s.updCore c fun k =>
    { k with groupsBefore := some (k.groupsBefore.getD ((List.range 8).foldl
               (fun v g => v + settledCode (Tab.get 3 k.groupGoal g) (s.groupState c g) * 16 ^ g) 0))
             groupGoal := drain.foldl (fun t g => Tab.set 0 t g goal) k.groupGoal }
  s.passGroups c gs [1, 2]

/-- Groups that have woken while Hold or Keep is entered go on into it (R211). -/
def State.lowerWoken (s : State) (c : Nat) : State :=
  match s.entering with
  | some goal => if 3 ≤ goal then s.lowerGroups c goal else s
  | none => s

/-- Begin to enter Hold (3) or Keep (4): Keep saves wear and energy in flash first; latches become invalid (R100, R317, R386, R393). -/
def State.enterLow (s : State) (goal : Nat) : State :=
  let s := if goal = 4 then s.flushWear.flushEnergy else s
  let s := { (s.dropLinks (List.range 17)).freezeWaits with entering := some goal }
  let s := (s.selfRefresh true).showSteps false
  (List.range 22).foldl (fun s c => (s.lowerGroups c goal).updCore c fun k => { k with latch := none }) s

/-- Begin to leave Hold or Keep, toward Run (0) or Rest (2): groups that were on wake (R211). -/
def State.leaveLow (s : State) (goal : Nat) : State :=
  let s := { s.selfRefresh false with entering := some goal }
  (List.range 22).foldl (fun s c =>
    let before := (s.core c).groupsBefore.getD 0
    s.wakeGroups c ((List.range 8).filter fun g => bits before (4 * g) 4 = 0)) s

/-- Hold or Keep has been left: groups are as they were before, every tile restarts at step 0 (R211, R394). -/
def State.endLow (s : State) (goal : Nat) : State :=
  let s := (List.range 22).foldl (fun s c => match (s.core c).groupsBefore with
    | some b => (s.setGroups c fun g v => if v = 0 then 0 else bits b (4 * g) 4).updCore c fun k => { k with groupsBefore := none }
    | none => s) s
  let s := (((s.showSteps true).thawWaits.trainDown).setPowerState 0).change 0x1010 0 4
  if goal = 2 then s.enterRest else s

/-- The state under way is reached once no group is in transition (R211, R393). -/
def State.settlePower (s : State) : State :=
  match s.entering with
  | none => s
  | some g =>
    if (List.range 22).any s.groupsMoving then s
    else
      let s := { s with entering := none }
      if 3 ≤ g then (s.setPowerState g).change 0x1010 0 6 else s.endLow g

/-! ### Requests -/

/-- Whether a job or a swap keeps the module out of the lower states (R394). -/
def State.powerHeld (s : State) : Bool :=
  (List.range 64).any (fun j => [2, 3, 5].contains (s.jobState j)) || [1, 2].contains (s.get 0xF000 0x02)

/-- A request to enter Rest, Hold or Keep, with the status of its answer (R394). -/
def State.enterPower (s : State) (v : Nat) : State × Nat :=
  if s.powerState = v && s.entering.isNone then (s, 0)
  else if s.powerHeld then (s, 0x09)
  else if s.entering.isSome then (s, 0x08)
  else if v = 2 then (if 3 ≤ s.powerState then s.leaveLow 2 |>.settlePower else s.leaveIdle.enterRest, 0)
  else if v = 3 && s.powerState = 4 then (s.setPowerState 3, 0)
  else ((((s.leaveIdle).thawWaits).enterLow v).settlePower, 0)

/-- A request of 0x00 or 0x01: the module returns to Run (R394). -/
def State.leavePower (s : State) : State × Nat :=
  if s.entering.isSome then (s, 0x08)
  else if 3 ≤ s.powerState then ((s.leaveLow 0).settlePower, 0)
  else (s.leaveIdle.leaveRest, 0)

/-- A write of power_state_request (R62, R394). -/
def State.powerRequest (s : State) (v : Nat) : State × Nat := if v ≤ 1 then s.leavePower else s.enterPower v

/-! ### Rows -/

/-- Whether an array of a core streams operands. -/
def Core.streams (k : Core) : Bool :=
  (k.started 2).any fun a => !a.done && !a.draining && [0x20, 0x21, 0x23, 0x25].contains a.q.cmd.opcode

/-- IDLE_ENTRY: no array has streamed for 10 µs (R393). -/
def idleEntry (s : State) : State :=
  if s.powerState ≠ 0 || s.entering.isSome || s.cores.any (fun e => e.2.streams) then s else s.setPowerState 1

def execIdleEntry (s : State) : Host.Outcome State Fault Refusal := .next (idleEntry s)
def execGroupDrainEnd (c : CoreId) (s : State) : Host.Outcome State Fault Refusal := .next (groupDrainEnd c s).settlePower
def execGroupWakeEnd (c : CoreId) (s : State) : Host.Outcome State Fault Refusal := .next ((groupWakeEnd c s).lowerWoken c).settlePower

end Sys2Proof.Machine
end

