-- ==== Sys2Proof/Machine/Recovery.lean ====
section
/-! DEFINITION. Fences (R17, R365), the choice of a pool tile (R366), rollback (R367, R368, R372) and the loss of a field (R371). -/

namespace Sys2Proof.Machine

open Sys2Proof

/-! ### Quiescence (R57, R157) -/

/-- Whether a signal comes from a core of a list. -/
def Signal.ofCores (g : Signal) (cs : List Nat) : Bool :=
  match g.source with
  | .header c _ _ | .opcode c => cs.contains c
  | .message _ _ _ => false

/-- Whether a job is at a quiescent point: each of its cores has ended at a STEP_COMMIT or an END, which a signal of theirs still on its way would
not be complete without, or the job does not run (R57, R281, R292). -/
def State.jobQuiet (s : State) (j : Nat) : Bool :=
  let cs := s.jobCores j
  ! [2, 3].contains (s.jobState j) || (cs.all fun c =>
    let k := s.core c
    [0, 3, 5, 6].contains k.state && (List.range 6).all fun e => (k.queue e).isEmpty && (k.started e).isEmpty)
      && !s.signals.any fun g => g.ofCores cs

/-- A quiesce request reaches a job that runs (R157). -/
def State.askQuiesce (s : State) (j : Nat) : State := if s.jobState j = 2 then s.setJobState j 3 else s

/-- Once no quiesce request stands, a job goes on: its quiesced cores resume from their PCs (R57, R157). -/
def State.releaseQuiesce (s : State) (j : Nat) : State :=
  if s.quiesceWanted j || s.jobState j ≠ 3 then s
  else
    let s := (s.jobCores j).foldl (fun s c => if (s.core c).state = 3 && (s.core c).job = j then s.setCoreState c 1 else s) s
    s.setJobState j 2

/-! ### Rollback (R367, R368) -/

/-- Whether a core's recovery data stand: a step area, in a stack in service (R367). -/
def State.areaStands (s : State) (c : Nat) : Bool :=
  let a := (s.core c).stepArea
  a ≠ 0 && !s.stackLost (stackOf a)

/-- Whether a job can be rolled back, one core apart where its field is lost (R367, R372). -/
def State.recoverable (s : State) (j : Nat) (but : Option Nat) : Bool :=
  !(s.job j).unrecoverable && (s.jobCores j).all fun c => but = some c || s.areaStands c

/-- Whether a job recovers from the loss of a field under one of its cores (R372). -/
def State.fieldRecoverable (s : State) (j c k : Nat) : Bool :=
  s.mirroredCommits j && s.get (coreObj c + 2) 0x06 = 1 && !(s.core c).foreign && s.recoverable j (some c)
    && (rangesOf (s.jobGet j 0x0B)).all fun r => stackOf r.1 ≠ k || s.mirrors.any fun (_, p, m, n) =>
      (decide (p ≤ r.1 ∧ r.1 + r.2 ≤ p + n) && !s.rangeLost m) || (decide (m ≤ r.1 ∧ r.1 + r.2 ≤ m + n) && !s.rangeLost p)

/-- Stop every core of a job for a rollback (R368): nothing is recorded, and what its commands were doing is abandoned. -/
def State.stopForRollback (s : State) (j : Nat) : State :=
  let cs := s.jobCores j
  let s := s.dropReplays cs
  let s := { s with ops := s.ops.filter fun o => o.job ≠ j
                    signals := s.signals.filter fun g => s.tagCommitted g.tag || !(g.tag.any fun t => cs.contains t.1)
                    txns := s.txns.filter fun x => !(x.2.any fun t => cs.contains t.core && t.phase ≠ 2) }
  cs.foldl (fun s c =>
    if (s.core c).job ≠ j then s
    else
      let st := (s.core c).state
      (s.haltCore c (if st = 5 ∨ st = 6 then st else 3)).updCore c fun k => { k with active := [] }) s

/-- Undo a page; one of a group that is off takes no write (R209; DEDUCED, log 96). -/
def State.undoPage (s : State) (e : Nat × Option PageImage) : State :=
  match e.2 with
  | some i => if spaceOf e.1 = 1 && s.groupGone (spCore e.1) (groupOf e.1) then s else s.restorePage e.1 i
  | none => s

/-- Undo pages, waking from retention the groups that hold some of them (R17, R211). -/
def State.undoPages (es : List (Nat × Option PageImage)) : List Nat → State → State
  | [], s => es.foldl State.undoPage s
  | d :: r, s =>
    let gs := (es.filterMap fun e => if spaceOf e.1 = 1 && spCore e.1 = d then some (groupOf e.1) else none).eraseDups
    s.withGroups d gs (State.undoPages es r)

/-- Undo the pages a core wrote in its uncommitted interval: the interval image where there is one, the step image otherwise (R368). -/
def State.undoCore (s : State) (c : Nat) : State :=
  let r := (s.core c).record
  State.undoPages (r.intervalImages ++ r.stepImages.filter fun e => (Tab.get none r.intervalImages e.1).isNone) (List.range 22) s

/-- Reapply to one object the entries of a log that stand; an overrun is skipped and logged (R368). -/
def State.rebuildObject (s : State) (c i v : Nat) (es : List LogEntry) : State :=
  let r := es.foldl (fun (st : Nat × List LogEntry) e =>
    let x := e.apply st.1
    if x.2 = .overrun then (st.1, st.2 ++ [e]) else (x.1, st.2)) (v, [])
  r.2.foldl (fun (s : State) _ =>
    let b := Config.deviceByte s.fresh
    { s with fresh := s.fresh + 1 }.fault { cls := b.toNat, core := c, tile := s.tileOf c, address := syncAddr c i }) (s.syncSet c i r.1)

/-- Rebuild the logged objects of a core from their images and the entries untagged or committed (R368). -/
def State.rebuildObjects (s : State) (c : Nat) : State :=
  let l := Tab.get {} s.objLog c
  let kept := l.entries.filter fun e => s.tagCommitted e.tag
  let s := l.images.foldl (fun s x => match x.2 with
    | some v => s.rebuildObject c x.1 v (kept.filter (·.index = x.1))
    | none => s) s
  { s with objLog := Tab.set {} s.objLog c (s.foldLog { l with entries := kept }) }

/-- Steps 2 to 4 of R368. -/
def State.rewindJob (s : State) (j : Nat) : State :=
  let cs := s.jobCores j
  let s := s.stopForRollback j
  let s := cs.foldl State.undoCore s
  cs.foldl State.rebuildObjects s

/-- Resume one core of a rolled-back job from its commit record, which is its run's start where no step of the run has committed; one that has not
run stays idle (R368; log 97). -/
def State.resumeCore (s : State) (j c : Nat) : State :=
  let k := s.core c
  let base : Core := { s.emptyCore j c with flags := k.flags, item := k.item, commit := k.commit, state := k.state, again := k.again }
  match k.commit with
  | some r => (s.setCore c (base.at r)).setCoreState c 1
  | none => (s.setCore c base).setCoreState c 0

/-- The procedure of a job ends (R368, R370): its RECOVERY_END entry, by outcome. -/
def State.recoveryEnd (s : State) (j c : Nat) (a : Assign) (outcome : Nat) : State :=
  let us := (s.now - a.detected) / 1000
  let s := s.fault { cls := 0x1C, action := if outcome = 0 then 0x05 else if outcome = 1 then 0x06 else 0x07, tile := s.tileOf c, core := c
                     job := j, detail := toLE 1 outcome ++ toLE 4 us, cause := a.entry }
  (s.put 0x4002 0x04 (min us (2 ^ 32 - 1))).countRare 0x4002 (if outcome = 0 then 0x02 else 0x03)

/-- Step 7 of R368. -/
def State.resumeJob (s : State) (j : Nat) : State :=
  let s := (s.jobCores j).foldl (fun s c => s.resumeCore j c) s
  (s.markResumed j).setJobState j 2

/-- A lead that has lost its scratchpad with its field, and resumes at its item's ENTRY, has its mailbox written again (R330, R372; log 97). -/
def State.mailAgain (s : State) (j : Nat) (a : Assign) : State :=
  let k := s.core (s.lead j)
  if a.field && a.core = s.lead j && k.item.isSome && k.commit.any fun r => r.pc = r.runStart then s.restartItem j else s

/-! ### Assignment (R366) -/

/-- The pool tile nearest a tile, the lower index on a tie; one under test for another core is taken (R366). -/
def State.nearestPool (s : State) (h : Nat) : Option Nat :=
  nearestTile h ((List.range 24).filter fun g => s.tileInPool g && !s.tests.any fun t => t.tile = g)

/-- Choose a tile for a core whose tile is fenced, and test it; with the pool empty the core goes out of service (R366, R370). -/
def State.assignTile (s : State) (h : Nat) (a : Assign) : State :=
  match s.nearestPool h with
  | some g => { s with tests := s.tests ++ [{ a with tile := g, passed := false }] }
  | none =>
    let edit := (okey 0x4101 (a.core + 1), s.tileOf a.core + 256)
    { s with tests := s.tests ++ [{ a with tile := 32, passed := true }]
             changes := s.changes ++ [⟨.outOfService a.core a.job, [edit]⟩] }

/-! ### Fences (R17, R365) -/

/-- Isolate a tile: it leaves the pool, and TC is powered off (R17, R365, R417). -/
def State.fenceBits (s : State) (h : Nat) : State :=
  let s := (s.takeTile h).put 0x3101 (h + 1) 0xFF
  (s.change 0x4100 0x30 (setBit (s.get 0x4100 0x30) h true)).watch

/-- A job whose core is fenced: rolled back, or ended where it cannot be (R368); whether a job is to resume. -/
def State.jobFenced (s : State) (j c : Nat) (a : Assign) (status : Status) (canResume : Bool) : State × Bool :=
  if ! [2, 3, 5].contains (s.jobState j) then (s, false)
  else if s.jobState j = 5 && (canResume || (s.job j).restart) then (s, true)
  else
    let s := (s.updJob j fun b => { b with quiesce := false }).setJobState j 5
    if canResume then (s.rewindJob j, true)
    else
      let s := (s.stopForRollback j).endStarted j 1 (statusWord 0 0 0 0 0 status.code)
      let hold := !bit (s.jobGet j 0x0C) 1
      let s := (s.updJob j fun b => { b with restart := !hold }).recoveryEnd j c a 2
      if hold then (s.setJobState j 4, false) else (s, true)

/-- A core loses its tile (R100, R211, R366, R368, R370): its latches are void, its groups that are on go to retention, its job is dealt with, and
another tile chosen. -/
def State.coreFencedOff (s : State) (c h : Nat) (a : Assign) (status : Status) (canResume : Bool) : State :=
  let j := (s.core c).job
  let s := ((s.haltCore c 5).updCore c fun k => { k with latch := none }).closeGroups c (List.range 8) 3
  let r := if j = 0xFF then (s, false) else s.jobFenced j c a status canResume
  r.1.assignTile h { a with core := c, job := if r.2 then j else 0xFF }

/-- Fence a tile for a cause of R365, with the engine concerned. -/
def State.fence (s : State) (h cause engine : Nat) (follows : Nat := 0xFFFFFFFF) : State :=
  if s.tileFenced h || s.unmanaged then s
  else
    let core := s.coreOn h
    let n := s.faultNext
    let s := s.fault { cls := 0x0D, action := 0x04, tile := h, core := core.getD 0xFF, job := (core.map fun c => (s.core c).job).getD 0xFF
                       detail := toLE 1 cause ++ toLE 1 engine, cause := follows }
    let s := (s.fenceBits h).appendRepair 0x07 h (toLE 1 cause)
    let s := s.updTile h fun t => { t with cause := cause }
    match core with
    | some c =>
      let j := (s.core c).job
      s.coreFencedOff c h { tile := 32, core := c, job := j, entry := n, detected := s.now } .coreFenced (s.recoverable j none)
    | none => s

/-- A tile under test is chosen no more where it is fenced; its core takes the next (R366). -/
def State.reassign (s : State) (h : Nat) : State :=
  match s.tests.find? fun t => t.tile = h with
  | some a => { s with tests := s.tests.filter fun t => t.tile ≠ h }.assignTile (s.tileOf a.core) a
  | none => s

/-- Fence a tile, and give a core for which it was being tested another. -/
def State.fenceTile (s : State) (h cause engine : Nat) (follows : Nat := 0xFFFFFFFF) : State :=
  (s.fence h cause engine follows).reassign h

/-- What the tile that takes over a core holds (R366, R368, R372): the rolled-back scratchpad and objects, the commit image after the loss
of a field, or zeros. -/
def State.fillTile (s : State) (a : Assign) : State :=
  let c := a.core
  let s := s.passGroups c ((List.range 8).filter (s.groupShut c)) [3, 5, 0]
  if a.job ≠ 0xFF && !(s.job a.job).restart then
    if a.field then
      let base := (s.core c).mirrorArea
      let mask := (s.readByte (base + 6)).toNat
      let s := (List.range 8).foldl (fun s g => s.zeroGroup c g) s
      (savedGroups mask).foldl (fun s g => s.copyPages (base + g.2) (spAddr c (g.1 * 2 ^ 23)) (2 ^ 23)) s
    else s
  else (List.range 8).foldl (fun s g => s.zeroGroup c g) (s.clearObjects c)

/-- The swap of a substitution has completed: the job resumes, or starts again, once all its cores have tiles (R333, R368). -/
def State.substituted (s : State) (c : Nat) : State :=
  match s.tests.find? fun t => t.core = c with
  | none => s
  | some a =>
    let s := { s with tests := s.tests.filter fun t => t.core ≠ c }.fillTile a
    let waiting := s.tests.any fun t => t.job = a.job
    if a.job = 0xFF || waiting || s.jobState a.job ≠ 5 then s
    else if (s.job a.job).restart then
      let s := s.updJob a.job fun b => { b with restart := false }
      let (s, bad) := s.startFresh a.job
      s.setJobState a.job (if bad.isSome then 4 else 2)
    else ((s.resumeJob a.job).mailAgain a.job a).recoveryEnd a.job c a 0

/-- A core has been marked out of service (R370): its job stops, its STARTED item held. -/
def State.nowOut (s : State) (c : Nat) : State :=
  match s.tests.find? fun t => t.core = c with
  | none => s
  | some a =>
    let s : State := { s with tests := s.tests.filter fun t => t.core ≠ c }
    let j := a.job
    if j = 0xFF then s.freeCore c
    else
      let s := (s.stopJob j).updJob j fun b => { b with mustFresh := true, restart := false }
      let ts : List Assign := s.tests.map fun t : Assign => if t.job = j then { t with job := 0xFF } else t
      State.recoveryEnd { s with tests := ts } j c a 1

/-! ### The loss of a field (R371) -/

/-- The links of a lost field read lost with it (R275). -/
def State.loseLinks (s : State) (h : Nat) : State :=
  [1, 2, 3, 4].foldl (fun s p => match neighbour h p with
    | some _ => s.change 0x4600 (linkAt h p + 1) (setBits (s.get 0x4600 (linkAt h p + 1)) 16 4 0b1111)
    | none => s) s

/-- Signals on their way to a core whose field is lost end there: one from outside is answered as refused (R221, R271). -/
def State.loseSignals (s : State) (c : Nat) : State :=
  let gone := s.signals.filter (·.core = c)
  gone.foldl (fun s g => match g.source with
    | .message _ _ _ => s.signalResult g .refused
    | _ => s) { s with signals := s.signals.filter (·.core ≠ c) }

/-- A field loses its supply (R371): hub, links, stack and tile with it. -/
def State.loseField (s : State) (h phases amps : Nat) (follows : Nat := 0xFFFFFFFF) : State :=
  if bit s.lostFields h then s
  else
    let core := s.coreOn h
    let k := s.stackOn h
    let n := s.faultNext
    let s := s.fault { cls := 0x0E, action := 0x08, tile := h, core := core.getD 0xFF, stack := k, detail := toLE 2 phases ++ toLE 4 amps
                       cause := follows }
    let s : State := { s with lostFields := setBit s.lostFields h true }
    let s := (s.loseLinks h).hubDead h 0 n
    let s := core.elim s s.loseSignals
    if s.unmanaged then s
    else
      let s := s.reroute 0xFF n
      let fresh := !s.tileFenced h
      let s := if fresh then s.fenceBits h else s
      match core with
      | some c =>
        let j := (s.core c).job
        if fresh then
          s.coreFencedOff c h { tile := 32, core := c, job := j, entry := n, detected := s.now, field := true } .stackLost
            (j ≠ 0xFF && s.fieldRecoverable j c k)
        else s
      | none => s.reassign h

end Sys2Proof.Machine
end

