-- ==== Sys2Proof/Machine/Swap.lean ====
section
/-! DEFINITION. Swaps (R50 to R59): distribution to the targets, the instant, completion and abort; the controller's own changes; the control
stream (R334). -/

namespace Sys2Proof.Machine

open Sys2Proof

/-! ### State of the swap -/

/-- swap_state (R59). -/
def State.swapState (s : State) : Nat := s.get 0xF000 0x02

/-- Set swap_state, which is evented. -/
def State.setSwapState (s : State) (v : Nat) : State := s.change 0xF000 0x02 v

/-- Whether a swap is distributing, armed or swapping (R54). -/
def State.swapping (s : State) : Bool := [1, 2, 3].contains s.swapState

/-- Whether every target has acknowledged the GO message (R55). -/
def State.goAcked (s : State) : Bool := s.swap.goSent && s.swap.go.isEmpty

/-- Physical hub of a target number, for the hubs. -/
def targetHub (t : Nat) : Option Nat := if t < 24 then some t else none

/-- The targets: hubs, port stations, the intake and the standby, less what is in a lost field or dead (R52, R53). -/
def State.targets (s : State) : List Nat :=
  (List.range 43).filter fun t =>
    if t < 24 then !bit s.lostFields t && s.hub t ≠ 2 else if t = 42 then s.get 0x4001 0x02 = 0 else true

/-- Begin to distribute the maquette (R52, R57): the jobs of a changed core are asked to quiesce. -/
def State.beginSwap (s : State) (atQuiescent : Bool) (instant : Nat) (purpose : SwapFor) : State :=
  let cores := s.changedCores
  let jobs := (List.range 64).filter fun j => [2, 3].contains (s.jobState j) && cores.any fun c => (s.jobCores j).contains c
  let s : State := { s with swap := { image := s.targets, atQuiescent := atQuiescent, instant := instant, purpose := purpose
                                      accepted := s.now, jobs := jobs, cores := cores } }
  let s := ((s.put 0xF000 0x05 0).put 0xF000 0x04 0).setSwapState 1
  jobs.foldl State.askQuiesce s

/-- A swap refused with INVALID: aborted, with the first object that fails (R51, R364). -/
def State.refuseSwap (s : State) (k : Nat) : State :=
  let s := ((s.put 0xF000 0x05 0x07).put 0xF000 0x04 0).setSwapState 5
  s.fault { cls := 0x17, action := 0x0A, detail := [0x07] ++ toLE 4 0 ++ toLE 4 0 ++ toLE 2 (k / 256) ++ toLE 1 (k % 256) }

/-- A swap command 0x01 or 0x02 of the lock holder, with its answer's status (R51, R54, R55, R57). -/
def State.ownerSwap (s : State) (atQuiescent : Bool) : State × Nat :=
  let t := s.get 0xF000 0x01
  if s.swapping then (s, 0x08)
  else if !atQuiescent && (decide (t < s.now + 2000000) || decide (s.now + 1000000000000 < t)) then (s, 0x07)
  else if !atQuiescent && (s.changedCores.any fun c => (List.range 64).any fun j => [2, 3].contains (s.jobState j) && (s.jobCores j).contains c) then
    (s, 0x09)
  else match s.maquetteFirstBad with
    | some k => (s.refuseSwap k, 0x10)
    | none => (s.beginSwap atQuiescent (if atQuiescent then 0 else t) .owner, 0)

/-! ### Control items (R334) -/

/-- A control item completes: RESULT DONE, or ERROR with a status and a further value. -/
def State.endControl (s : State) (st seq status value : Nat) : State :=
  s.finishItem st seq (if status = 0 then 0 else 1) (status + value * 2 ^ 32) 0

/-- What a control operation's swap has done to its job (R334). -/
def State.controlSwapped (s : State) (st seq : Nat) : State :=
  match s.findItem st seq with
  | none => s
  | some i =>
    let s := if i.control = 5 ∨ i.control = 7 then s.updJob i.job fun b => { b with layoutChanged := i.control = 5 } else s
    s.endControl st seq 0 0

/-! ### Changes of the controller's own (R50) -/

/-- Write edits to the maquette. -/
def State.writeEdits (s : State) (es : List (Nat × Nat)) : State := es.foldl (fun s e => s.maqPut (e.1 / 256) (e.1 % 256) e.2) s

/-- Discard every unswapped edit (R50). -/
def State.discardEdits (s : State) : State := { s with maq := [], rewritten := [] }

/-- Revoke the lock, reported by an event on lock_holder (R50). -/
def State.revokeLock (s : State) : State := if s.get 0xF002 0x01 = 0 then s else s.change 0xF002 0x01 0

/-- Whether a change follows from a fault. -/
def Change.ofFault (c : Change) : Bool :=
  match c.purpose with
  | .substitute _ _ _ | .outOfService _ _ | .routes => true
  | _ => false

/-- The edits of a change; route tables fit what is dead, down or out of transit when it starts (R50, R263). -/
def State.editsOf (s : State) (c : Change) : List (Nat × Nat) :=
  match c.purpose with
  | .routes => ((List.range 24).map fun h => okey 0x2800 (h + 1)).zip s.routeTables
  | _ => c.edits

/-- The first object of a change that fails the checks of R51; what fails beside it is the fault's own doing (log 86). -/
def State.changeFirstBad (s : State) (edits : List (Nat × Nat)) : Option Nat :=
  match s.maquetteBad.filter fun k => edits.any fun e => e.1 = k with
  | [] => none
  | k :: r => some (r.foldl min k)

/-- Start one change: the maquette is cleared, the change written, checked and distributed; a control operation's needs the lock free; a tile that
has left the pool since it was chosen gives way to the next (R50, R51, R334, R366). -/
def State.startChange (s : State) (c : Change) : State :=
  match c.purpose with
  | .control st seq =>
    if s.get 0xF002 0x01 ≠ 0 then s.endControl st seq 0x0E 0
    else
      let outside := c.edits.find? fun e => !s.rangeOk (e.1 / 256) (e.1 % 256) e.2
      let s := (s.discardEdits).writeEdits c.edits
      match (outside.map (·.1)).or s.maquetteFirstBad with
      | some k => ((s.refuseSwap k).discardEdits).endControl st seq 0x10 0
      | none => s.beginSwap true 0 c.purpose
  | p =>
    let edits := s.editsOf c
    let s := (s.revokeLock.discardEdits).writeEdits edits
    match s.changeFirstBad edits with
    | some k =>
      let s := (s.refuseSwap k).discardEdits
      match p with
      | .substitute _ h _ => s.reassign h
      | _ => s
    | none => s.beginSwap true 0 p

/-- Start changes in their order while none holds the swap. -/
def State.startChanges (s : State) : Nat → State
  | 0 => s
  | f + 1 =>
    if s.swapping || s.unmanaged then s
    else match s.changes with
      | [] => s
      | c :: r => ({ s with changes := r }.startChange c).startChanges f

/-- The swap ends, as done or not: held jobs go on, and what it was made for follows (R50, R57, R334, R368). -/
def State.endSwap (s : State) (done : Bool) : State :=
  let w := s.swap
  let s := w.jobs.foldl State.releaseQuiesce { s with swap := {} }
  match w.purpose with
  | .owner => s
  | .control st seq => if done then s.controlSwapped st seq else (s.discardEdits).endControl st seq 0x08 0
  | .substitute c h j =>
    if done then s.substituted c else { s.discardEdits with changes := ⟨.substitute c h j, [(okey 0x4101 (c + 1), h)]⟩ :: s.changes }
  | .outOfService c j =>
    if done then s.nowOut c
    else { s.discardEdits with changes := ⟨.outOfService c j, [(okey 0x4101 (c + 1), s.tileOf c + 256)]⟩ :: s.changes }
  | .routes => if done || s.routesAsked then s.discardEdits else { s.discardEdits with changes := ⟨.routes, []⟩ :: s.changes }

/-- Bitmap of the numbers of a list. -/
def bitmapOf (l : List Nat) : Nat := l.foldl (fun v i => setBit v i true) 0

/-- A swap is aborted for a reason, with the targets that are missing (R52, R59). -/
def State.abortSwap (s : State) (reason : Nat) (missing : List Nat) : State :=
  if ! [1, 2].contains s.swapState then s
  else
    let hubs := bitmapOf (missing.filter (· < 24))
    let ports := bitmapOf ((missing.filter fun t => decide (24 ≤ t ∧ t < 41)).map (· - 24))
    let s := s.fault { cls := 0x17, action := 0x0A, detail := toLE 1 reason ++ toLE 4 hubs ++ toLE 4 ports }
    ((((s.put 0xF000 0x05 reason).put 0xF000 0x04 missing.length).setSwapState 5).endSwap false)

/-- Send the GO message: at once for a chosen instant, else once every held job is quiescent, for 20 µs later (R55). -/
def State.sendGo (s : State) : State :=
  if s.swapState ≠ 2 || s.swap.goSent then s
  else if s.swap.atQuiescent && !s.swap.jobs.all s.jobQuiet then s
  else
    let t := if s.swap.atQuiescent then s.now + 20000 else s.swap.instant
    { s with swap := { s.swap with goSent := true, go := s.targets, instant := t } }

/-- A swap goes on where every target still awaited has answered: armed, then done (R55, R59). -/
def State.advanceSwap (s : State) : State :=
  if s.swapState = 1 && s.swap.image.isEmpty then (s.setSwapState 2).sendGo
  else if s.swapState = 3 && s.swap.confirm.isEmpty then ((s.count 0xF000 0x03 32 1).setSwapState 4).endSwap true
  else s

/-- The swap under way goes on as far as it can; then what waits starts, a fault's change ending an owner's swap that is still distributing
(R50, R53). -/
def State.pumpChanges (s : State) : State :=
  let s := s.advanceSwap
  let s := if s.swapState = 1 && s.swap.purpose = .owner && s.changes.any Change.ofFault && !s.unmanaged then s.abortSwap 0x06 [] else s
  s.startChanges (s.changes.length + s.tests.length + 1)

/-- Command 0x03 (R54, R59). -/
def State.cancelSwap (s : State) : State × Nat :=
  if ! [1, 2].contains s.swapState || s.goAcked then (s, 0x09)
  else (((((s.put 0xF000 0x05 0x04).put 0xF000 0x04 0).setSwapState 6).endSwap false).pumpChanges, 0)

/-! ### Distribution -/

/-- Targets that have used up their unicasts. -/
def Swap.lost (w : Swap) : List Nat := w.image.filter fun t => decide (3 ≤ Tab.get 0 w.tries t)

/-- Send a target its part again, or abort for those that had their third unicast (R52). -/
def State.resendImage (s : State) (ts : List Nat) : State :=
  let lost := ts.filter fun t => decide (3 ≤ Tab.get 0 s.swap.tries t)
  if lost.isEmpty then { s with swap := { s.swap with tries := ts.foldl (fun m t => Tab.upd 0 m t (· + 1)) s.swap.tries } }
  else (s.abortSwap 0x01 s.swap.lost).pumpChanges

/-- TARGET_ACK (R52, R55, R59). -/
def targetAck (t : Nat) (kind : AckKind) (crcOk : Bool) (s : State) : State :=
  let w := s.swap
  match kind with
  | .image =>
    if s.swapState ≠ 1 || !w.image.contains t then s
    else if !crcOk then s.resendImage [t]
    else
      { s with swap := { w with image := w.image.erase t } }.pumpChanges
  | .go => if s.swapState ≠ 2 || !w.goSent then s else { s with swap := { w with go := w.go.erase t } }
  | .swapped =>
    if s.swapState ≠ 3 || !w.confirm.contains t then s
    else
      { s with swap := { w with confirm := w.confirm.erase t } }.pumpChanges

/-- TARGET_ACK_TIMEOUT: 50 µs have passed since the last block or the last unicast (R52). -/
def targetAckTimeout (s : State) : State :=
  if s.swapState ≠ 1 then s else s.resendImage s.swap.image

/-- QUIESCE_TIMEOUT: quiesce_limit has run out (R57). -/
def quiesceTimeout (s : State) : State :=
  if ! [1, 2].contains s.swapState || s.swap.jobs.isEmpty || s.swap.goSent then s
  else
    let s := { s with now := max s.now (s.swap.accepted + s.get 0xF000 0x06 * 1000000) }
    (s.abortSwap 0x03 []).pumpChanges

/-- SWAP_TOO_LATE: at T less 100 µs not every acknowledgement is in (R55). -/
def swapTooLate (s : State) : State :=
  if ! [1, 2].contains s.swapState || s.swap.atQuiescent || s.goAcked then s
  else
    let s := { s with now := max s.now (s.swap.instant - 100000) }
    (s.abortSwap 0x02 []).pumpChanges

/-- SWAP_INSTANT: the maquette becomes the active set (R56). -/
def swapInstant (s : State) : State :=
  if s.swapState ≠ 2 || !s.goAcked then s
  else
    let s := { s with now := max s.now s.swap.instant }.setSwapState 3
    let s := if s.swap.purpose = .routes then s.applyEdits.routesActive else s.applyEdits
    { s with swap := { s.swap with confirm := s.targets } }

/-! ### Rows of the armature that ask for route tables (R263) -/

/-- LINK_DOWN_REPORT: a hub reports a down link, and fitting tables are swapped in (R263). -/
def linkDownReport (l : Nat) (s : State) : State := (if s.linkDown l then s.reroute l else s).pumpChanges

/-- HUB_RESET: the tables that take the hub out of transit come first (R241, R263). -/
def hubReset (h cause : Nat) (s : State) : State := (s.askReset h cause).pumpChanges

/-- HUB_RESET_DONE: the handshake of a hub's reset ends (R241, R263). -/
def hubResetDone (h : Nat) (ok : Bool) (s : State) : State := (s.resetDone h ok).pumpChanges

def execHubReset (h : TileId) (cause : BitVec 8) (s : State) : Host.Outcome State Fault Refusal := .next (hubReset h cause.toNat s)
def execHubResetDone (h : TileId) (ok : Bool) (s : State) : Host.Outcome State Fault Refusal := .next (hubResetDone h ok s)
def execLinkDownReport (l : LinkId) (s : State) : Host.Outcome State Fault Refusal := .next (linkDownReport l s)
def execQuiesceTimeout (s : State) : Host.Outcome State Fault Refusal := .next (quiesceTimeout s)
def execSwapInstant (s : State) : Host.Outcome State Fault Refusal := .next (swapInstant s)

end Sys2Proof.Machine
end

