-- ==== Sys2Proof/Machine/Power.lean ====
section
/-! DEFINITION. The power loop, thermal control, droop and margin (R379 to R402, R406, R410). -/

namespace Sys2Proof.Machine

open Sys2Proof

/-- Milliseconds of the timebase in ns. -/
def msNs : Nat := 1000000

/-- The binary32 nearest to a count of thousandths (R403). -/
def f32OfMilli (v : Int) : Nat := (Format.ofFraction .fp32 .rne false 0 (decide (v < 0)) v.natAbs 1000).bits

/-- The greatest of a list of readings. -/
def hottest : List Int → Option Int
  | [] => none
  | v :: r => some (r.foldl max v)

/-! ### The cap in force (R380, R382, R389, R401) -/

/-- Converters of a stage: its group's field byte, the first of them, how many there are and how many carry the rating, the rail of 0x3021, and
what one converter carries in mA (R379, R380). -/
structure CarrierStage where
  group : Nat
  first : Nat
  count : Nat
  needed : Nat
  rail : Nat
  each : Nat
  deriving DecidableEq, Repr

/-- The stages of the carrier beside the field phases. -/
def stages : List CarrierStage := [
  ⟨0x18, 0, 8, 7, 1, 150000⟩, ⟨0x19, 0, 4, 3, 6, 100000⟩, ⟨0x19, 4, 4, 3, 7, 13333⟩,
  ⟨0x1A, 0, 6, 5, 2, 120000⟩, ⟨0x1A, 6, 2, 1, 3, 120000⟩]

/-- Converters of a stage that still run. -/
def State.converters (s : State) (g : CarrierStage) : Nat :=
  g.count - popCount g.count (bits (Tab.get 0 s.power.stagesOut g.group) g.first g.count)

/-- Whether some stage is below the number that carries its rating. -/
def State.stageShort (s : State) : Bool := stages.any fun g => decide (s.converters g < g.needed)

/-- Whether a stage below its number cannot carry the load measured last. -/
def State.stageOver (s : State) : Bool :=
  stages.any fun g => decide (s.converters g < g.needed) && decide (s.converters g * g.each < s.get 0x3021 (g.rail + 1))

/-- The stage limit follows the load: while a weak stage cannot carry it, the limit is lowered by an amount that the rule leaves open (R380). -/
def State.lowerStageCap (s : State) : State :=
  if !s.stageOver then s
  else
    let v := Config.stageCap s.fresh
    { s with fresh := s.fresh + 1, power := { s.power with limit := some (match s.power.limit with
        | some x => min x v
        | none => v) } }

/-- The cap by coolant inlet temperature, in thousandths of a degree (R401). -/
def coolantCap (cap : Nat) (inlet : Int) : Option Nat :=
  if inlet ≤ 40000 then none
  else if 50000 ≤ inlet then some 1000
  else some (cap - cap * 4 * (inlet - 40000).toNat / 100000)

/-- The cap in force (R389). -/
def State.capInForce (s : State) : Nat :=
  let cap := s.variant.1
  let limits := [some (s.get 0x3000 0x01), if s.power.vin < 46000 then some (cap * s.power.vin / 46000) else none, s.power.limit,
    coolantCap cap s.power.inlet]
  (limits.filterMap id).foldl min cap

/-- Bits 1 and 2 of cap_status (R403). -/
def State.showLimits (s : State) : State :=
  let v := s.get 0x3000 0x02
  s.change 0x3000 0x02 (setBit (setBit v 1 (decide (s.power.vin < 46000) || s.stageShort)) 2 (decide (40000 < s.power.inlet)))

/-! ### Grants (R388, R390) -/

/-- The levels of the hints of a class in force, by code: 0 compute, 1 memory, 2 links (R180, R390). -/
def State.hinted (s : State) (cls : Nat) : Nat :=
  (s.cores.map fun e => match Tab.get none e.2.hints cls with
    | some h => if h.start ≤ s.now ∧ s.now < h.stop then h.level else 0
    | none => 0).sum

/-- What the loop computes: grants of links, memory and compute in parts of a watt, the parts, the issue rate, the two rates, and whether all of
them are at the minimum (R388, R392). -/
structure Grants where
  g : List Nat
  unit : Nat
  nCap : Nat
  rates : List Nat
  atFloor : Bool
  deriving DecidableEq, Repr

/-- 64 × a ÷ b, rounded down, from 1 to 64; an empty divisor asks for nothing and gets all. -/
def share64 (a b : Nat) : Nat := if b = 0 then 64 else min 64 (max 1 (64 * a / b))

/-- The grants of a period (R388). Demands in W; hint levels of links, memory and compute; full draws of the classes. The unit is 1 ÷ (50 × sum of
the floors × 22 × 64) W, in which every term of the rule is whole. -/
def grantsOf (cap fixed debit : Nat) (floors demand levels full : List Nat) (p64 : Nat) : Grants :=
  let fsum := max 1 floors.sum
  let unit := 50 * fsum * 1408
  let avail50 := 49 * cap - 50 * (fixed + debit)
  let used := min avail50 (50 * floors.sum)
  let g0 := (List.range 3).map fun c => floors.getD c 0 * used * 1408
  let w := (List.range 3).map fun c => max (demand.getD c 0 * unit) (levels.getD c 0 * full.getD c 0 * (50 * fsum))
  let step (st : List Nat × Nat) (c : Nat) : List Nat × Nat :=
    let extra := min (w.getD c 0 - g0.getD c 0) st.2
    (st.1 ++ [g0.getD c 0 + extra], st.2 - extra)
  let r := [0, 1, 2].foldl step ([], (avail50 - used) * fsum * 1408)
  let gl := r.1.getD 0 0
  let gm := r.1.getD 1 0
  let gc := r.1.getD 2 0 + r.2
  let rate (g w : Nat) : Nat := if w ≤ g then 64 else max 1 (64 * g / w)
  let rl := rate gl (w.getD 0 0)
  let rm := rate gm (w.getD 1 0)
  let n := share64 gc (p64 * unit)
  { g := [gl, gm, gc], unit := unit, nCap := n, rates := [rl, rm]
    atFloor := n = 1 && rl = rate (g0.getD 0 0) (w.getD 0 0) && rm = rate (g0.getD 1 0) (w.getD 1 0) }

/-- Compute the grants and put them in force (R388, R403). -/
def State.setGrants (s : State) (m : PowerSample) : State :=
  let cap := s.capInForce
  let p64 := m.p64.map (·.toNat)
  let p := p64.getD (s.get 0x3000 0x06) 0
  let x := grantsOf cap m.fixed.toNat s.power.debit [s.get 0x3010 1, s.get 0x3010 2, s.get 0x3010 3] (m.demand.map (·.toNat))
    [s.hinted 2, s.hinted 1, s.hinted 0] [Config.classDraw 2, Config.classDraw 1, p] p
  let s : State := { s with power := { s.power with grant := x.g.getD 2 0, unit := x.unit, inForce := cap, p64 := p64
                                                    linkRate := x.rates.getD 0 64, memoryRate := x.rates.getD 1 64, atFloor := x.atFloor } }
  let s := (List.range 3).foldl (fun s c => s.put 0x3010 (c + 4) (x.g.getD c 0 / x.unit)) s
  s.put 0x3000 0x05 x.nCap

/-! ### Cap-unreachable (R392) -/

/-- Whether every tile is at step 0 or has TC off. -/
def State.lowestSteps (s : State) : Bool := (List.range 24).all fun h => s.get 0x3101 (h + 1) = 0 || s.get 0x3101 (h + 1) = 0xFF

/-- Mean excess of the last ten periods. -/
def Power.meanExcess (p : Power) : Nat := p.excess.sum / 10

/-- The period that has ended against the cap that was in force: the debit, the run of periods at the minimum, the condition (R389, R392). -/
def State.judgePeriod (s : State) (watts : Nat) : State :=
  let p := s.power
  let excess := watts - p.inForce
  let overrun := if 0 < excess ∧ p.atFloor ∧ s.lowestSteps then p.overrun + 1 else 0
  let under := if excess = 0 then p.under + 1 else 0
  let raised := p.raised
  let s : State := { s with power := { p with debit := excess, overrun := overrun, under := under, raised := false
                                              excess := ((p.excess ++ [excess]).drop (p.excess.length + 1 - 10)) } }
  let v := s.get 0x3000 0x02
  if !bit v 0 then
    if 10 ≤ overrun then (((s.put 0x3000 0x03 s.power.meanExcess).countRare 0x3000 0x07).change 0x3000 0x02 (setBit v 0 true)) else s
  else if 10 ≤ under || raised then (s.put 0x3000 0x03 0).change 0x3000 0x02 (setBit v 0 false)
  else s.put 0x3000 0x03 s.power.meanExcess

/-! ### Thermal control (R398 to R400) -/

/-- n_th of a tile. -/
def State.nth (s : State) (h : Nat) : Nat := bits (s.get 0x3203 (h + 1)) 0 7

/-- Current of VCORE into a field, in mA (R384). -/
def State.vcore (s : State) (h : Nat) : Nat := s.get 0x3020 (1 + 7 * h) + s.get 0x3020 (4 + 7 * h)

/-- Whether a field whose VCORE stage has lost two phases or more draws above 80 A for each that is left (R380). -/
def State.phasesOver (s : State) (h : Nat) : Bool :=
  let out := ((s.tile h).phasesOut.filter (· < 8)).length
  decide (2 ≤ out) && decide ((8 - out) * 80000 < s.vcore h)

/-- n_th and m_th of a tile at the end of a period (R398, R399). -/
def State.thermalPeriod (s : State) (h : Nat) : State :=
  let t := s.tile h
  let v := s.get 0x3203 (h + 1)
  let n := bits v 0 7
  let n := if 105000 < t.logic ∨ 95000 < t.stack ∨ s.phasesOver h then max 1 (n - 8)
    else if t.logic ≤ 103000 ∧ t.stack ≤ 93000 then min 64 (n + 4) else n
  let m := s.get 0x3204 (h + 1)
  let m := if 95000 < t.stack then max 16 (m - 8) else if t.stack ≤ 93000 then min 64 (m + 4) else m
  let s := (s.put 0x3203 (h + 1) (setBits v 0 7 n)).put 0x3204 (h + 1) m
  s.updTile h fun t => { t with notLow := t.notLow || decide (32 < n), notFull := t.notFull || decide (n < 64) || decide (100000 < t.logic) }

/-- THERMAL_STEP_WINDOW: the thermal step ceiling of a tile after 100 ms (R398). -/
def thermalStepWindow (h : Nat) (s : State) : State :=
  let t := s.tile h
  let v := s.get 0x3203 (h + 1)
  let n := bits v 0 7
  let c := bits v 8 4
  let c' := if !t.notLow && decide (n ≤ 32) then c - 1
    else if !t.notFull && n = 64 && decide (t.logic ≤ 100000) && decide (c < s.variant.2) then c + 1 else c
  let s := s.updTile h fun t => { t with notLow := decide (32 < n), notFull := decide (n < 64) || decide (100000 < t.logic) }
  s.change 0x3203 (h + 1) (setBits v 8 4 c')

/-- The refresh of a layer is doubled from 85 °C and returns below 82 °C (R240, R249). -/
def State.refresh (s : State) (k l : Nat) (t : Option Int) : State :=
  match t with
  | none => s
  | some t => if s.stackLost k || s.layerLost k l then s
    else if 85000 ≤ t then s.setLayerField k l 5 1 1 else if t < 82000 then s.setLayerField k l 5 1 0 else s

/-- A thermal trip: its entry, with the sensor and the reading, then the fence (R400, R364). -/
def State.trip (s : State) (h sensor : Nat) (t : Int) : State :=
  let n := s.faultNext
  let s := s.fault { cls := 0x1A, action := 0x04, tile := h, core := (s.coreOn h).getD 0xFF
                     stack := if 16 ≤ sensor then s.stackOn h else 0xFF, layer := if 16 ≤ sensor then (sensor - 16) / 4 else 0xFF
                     detail := toLE 1 sensor ++ toLE 4 (f32OfMilli t) }
  (s.fenceTile h 0x04 0 n).pumpChanges

/-- THERMAL_READING: 16 tile sensors and the 12 of the stack above, layer by layer (R398, R400). -/
def thermalReading (h : Nat) (logic stack : List Int) (s : State) : State :=
  let k := s.stackOn h
  let s := [0, 1, 2].foldl (fun s l => s.refresh k l (hottest ((stack.drop (4 * l)).take 4))) s
  let s := match hottest logic with
    | some t =>
      let s := (s.put 0x3200 (h + 1) (f32OfMilli t)).updTile h fun x => { x with logic := t, notFull := x.notFull || decide (100000 < t) }
      if 115000 ≤ t ∧ s.tileFenced h = false then s.trip h (logic.findIdx (· = t)) t else s
    | none => s
  match hottest stack with
  | some t =>
    let s := (s.put 0x3201 (h + 1) (f32OfMilli t)).updTile h fun x => { x with stack := t }
    if 100000 ≤ t then
      if (s.tile h).stackTrip then s
      else (s.updTile h fun x => { x with stackTrip := true }).trip h (16 + stack.findIdx (· = t)) t
    else if t ≤ 95000 then s.updTile h fun x => { x with stackTrip := false } else s
  | none => s

/-! ### The period -/

/-- The end of the period under way: a whole millisecond after the last one published (R384). -/
def State.periodEnd (s : State) : Nat := max ((s.now + msNs - 1) / msNs * msNs) (s.get 0x3022 0x00 + msNs)

/-- Publish the means of a period and count its energy (R384, R386, R401). -/
def State.publish (s : State) (m : PowerSample) : State :=
  let s := (List.range 168).foldl (fun s i => s.put 0x3020 (i + 1) (m.domains.getD i 0).toNat) s
  let s := (List.range 8).foldl (fun s i => s.put 0x3021 (i + 1) (m.rails.getD i 0).toNat) s
  let s := (s.put 0x3022 0x00 s.now).put 0x3040 0x02 s.now
  let uw := m.vin.toNat * (m.rails.getD 0 0).toNat
  let e := s.power.energyRest + uw
  let s : State := { s with power := { s.power with energyRest := e % 1000000, vin := m.vin.toNat, inlet := m.inlet.toInt } }
  let s := (s.count 0x3040 0x01 64 (e / 1000000)).put 0x3000 0x04 (uw / 1000000)
  (s.put 0x3202 0x01 (f32OfMilli m.inlet.toInt)).put 0x3202 0x02 (f32OfMilli m.outlet.toInt)

/-- POWER_PERIOD: a period ends; its means are published, and the grants of the next are in force (R384, R388, R389, R392). -/
def powerPeriod (m : PowerSample) (s : State) : State :=
  let s := { s with now := s.periodEnd }.publish m
  let s := (List.range 24).foldl State.thermalPeriod s
  let s := (s.judgePeriod (s.get 0x3000 0x04)).lowerStageCap.showLimits
  if bit (s.get 0x3000 0x02) 0 then { s with power := { s.power with inForce := s.capInForce } } else s.setGrants m

/-- The highest step at or below a ceiling at which the last compute grant gives an issue rate of 48, or step 0 (R391). -/
def State.bestStep (s : State) : Nat → Nat
  | 0 => 0
  | i + 1 => if 48 ≤ share64 s.power.grant (s.power.p64.getD (i + 1) 0 * s.power.unit) then i + 1 else s.bestStep i

/-- STEP_DECISION: the module step moves down at once or up by one (R391). The ceilings that hold for every tile bound it; the ceilings of single tiles
bound those tiles alone (R398; DEDUCED, log 101). -/
def stepDecision (s : State) : State :=
  let best := s.bestStep (min s.variant.2 (s.get 0x3100 0x01))
  let now := s.get 0x3000 0x06
  s.put 0x3000 0x06 (if best < now then best else if now < best then now + 1 else now)

/-- The step of a tile: the lowest of the ceilings (R402). -/
def State.tileStep (s : State) (h : Nat) : Nat :=
  let v := s.get 0x3203 (h + 1)
  min (min s.variant.2 (s.get 0x3100 0x01)) (min (s.get 0x3000 0x06) (min (bits v 8 4) (bits v 12 4)))

/-- The issue rate of a core, in 64ths (R402). -/
def State.issueRate (s : State) (c : Nat) : Nat := min (s.get 0x3000 0x05) (s.nth (s.tileOf c))

/-- The grant rate of the stack above a tile, in 64ths: held at 1 while a trip of it stands (R400, R402). -/
def State.grantRate (s : State) (h : Nat) : Nat :=
  if (s.tile h).stackTrip then 1 else min s.power.memoryRate (s.get 0x3204 (h + 1))

/-- TILE_STEP_CHANGE: a tile stops, relocks and restarts (R406); with TC off there is no change. -/
def tileStepChange (h : Nat) (s : State) : State :=
  let old := s.get 0x3101 (h + 1)
  let new := s.tileStep h
  if old = 0xFF || old = new || s.powerState = 2 || !s.tileServes h then s
  else
    let t := min 6000 (Config.stopTime s.fresh)
    let s := ({ s with fresh := s.fresh + 1 }.put 0x3101 (h + 1) new).bump 0x3100 0x03
    s.put 0x3100 0x04 (max (s.get 0x3100 0x04) t)

/-! ### Input power and converters -/

/-- Where the fault log places a converter: its number and its field byte (R380). -/
def stagePlace : Stage → Nat × Nat
  | .field h n => (n.val, h.val)
  | .input n => (n.val, 0x18)
  | .middle n => (n.val, 0x19)
  | .io n => (n.val, 0x1A)

/-- STAGE_FAULT: a converter is disconnected, and its stage runs on the rest (R380, R376). -/
def stageFault (f : Stage) (s : State) : State :=
  let p := (stagePlace f).1
  let g := (stagePlace f).2
  let out := if g < 24 then (s.tile g).phasesOut.contains p else bit (Tab.get 0 s.power.stagesOut g) p
  if out then s
  else
    let n := s.faultNext
    let s := s.fault { cls := 0x0F, action := 0x01, tile := if g < 24 then g else 0xFF, detail := toLE 1 p ++ toLE 1 g }
    if g < 24 then
      let s := s.updTile g fun t => { t with phasesOut := t.phasesOut ++ [p] }
      let gone := (s.tile g).phasesOut
      if gone.contains 8 && gone.contains 9 then
        (State.loseField { s with fresh := s.fresh + 1 } g (2 ^ 8 + 2 ^ 9) (Config.current s.fresh).toNat n).pumpChanges
      else s
    else
      let v := Tab.get 0 s.power.stagesOut g
      State.showLimits { s with power := { s.power with stagesOut := Tab.set 0 s.power.stagesOut g (setBit v p true) } }

/-- The input converters stop: what VBUS fed loses its state, and the controllers run on (R382, R459; log 23). -/
def State.stopInput (s : State) : State :=
  if s.power.stopped then s
  else
    let s := s.dropLinks (List.range 17)
    let s : State := { s with power := { s.power with stopped := true }, mem := [], poison := [], sync := [], signals := [], waits := []
                              wakes := [], ops := [], replays := [], txns := [], arrived := [], objLog := [], links := [], conns := []
                              ports := [], items := [], streams := [], intake := {} }
    (List.range 64).foldl (fun s j => if s.jobState j = 0 then s else s.stopJob j) s

/-- VIN_LOW: below 46 V the input current is held, below 42 V the converters stop (R382). -/
def vinLow (mv : Nat) (s : State) : State :=
  if 46000 ≤ mv then s
  else
    let s := { s with power := { s.power with vin := mv } }
    if mv < 42000 then s.stopInput else s.showLimits

/-- VIN_HIGH: above 57 V the converters stop (R459). -/
def vinHigh (mv : Nat) (s : State) : State :=
  let s := { s with power := { s.power with vin := mv } }
  if 57000 < mv then s.stopInput else s

/-- VIN_RESTORED: stopped converters restart below 56.5 V and from 42 V; a hold ends from 46 V (R382, R459). -/
def vinRestored (mv : Nat) (s : State) : State :=
  let s := { s with power := { s.power with vin := mv } }
  let s := if 42000 ≤ mv ∧ mv < 56500 then { s with power := { s.power with stopped := false } } else s
  s.showLimits

/-! ### Droop, patina and replica paths -/

/-- Mark the open step of the core on a tile (R346, R396, R410). -/
def State.markTile (s : State) (h : Nat) : State :=
  match s.coreOn h with
  | some c => if (s.core c).stepOpen then s.updCore c fun k => { k with record := { k.record with suspectMargin := true } } else s
  | none => s

/-- UNDERVOLTAGE (R396). -/
def undervoltage (h : Nat) (s : State) : State := (s.bump 0x3051 (h + 1)).markTile h

/-- V_set of a step in µV: 1.08 × the characterised voltage and the trim, both in steps of 2.5 mV, the first from 0.50 V; at least 0.65 V (R395, R424). -/
def vset (v trim : Nat) : Nat := max 650000 (108 * (5000 + 25 * (v + trim)))

/-- Whether V_set of a step would exceed 0.85 V (R395). -/
def stepBarred (v trim : Nat) : Bool := decide (850000 < vset v trim)

/-- The patina step ceiling of a tile under a trim: below the lowest step that is not available (R395). -/
def Tile.patinaCeiling (t : Tile) (trim : Nat) : Nat :=
  ((List.range 13).find? fun i => stepBarred (t.vchar.getD i 0).toNat trim).map (· - 1) |>.getD 12

/-- Show the patina step ceiling that a trim gives; a lost step is logged (R395). -/
def State.showPatina (s : State) (h : Nat) : State :=
  let v := s.get 0x3203 (h + 1)
  let c := min (bits v 12 4) ((s.tile h).patinaCeiling (s.get 0x3052 (h + 1)))
  if c = bits v 12 4 then s
  else
    let s := s.fault { cls := 0x1B, action := 0x02, tile := h, core := (s.coreOn h).getD 0xFF, detail := [0xFF] }
    s.change 0x3203 (h + 1) (setBits v 12 4 c)

/-- Raise a tile's trim by one step, to 20 at most; it is kept in the in-field record (R397, R424). -/
def State.raiseTrim (s : State) (h : Nat) : State :=
  let t := s.get 0x3052 (h + 1)
  if 20 ≤ t then s else ((s.put 0x3052 (h + 1) (t + 1)).appendRepair 0x0A h (toLE 1 (t + 1))).showPatina h

/-- PATINA_MEASURE: trim rises where the margin has fallen since the last measurement (R397). -/
def patinaMeasure (h margin : Nat) (s : State) : State :=
  let fallen := match (s.tile h).measured with
    | some m => decide (margin < m)
    | none => false
  let s := s.updTile h fun t => { t with measured := some margin }
  if fallen then s.raiseTrim h else s

/-- Show the clock alarm (R411): bit 0 by the selected condition, whose changes are evented; bit 1 holdover; bit 2 a warning in the last second. -/
def State.showHealth (s : State) : State :=
  let warned := s.tiles.any fun e => match e.2.lastWarning with
    | some t => decide (s.now < t + 1000000000)
    | none => false
  let holds := s.clocks.holdover.isSome
  let alarm := if s.get 0x3111 0x01 = 0 then warned else s.get 0x3110 0x03 ≠ 3 || holds
  let old := s.get 0x3111 0x02
  let new := setBit (setBit (setBit old 0 alarm) 1 holds) 2 warned
  let s := s.put 0x3111 0x02 new
  if bit old 0 = alarm then s else s.event 0x3111 0x02 new

/-- A replica warning: counted, logged at most once a second for a path, its step marked (R410). -/
def State.replicaWarn (s : State) (h path : Nat) : State :=
  let log := match (s.tile h).warned.find? fun e => e.1 = path with
    | some e => decide (e.2 + 1000000000 ≤ s.now)
    | none => true
  let s := s.bump 0x3113 (h + 1)
  let s := if log then s.fault { cls := 0x1B, tile := h, core := (s.coreOn h).getD 0xFF, detail := toLE 1 path } else s
  let s := s.updTile h fun t => { t with lastWarning := some s.now, warned := if log then Tab.put path s.now t.warned else t.warned }
  (s.markTile h).showHealth

/-- REPLICA_WINDOW: the lowest slack of a path in a microsecond, in thousandths of the tile period (R410). -/
def replicaWindow (h path slack : Nat) (s : State) : State :=
  let recent := ((s.tile h).slacks.filter fun e => decide (s.now < e.1 + msNs)) ++ [(s.now, slack)]
  let s := s.updTile h fun t => { t with slacks := recent }
  let s := s.put 0x3112 (h + 1) (recent.foldl (fun m e => min m e.2) slack)
  let s := if slack < s.get 0x3111 0x03 then s.replicaWarn h path else s
  if slack < 20 then (s.fenceTile h 0x03 0).pumpChanges else s

def execPowerPeriod (m : PowerSample) (s : State) : Host.Outcome State Fault Refusal := .next (powerPeriod m s)
def execStepDecision (s : State) : Host.Outcome State Fault Refusal := .next (stepDecision s)
def execTileStepChange (h : TileId) (s : State) : Host.Outcome State Fault Refusal := .next (tileStepChange h s)
def execThermalReading (h : TileId) (logic : List (BitVec 32)) (stack : List (BitVec 32)) (s : State) : Host.Outcome State Fault Refusal :=
  .next (thermalReading h (logic.map (·.toInt)) (stack.map (·.toInt)) s)
def execThermalStepWindow (h : TileId) (s : State) : Host.Outcome State Fault Refusal := .next (thermalStepWindow h s)
def execDroopCrossing (h : TileId) (s : State) : Host.Outcome State Fault Refusal := .next (s.bump 0x3050 (h + 1))
def execUndervoltage (h : TileId) (s : State) : Host.Outcome State Fault Refusal := .next (undervoltage h s)
def execPatinaMeasure (h : TileId) (margin : BitVec 32) (s : State) : Host.Outcome State Fault Refusal := .next (patinaMeasure h margin.toNat s)
def execEnergyFlush (s : State) : Host.Outcome State Fault Refusal := .next s.flushEnergy
def execReplicaWindow (h : TileId) (path : BitVec 8) (slack : BitVec 16) (s : State) : Host.Outcome State Fault Refusal :=
  .next (replicaWindow h path.toNat slack.toNat s)
def execStageFault (f : Stage) (s : State) : Host.Outcome State Fault Refusal := .next (stageFault f s)
def execVinLow (mv : BitVec 32) (s : State) : Host.Outcome State Fault Refusal := .next (vinLow mv.toNat s)
def execVinHigh (mv : BitVec 32) (s : State) : Host.Outcome State Fault Refusal := .next (vinHigh mv.toNat s)
def execVinRestored (mv : BitVec 32) (s : State) : Host.Outcome State Fault Refusal := .next (vinRestored mv.toNat s)

end Sys2Proof.Machine
end

