-- ==== Sys2Proof/Machine/Clock.lean ====
section
/-! DEFINITION. Reference inputs (R408, R409), the timebase and its regions (R412), PPS (R413, R467). -/

namespace Sys2Proof.Machine

open Sys2Proof

/-- Number of a reference input: 0 A, 1 B. -/
def refCode : RefInput → Nat
  | .a => 0
  | .b => 1

/-- Whether an input is declared good. -/
def State.refGood (s : State) (r : Nat) : Bool := bit (s.get 0x3110 0x03) r

/-- The PLL follows an input (R408): a change of input counts as a switch-over. -/
def State.followRef (s : State) (r : Nat) : State :=
  let s := if s.clocks.followed = r then s else s.countRare 0x3110 0x05
  ({ s with clocks := { s.clocks with followed := r, holdover := none } }).change 0x3110 0x02 r

/-- Holdover ends on an input, after a time that the fault log records with the input that was lost (R408). -/
def State.endHoldover (s : State) (r ns : Nat) : State :=
  let lost := s.clocks.followed
  let s := (s.count 0x3110 0x06 64 ns).followRef r
  s.fault { cls := 0x10, action := 0x01, detail := toLE 1 lost ++ toLE 4 (min ns (2 ^ 32 - 1)) }

/-- The preferred input, with ref_select other than 3 (R408, R417). -/
def State.preferredRef (s : State) : Option Nat :=
  match s.get 0x3110 0x01 with
  | 0 | 1 => some 0
  | 2 => some 1
  | _ => none

/-- The PLL goes to the preferred input where that is good and another is followed (R408). -/
def State.preferRef (s : State) : State :=
  match s.preferredRef with
  | some r => if s.refGood r && s.get 0x3110 0x02 ≠ r && s.clocks.holdover.isNone then s.followRef r else s
  | none => s

/-- REFERENCE_BAD (R408, R409). -/
def referenceBad (r : Nat) (s : State) : State :=
  if !s.refGood r then s
  else
    let s := s.change 0x3110 0x03 (setBit (s.get 0x3110 0x03) r false)
    if s.get 0x3110 0x02 ≠ r then s.showHealth
    else
      let s := ({ s with clocks := { s.clocks with holdover := some s.now } }.change 0x3110 0x02 2).showHealth
      if s.refGood (1 - r) then
        let ns := min 10000 (Config.holdTime s.fresh)
        (State.endHoldover { s with fresh := s.fresh + 1, now := s.now + ns } (1 - r) ns).showHealth
      else s

/-- REFERENCE_GOOD (R408). -/
def referenceGood (r : Nat) (s : State) : State :=
  if s.refGood r then s
  else
    let s := s.change 0x3110 0x03 (setBit (s.get 0x3110 0x03) r true)
    let s := match s.clocks.holdover with
      | some t => s.endHoldover r (s.now - t)
      | none => s.preferRef
    s.showHealth

/-- The rate correction in force, in parts per 10⁹ (R417). -/
def State.rate (s : State) : Int := toSigned 32 (s.get 0x3120 0x06)

/-- Bring the ns by which the master has been slewed up to now (R414). -/
def State.advanceSlew (s : State) : State :=
  let k := s.clocks
  let acc := k.slewRest + s.rate * (s.now - k.slewedTo : Nat)
  { s with clocks := { k with slewed := k.slewed + acc / 1000000000, slewRest := acc % 1000000000, slewedTo := s.now } }

/-- A region takes at most 1 ns of a correction (R412). -/
def followOne (own master : Int) : Int := if own < master then own + 1 else if master < own then own - 1 else own

/-- TIMEBASE_CORRECTION: a region compares the master's value with its own counter (R412). What time alone changes is shown with it: the warnings of
the last second (R411) and a PTP source that has fallen silent (R414). -/
def timebaseCorrection (r : Nat) (s : State) : State :=
  let s := s.advanceSlew
  let s := { s with clocks := { s.clocks with regions := Tab.upd 0 s.clocks.regions r fun v => followOne v s.clocks.slewed } }
  let s := if s.get 0x3120 0x03 = 2 && decide (s.clocks.lastPtp + Config.ptpSilence < s.now) then s.change 0x3120 0x03 3 else s
  s.showHealth

/-- PPS_OUT: an edge at the next whole second (R413). -/
def ppsOut (s : State) : State :=
  let sec := 1000000000
  let t := max ((s.now + sec - 1) / sec * sec) (s.clocks.ppsOut + sec)
  { s.emit (.pulse t) with now := t, clocks := { s.clocks with ppsOut := t } }

/-- PPS_IN_EDGE: a pulse of at least 100 ns is stamped; an edge within 500 ms of the one before is ignored (R413, R467). -/
def ppsInEdge (width : Nat) (s : State) : State :=
  if width < 100 then s
  else
    let near := match s.clocks.ppsIn with
      | some t => decide (s.now < t + 500000000)
      | none => false
    let s := { s with clocks := { s.clocks with ppsIn := some s.now } }
    if near then s else s.put 0x3120 0x08 s.now

def execReferenceBad (r : RefInput) (s : State) : Host.Outcome State Fault Refusal := .next (referenceBad (refCode r) s)
def execReferenceGood (r : RefInput) (s : State) : Host.Outcome State Fault Refusal := .next (referenceGood (refCode r) s)
def execTimebaseCorrection (r : BitVec 8) (s : State) : Host.Outcome State Fault Refusal := .next (timebaseCorrection r.toNat s)
def execPpsOut (s : State) : Host.Outcome State Fault Refusal := .next (ppsOut s)
def execPpsInEdge (width : BitVec 32) (s : State) : Host.Outcome State Fault Refusal := .next (ppsInEdge width.toNat s)

end Sys2Proof.Machine
end

