-- ==== Sys2Proof/Machine/JobControl.lean ====
section
/-! DEFINITION. The control stream's operations (R334), one at a time and in sequence order. -/

namespace Sys2Proof.Machine

open Sys2Proof

/-- The control item that runs, waiting for its job to quiesce or for its swap. -/
def State.runningControl (s : State) : Option Item := s.items.find? fun i => i.stream = 0 && i.state = 2

/-- The next control item, where none runs: the one of the lowest sequence that is accepted (R334). -/
def State.nextControl (s : State) : Option Item :=
  if s.runningControl.isSome || s.unmanaged then none
  else (s.items.filter fun i => i.stream = 0 && i.state = 1).foldl (fun b i => match b with
    | none => some i
    | some x => if i.sequence < x.sequence then some i else b) none

/-- Run the next control item where it carries an operation; it takes effect as it starts, and the module leaves Rest for it (R394). -/
def State.withControl (s : State) (op : Nat) (f : Item → State → State) : State :=
  match s.nextControl with
  | none => s
  | some i =>
    if i.control ≠ op then s
    else f i (s.leaveRest.updItem 0 i.sequence fun x => { x with state := 2, started := s.now })

/-- End the running control item. -/
def State.controlEnds (s : State) (i : Item) (status : Nat) : State := s.endControl 0 i.sequence status 0

/-! ### JOB_CREATE, JOB_LAYOUT, JOB_DELETE -/

/-- Sizes of job-table subindices 0x01 to 0x0C (R340). -/
def recordSizes : List Nat := [1, 4, 8, 2, 1, 4, 8, 4, 4, 176, 256, 1]

/-- The subindices and values of a job record, cut from a payload in order (R334). -/
def recordFields : List Nat → Nat → Bytes → List (Nat × Nat)
  | [], _, _ => []
  | n :: r, sub, b => (sub, ofLE (b.take n)) :: recordFields r (sub + 1) (b.drop n)

/-- The edits that write a job record, reserved bits clear (R11, R334). -/
def recordEdits (j : Nat) (b : Bytes) : List (Nat × Nat) :=
  (recordFields recordSizes 1 b).map fun x => (okey (0x2000 + j) x.1, writeMask (0x2000 + j) x.1 x.2)

/-- The edits that clear a job record (R334). -/
def clearEdits (j : Nat) : List (Nat × Nat) :=
  ([1, 2, 3, 4, 5, 6, 7, 8, 9, 10, 11, 12, 15].map fun sub => okey (0x2000 + j) sub).map fun k => (k, keyDefault k)

/-- The edits that a control operation makes (R334). -/
def Item.jobEdits (i : Item) : List (Nat × Nat) := if i.control = 7 then clearEdits i.job else recordEdits i.job i.payload

/-- A change of a job record through a swap, which waits for one under way; LOCKED while a session holds the lock (R49, R50, R334). -/
def State.controlSwap (s : State) (i : Item) : State :=
  if s.get 0xF002 0x01 ≠ 0 then s.controlEnds i 0x0E
  else
    let c : Change := ⟨.control 0 i.sequence, i.jobEdits⟩
    State.pumpChanges { s with changes := s.changes ++ [c] }

/-- JOB_CREATE (R334). -/
def jobCreate (s : State) : State :=
  s.withControl 0x01 fun i s =>
    if s.jobGet i.job 0x01 = 1 then s.controlEnds i 0x09 else s.controlSwap i

/-- JOB_LAYOUT (R334). -/
def jobLayout (s : State) : State :=
  s.withControl 0x05 fun i s =>
    if s.jobState i.job ≠ 1 then s.controlEnds i 0x09 else s.controlSwap i

/-- JOB_DELETE (R334). -/
def jobDelete (s : State) : State :=
  s.withControl 0x07 fun i s =>
    if s.jobState i.job ≠ 1 || s.jobItems i.job ≠ 0 then s.controlEnds i 0x09 else s.controlSwap i

/-! ### JOB_DISCARD, JOB_START -/

/-- JOB_DISCARD: every accepted item of the job is done, in each stream's order (R334). -/
def jobDiscard (s : State) : State :=
  s.withControl 0x06 fun i s =>
    let s := (s.items.filter fun x => x.job = i.job && x.stream ≠ 0 && x.state = 1).foldl
      (fun s x => s.finishItem x.stream x.sequence 2 0 0) s
    s.controlEnds i 0

/-- Whether a job start is deferred: a swap changes one of its cores, or a layout is held for one (R57, R200). -/
def State.startDeferred (s : State) (j : Nat) : Bool :=
  (s.jobCores j).any fun c => s.swap.cores.contains c || s.layoutHeld c

/-- Give the lead of a restored job its STARTED item back, its start stamp the resumption (R163, R329, R331). -/
def State.reclaimItem (s : State) (j : Nat) : State :=
  match s.startedItem j with
  | some i =>
    (s.updItem i.stream i.sequence fun i => { i with started := s.now }).updCore (s.lead j) fun k =>
      { k with item := some (i.stream, i.sequence) }
  | none => s

/-- Restore every core of a job from its context, all of them or none (R163); the status of a refusal. -/
def State.restoreJob (s : State) (j : Nat) : State × Nat :=
  if (s.jobCores j).all fun c => s.canSave c && s.imageOk j c (s.contextArea c) then
    let s := (s.jobCores j).foldl (fun s c => s.restoreCore j c) s
    (((s.reclaimItem j).updJob j fun b => { b with saved := false }).setJobState j 2, 0)
  else (s, Status.contextInvalid.code)

/-- Start a job with fresh objects; its STARTED item, if it holds one, starts again at its ENTRY (R278, R370; log 13). -/
def State.freshJob (s : State) (j : Nat) : State × Option Nat :=
  let r := s.startFresh j
  match r.2 with
  | some k => (r.1, some k)
  | none =>
    let s := (r.1.setJobState j 2).updJob j fun b => { b with mustFresh := false, saved := false }
    ((s.markResumed j).restartItem j, none)

/-- JOB_START (R20, R163, R278, R334, R370). -/
def jobStart (s : State) : State :=
  match s.nextControl with
  | some i =>
    if s.startDeferred i.job then s
    else s.withControl 0x02 fun i s =>
      let j := i.job
      let st := s.jobState j
      let restore := bit i.controlFlags 0
      if st ≠ 1 && st ≠ 4 then s.controlEnds i 0x09
      else if st = 4 && restore then s.controlEnds i 0x09
      else if (s.jobCores j).any s.coreOut then s.controlEnds i Status.coreOutOfService.code
      else if restore && !(s.job j).mustFresh then
        let r := s.restoreJob j
        r.1.controlEnds i r.2
      else
        let r := s.freshJob j
        match r.2 with
        | some k => r.1.endControl 0 i.sequence 0x10 k
        | none => r.1.controlEnds i 0
  | none => s

/-! ### JOB_STOP, JOB_CHECKPOINT -/

/-- Save every core of a quiescent job (R162). -/
def State.saveJob (s : State) (j : Nat) : State :=
  (s.jobCores j).foldl (fun s c => s.saveContext j c) (s.updJob j fun b => { b with saved := true })

/-- Whether every core of a job can be saved (R162). -/
def State.canSaveJob (s : State) (j : Nat) : Bool := (s.jobCores j).all s.canSave

/-- The running operation's job has quiesced: it is saved where asked, and stopped or resumed (R334). -/
def State.finishQuiesced (s : State) (i : Item) : State :=
  let j := i.job
  let s := s.updJob j fun b => { b with quiesce := false }
  let save := i.control = 4 || bit i.controlFlags 0
  if save && !s.canSaveJob j then (s.releaseQuiesce j).controlEnds i 0x09
  else
    let s := if save then s.saveJob j else s
    (if i.control = 3 then s.stopJob j else s.releaseQuiesce j).controlEnds i 0

/-- Finish the running operation once its job is at a quiescent point (R334). -/
def State.tryQuiesced (s : State) : State :=
  match s.runningControl with
  | some i =>
    if (i.control = 3 || i.control = 4) && s.jobState i.job = 3 && s.jobQuiet i.job then s.finishQuiesced i else s
  | none => s

/-- JOB_STOP and JOB_CHECKPOINT: ask the job to quiesce (R157, R334). -/
def State.quiesceFor (s : State) (op : Nat) : State :=
  s.withControl op fun i s =>
    if s.jobState i.job ≠ 2 then s.controlEnds i 0x09
    else ((s.updJob i.job fun b => { b with quiesce := true }).askQuiesce i.job).tryQuiesced

/-- The wait of a quiescing operation has run out: ERROR with BUSY, and the job goes on (R334). -/
def State.controlTimeout (s : State) : State :=
  match s.runningControl with
  | some i =>
    if i.control ≠ 3 && i.control ≠ 4 then s
    else
      let s := { s with now := max s.now (i.started + s.jobGet i.job 0x06 * 1000) }
      let s := s.updJob i.job fun b => { b with quiesce := false }
      (s.releaseQuiesce i.job).controlEnds i 0x08
  | none => s

def execJobCreate (s : State) : Host.Outcome State Fault Refusal := .next (jobCreate s)
def execJobStart (s : State) : Host.Outcome State Fault Refusal := .next (jobStart s)
def execJobStop (s : State) : Host.Outcome State Fault Refusal := .next (s.quiesceFor 0x03)
def execJobCheckpoint (s : State) : Host.Outcome State Fault Refusal := .next (s.quiesceFor 0x04)
def execJobLayout (s : State) : Host.Outcome State Fault Refusal := .next (jobLayout s)
def execJobDiscard (s : State) : Host.Outcome State Fault Refusal := .next (jobDiscard s)
def execJobDelete (s : State) : Host.Outcome State Fault Refusal := .next (jobDelete s)

end Sys2Proof.Machine
end

