-- ==== Sys2Proof/Machine/Replay.lean ====
section
/-! DEFINITION. Replay of suspect steps (R351 to R354): the run of a step again, what runs are compared by, votes, strikes. -/

namespace Sys2Proof.Machine

open Sys2Proof

/-! ### A run of a step again (R352) -/

/-- A command of the run that only completes: what it does reaches outside the core, or needs no time (R352). -/
def State.runDone (s : State) (c e : Nat) (a : Active) (f : ArithFlags) : State := s.putActive c e 0 (a.finish s.now f)

/-- Write to a range what the original holds there, with its poison: the result of an RREAD or of a REDUCE (R352). -/
def State.takeOriginal (s o : State) (c : Nat) (rs : List (Nat × Nat)) : State :=
  rs.foldl (fun s r => (pieces 64 r.1 (o.readBytes r.1 r.2)).foldl (fun s x => (s.putPiece c 5 x.1 x.2 (o.poisonAt x.1)).1) s) s

/-- The payload limit that a command of the original met (R311). -/
def State.limitOf (o : State) (c : Nat) (q : Queued) : Nat :=
  (((o.core c).record.messages.find? fun m => m.cmd = q.cmd && m.loops = q.loops).map (·.limit)).getD 8208

/-- SEND: formed; what it writes in the core's scratchpad or in device memory is captured, and nothing is sent (R352). -/
def State.runSend (s : State) (c : Nat) (a : Active) : State :=
  match a.tensor (a.q.cmd.desc 0), a.tensor (a.q.cmd.desc 12) with
  | some src, some dst =>
    let s := s.noteMessage c a.q (s.imageOf src)
    if spaceOf dst.base = 1 && spCore dst.base ≠ c then s.runDone c 5 a { poison := s.tensorPoison src }
    else
      let r := s.moveTensor c 5 a.q src dst
      endMove c 5 0 a (r.1, r.2.1) { poison := r.2.2 }
  | _, _ => s

/-- MCAST: formed; the root's own copy is written (R352). -/
def State.runMcast (s : State) (c : Nat) (a : Active) : State :=
  match a.tensor (a.q.cmd.desc 0), a.tensor (a.q.cmd.desc 12), s.group true a.q.cmd.group with
  | some src, some dst, some (ms, _, _, _) =>
    let data := s.mcastData (s.openKey c a.q (src.overlaps (dst.onCore c))) src dst
    let s := (s.noteMessage c a.q (s.imageOf src)).updCore c fun k => { k with groupOps := Tab.upd 0 k.groupOps a.q.cmd.group (· + 1) }
    let r := if bit ms c then eachUntil (fun s (x : Nat × Bytes × Bool) => s.putPiece c 5 (setBits x.1 26 5 c) x.2.1 x.2.2) data s else (s, none)
    endMove c 5 0 a r { poison := data.any (·.2.2) }
  | _, _, _ => s

/-- REDUCE: the contribution is formed; at the root the result is the original's (R352). -/
def State.runReduce (s o : State) (c : Nat) (a : Active) : State :=
  match a.tensor (a.q.cmd.desc 0), s.group false a.q.cmd.group with
  | some src, some (_, root, _, _) =>
    let s := (s.noteMessage c a.q (s.imageOf src)).updCore c fun k =>
      { k with groupOps := Tab.upd 0 k.groupOps (reduceKey a.q.cmd.group) (· + 1) }
    match a.tensor (a.q.cmd.desc 12) with
    | some dst =>
      if root = c then (s.takeOriginal o c dst.spans).runDone c 5 a (ArithFlags.ofByte (o.core c).record.resultFlags) else s.runDone c 5 a {}
    | none => s.runDone c 5 a {}
  | _, _ => s

/-- RWRITE: its messages are formed (R352). -/
def State.runRwrite (s o : State) (c : Nat) (a : Active) : State :=
  match a.tensor (a.q.cmd.desc 0) with
  | some t =>
    let remote := a.q.cmd.word 3
    let limit := o.limitOf c a.q
    ((s.writeParts t remote (cutSize limit)).foldl (fun s p => s.noteMessage c a.q (winPrefix (remote + p.1) 0 0 0 0 ++ p.2) limit) s).runDone c 5 a
      { poison := (s.firstPoison t).isSome }
  | none => s

/-- RREAD: its requests are formed; its data are the original's (R352). -/
def State.runRread (s o : State) (c : Nat) (a : Active) : State :=
  match a.tensor (a.q.cmd.desc 12) with
  | some t =>
    let remote := a.q.cmd.word 3
    let limit := o.limitOf c a.q
    (((readParts t.imageLen remote (cutSize limit)).foldl (fun s p =>
      s.noteMessage c a.q (winPrefix (remote + p.1) p.2 0 0 0) limit) s).takeOriginal o c t.imageRanges).runDone c 5 a {}
  | none => s

/-- TIMESTAMP: the instant is an input from outside, the original's (DEDUCED, log 75); the flags are the run's. -/
def State.runTimestamp (s o : State) (c : Nat) (a : Active) : State :=
  let at_ := a.q.cmd.word 2
  let r := s.putBytes c 0 at_ (o.readBytes at_ 8 ++ toLE 8 (s.core c).flags) false
  endMove c 0 0 a r {}

/-- Carry out the started command of an engine in a run; passes for an MM or MM_SEG in turn, as many as a fuel. -/
def State.runCommand (s o : State) (c e : Nat) (a : Active) (fuel : Nat) : State :=
  let passes (f : State → State) : State := (List.range fuel).foldl (fun s _ => passEnd c [] [] (f s)) s
  match a.q.cmd.opcode with
  | 0x01 | 0x02 | 0x09 => s.runDone c e a {}
  | 0x04 => stepBegin c s
  | 0x06 => seqHint c s
  | 0x07 => s.runTimestamp o c a
  | 0x08 => seqEnd c s
  | 0x0A => seqLoop c s
  | 0x10 | 0x13 | 0x14 => accessMove c a.q.cmd.opcode [] s
  | 0x11 => accessGather c [] s
  | 0x20 => passes (executeMm c [])
  | 0x21 => passes (executeMmSeg c [])
  | 0x22 => executeWload c [] s
  | 0x23 => executeMmW c [] [] s
  | 0x24 => executeAccIo c [] s
  | 0x25 => executeMmF64 c [] [] s
  | 0x30 => fuseOut c [] s
  | 0x40 => vectorVop c [] s
  | 0x41 => vectorVred c [] s
  | 0x42 => vectorVtab c [] s
  | 0x50 => s.runSend c a
  | 0x51 => s.runMcast c a
  | 0x52 => s.runReduce o c a
  | 0x53 => s.runRwrite o c a
  | 0x54 => s.runRread o c a
  | _ => seqNop c a.q.cmd.opcode s

/-- Passes that an execute command takes, the fuel of its run. -/
def State.passesOf (s : State) (c : Nat) (a : Active) : Nat :=
  match a.tensor (a.q.cmd.desc 0), a.tensor (a.q.cmd.desc 12) with
  | some ta, some tb =>
    let cmd := a.q.cmd
    let quarter := bit (cmd.word 2) 48
    if cmd.opcode = 0x20 then (mmPasses (s.widths c) quarter (ta.dim 0) (bits (cmd.word 4) 0 32) (ta.dim 1) (tb.dim 1)).length
    else (segTiles (s.widths c) quarter (tb.dim 1) (a.segments.map segmentOf)).length
  | _, _ => 0

/-- One command of a run: fetched, dispatched, started with its wait taken as met, done and completed (R352). -/
def State.runNext (o : State) (c : Nat) (s : State) : State :=
  let s := commandDispatch c (commandFetch c [] s)
  match (List.range 6).find? fun e => !((s.core c).queue e).isEmpty with
  | none => s
  | some e =>
    let s := commandStart c e (s.updHead c e fun q => { q with waitMet := true })
    match (s.core c).started e with
    | [] => s
    | a :: _ =>
      if a.q.cmd.opcode = 0x05 && !a.done then s
      else commandComplete c e (if a.done then s else s.runCommand o c e a (s.passesOf c a))

/-- Whether a run has come to its STEP_COMMIT. -/
def Core.atCommit (k : Core) : Bool := (k.started 0).any fun a => a.q.cmd.opcode = 0x05 && !a.done

/-- Commands of a run, up to its STEP_COMMIT or the end of its fuel. -/
def State.runAll (o : State) (c : Nat) : Nat → State → State
  | 0, s => s
  | n + 1, s => if (s.core c).runs && !(s.core c).atCommit then State.runAll o c n (o.runNext c s) else s

/-- The state that a run of a core's step begins in: memory as the step's images hold it and as it stands elsewhere, the core as STEP_BEGIN left it,
its latches invalid; nothing outside the core that could delay it (R78, R100, R140, R352). -/
def State.runStart (s : State) (c : Nat) : State :=
  let k := s.core c
  let r := k.record
  let s := r.stepImages.foldl (fun s e => match e.2 with
    | some i => s.restorePage e.1 i
    | none => s) s
  let k : Core := { job := k.job, state := 1, stepOpen := true, stepArea := k.stepArea, regionMiB := 2 ^ 64 }
  { s with hubs := [], links := [], channels := [], txns := [], signals := [], waits := [], wakes := [], replays := [], ops := [], jobs := []
           obj := s.obj.filter fun e => e.1 / 256 ≠ 0x4600
           cores := [(c, { k.at r.beginAt with record := { beginAt := r.beginAt, fresh := r.fresh, trap := r.trap, completed := 1 } })] }.put
    (0x2100 + k.job) 0x01 r.trap

/-- The 64 poison bits of a page. -/
def State.pagePoison (s : State) (page : Nat) : Nat :=
  (List.range 64).foldl (fun v i => if s.poisonAt (page + 64 * i) then v + 2 ^ i else v) 0

/-- What a run of a core's step leaves for comparison, from the state at its end (R353). -/
def State.resultOf (s : State) (c : Nat) : ReplayResult :=
  let k := s.core c
  let here (a : Nat) : Bool := spaceOf a = 0 || (spaceOf a = 1 && spCore a = c)
  { ownFailed := k.record.suspectChecksum
    pages := (k.record.stepImages.filter fun e => here e.1).map fun e =>
      { addr := BitVec.ofNat 64 e.1, data := s.readBytes e.1 4096, poison := BitVec.ofNat 64 (s.pagePoison e.1) }
    messages := (k.record.messages.mergeSort fun x y => x.order ≤ y.order).map fun m => BitVec.ofNat 32 m.crc
    flags := BitVec.ofNat 8 k.flags, completed := BitVec.ofNat 64 k.record.completed }

/-- What the original run of a core's open step gives for comparison (R353). -/
def State.original (s : State) (c : Nat) : ReplayResult := { s.resultOf c with ownFailed := false }

/-- What a run without a fault gives (R352). -/
def State.replayed (s : State) (c : Nat) : ReplayResult := (State.runAll s c ((s.core c).record.completed + 1) (s.runStart c)).resultOf c

/-! ### Comparison (R353) -/

/-- Bytes of a page image, as 4,096 bytes. -/
def imageBytes (i : PageImage) : Bytes := (List.range 4096).map (Tab.get 0 i.cells)

/-- Poison bits of a page image. -/
def imagePoison (i : PageImage) : Nat := (List.range 64).foldl (fun v g => if Tab.get false i.poison g then v + 2 ^ g else v) 0

/-- What a page held before the step: its image, or what it holds now where the step did not write it. -/
def State.pageBefore (s : State) (c page : Nat) : Bytes × Nat :=
  match Tab.get none (s.core c).record.stepImages page with
  | some i => (imageBytes i, imagePoison i)
  | none => (s.readBytes page 4096, s.pagePoison page)

/-- What a page holds after a run: what the run wrote, or what it held before. -/
def State.pageAfter (s : State) (c page : Nat) (r : ReplayResult) : Bytes × Nat :=
  match r.pages.find? fun p => p.addr.toNat = page with
  | some p => (padTo 4096 p.data, p.poison.toNat)
  | none => s.pageBefore c page

/-- Pages that some of two runs wrote. -/
def pagesOf (a b : ReplayResult) : List Nat := ((a.pages ++ b.pages).map (·.addr.toNat)).eraseDups

/-- Whether two runs agree (R353). -/
def State.runsAgree (s : State) (c : Nat) (a b : ReplayResult) : Bool :=
  a.messages = b.messages && a.flags = b.flags && a.completed = b.completed
    && (pagesOf a b).all fun p => s.pageAfter c p a = s.pageAfter c p b

/-! ### What follows a vote -/

/-- Write a page with its poison in every place a write to it is made. -/
def State.putPage (s : State) (page : Nat) (v : Bytes × Nat) : State :=
  (s.writePlaces page).foldl (fun s w =>
    let s := (s.storeAt w v.1 false).countWritten w 4096
    (List.range 64).foldl (fun s g => if bit v.2 g then s.setPoison (w + 64 * g) true else s) s) s

/-- Rewrite the pages in which the original differs from the majority (R353). -/
def State.rewritePages (s : State) (c : Nat) (o r : ReplayResult) : State :=
  let pages := (pagesOf o r).map fun p => (p, s.pageAfter c p r)
  pages.foldl (fun t p => if s.pageAfter c p.1 o = p.2 then t else t.putPage p.1 p.2) s

/-- The REPLAY entry: tiles of runs 1 to 4, the outcome's row, strikes of the minority tile (R364). -/
def State.logReplay (s : State) (c row : Nat) (runs : List Run) (strikes : Nat) : State :=
  s.fault { cls := 0x0C, action := if row = 1 ∨ row = 2 then 0x01 else if row = 3 then 0x07 else 0x00, tile := s.tileOf c, core := c
            job := (s.core c).job
            detail := padTo 4 ((runs.map fun r => (BitVec.ofNat 8 r.tile : Byte)) ++ List.replicate 4 0xFF) ++ toLE 1 row ++ toLE 1 strikes }

/-- A strike on a tile (R354); at strike_limit within the window it is fenced, after what it gave has been committed. -/
def State.strike (s : State) (h : Nat) : State :=
  let s := s.updTile h fun t => { t with strikes := (t.strikes.drop (t.strikes.length - 255)) ++ [s.now] }
  s.change 0x4401 (h + 1) (s.strikesOf h).length

/-- Fence a tile whose strikes have reached the limit. -/
def State.strikeOut (s : State) (h follows : Nat) : State :=
  if s.get 0x4400 0x05 ≤ (s.strikesOf h).length then (s.fenceTile h 0x05 0 follows).pumpChanges else s

/-- A mismatch on a tile was followed by an agreeing replay; sixteen of them within 24 h are logged (R354). -/
def State.falseAlarm (s : State) (c : Nat) (runs : List Run) : State :=
  let h := s.tileOf c
  let recent := ((s.tile h).falseAlarms.filter fun t => decide (s.now < t + 24 * hourNs)) ++ [s.now]
  let s := s.bump 0x4400 0x0F
  if 16 ≤ recent.length then (s.updTile h fun t => { t with falseAlarms := [] }).logReplay c 0 runs 0
  else s.updTile h fun t => { t with falseAlarms := recent }

/-- The STEP_COMMIT that waits completes (R155). -/
def State.finishCommit (s : State) (c : Nat) : State :=
  match (s.core c).working 0 0x05 with
  | some (_, a) => (s.commitStep c).seqDone c a
  | none => s

/-- The original is committed (R353): rows 0 and 1. -/
def State.commitOriginal (s : State) (c : Nat) (runs : List Run) (minority : Option Nat) : State :=
  match minority with
  | none =>
    let s := if (s.core c).record.suspectChecksum then s.falseAlarm c runs else s
    s.finishCommit c
  | some h =>
    let s := s.strike h
    let n := s.faultNext
    let s := s.logReplay c 1 runs (s.strikesOf h).length
    (s.finishCommit c).strikeOut h n

/-- The first command whose message differs between the original and a run. -/
def Core.differing (k : Core) (r : ReplayResult) : Cmd :=
  let ms := k.record.messages.mergeSort fun x y => x.order ≤ y.order
  match (List.range ms.length).find? fun i => (ms[i]?).map (·.crc) ≠ (r.messages[i]?).map (·.toNat) with
  | some i => ((ms[i]?).map (·.cmd)).getD {}
  | none => ((ms.getLast?).map (·.cmd)).getD {}

/-- A replay is committed in place of the original (R353): row 2. Where the original's messages differ, the job ends (R356). -/
def State.commitReplay (s : State) (c : Nat) (o r : ReplayResult) (runs : List Run) : State :=
  let h := s.tileOf c
  let cmd := (s.core c).differing r
  let s := (s.rewritePages c o r).updCore c fun k => { k with flags := r.flags.toNat }
  let s := s.strike h
  let n := s.faultNext
  let s := s.logReplay c 2 runs (s.strikesOf h).length
  let s := s.finishCommit c
  let s := if o.messages = r.messages then s
    else s.egressByCommand c 3 (errOf 5 cmd { status := Status.poison.code } s.now (s.core c).laterErrors)
  s.strikeOut h n

/-- No majority: the pages are restored, and the core stops with POISON (R353): row 3. -/
def State.noMajority (s : State) (c : Nat) (runs : List Run) : State :=
  match (s.core c).working 0 0x05 with
  | some (_, a) =>
    let s := ((s.undoStep c).bump 0x4400 0x0D).logReplay c 3 runs 0
    s.coreError c (errOf 0 a.q.cmd { status := Status.poison.code } s.now (s.core c).laterErrors) false
  | none => s

/-- Count a run (R360). -/
def State.countRun (s : State) (c : Nat) (r : Run) (voters : Nat) : State :=
  let s := s.bump 0x4400 0x0B
  let s := s.bumpIf r.result.ownFailed 0x4400 0x0E
  let s := s.bumpIf (!s.tileInPool r.tile) 0x4400 0x10
  s.bumpIf (!r.result.ownFailed && voters = 0 && !s.runsAgree c (s.original c) r.result) 0x4400 0x0C

/-- The runs of a step vote (R353); the step leaves the line, or waits there for a further run. -/
def State.vote (s : State) (c : Nat) (o : ReplayResult) (runs : List Run) : State :=
  let resolved : State := { s with replays := s.replays.filter fun y => y.core ≠ c }
  let wait : State := { s with replays := s.replays.map fun y => if y.core = c then { y with runs := runs } else y }
  let undecided := if 4 ≤ runs.length then resolved.noMajority c runs else wait
  match runs.filter fun r => !r.result.ownFailed with
  | [a] => if s.runsAgree c o a.result then resolved.commitOriginal c runs none else undecided
  | [a, b] =>
    if s.runsAgree c o b.result then resolved.commitOriginal c runs (some a.tile)
    else if s.runsAgree c a.result b.result then resolved.commitReplay c o b.result runs
    else resolved.noMajority c runs
  | _ => undecided

/-- REPLAY_RUN_DONE: the run that goes on for a core's suspect step ends on its tile, a borrowed core is given back, and the runs vote (R351 to R353).
What it left is what the step gives again, or, where the tile has a fault, what the row carries (log 75). -/
def replayRunDone (c : Nat) (fault : Option ReplayResult) (s : State) : State :=
  let s := s.assignRuns
  match s.replays.find? fun x => x.core = c with
  | none => s
  | some x =>
    match x.tile with
    | none => s
    | some h =>
      let r : Run := ⟨h, fault.getD (s.replayed c)⟩
      let o := s.original c
      let s := (s.freeRun x).countRun c r (x.runs.filter fun r => !r.result.ownFailed).length
      (s.vote c o (x.runs ++ [r])).assignRuns

def execReplayRunDone (c : CoreId) (fault : Option ReplayResult) (s : State) : Host.Outcome State Fault Refusal :=
  .next (replayRunDone c fault s)

end Sys2Proof.Machine
end

