-- ==== Sys2Proof/Machine/Session.lean ====
section
/-! DEFINITION. Sessions and Tchikebel units (R40 to R48): replies, sessions of a source, transfers and how they end, events sent again. -/

namespace Sys2Proof.Machine

open Sys2Proof

/-- Services by their codes (R43). -/
def knownService (c : Nat) : Bool := [0x01, 0x02, 0x03, 0x04, 0x05, 0x06, 0x07, 0x10, 0x11].contains c

/-- A session by its slot. -/
def State.session (s : State) (n : Nat) : Option Session := Tab.get none s.sessions n

/-- Set a session's slot. -/
def State.setSession (s : State) (n : Nat) (x : Option Session) : State := { s with sessions := Tab.set none s.sessions n x }

/-- Change a session. -/
def State.updSession (s : State) (n : Nat) (f : Session → Session) : State :=
  match s.session n with
  | some x => s.setSession n (some (f x))
  | none => s

/-- The lowest free slot of the 32 (R41). -/
def State.freeSession (s : State) : Option Nat := (List.range 32).find? fun n => (s.session n).isNone

/-- The clear session of a source (R442). -/
def State.clearSession (s : State) (src : Source) : Option Nat :=
  (List.range 32).find? fun n => match s.session n with
    | some x => !x.secure && x.source.port = src.port && x.source.peer = src.peer
    | none => false

/-- The connection that a CTP source's units come over (R308, R442). -/
def sourceConn (src : Source) : Nat := src.peer.toNat / 2 ^ 16

/-- Send a unit back in the form in which it was asked (R441): in clear over a connection as an in-band message, or as it leaves M0 or M1. -/
def State.sendUnit (s : State) (src : Source) (u : TchUnit) : State :=
  let n := sourceConn src
  if src.env.isNone && decide (src.port.val < 17) && (s.conn n).isSome then (s.queueMessage n 0x30 0 0 (unitBytes u)).1
  else s.emit (.unit src u)

/-- A unit of the device's own for an object (R42). -/
def deviceUnit (src : Source) (service txn status idx sub type param : Nat) (last : Bool) (data : Bytes) : TchUnit :=
  { version := 1, service := BitVec.ofNat 8 service, transaction := BitVec.ofNat 16 txn, status := BitVec.ofNat 8 status, response := true
    maquette := false, envelope := src.env.isSome, last := last, reserved := 0, length := BitVec.ofNat 16 data.length
    index := BitVec.ofNat 16 idx, subindex := BitVec.ofNat 8 sub, type := BitVec.ofNat 8 type, param := BitVec.ofNat 32 param, data := data }

/-- Keep a request with its reply among the last 64 of a session (R46). -/
def Session.keep (x : Session) (u r : TchUnit) : Session :=
  let l := x.completed ++ [(u, r)]
  { x with completed := l.drop (l.length - 64) }

/-- Answer a session's request and keep the answer (R46). -/
def State.answer (s : State) (n : Nat) (src : Source) (u r : TchUnit) : State :=
  (s.updSession n fun x => x.keep u r).sendUnit src r

/-- The session a unit belongs to, opened where a source in clear has none; none where all slots are taken (R41, R442). -/
def State.enter (s : State) (src : Source) : State × Option Nat :=
  match src.env with
  | some n =>
    match s.session n.val with
    | some x => if x.secure && x.finished then (s.updSession n.val fun x => { x with lastRequest := s.now }, some n.val) else (s, none)
    | none => (s, none)
  | none =>
    match s.clearSession src with
    | some n => (s.updSession n fun x => { x with lastRequest := s.now }, some n)
    | none =>
      match s.freeSession with
      | some n => (s.setSession n (some { source := src, lastRequest := s.now }), some n)
      | none => (s, none)

/-! ### Transfers -/

/-- A transfer of a session. -/
def State.transfer (s : State) (n txn : Nat) : Option Transfer := (s.session n).bind fun x => x.transfers.find? fun t => t.txn = txn

/-- Change a transfer. -/
def State.updTransfer (s : State) (n txn : Nat) (f : Transfer → Transfer) : State :=
  s.updSession n fun x => { x with transfers := x.transfers.map fun t => if t.txn = txn then f t else t }

/-- Forget a transfer. -/
def State.dropTransfer (s : State) (n txn : Nat) : State :=
  s.updSession n fun x => { x with transfers := x.transfers.filter fun t => t.txn ≠ txn }

/-- The source that a session's units go to. -/
def State.sessionSource (s : State) (n : Nat) : Source :=
  match s.session n with
  | some x => { x.source with env := if x.secure then some (Fin.ofNat 32 n) else none }
  | none => ⟨0, 0, none⟩

/-- Abort a transfer with a status (R45). -/
def State.abortTransfer (s : State) (n : Nat) (t : Transfer) (status : Nat) : State :=
  let src := s.sessionSource n
  (s.dropTransfer n t.txn).sendUnit src (deviceUnit src 0x07 t.txn status t.index t.sub 0 0 false [])

/-- Abort every transfer of a session (R41). -/
def State.abortTransfers (s : State) (n status : Nat) : State :=
  (((s.session n).map (·.transfers)).getD []).foldl (fun s t => s.abortTransfer n t status) s

/-- Whether a segmented write of an object is in progress (R38). -/
def State.writeInProgress (s : State) (idx sub : Nat) : Bool :=
  s.sessions.any fun e => match e.2 with
    | some x => x.transfers.any fun t => t.write && t.index = idx && t.sub = sub
    | none => false

/-- Discard a load that is under way: the target stays invalid (R440). -/
def State.abortLoad (s : State) : State :=
  if s.security.loader.isNone then s
  else
    let t := s.get 0x1060 0x01
    let s : State := { s with security := { s.security with loader := none, slots := Tab.upd {} s.security.slots t fun x => { x with chunks := [] } } }
    s.change 0x1060 0x05 0

/-- Close a session (R41, R440): its transfers are aborted, its lock released, a load of its ended. -/
def State.closeSession (s : State) (n : Nat) : State :=
  match s.session n with
  | none => s
  | some _ =>
    let s := s.abortTransfers n 0x11
    let s := if s.get 0xF002 0x01 = n + 1 then s.put 0xF002 0x01 0 else s
    let s := if s.security.loader = some n then s.abortLoad else s
    s.setSession n none

/-- SESSION_IDLE_TIMEOUT: 300 s without a request (R41). -/
def sessionIdleTimeout (n : Nat) (s : State) : State :=
  match s.session n with
  | some x => { s with now := max s.now (x.lastRequest + 300 * 1000000000) }.closeSession n
  | none => s

/-! ### Segments -/

/-- Segment k of a transfer's data. -/
def Transfer.piece (t : Transfer) (k : Nat) : Bytes := (t.data.drop (1024 * k)).take 1024

/-- Segments a value is cut into. -/
def Transfer.count (t : Transfer) : Nat := ceilDiv t.data.length 1024

/-- Send one segment of a read. -/
def State.sendSegment (s : State) (n : Nat) (t : Transfer) (k : Nat) : State :=
  let src := s.sessionSource n
  let type := ((objRow t.index t.sub).map (·.type.code)).getD 0
  s.sendUnit src (deviceUnit src 0x05 t.txn 0 t.index t.sub type k (k + 1 = t.count) (t.piece k))

/-- Send segments of a read while at most four are unacknowledged (R45). -/
def State.pumpRead (s : State) (n txn : Nat) : Nat → State
  | 0 => s
  | f + 1 =>
    match s.transfer n txn with
    | none => s
    | some t =>
      if t.next < t.count ∧ t.next < t.acked + 4 then
        ((s.updTransfer n txn fun t => { t with next := t.next + 1 }).sendSegment n t t.next).pumpRead n txn f
      else s

/-- SEG_ACK: PARAM is the highest segment received in order (R45). -/
def State.segAck (s : State) (n : Nat) (u : TchUnit) : State :=
  match s.transfer n u.transaction.toNat with
  | none => s
  | some t =>
    let a := u.param.toNat + 1
    if t.write || t.next < a || a ≤ t.acked then s
    else if t.count ≤ a then s.dropTransfer n t.txn
    else (s.updTransfer n t.txn fun t => { t with acked := a, resends := 0, active := s.now }).pumpRead n t.txn 4

/-- SEGMENT_RESEND_TIMEOUT: 20 ms without progress; after three resends the transfer is aborted with TIMEOUT (R45). -/
def segmentResendTimeout (n txn : Nat) (s : State) : State :=
  match s.transfer n txn with
  | none => s
  | some t =>
    if t.write || t.next ≤ t.acked then s
    else if 3 ≤ t.resends then s.abortTransfer n t 0x0B
    else
      (List.range (t.next - t.acked)).foldl (fun s i => s.sendSegment n t (t.acked + i))
        (s.updTransfer n txn fun t => { t with resends := t.resends + 1 })

/-- TRANSFER_IDLE_TIMEOUT: 1 s without activity (R45). -/
def transferIdleTimeout (n txn : Nat) (s : State) : State :=
  match s.transfer n txn with
  | none => s
  | some t => { s with now := max s.now (t.active + 1000000000) }.abortTransfer n t 0x0B

/-! ### Events -/

/-- EVENT_RESEND_TIMEOUT: an event unacknowledged for 10 ms is sent again, three times at most (R48). -/
def eventResendTimeout (k seq : Nat) (s : State) : State :=
  match s.unacked.find? fun x => x.subscriber = k && x.seq = seq with
  | none => s
  | some x =>
    if 3 ≤ x.resends then { s with unacked := s.unacked.erase x }
    else match s.events.find? fun e => e.seq = seq with
      | none => { s with unacked := s.unacked.erase x }
      | some e =>
        { s.emit (.event k (eventUnit e)) with
          unacked := s.unacked.map fun y => if y = x then { y with resends := y.resends + 1, sent := s.now } else y }

/-- Every event not yet acknowledged is sent again under its number (R374). -/
def State.resendEvents (s : State) : State :=
  s.unacked.foldl (fun s x => match s.events.find? fun e => e.seq = x.seq with
    | some e => s.emit (.event x.subscriber (eventUnit e))
    | none => s) s

/-- Whether a subscriber entry names a source (R61). -/
def subscriberIs (v : Nat) (src : Source) : Bool :=
  if bit v 56 then decide (src.port.val < 17) && bits v 0 16 = src.peer.toNat % 2 ^ 16 && bits v 16 8 = src.port.val
  else v ≠ 0 && decide (17 ≤ src.port.val) && bits v 0 48 = src.peer.toNat

/-- EVENT_ACK ends the re-sending of an event to its subscriber (R48). -/
def State.ackEvent (s : State) (src : Source) (seq : Nat) : State :=
  { s with unacked := s.unacked.filter fun x => !(x.seq = seq && subscriberIs (s.get 0x1030 (x.subscriber + 1)) src) }

def execSegmentResendTimeout (n : SessionId) (txn : BitVec 16) (s : State) : Host.Outcome State Fault Refusal :=
  .next (segmentResendTimeout n txn.toNat s)
def execTransferIdleTimeout (n : SessionId) (txn : BitVec 16) (s : State) : Host.Outcome State Fault Refusal :=
  .next (transferIdleTimeout n txn.toNat s)
def execSessionIdleTimeout (n : SessionId) (s : State) : Host.Outcome State Fault Refusal := .next (sessionIdleTimeout n s)
def execEventResendTimeout (k : Fin 8) (seq : BitVec 32) (s : State) : Host.Outcome State Fault Refusal :=
  .next (eventResendTimeout k seq.toNat s)

end Sys2Proof.Machine
end

