-- ==== Sys2Proof/Machine/Faults.lean ====
section
/-! DEFINITION. Faults that a controller acts on (R17, R365, R366, R371) and the recovery controllers' take-over (R59, R374, R375). -/

namespace Sys2Proof.Machine

open Sys2Proof

/-- CORE_FENCE (R17, R365). -/
def coreFence (h cause engine : Nat) (s : State) : State := (s.fenceTile h cause engine).pumpChanges

/-- Whether a started command of an engine may stall without progress: a wait, a delay, a commit in replay, or a transfer that waits for another
module (R365). -/
def Active.mayStall (a : Active) (e : Nat) : Bool := e = 0 || a.messages.any fun p => !p.answered

/-- CORE_WATCHDOG: a started command has made no progress for core_watchdog_ms (R365). -/
def coreWatchdog (c e : Nat) (s : State) : State :=
  match ((s.core c).started e).find? fun a => !a.done with
  | some a => if a.mayStall e || s.coreOut c then s else coreFence (s.tileOf c) 0x02 e s
  | none => s

/-- ASSIGNMENT_TEST_DONE: the tile takes the core at a swap, or is fenced and the next is tested (R366). -/
def assignmentTestDone (h : Nat) (pass : Bool) (s : State) : State :=
  match s.tests.find? fun t => t.tile = h && !t.passed with
  | none => s
  | some a =>
    if pass then
      let c : Change := ⟨.substitute a.core h a.job, [(okey 0x4101 (a.core + 1), h)]⟩
      State.pumpChanges { s with tests := s.tests.map fun t => if t.tile = h then { t with passed := true } else t
                                 changes := s.changes ++ [c] }
    else (s.fenceTile h 0x06 0 a.entry).pumpChanges

/-- FIELD_SHORT (R371, R381). -/
def fieldShort (h phases amps : Nat) (s : State) : State := (s.loseField h phases amps).pumpChanges

/-- What a swap comes to when the active controller fails (R59); a control operation's waits for the standby, which makes it anew (R338). -/
def State.swapAtTakeover (s : State) : State :=
  if ! [1, 2].contains s.swapState || s.goAcked then s
  else match s.swap.purpose with
    | .control st seq =>
      let es := ((s.findItem st seq).map Item.jobEdits).getD []
      let s := { s with swap := { s.swap with purpose := .owner } }.abortSwap 0x05 []
      { s.discardEdits with changes := ⟨.control st seq, es⟩ :: s.changes }
    | _ => s.abortSwap 0x05 []

/-- CONTROLLER_TAKEOVER: 0 lockstep, 1 heartbeat, 2 self-test (R364, R374); with no standby in service no controller is left (R375). -/
def controllerTakeover (reason : Nat) (s : State) : State :=
  if s.unmanaged then s
  else if s.get 0x4001 0x02 ≠ 0 then { s with unmanaged := true }
  else
    let failed := s.get 0x4001 0x01
    let epoch := (s.get 0x4001 0x03 + 1) % 256
    let s := ((s.put 0x4001 0x03 epoch).countRare 0x4001 0x04).change 0x4001 0x01 (1 - failed)
    let s := s.fault { cls := 0x14, action := 0x09, detail := toLE 1 failed ++ toLE 1 epoch ++ toLE 1 reason }
    let s := s.change 0x4001 0x02 1
    let s := (List.range 32).foldl (fun s n => s.abortTransfers n 0x11) s.swapAtTakeover
    s.resendEvents.pumpChanges

/-- HEARTBEAT_PATH_LOSS: one path alone is logged (R374). -/
def heartbeatPathLoss (s : State) : State :=
  (s.countRare 0x4001 0x05).fault { cls := 0x14, detail := toLE 1 (s.get 0x4001 0x01) ++ toLE 1 (s.get 0x4001 0x03) ++ [1] }

def execCoreFence (h : TileId) (cause : BitVec 8) (engine : EngineId) (s : State) : Host.Outcome State Fault Refusal :=
  .next (coreFence h cause.toNat engine s)
def execCoreWatchdog (c : CoreId) (e : EngineId) (s : State) : Host.Outcome State Fault Refusal := .next (coreWatchdog c e s)
def execAssignmentTestDone (h : TileId) (pass : Bool) (s : State) : Host.Outcome State Fault Refusal := .next (assignmentTestDone h pass s)
def execFieldShort (h : TileId) (phases : BitVec 16) (amps : BitVec 32) (s : State) : Host.Outcome State Fault Refusal :=
  .next (fieldShort h phases.toNat amps.toNat s)
def execControllerTakeover (reason : BitVec 8) (s : State) : Host.Outcome State Fault Refusal := .next (controllerTakeover reason.toNat s)
def execHeartbeatPathLoss (_ring : Bool) (s : State) : Host.Outcome State Fault Refusal := .next (heartbeatPathLoss s)

end Sys2Proof.Machine
end

