-- ==== Sys2Proof/Machine/Monitor.lean ====
section
/-! DEFINITION. Monitor channels (chapter 20): statistics of the events of a source over an interval, windows, snapshots. -/

namespace Sys2Proof.Machine

open Sys2Proof

/-- Live values of a channel. -/
def State.monitor (s : State) (c : Nat) : Monitor := Tab.get {} s.monitors c

/-- Replace the live values of a channel. -/
def State.setMonitor (s : State) (c : Nat) (m : Monitor) : State := { s with monitors := Tab.set {} s.monitors c m }

/-! ### Statistics (R450, R451) -/

/-- Bin of a value (R451). -/
def monBin (v : Nat) (x : Int) : Nat :=
  if monLog2 v then
    let u := x.toNat / 2 ^ monShift v
    if u = 0 then 0 else min 63 (Nat.log2 u + 1)
  else min 63 ((x - monBase v) / (monWidth v : Int)).toNat

/-- Highest count of a bin. -/
def binMax : Nat := 2 ^ 48 - 1

/-- Limits of SUM. -/
def sumMax : Int := 2 ^ 63 - 1

/-- One event into the statistics (R450). -/
def Monitor.take (m : Monitor) (v : Nat) (x : Int) : Monitor :=
  let sum := max (-(2 ^ 63)) (min sumMax (m.sum + x))
  let b := monBin v x
  let n := Tab.get 0 m.bins b
  { m with
    count := (m.count + 1) % 2 ^ 64
    sum := sum
    least := if m.count = 0 then x else min m.least x
    greatest := if m.count = 0 then x else max m.greatest x
    bins := Tab.set 0 m.bins b (min binMax (n + 1))
    flags := setBit (setBit m.flags 0 (bit m.flags 0 || sum ≠ m.sum + x)) 1 (bit m.flags 1 || decide (binMax ≤ n)) }

/-! ### The snapshot record (R453, R455) -/

/-- FROM of the interval: its start, or the window's where that comes later. -/
def Monitor.from' (m : Monitor) : Nat := max m.start m.opens

/-- Bytes 0 to 55 of the snapshot layout. -/
def Monitor.summary (m : Monitor) (till seq : Nat) : Bytes :=
  toLE 8 m.from' ++ toLE 8 till ++ toLE 8 m.count ++ toLE 8 (ofSigned 64 m.sum) ++ toLE 8 (ofSigned 64 m.least)
    ++ toLE 8 (ofSigned 64 m.greatest) ++ toLE 4 seq ++ toLE 4 m.flags

/-- The 64 bins. -/
def Monitor.binBytes (m : Monitor) : Bytes := (List.range 64).flatMap fun b => toLE 6 (Tab.get 0 m.bins b)

/-- The values zeroed, an interval begun at t; window, sampling second and rate stay (R453). -/
def Monitor.cleared (m : Monitor) (t : Nat) : Monitor :=
  { start := t, opens := m.opens, closes := m.closes, second := m.second, taken := m.taken }

/-- Snapshot of a channel at t, published and evented (R453). -/
def State.snapshot (s : State) (c t : Nat) : State :=
  let m := s.monitor c
  let m := if s.channelUp c then m else { m with flags := setBit m.flags 3 true }
  let seq := (s.get (monObj c) 0x09 + 1) % 2 ^ 32
  let v := ofLE (m.summary t seq ++ m.binBytes)
  ((s.put (monObj c) 0x09 seq).put (monObj c) 0x08 v).event (monObj c) 0x08 v

/-- Clear the live values at t. -/
def State.clearMonitor (s : State) (c t : Nat) : State :=
  let m := (s.monitor c).cleared t
  s.setMonitor c (if s.channelUp c then m else { m with flags := 8 })

/-- Snapshot-and-clear at t (R453). -/
def State.snapshotClear (s : State) (c t : Nat) : State := (s.snapshot c t).clearMonitor c t

/-! ### Windows (R452) -/

/-- Events a channel absorbs in a second (R449). -/
def monRate : Nat := 10 ^ 9

/-- An event of the source that the window holds: every 2^SAMPLE_SHIFT-th is taken, up to the rate (R449). -/
def State.monTake (s : State) (c : Nat) (x : Int) (stamp : Nat) : State :=
  let v := s.monConfig c
  let m := s.monitor c
  let m := { m with seen := m.seen + 1 }
  if m.seen % 2 ^ monSample v ≠ 0 then s.setMonitor c m
  else
    let taken := if m.second = stamp / monRate then m.taken else 0
    if monRate ≤ taken then (s.setMonitor c { m with flags := setBit m.flags 4 true }).bump 0x5000 0x04
    else s.setMonitor c { m.take v x with second := stamp / monRate, taken := taken + 1 }

/-- The events that came before their window opened are taken once it has (R452). -/
def State.takeEarly (s : State) (c : Nat) : State :=
  let m := s.monitor c
  let s := s.setMonitor c { m with early := m.early.filter fun e => decide (m.closes ≤ e.2) }
  (m.early.filter fun e => decide (e.2 < m.closes)).foldl (fun s e => s.monTake c e.1 e.2) s

/-- Whether a channel's window repeats and it runs. -/
def State.rolls (s : State) (c : Nat) : Bool := monEnable (s.monConfig c) && s.get (monObj c) 0x04 ≠ 0

/-- The roll of a repeating window at its end instant (R452). -/
def State.rollWindow (s : State) (c : Nat) : State :=
  let m := s.monitor c
  let s := s.snapshotClear c m.closes
  (s.setMonitor c { s.monitor c with opens := m.closes, closes := m.closes + s.get (monObj c) 0x04, early := m.early }).takeEarly c

/-- Rolls whose end instant has come at a command's instant come first (R453). -/
def State.rollFirst (s : State) (c t : Nat) : State :=
  let m := s.monitor c
  if s.rolls c && m.closes ≠ 0 && decide (m.closes ≤ t) then
    (List.range ((t - m.closes) / s.get (monObj c) 0x04 + 1)).foldl (fun s _ => s.rollWindow c) s
  else s

/-- MONITOR_WINDOW_END: a repeating window rolls over; a single one stops with its values kept (R452). -/
def monitorWindowEnd (c : Nat) (s : State) : State :=
  let m := s.monitor c
  if !monEnable (s.monConfig c) || m.closes = 0 then s
  else
    let s := { s with now := max s.now m.closes }
    if s.rolls c then s.rollWindow c else s

/-- MONITOR_WINDOW_START: the channel collects from its window's start (R452). -/
def monitorWindowStart (c : Nat) (s : State) : State :=
  let m := s.monitor c
  if !monEnable (s.monConfig c) || decide (m.opens ≤ s.now) then s
  else { s with now := m.opens }.setMonitor c { m with start := m.opens }

/-- mon_state (R457). -/
def State.monState (s : State) (c : Nat) : Nat :=
  let v := s.monConfig c
  let m := s.monitor c
  if !monEnable v || monSource v = 0 then 0
  else if !s.channelUp c then 4
  else if s.now < m.opens then 1
  else if m.closes ≠ 0 ∧ m.closes ≤ s.now ∧ s.get (monObj c) 0x04 = 0 then 3
  else 2

/-! ### Settings (R454) -/

/-- The window in force from the settings, at t: a repeating one whose end has passed is in the period that holds t (R452). -/
def State.openWindow (s : State) (c t : Nat) : State :=
  let w := s.get (monObj c) 0x02
  let e := s.get (monObj c) 0x03
  let p := s.get (monObj c) 0x04
  let n := if p ≠ 0 ∧ e ≠ 0 ∧ e ≤ t then (t - e) / p + 1 else 0
  s.setMonitor c { s.monitor c with
    opens := if n ≠ 0 then e + (n - 1) * p else if w = 0 then t else w
    closes := e + n * p }

/-- Whether a value of a setting lies in its range beside the settings that stand (R452, R454). -/
def State.monSettingOk (s : State) (c sub v : Nat) : Bool :=
  match sub with
  | 1 => monConfigOk v
  | 3 => v ≠ 0 || s.get (monObj c) 0x04 = 0
  | 4 => v = 0 || (decide (1000 ≤ v ∧ v ≤ 10 ^ 12) && s.get (monObj c) 0x03 ≠ 0)
  | _ => true

/-- Write a setting: snapshot-and-clear at the instant of the write, FLAGS bit 2 set; the new settings hold from then (R454). -/
def State.writeMonSetting (s : State) (c sub v : Nat) : State × Nat :=
  if !s.monSettingOk c sub v then (s, 0x07)
  else
    let s := s.rollFirst c s.now
    let m := s.monitor c
    let s := (s.setMonitor c { m with flags := setBit m.flags 2 true }).snapshotClear c s.now
    let s := (s.put (monObj c) sub v).openWindow c s.now
    (s.clearMonitor c s.now, 0)

/-- mon_command (R457): 1 snapshot, 2 snapshot and clear, 3 clear. -/
def State.monCommand (s : State) (c v : Nat) : State × Nat :=
  let s := s.rollFirst c s.now
  match v with
  | 1 => (s.snapshot c s.now, 0)
  | 2 => (s.snapshotClear c s.now, 0)
  | _ => (s.clearMonitor c s.now, 0)

/-- After a reset live values and snapshots are empty, and settings hold (R457). -/
def State.restartMonitors (s : State) : State :=
  let s : State := { s with monitors := [], snapshotAt := none
                            obj := s.obj.filter fun e => !(decide (okey 0x5100 0 ≤ e.1 ∧ e.1 < okey 0x5180 0) && decide (8 ≤ e.1 % 256)) }
  s.channels128.foldl (fun s c => (s.openWindow c s.now).clearMonitor c s.now) s

/-! ### Module-wide snapshots (R456) -/

/-- Snapshot every masked channel at one instant. -/
def State.snapshotAll (s : State) (clear : Bool) (t : Nat) : State :=
  (setPositions 128 (s.get 0x5000 0x02)).foldl (fun s c =>
    let s := s.rollFirst c t
    if clear then s.snapshotClear c t else s.snapshot c t) s

/-- monitor_snapshot_all (R456): at once, or at snapshot_instant. -/
def State.snapshotCommand (s : State) (clear : Bool) : State × Nat :=
  let t := s.get 0x5000 0x03
  if t = 0 then (s.snapshotAll clear s.now, 0)
  else if t < s.now + 100000 ∨ s.now + 1000000000000 < t then (s, 0x07)
  else ({ s with snapshotAt := some (t, clear) }, 0)

/-- SNAPSHOT_INSTANT_EXPIRY (R456). -/
def snapshotInstantExpiry (s : State) : State :=
  match s.snapshotAt with
  | none => s
  | some (t, clear) => { s with now := max s.now t, snapshotAt := none }.snapshotAll clear t

/-! ### Events (R448, R449) -/

/-- MONITOR_EVENT: taken where the channel is enabled, its source serves, and the window and the interval hold the stamp; an event of the window
that follows waits for it (R449, R452). -/
def monitorEvent (c : Nat) (x : Int) (stamp : Nat) (s : State) : State :=
  let v := s.monConfig c
  let m := s.monitor c
  if !monEnable v || monSource v = 0 || !s.channelUp c || decide (stamp < m.from') then s
  else if m.closes = 0 || decide (stamp < m.closes) then s.monTake c x stamp
  else if s.rolls c then s.setMonitor c { m with early := m.early ++ [(x, stamp)] }
  else s

/-! ### Reads -/

/-- The monitor objects that are formed as they are read (R457): live values, mon_state. -/
def State.viewMonitor (s : State) (idx sub : Nat) : Option Bytes :=
  if 0x5100 ≤ idx ∧ idx < 0x5180 then
    let c := idx - 0x5100
    match sub with
    | 6 => some ((s.monitor c).summary 0 (s.get (monObj c) 0x09))
    | 7 => some (s.monitor c).binBytes
    | 0x0A => some (toLE 1 (s.monState c))
    | _ => none
  else none

def execMonitorWindowEnd (n : ChannelId) (s : State) : Host.Outcome State Fault Refusal := .next (monitorWindowEnd n s)
def execMonitorWindowStart (n : ChannelId) (s : State) : Host.Outcome State Fault Refusal := .next (monitorWindowStart n s)
def execMonitorEvent (n : ChannelId) (v : BitVec 64) (stamp : BitVec 64) (s : State) : Host.Outcome State Fault Refusal :=
  .next (monitorEvent n v.toInt stamp.toNat s)
def execSnapshotInstantExpiry (s : State) : Host.Outcome State Fault Refusal := .next (snapshotInstantExpiry s)

end Sys2Proof.Machine
end

