-- ==== Sys2Proof/Machine/Boot.lean ====
section
/-! DEFINITION. The three starts (R418 to R433, R62, R465): what each keeps, the power-on sequence, the maps, the warm reset; and what ends a wait
for quiescence. -/

namespace Sys2Proof.Machine

open Sys2Proof

/-- Set device_state, which is evented (R48, R61). -/
def State.setDevice (s : State) (v : Nat) : State := s.change 0x1010 0x00 v

/-! ### What a start takes away (R419) -/

/-- Close every session and release the lock; segmented transfers end with them (R41, R419). -/
def State.closeSessions (s : State) : State := (List.range 32).foldl State.closeSession s

/-- Every reset relocks debug access and clears the program log (R445, R446). -/
def State.relock (s : State) : State :=
  let s := (s.change 0x1080 0x03 0).put 0x1080 0x04 0
  { s with security := { s.security with challenge := none, programLog := [], logValue := List.replicate 64 0 } }

/-- Region counters are loaded from the master (R412). -/
def State.loadRegions (s : State) : State :=
  { s with clocks := { s.clocks with regions := if s.clocks.slewed = 0 then [] else (List.range 256).map fun r => (r, s.clocks.slewed) } }

/-- Reset the logic of tiles, hubs, ring stations and the intake: what was on its way is gone (R419, R431). -/
def State.resetLogic (s : State) : State :=
  let s := s.closeAll
  let s : State := { s with signals := [], waits := [], wakes := [], ops := [], replays := [], txns := [], arrived := [], objLog := [], sync := []
                            ports := s.ports.map fun e => (e.1, { roleMoved := e.2.roleMoved }), mgmt := [], entering := none, conns := []
                            hubs := s.hubs.filter fun e => e.2 = 2, hubResets := []
                            links := s.links.map fun e => (e.1, { failed := e.2.failed })
                            items := s.items.map fun i => { i with conn := 0xFFFF }
                            streams := s.streams.map fun e => (e.1, { next := e.2.next, stamps := e.2.stamps }) }
  let s := (List.range 22).foldl (fun s c =>
    let s := (List.range 8).foldl (fun s g => s.zeroGroup c g) s
    let goal (g v : Nat) : Nat := match (s.core c).groupsBefore with
      | some b => bits b (4 * g) 4
      | none => settledCode (Tab.get 3 (s.core c).groupGoal g) v
    let s := s.setGroups c fun g v => goal g v
    let st := if s.coreOut c then 6 else if s.coreFenced c then 5 else 0
    (s.updCore c fun k => { state := k.state }).setCoreState c st) s
  s.loadRegions

/-- The intake reads its streams and items back from the journal, and delivers what is done again (R328, R332, R338). -/
def State.rebuildIntake (s : State) : State :=
  let s := s.dropUnstored
  let s := (s.items.map (·.stream)).eraseDups.foldl (fun s st => s.acceptStored st s.items.length) s
  s.redeliver.applyFormed

/-! ### Jobs across a reset (R338, R429, R431) -/

/-- A control operation that waits for its job to quiesce ends with BUSY (R334). -/
def State.endRunningControl (s : State) : State :=
  match s.runningControl with
  | some i => s.controlEnds i 0x08
  | none => s

/-- Stop a job for a reset: saved where it has quiesced and can be, its STARTED item abandoned otherwise (R338, R431). -/
def State.stopForReset (s : State) (j : Nat) : State :=
  let s := s.updJob j fun b => { b with quiesce := false }
  if s.jobState j ≠ 5 && s.jobQuiet j && s.canSaveJob j then
    let s := (s.saveJob j).stopJob j
    { s with resetting := { s.resetting with saved := s.resetting.saved ++ [j] } }
  else (s.endStarted j 3 0).stopJob j

/-- The jobs that a reset stops. -/
def State.runningJobs (s : State) : List Nat := (List.range 64).filter fun j => [2, 3, 5].contains (s.jobState j)

/-- Stop every running job for a reset. -/
def State.stopJobs (s : State) : State :=
  let s := s.runningJobs.foldl State.stopForReset s.endRunningControl
  { s with tests := s.tests.map fun t => { t with job := 0xFF } }

/-- Restore a job that was saved for the reset; where its contexts are gone its item is abandoned, and one with a core out of service waits
(R20, R338, R429). -/
def State.restoreAfter (s : State) (j : Nat) : State :=
  if (s.jobCores j).any s.coreOut then s
  else
    let r := ((s.jobCores j).foldl State.applyHeld s).restoreJob j
    if r.2 = 0 then r.1.markResumed j else s.endStarted j 3 0

/-- Whether the first lock, or a READY, has closed the step of the timebase (R414, R430). -/
def State.closeStep (s : State) : State := { s with clocks := { s.clocks with stepClosed := true } }

/-- READY: jobs resume, and the start is recorded (R431, R434). -/
def State.ready (s : State) : State :=
  let r := s.resetting
  let s := r.saved.foldl State.restoreAfter s
  let s := if r.kind = 0 then s else s.put 0x4202 0x06 (satAdd 32 (s.get 0x4202 0x06) 1)
  let kind := match r.kind with
    | 1 => 3
    | 2 => 1
    | 3 => 2
    | _ => 0
  let s := (s.put 0x4202 0x03 kind).put 0x4202 0x04 ((s.now - r.start) / msNs)
  (({ s with resetting := {} }.setPowerState 0).setDevice 4).closeStep

/-- Time passes in a start, within a bound in ms (R420, R431). -/
def State.startTakes (s : State) (bound : Nat) : State :=
  { s with fresh := s.fresh + 1, now := s.now + min bound (Config.startTime s.fresh) * msNs }

/-! ### Warm reset (R431) -/

/-- The failed controller is self-tested, and returns as standby if it passes (R375). -/
def State.retestStandby (s : State) : State :=
  if s.get 0x4001 0x02 ≠ 1 then s
  else
    let bad := bit (Config.foundAtBoot s.fresh).romFailed.toNat (1 - s.get 0x4001 0x01)
    let s := { s with fresh := s.fresh + 1 }
    if bad then s else s.change 0x4001 0x02 0

/-- The rest of a warm reset, once its jobs are stopped (R431). -/
def State.finishWarm (s : State) : State :=
  let s := (s.flushWear.flushEnergy).setPowerState 4
  let s := ((((s.resetLogic.relock).retestStandby).rebuildIntake).startTakes 460).restartMonitors
  let s := ((s.selfRefresh false).showSteps true).setRoutes s.routeTables
  s.trainDown.ready

/-! ### The repair record and the self-test (R423 to R426) -/

/-- Show the wires of a direction of a link (R275). -/
def State.showWires (s : State) (l d : Nat) : State :=
  let good := (s.linkSide l d).good
  s.put 0x4600 (l + 1) (linkValue (s.get 0x4600 (l + 1)) d good (wiresWidth good))

/-- A failed wire of a seam (R254, R424). -/
def State.seamWire (s : State) (l d wire : Nat) : State :=
  if (s.linkSide l d).failed.contains wire then s else (s.updLink l d fun k => { k with failed := k.failed ++ [wire] }).showWires l d

/-- A failed coil link: the direction is wired around it; below 256 good ones the layer is lost (R231, R424, R426). -/
def State.coilWire (s : State) (k l d link : Nat) : State :=
  if (s.channel k l d).failed.contains link then s
  else
    let s := (s.updChannel k l d fun c => Channel.wired (c.failed ++ [link])).showChannel k l d
    if widthOf (s.channel k l d).good = 2 then s.layerGone k l else s

/-- Every direction is wired around the links that have failed: swaps that waited in service are over (R229, R426). -/
def State.wireAll (s : State) : State :=
  (List.range 144).foldl (fun s i =>
    let c := Tab.get {} s.channels i
    if c.failed.isEmpty then s
    else ((s.updChannel (i / 6) (i / 2 % 3) (i % 2) fun c => Channel.wired c.failed).showChannel (i / 6) (i / 2 % 3) (i % 2))) s

/-- What one entry of the repair record says of the module (R424). -/
def State.applyEntry (s : State) (e : Bytes) : State :=
  let h := leAt e 9 1
  let k := s.stackOn h
  let p (i n : Nat) : Nat := leAt e (10 + i) n
  match leAt e 8 1 with
  | 0x02 => s.seamWire (p 0 1) (p 1 1) (p 2 2)
  | 0x03 => s.coilWire k (p 0 1) (p 1 1) (p 2 2)
  | 0x04 => { s.count (0x4500 + k) 0x08 32 1 with retired := s.retired ++ [rowNumber k (p 0 1) (p 1 1) (p 2 1) (p 3 4)] }
  | 0x06 => s.layerGone k (p 0 1)
  | 0x07 => (s.put 0x4100 0x30 (setBit (s.get 0x4100 0x30) h true)).updTile h fun t => { t with cause := p 0 1 }
  | 0x08 => (s.put 0x4100 0x30 (setBit (s.get 0x4100 0x30) h false)).updTile h fun t => { t with cause := 0 }
  | 0x09 => s.updTile h fun t => { t with vchar := (e.drop 10).take 13 }
  | 0x0A => s.put 0x3052 (h + 1) (p 0 1)
  | 0x0B => (List.range 22).foldl (fun s c => s.put 0x4100 (c + 1) (bits (p c 1) 0 5 + (if bit (p c 1) 7 then 256 else 0))) s
  | 0x0C => s.put 0x1003 0x00 (p 0 16)
  | _ => s

/-- The state with entries appended to the repair record. -/
def State.withEntries (s : State) (es : List Bytes) : State := { s with repair := { s.repair with inField := s.repair.inField ++ [es] } }

/-- Entries for the coil links that failed in service and that the record does not hold yet (R229, R424). -/
def State.failedLinks (s : State) (held : List Bytes) : List Bytes :=
  (List.range 144).flatMap fun i => ((Tab.get {} s.channels i).failed.map fun l =>
    repairEntry s.now 0x03 (s.stackTile (i / 6)) (toLE 1 (i / 2 % 3) ++ toLE 1 (i % 2) ++ toLE 2 l)).filter fun e =>
      !held.any fun x => x.drop 8 = e.drop 8

/-- Entries for the seam wires that failed in service and that the record does not hold yet; a link lies in no one field (R254, R424; log 99). -/
def State.failedWires (s : State) (held : List Bytes) : List Bytes :=
  (List.range 76).flatMap fun i => ((Tab.get {} s.links i).failed.map fun w =>
    repairEntry s.now 0x02 0xFF (toLE 1 (i / 2) ++ toLE 1 (i % 2) ++ toLE 2 w)).filter fun e =>
      !held.any fun x => leAt x 8 1 = 0x02 && x.drop 10 = e.drop 10

/-- The bank of a layer that a retired row lies in, as its entry names it (R424). -/
def entryBank (e : Bytes) : Bytes := (e.drop 8).take 5

/-- Whether an entry retires a row of a bank that has no spare of its 32 left among others (R238, R425). -/
def bankFull (es : List Bytes) (e : Bytes) : Bool :=
  leAt e 8 1 = 0x04 && decide (32 ≤ (es.filter fun x => leAt x 8 1 = 0x04 && entryBank x = entryBank e).length)

/-- The findings whose row can be retired, and those whose bank has no spare left (R425). -/
def splitRows (held : List Bytes) : List Bytes → List Bytes × List Bytes
  | [] => ([], [])
  | e :: r =>
    if bankFull held e then let x := splitRows held r; (x.1, e :: x.2)
    else let x := splitRows (held ++ [e]) r; (e :: x.1, x.2)

/-- Whether no bank of a tile's scratchpad has more than 64 rows remapped (R425). -/
def State.rowsOk (s : State) (h : Nat) : Bool :=
  let es := (s.repair.factory ++ s.repair.inField.flatten).filter fun e => leAt e 8 1 = 0x05 && leAt e 9 1 = h
  (List.range 64).all fun b => decide (((es.filter fun e => leAt e 10 1 = b).map fun e => leAt e 11 2).eraseDups.length ≤ 64)

/-- The rows of a boot's test that stay in service under correction, their banks without a spare (R425). -/
def State.rowsUnspared (s : State) (f : BringUp) : List Bytes :=
  let held := inForce (s.repair.factory ++ s.repair.inField.flatten)
  (splitRows held ((f.entries.map fun e => repairEntry s.now e.1.toNat e.2.1.toNat e.2.2).filter fun e => !held.any fun x => x.drop 8 = e.drop 8)).2

/-- Log the rows whose banks have no spare left (R425, R364). -/
def State.logUnspared (s : State) (f : BringUp) : State :=
  (s.rowsUnspared f).foldl (fun s e =>
    s.fault { cls := 0x07, tile := leAt e 9 1, stack := s.stackOn (leAt e 9 1), layer := leAt e 10 1, detail := (e.drop 11).take 6 }) s

/-- Entries of a boot's findings that the record does not hold yet: a finding of a fault it holds appends nothing (R426). A tile with an array of
fewer than 240 good columns, or a bank of more than 64 failing rows, fails (R105, R425). -/
def State.newFindings (s : State) (f : BringUp) : List Bytes :=
  let held := inForce (s.repair.factory ++ s.repair.inField.flatten)
  let found := (f.entries.map fun e => repairEntry s.now e.1.toNat e.2.1.toNat e.2.2).filter fun e => !(s.rowsUnspared f).contains e
  let fenced := (setPositions 24 f.tileFailed.toNat).filterMap fun h =>
    if s.tileFenced h then none else some (repairEntry s.now 0x07 h (toLE 1 0x06))
  let fresh := (found.filter fun e => !held.any fun x => x.drop 8 = e.drop 8) ++ s.failedLinks held ++ s.failedWires held
  let narrow := (List.range 24).filterMap fun h =>
    if s.tileFenced h || bit f.tileFailed.toNat h || ((s.withEntries fresh).columnsOk h && (s.withEntries fresh).rowsOk h) then none else some (repairEntry s.now 0x07 h (toLE 1 0x06))
  fresh ++ fenced ++ narrow

/-- Append a boot's findings, in segments of at most 1,024 entries, and apply them (R424, R426). -/
def State.takeFindings (s : State) (f : BringUp) : State :=
  let es := s.newFindings f
  let s := s.logUnspared f
  let s := (chunks 1024 es).foldl State.appendSegment s
  let s := (es.foldl State.applyEntry s).wireAll
  s.put 0x4202 0x05 es.length

/-- The in-field part is read: the first segment that fails, and every one after it, is ignored (R423). -/
def State.checkRecord (s : State) (f : BringUp) : State :=
  match f.badSegment with
  | none => s
  | some (n, chain) =>
    let gone := s.repair.inField.length - n.toNat
    let s := s.fault { cls := 0x1D, action := 0x08, detail := [if chain then 1 else 0] ++ toLE 1 s.repair.area ++ toLE 4 n.toNat ++ toLE 4 gone }
    { s with repair := { s.repair with inField := s.repair.inField.take n.toNat } }

/-! ### The maps (R427) -/

/-- Whether a tile may carry a core or stand in the pool. -/
def State.serviceable (s : State) (f : BringUp) (h : Nat) : Bool :=
  !s.tileFenced h && !bit s.lostFields h && s.hub h ≠ 2 && !bit f.tileFailed.toNat h && s.columnsOk h

/-- Clear a fenced tile whose self-test passed, unless it was fenced for strikes that still count, or its field is lost (R427). -/
def State.clearTile (s : State) (f : BringUp) (h : Nat) : State :=
  let strikes := decide ((s.tile h).cause = 5) && decide (s.get 0x4400 0x05 ≤ (s.strikesOf h).length)
  if !s.tileFenced h || bit f.tileFailed.toNat h || bit s.lostFields h || s.hub h = 2 || strikes then s
  else
    let s := (s.change 0x4100 0x30 (setBit (s.get 0x4100 0x30) h false)).updTile h fun t => { t with cause := 0 }
    s.appendRepair 0x08 h []

/-- Give one core a tile: its own if that is serviceable, else the nearest free one, else none (R427). -/
def State.placeCore (f : BringUp) (kept : List Nat) (st : State × List Nat) (c : Nat) : State × List Nat :=
  let h := st.1.tileOf c
  if kept.contains c then (st.1.put 0x4100 (c + 1) h, st.2)
  else
    let free := (List.range 24).filter fun g => st.1.serviceable f g && !st.2.contains g
    match nearestTile h free with
    | some g => (st.1.put 0x4100 (c + 1) g, st.2 ++ [g])
    | none => (st.1.put 0x4100 (c + 1) (h + 256), st.2)

/-- Build the pointing map and swap it in (R427, R428). -/
def State.buildMaps (s : State) (f : BringUp) : State :=
  let before := (List.range 22).map fun c => s.get 0x4100 (c + 1)
  let s := (List.range 24).foldl (fun s h => s.clearTile f h) s
  let kept := (List.range 22).filter fun c => s.serviceable f (s.tileOf c) && !s.coreOut c
  let r := (List.range 22).foldl (State.placeCore f kept) (s, kept.map s.tileOf)
  let pool := (List.range 24).filter fun h => r.1.serviceable f h && !r.2.contains h
  let s := r.1.put 0x4100 0x2F (pool.foldl (fun v h => setBit v h true) 0)
  let s := (List.range 22).foldl (fun s c =>
    let s := if s.coreOut c then s else s.put (coreObj c) 0x05 (s.widthsOf (s.tileOf c))
    let s := s.put (coreObj c + 1) 0x02 (s.get (coreObj c + 1) 0x01)
    s.setCoreState c (if s.coreOut c then 6 else 0)) s
  if (List.range 22).map (fun c => s.get 0x4100 (c + 1)) = before then s else s.recordMap

/-- The swap of the maps is aborted three times for targets that a reset does not bring back: a hub is then treated as dead, a ring station's port as
failed, and the maps are built again (R428). -/
def State.loseMissing (s : State) (f : BringUp) : State :=
  let hubs := (setPositions 24 f.missing.toNat).filter fun h => s.hub h ≠ 2
  let ports := (setPositions 17 (f.missing.toNat / 2 ^ 24))
  if hubs.isEmpty && ports.isEmpty then s
  else
    let n := s.faultNext
    let s := (List.range 3).foldl (fun s _ =>
      s.fault { cls := 0x17, action := 0x0A, detail := toLE 1 0x01 ++ toLE 4 (bitmapOf hubs) ++ toLE 4 (bitmapOf ports) }) s
    let s := hubs.foldl (fun s h => { s with fresh := s.fresh + 1 }.hubDead h (Config.deviceByte s.fresh) n) s
    (ports.foldl (fun s p => s.change (portObj p) 0x01 4) s).buildMaps f

/-- The journal partition of a stack as a boot finds it: lost with its stack or its L1, else back in its pair (R245, R427). -/
def State.buildPartition (s : State) (k : Nat) (lost : Bool) : State :=
  let h := s.stackTile k
  if lost || s.layerLost k 1 then s.losePartition h
  else { s with intake := { s.intake with lostPartitions := Tab.set false s.intake.lostPartitions h false
                                          copied := Tab.set false s.intake.copied h false } }

/-- Stacks after self-test: a stack is lost with its field, its hub or its third layer; one that had been lost and serves again holds zeros (R233,
R419, R427). -/
def State.buildStacks (s : State) : State :=
  (List.range 24).foldl (fun s k =>
    let h := s.stackTile k
    let lost := bit s.lostFields h || s.hub h = 2 || (s.layersUp k).isEmpty
    let s := if s.stackLost k && !lost then s.zeroMem (dramAddr k 0) 0x1800000000 else s
    ((s.put 0x4100 (k + 0x17) (setBit (s.get 0x4100 (k + 0x17)) 8 lost)).buildPartition k lost).showStack k) s

/-! ### The power-on sequence (R420 to R430) -/

/-- Objects that a cold reset keeps: the active set, and what lies in flash, in the journal's region or on VCTL, or follows from the kept maps
(R365, R403, R419, R434). -/
def coldKeeps (k : Nat) : Bool :=
  let idx := k / 256
  let sub := k % 256
  match objRow idx sub with
  | none => false
  | some r => r.access = .rw || r.access = .rwm
    || [0x1002, 0x1003, 0x1010, 0x1061, 0x2702, 0x3040, 0x3052, 0x3110, 0x3111, 0x4001, 0x4100, 0x4201, 0x4600].contains idx
    || (decide (0x2000 ≤ idx ∧ idx < 0x2040) && sub = 0x0D)
    || (decide (0x4500 ≤ idx ∧ idx < 0x4518) && [0x01, 0x02, 0x03, 0x08].contains sub)
    || (idx = 0x3120 && [0x04, 0x05, 0x08].contains sub) || (idx = 0x4202 && sub = 0x06)
    || (decide (0x8001 ≤ idx) && idx % 0x80 = 1 && sub = 0x02) || (idx = 0x6000 && sub = 0x01)

/-- Objects that a power-on keeps: what lies in flash (R419, R434, R440, R442). -/
def flashKeeps (k : Nat) : Bool :=
  [0x1002, 0x1003, 0x1040, 0x1061, 0x3040, 0x3052, 0x4201].contains (k / 256) || k = okey 0x4202 0x01

/-- Every link shows the wires it has: no field is lost before it is raised again (R275, R419). -/
def State.showLinks (s : State) : State := (List.range 38).foldl (fun s l => (s.showWires l 0).showWires l 1) s

/-- What is left after a cold reset's teardown (R419). -/
def State.coldState (s : State) : State :=
  let s := (s.closeSessions.resetLogic).relock
  State.showLinks { s with
           obj := s.obj.filter fun e => coldKeeps e.1, maq := [], unacked := [], refusals := [], refusalEvent := [], timeouts := [], manual := []
           changes := [], tests := [], swap := {}, monitors := [], snapshotAt := none, rowLog := [], lostFields := 0, hubs := []
           power := { energyFlash := s.power.energyFlash, vin := s.power.vin, stopped := s.power.stopped, energyRest := s.power.energyRest }
           tiles := s.tiles.map fun e => (e.1, { strikes := e.2.strikes, falseAlarms := e.2.falseAlarms, cause := e.2.cause, vchar := e.2.vchar })
           wear := s.wearFlash, xcvrs := s.xcvrs.map fun e => (e.1, { present := e.2.present }), romMode := false, unmanaged := false
           security := { slots := s.security.slots, svn := s.security.svn } }

/-- What is left when power is applied: flash alone (R419). -/
def State.powerOnState (s : State) : State :=
  { pending := s.pending, fresh := s.fresh, out := s.out
    obj := (s.obj.filter fun e => flashKeeps e.1 && e.1 ≠ okey 0x3040 0x01)
    repair := s.repair, wear := s.wearFlash, wearFlash := s.wearFlash
    xcvrs := s.xcvrs.map fun e => (e.1, { present := e.2.present })
    tiles := (s.tiles.filter fun e => !e.2.strikes.isEmpty).map fun e => (e.1, { strikes := e.2.strikes })
    security := { slots := s.security.slots }
    power := { energyFlash := s.power.energyFlash } }

/-- Show the firmware image that runs (R61, R421). -/
def State.runSlot (s : State) (n : Nat) : State :=
  let x := Tab.get {} s.security.slots n
  let s : State := { s with security := { s.security with svn := x.svn } }
  (((s.put 0x1008 0x01 (x.version.getD 0 0)).put 0x1008 0x02 (x.version.getD 1 0)).put 0x1008 0x03 (x.version.getD 2 0)).put 0x1008 0x04 n

/-- The bytes of a loaded target from 0, n of them; bytes that no chunk gave read 0 (R440). -/
def Slot.bytes (x : Slot) (n : Nat) : Bytes :=
  x.chunks.foldl (fun b c => padTo n (b.take c.1 ++ (c.2.take (n - c.1)) ++ b.drop (c.1 + c.2.length))) (List.replicate n 0)

/-- Read the variant record: one loaded and marked valid replaces the one before (R432, R433); when power is applied the limits of the variant are
the defaults. -/
def State.readVariant (s : State) (power : Bool) : State :=
  let x := Tab.get {} s.security.slots 2
  let s := if x.valid && !x.chunks.isEmpty then (s.put 0x4201 0x00 (ofLE (x.bytes 64))).put 0x1002 0x00 (leAt (x.bytes 64) 0 8) else s
  if power then (s.put 0x3000 0x01 s.variant.1).put 0x3100 0x01 s.variant.2 else s

/-- The tables that lie with the journal, in the system region (R339). -/
def withJournal (idx : Nat) : Bool :=
  decide (0x2000 ≤ idx ∧ idx < 0x2040) || decide (0x2100 ≤ idx ∧ idx < 0x2140) || decide (0x2500 ≤ idx ∧ idx < 0x2520)

/-- Both copies of the active set and of the fault log have failed their check: those items start as at a power-on, what lies with the journal stays
(R339, R419). -/
def State.copiesLost (s : State) : State :=
  let gone (k : Nat) : Bool := !withJournal (k / 256) && (objRow (k / 256) (k % 256)).any fun r => r.access = .rw || r.access = .rwm
  let s : State := { s with obj := s.obj.filter fun e => !gone e.1 || flashKeeps e.1, faults := [], faultNext := 0 }
  (s.readVariant true).fault { cls := 0x1D, action := 0x08, detail := [2] ++ toLE 1 s.repair.area }

/-- The slot that the boot ROM runs: the one that boot_slot names, or the other (R421, R438). -/
def State.bootSlot (s : State) (f : BringUp) : Option Nat :=
  let passes (n : Nat) : Bool :=
    let x := Tab.get {} s.security.slots n
    x.valid && (if n = 0 then f.slotA else f.slotB) = 0 && decide (s.get 0x1061 0x01 ≤ x.svn)
  let first := s.get 0x4202 0x01
  if passes first then some first else if passes (1 - first) then some (1 - first) else none

/-- Both controllers leave reset: which is active, and whether any is (R422). -/
def State.bootControllers (s : State) (f : BringUp) : State :=
  let bad := f.romFailed.toNat
  if bad = 3 then { s with unmanaged := true }
  else if bad = 0 then s.change 0x4001 0x02 0
  else (s.change 0x4001 0x01 (if bit bad 0 then 1 else 0)).change 0x4001 0x02 1

/-- Fields that short while they are raised are lost (R420, R371). -/
def State.raiseFields (s : State) (f : BringUp) : State :=
  (setPositions 24 f.shorted.toNat).foldl (fun s h =>
    let n := s.faultNext
    let s := s.fault { cls := 0x0E, action := 0x08, tile := h, stack := s.stackOn h
                       detail := toLE 2 0x3FF ++ toLE 4 (Config.current s.fresh).toNat }
    (State.loseLinks { s with fresh := s.fresh + 1, lostFields := setBit s.lostFields h true } h).hubDead h 0 n) s

/-- Built-in self-test: hubs that fail their scan are dead, findings are appended, failed tiles fenced (R425, R426). -/
def State.selfTest (s : State) (f : BringUp) : State :=
  let s := (setPositions 24 f.hubFailed.toNat).foldl (fun s h =>
    { s with fresh := s.fresh + 1 }.hubDead h (Config.deviceByte s.fresh)) s
  let s := (setPositions 24 f.tileFailed.toNat).foldl (fun s h =>
    if s.tileFenced h then s else s.fault { cls := 0x0D, action := 0x04, tile := h, detail := toLE 1 0x06 ++ toLE 1 0 }) s
  s.takeFindings f

/-- Every port of the active set is trained, M0 and M1 are up, every link's routes are set (R263, R420). -/
def State.bootPorts (s : State) : State :=
  let s := ((s.setRoutes s.routeTables).change (portObj 17) 0x01 2).change (portObj 18) 0x01 2
  (List.range 17).foldl (fun s p => if [4, 5].contains (s.portState p) then s else s.trainPort p) s

/-- Wait for the PTP lock where a port runs PTP, or be READY (R430). -/
def State.awaitPtp (s : State) : State :=
  if (List.range 17).any (fun p => s.get (0x2600 + p) 0x08 ≠ 0) && s.get 0x3120 0x03 ≠ 2 then
    { s with resetting := { s.resetting with waitPtp := some s.now } }
  else s.ready

/-- The entries that a bring-up has appended since the record had n segments stand in one segment, and are counted (R426, R427, R434). -/
def State.oneSegment (s : State) (n : Nat) : State :=
  let added := (s.repair.inField.drop n).flatten
  if added.isEmpty then s
  else { s with repair := { s.repair with inField := s.repair.inField.take n ++ chunks 1024 added } }.put 0x4202 0x05 added.length

/-- From the records step to READY (R420). -/
def State.bootOn (s : State) (f : BringUp) (power : Bool) : State :=
  let s := s.checkRecord f
  let n := s.repair.inField.length
  let s := if power then
      let s := s.showLinks
      (s.repair.factory ++ s.repair.inField.flatten).foldl State.applyEntry s
    else s
  let s := (s.raiseFields f).setDevice 2
  if f.plinthFailed then
    (State.fault { s with fresh := s.fresh + 1, resetting := {} } { cls := (Config.deviceByte s.fresh).toNat, action := 0x08 }).setDevice 7
  else
    let s := (s.selfTest f).setDevice 3
    let s := (((s.buildMaps f).loseMissing f).buildStacks).oneSegment n
    let s := (List.range 24).foldl State.showPatina s
    ((((s.selfRefresh false).bootPorts.showSteps true).rebuildIntake).startTakes 48000).awaitPtp

/-- A boot from the ROM: image, identity, records, rails, self-test, maps (R420 to R432). -/
def State.boot (s : State) (f : BringUp) (power : Bool) : State :=
  let s := (s.setDevice 1).bootControllers f
  if s.unmanaged then s
  else match s.bootSlot f with
  | none => { s with romMode := true, resetting := {} }.setDevice 7
  | some n =>
    let s := (s.runSlot n).readVariant power
    if !f.keyOk || !f.factoryOk || !f.variantOk then { s with resetting := {} }.setDevice 7
    else
      (if f.copiesFailed && !power then s.copiesLost else s).bootOn f power

/-- POWER_ON: VIN has entered its operating range (R418, R420). -/
def powerOn (f : BringUp) (s : State) : State :=
  if f.vin.toNat < 46000 || decide (56000 < f.vin.toNat) then s
  else
    let s := s.powerOnState
    let s := ({ s with power := { s.power with vin := f.vin.toNat } }.put 0x3040 0x01 s.power.energyFlash)
    s.boot f true

/-! ### Resets by command (R62, R418) -/

/-- A cold reset goes on to its boot, its jobs stopped (R418). -/
def State.finishCold (s : State) : State :=
  let r := s.resetting
  let s := s.flushWear.flushEnergy.coldState.restartMonitors
  match r.found with
  | some f => s.boot f false
  | none => s

/-- The reset has its jobs stopped, and goes on. -/
def State.finishReset (s : State) : State :=
  let s := s.stopJobs
  let s := { s with resetting := { s.resetting with waitJobs := false } }
  if s.resetting.kind = 1 then s.finishWarm else s.finishCold

/-- A reset begins: frames are taken no more, sessions close, events are sent no more, and running jobs are asked to quiesce (R48, R419, R431). -/
def State.beginReset (s : State) : State :=
  let s := { s with now := max s.now s.resetting.start, resetting := { s.resetting with waitSwap := false } }.setDevice 5
  let s := (s.dropLinks (List.range 17)).closeSessions
  let s := s.runningJobs.foldl (fun s j => (s.updJob j fun b => { b with quiesce := true }).askQuiesce j)
    { s with unacked := [], resetting := { s.resetting with waitJobs := true } }
  if s.runningJobs.all fun j => s.jobState j = 3 && s.jobQuiet j then s.finishReset else s

/-- A reset that waits goes on where what it waits for has come (R62, R431). -/
def State.continueReset (s : State) : State :=
  if s.resetting.kind = 0 then s
  else if s.resetting.waitSwap && !s.swapping then s.beginReset
  else if s.resetting.waitJobs && s.runningJobs.all (fun j => s.jobState j = 3 && s.jobQuiet j) then s.finishReset
  else s

/-- A reset command is accepted (R62): it begins 10 ms after its answer, after a swap whose GO message every target has acknowledged, while an
earlier swap is aborted. -/
def State.acceptReset (s : State) (kind : Nat) (f : Option BringUp) : State × Nat :=
  if s.resetting.kind ≠ 0 then (s, 0x09)
  else
    let s : State := { s with resetting := { kind := kind, start := s.now + 10 * msNs, found := f } }
    let s := if [1, 2].contains s.swapState && !s.goAcked then s.abortSwap 0x04 [] else s
    if s.swapping then ({ s with resetting := { s.resetting with waitSwap := true } }, 0) else (s.beginReset, 0)

/-! ### Rows -/

/-- RESET_CONTACT: RESET_L low for 10 µs or longer; the module stays in reset until it is released (R465). -/
def resetContact (ns : Nat) (s : State) : State :=
  if ns < 10000 || decide (s.power.vin < 36000) then s
  else
    let start := s.now
    let s := (s.setDevice 5).dropLinks (List.range 17)
    let s := s.runningJobs.foldl (fun s j => (s.endStarted j 3 0).stopJob j) s.endRunningControl
    { s.flushWear.flushEnergy.coldState.restartMonitors with resetting := { kind := 3, start := start, heldLow := true } }

/-- RESET_L_RELEASE: the boot of a cold reset begins (R465). -/
def resetLRelease (f : BringUp) (s : State) : State :=
  if !s.resetting.heldLow then s
  else { s with resetting := { s.resetting with heldLow := false } }.boot f false

/-- PTP_LOCK_WAIT_EXPIRY: the module is READY without the lock (R430). -/
def ptpLockWaitExpiry (s : State) : State :=
  match s.resetting.waitPtp with
  | some t => { s with now := max s.now (t + s.get 0x4202 0x02 * msNs) }.ready
  | none => s

/-- QUIESCE_POINT_REACHED: the swap, the control operation or the reset that waits goes on (R57, R334, R431). -/
def quiescePointReached (s : State) : State := (s.sendGo.tryQuiesced).continueReset

/-- CONTROL_QUIESCE_TIMEOUT: the limit of a control operation's wait, or of a reset's, has run out (R334, R431). -/
def controlQuiesceTimeout (s : State) : State :=
  if s.resetting.waitJobs then
    { s with now := max s.now (s.resetting.start + s.get 0x2540 0x01 * msNs) }.finishReset
  else s.controlTimeout

/-- Number of a PTP event message among a port's stamps: its kind, and from 4 on those sent (R301). -/
def ptpNumber (m : PtpMsg) : Nat :=
  (match m.kind with
    | .sync => 0
    | .delayReq => 1
    | .pdelayReq => 2
    | .pdelayResp => 3) + (if m.sent then 4 else 0)

/-- Whether a port takes and stamps event messages over a transport: UDP on IPv4 at the host port alone (R301). -/
def State.ptpOver (s : State) (p : Nat) (m : PtpMsg) : Bool := m.carrier ≠ .udp4 || p = s.hostPort

/-- A port stamps an event message at its timestamp point; one that it sends carries the stamp in one-step operation, and a Follow_Up tells it in
two-step (R301). -/
def State.stampPtp (s : State) (p : Nat) (m : PtpMsg) : State :=
  let s := s.updPort p fun q => { q with stamps := Tab.set 0 q.stamps (ptpNumber m) s.now }
  if m.sent then s.emit (.ptp p ((ptpNumber m) - 4) (if s.get (0x2600 + p) 0x08 = 2 then some s.now else none)) else s

/-- The path delay of a port as IEEE 1588 measures it: by a Delay_Req with the time that its answer told, after a Sync; or by a Pdelay_Resp with the time
that the peer held the request (PRESUMED: the standard's formulas, log 29). -/
def State.measureDelay (s : State) (p : Nat) (m : PtpMsg) : State :=
  let q := s.portOf p
  let at' (n : Nat) : Int := (Tab.get 0 q.stamps n : Nat)
  let told : Int := m.told.toNat
  match m.kind, m.sent with
  | .delayReq, true => s.updPort p fun q => { q with delay := ((at' 0 - (q.origin : Int)) + (told - at' 5)) / 2 }
  | .pdelayResp, false => s.updPort p fun q => { q with delay := ((at' 3 - at' 6) - told) / 2 }
  | .sync, false => s.updPort p fun q => { q with origin := m.told.toNat }
  | _, _ => s

/-- The timebase follows a Sync by the offset that its stamp shows: stepped once, at the first lock before READY, and slewed at every other time
(R414). -/
def State.followSync (s : State) (p : Nat) (m : PtpMsg) : State :=
  let offset : Int := (m.told.toNat : Int) + (s.portOf p).delay - s.now
  let s := s.advanceSlew.put 0x3120 0x04 (ofSigned 64 offset)
  let rate := max (-100000) (min 100000 m.rate.toInt)
  let s := s.put 0x3120 0x06 (ofSigned 32 rate)
  let step := m.locks && !s.clocks.stepClosed && s.get 0x1010 0x00 ≠ 4
  let s := if step then { s with now := ((s.now : Int) + offset).toNat % 2 ^ 64 }.put 0x3120 0x05 (ofSigned 64 offset) |>.closeStep else s
  let s := { s with clocks := { s.clocks with lastPtp := s.now, slewedTo := s.now } }
  let s := s.change 0x3120 0x03 (if m.locks then 2 else 1)
  if m.locks && s.resetting.waitPtp.isSome then s.ready else s

/-- PTP_MESSAGE: a port with ptp_mode nonzero stamps an event message it receives or sends; a Sync of the domain at the port that the timebase follows
corrects it (R301, R414). -/
def ptpMessage (p : Nat) (m : PtpMsg) (s : State) : State :=
  let source := s.get 0x3120 0x02
  if s.get (0x2600 + p) 0x08 = 0 || !s.portUp p || !s.ptpOver p m then s
  else
    let s := (s.stampPtp p m).measureDelay p m
    if m.kind = .sync && !m.sent && m.domain.toNat = s.get 0x3120 0x07 && (if source = 0xFF then m.best else source = p) then s.followSync p m
    else s

def execResetContact (ns : BitVec 64) (s : State) : Host.Outcome State Fault Refusal := .next (resetContact ns.toNat s)
def execPowerOn (f : BringUp) (s : State) : Host.Outcome State Fault Refusal := .next (powerOn f s)
def execPtpLockWaitExpiry (s : State) : Host.Outcome State Fault Refusal := .next (ptpLockWaitExpiry s)
def execResetLRelease (f : BringUp) (s : State) : Host.Outcome State Fault Refusal := .next (resetLRelease f s)
def execQuiescePointReached (s : State) : Host.Outcome State Fault Refusal := .next (quiescePointReached s)
def execControlQuiesceTimeout (s : State) : Host.Outcome State Fault Refusal := .next (controlQuiesceTimeout s)
def execPtpMessage (p : PortId) (m : PtpMsg) (s : State) : Host.Outcome State Fault Refusal := .next (ptpMessage p m s)
def execTargetAck (t : TargetId) (kind : AckKind) (crcOk : Bool) (s : State) : Host.Outcome State Fault Refusal :=
  .next (targetAck t kind crcOk s).continueReset
def execTargetAckTimeout (s : State) : Host.Outcome State Fault Refusal := .next (targetAckTimeout s).continueReset
def execSwapTooLate (s : State) : Host.Outcome State Fault Refusal := .next (swapTooLate s).continueReset

end Sys2Proof.Machine
end

