-- ==== Sys2Proof/Machine/Manual.lean ====
section
/-! DEFINITION. Setting a synchronisation object by hand (R290, R291). -/

namespace Sys2Proof.Machine

open Sys2Proof

/-- The logged signal that a manual operation amounts to (R290, R367): its kind and value; none where the operation is unknown, the image
invalid, or the kind does not match. -/
def manualSignal (image op operand : Nat) : Option (Nat × Nat) :=
  match op with
  | 1 => if imgValid operand then some (3, operand) else none
  | 2 => if imgKind image = 0 then some (0, operand % 2 ^ 32) else none
  | 3 => if imgKind image = 2 then some (2, 1) else none
  | 4 => if imgKind image = 2 then some (2, 0) else none
  | 5 => if imgKind image = 1 then some (4, 0) else none
  | _ => none

/-- Whether a core has a running job (R290). -/
def State.hasRunningJob (s : State) (c : Nat) : Bool := (s.core c).job ≠ 0xFF && [2, 3].contains (s.jobState (s.core c).job)

/-- Record a manual setting (R291): the log of 128 entries, evented, and its count. -/
def State.logManual (s : State) (session addr old new op status : Nat) : State :=
  let j := if spaceOf addr = 2 then (s.core (syncCore addr)).job else 0
  let e := toLE 8 s.now ++ toLE 8 addr ++ toLE 8 old ++ toLE 8 new ++ toLE 4 (if j = 0xFF then 0 else j) ++ toLE 4 session ++ toLE 1 op
    ++ toLE 1 status ++ toLE 6 0
  let l := s.manual ++ [ofLE e]
  let s := { s with manual := l.drop (l.length - 128) }
  (s.countRare 0x7012 0x00).event 0x7011 0x00 s.now

/-- The STARTED item of a job tells that an object of it was set by hand (R291, R331). -/
def State.markManual (s : State) (j : Nat) : State :=
  { s with items := s.items.map fun i => if i.job = j && i.state = 2 && i.stream ≠ 0 then { i with manualSet := true } else i }

/-- A setting that is accepted is applied at the recovery-controller port, last in its cycle, after the signals that the other ports take; waits are
evaluated once, the fault log tells it, and the signals' results reach what sent them (R280, R285, R290, R291). -/
def State.setByHand (s : State) (c i : Nat) (k : Nat × Nat) (op : Nat) (taken : List (Signal × SignalResult)) : State :=
  let old := s.syncGet c i
  let new := (LogEntry.apply ⟨i, k.1, k.2, none, none, s.now⟩ old).1
  let j := (s.core c).job
  let s := ((s.syncSet c i new).logSignal c i k.1 k.2 none none old).evalWaits c (changedBy taken ++ [i])
  let s := (s.markManual j).fault { cls := 0x18, core := c, tile := s.tileOf c, job := j, address := syncAddr c i, detail := toLE 1 op }
  taken.foldl (fun s x => s.signalResult x.1 x.2) s

/-- A write of 0x01 to manual_apply by a session, in a cycle in which the object's other ports take the signals of some of them, with the status of its
answer (R280, R290). -/
def State.manualApply (s : State) (n ports : Nat) : State × Nat :=
  let a := s.get 0x7010 0x01
  let op := s.get 0x7010 0x02
  let c := syncCore a
  let i := syncIndex a
  let ok := spaceOf a = 2 && !addrReserved a && !addrOut a
  let old := if ok then s.syncGet c i else 0
  let refused (status : Nat) : State × Nat := (s.logManual (n + 1) a old old op status, status)
  if !ok then refused 0x07
  else
    let r := s.takeSignals c (setPositions 5 ports)
    let before := r.1.syncGet c i
    match manualSignal before op (s.get 0x7010 0x03) with
    | none => refused 0x07
    | some k =>
      if !s.hasRunningJob c then refused 0x09
      else
        let new := (LogEntry.apply ⟨i, k.1, k.2, none, none, s.now⟩ before).1
        ((r.1.setByHand c i k op r.2).logManual (n + 1) a before new op 0, 0)

end Sys2Proof.Machine
end

