-- ==== Sys2Proof/Machine/Sha.lean ====
section
/-! DEFINITION. SHA-512, the hash of every digest of the module (R436, R437, R443 to R445), as FIPS 180-4 defines it. -/

namespace Sys2Proof.Machine

open Sys2Proof

/-- The largest number below 2 ^ i above r whose k-th power is at most n, found bit by bit. -/
def rootFrom (k n : Nat) : Nat → Nat → Nat
  | 0, r => r
  | i + 1, r => rootFrom k n i (if (r + 2 ^ i) ^ k ≤ n then r + 2 ^ i else r)

/-- The first 64 bits of the fraction of the k-th root of a number. -/
def rootWord (k p : Nat) : Nat := rootFrom k (p * 2 ^ (64 * k)) 68 0 % 2 ^ 64

/-- The first 80 primes. -/
def shaPrimes : List Nat := (List.range 410).filter fun p => decide (2 ≤ p) && (List.range p).all fun d => d < 2 || p % d ≠ 0

/-- The initial hash words, from the square roots of the first eight primes. -/
def shaStart : List Nat := (shaPrimes.take 8).map (rootWord 2)

/-- The constants of the 80 rounds, from the cube roots of the first 80 primes. -/
def shaConstants : List Nat := shaPrimes.map (rootWord 3)

/-- Rotate a 64-bit word right. -/
def rotr (n x : Nat) : Nat := x / 2 ^ n + x % 2 ^ n * 2 ^ (64 - n)

/-- Big-endian bytes of a number, n of them. -/
def toBE (n v : Nat) : Bytes := (toLE n v).reverse

/-- The message with its padding: a one bit, zeros, the length in bits. -/
def shaPad (m : Bytes) : Bytes :=
  m ++ [0x80] ++ List.replicate ((239 - m.length % 128) % 128) 0 ++ toBE 16 (8 * m.length)

/-- The next word of the schedule, from the last sixteen, newest first. -/
def shaNext (w : List Nat) : Nat :=
  let a := w.getD 14 0
  let b := w.getD 1 0
  let s0 := rotr 1 a ^^^ rotr 8 a ^^^ a / 2 ^ 7
  let s1 := rotr 19 b ^^^ rotr 61 b ^^^ b / 2 ^ 6
  (s1 + w.getD 6 0 + s0 + w.getD 15 0) % 2 ^ 64

/-- The schedule of a block, newest first: the sixteen words of it, then as many more as asked. -/
def shaSchedule : Nat → List Nat → List Nat
  | 0, w => w
  | n + 1, w => shaSchedule n (shaNext w :: w)

/-- One round on the eight working words. -/
def shaRound (v : List Nat) (kw : Nat) : List Nat :=
  match v with
  | [a, b, c, d, e, f, g, h] =>
    let s1 := rotr 14 e ^^^ rotr 18 e ^^^ rotr 41 e
    let ch := (e &&& f) ^^^ ((2 ^ 64 - 1 - e) &&& g)
    let t1 := h + s1 + ch + kw
    let s0 := rotr 28 a ^^^ rotr 34 a ^^^ rotr 39 a
    let maj := (a &&& b) ^^^ (a &&& c) ^^^ (b &&& c)
    [(t1 + s0 + maj) % 2 ^ 64, a, b, c, (d + t1) % 2 ^ 64, e, f, g]
  | v => v

/-- One block of 128 bytes. -/
def shaBlock (h : List Nat) (b : Bytes) : List Nat :=
  let w16 := (List.range 16).map fun i => ofLE ((b.drop (8 * i)).take 8).reverse
  let w := (shaSchedule 64 w16.reverse).reverse
  let v := (shaConstants.zip w).foldl (fun v x => shaRound v (x.1 + x.2)) h
  (h.zip v).map fun x => (x.1 + x.2) % 2 ^ 64

/-- Blocks in order, with as many steps as bytes. -/
def shaBlocks : Nat → List Nat → Bytes → List Nat
  | 0, h, _ => h
  | n + 1, h, m => if m.isEmpty then h else shaBlocks n (shaBlock h (m.take 128)) (m.drop 128)

/-- SHA-512 of a string of bytes: 64 bytes. -/
def sha512 (m : Bytes) : Bytes :=
  let p := shaPad m
  (shaBlocks (p.length / 128) shaStart p).flatMap (toBE 8)

end Sys2Proof.Machine
end

