-- ==== Sys2Proof/Machine/Security.lean ====
section
/-! DEFINITION. Identity, loading, measurement and debug (chapter 19): the actions of the security objects, and the SPDM responder. -/

namespace Sys2Proof.Machine

open Sys2Proof

/-! ### Credentials (R442) -/

/-- Level of an entry of the credential table: 0 none, 1 observer, 2 operator, 3 owner. -/
def credLevel (v : Nat) : Nat := bits v 512 8

/-- Entries of the credential table. -/
def State.credentials (s : State) : List Nat := (List.range 8).map fun k => s.get 0x1040 (k + 1)

/-- A write of an entry; the last owner entry cannot be removed (R442). -/
def State.writeCredential (s : State) (k v : Nat) : State × Nat :=
  let others := ((List.range 8).filter (· + 1 ≠ k)).any fun i => credLevel (s.get 0x1040 (i + 1)) = 3
  if credLevel (s.get 0x1040 k) = 3 && credLevel v ≠ 3 && !others then (s, 0x09) else (s.put 0x1040 k v, 0)

/-- Level that a mutually authenticated session takes by its key hash (R442). -/
def State.levelOf (s : State) (src : Source) (leaf : Option Bytes) : Nat :=
  match leaf with
  | none => 1
  | some h =>
    match s.credentials.find? fun v => credLevel v ≠ 0 && bits v 0 512 = ofLE h with
    | some v => credLevel v
    | none => if decide (17 ≤ src.port.val) && !s.credentials.any fun v => credLevel v = 3 then 3 else 1

/-! ### Loading (R438, R440) -/

/-- A slot or the variant record in flash. -/
def State.slot (s : State) (t : Nat) : Slot := Tab.get {} s.security.slots t

/-- Change a slot. -/
def State.updSlot (s : State) (t : Nat) (f : Slot → Slot) : State :=
  { s with security := { s.security with slots := Tab.upd {} s.security.slots t f } }

/-- Bytes a target holds: 16 MiB of a slot, a variant record with its signature. -/
def targetSize (t : Nat) : Nat := if t < 2 then 16 * 2 ^ 20 else 576

/-- Whether a target is the slot that runs (R440). -/
def State.runs (s : State) (t : Nat) : Bool := !s.romMode && decide (t < 2) && s.get 0x1008 0x04 = t

/-- Whether a load of another session keeps a session away (R440). -/
def State.loadBusy (s : State) (n : Nat) : Bool :=
  match s.security.loader with
  | some m => m ≠ n
  | none => false

/-- load_target and load_offset: while a load is under way its target stands (R440). -/
def State.writeLoadSetting (s : State) (n sub v : Nat) : State × Nat :=
  if s.loadBusy n then (s, 0x08)
  else if sub = 1 && s.security.loader.isSome && v ≠ s.get 0x1060 0x01 then (s, 0x09)
  else (s.put 0x1060 sub v, 0)

/-- A chunk, written at load_offset; the first begins the load (R440). -/
def State.loadChunk (s : State) (n : Nat) (data : Bytes) : State × Nat :=
  let t := s.get 0x1060 0x01
  let off := s.get 0x1060 0x02
  if s.loadBusy n then (s, 0x08)
  else if s.runs t then (s, 0x09)
  else if targetSize t < off + data.length then (s, 0x07)
  else
    let s := if s.security.loader.isSome then s
      else
        let s := s.updSlot t fun x => { x with chunks := [], valid := false }
        ({ s with security := { s.security with loader := some n } }.put 0x1060 0x06 0).change 0x1060 0x05 1
    (s.updSlot t fun x => { x with chunks := x.chunks ++ [(off, data)] }, 0)

/-- Whether bytes [lo, hi) of a string are zero. -/
def zeroSpan (b : Bytes) (lo hi : Nat) : Bool := ((b.drop lo).take (hi - lo)).all (· = 0)

/-- The first check of R438 that a slot's image fails, with what its signatures gave; 0 where it passes. -/
def State.imageCheck (s : State) (x : Slot) (signatures : Nat) : Nat :=
  let h := x.bytes 2048
  let n := leAt h 8 4
  if leAt h 0 2 ≠ 1 || leAt h 12 4 ≠ 0 || !zeroSpan h 1104 1536 then 1
  else if signatures = 2 || signatures = 3 then signatures
  else if leAt h 6 2 < s.get 0x1061 0x01 then 4
  else if n = 0 || decide (16775168 < n) || sha512 ((x.bytes (2048 + n)).drop 2048) ≠ (h.drop 16).take 64 then 5
  else 0

/-- Input cap and highest step of a part number, as a row of R1. -/
def partRow (part : Nat) : Option (Nat × Nat) :=
  if part = ofLE (asciiBytes ['P', 'A', '2', '4', '-', 'M']) then some (12000, 12)
  else if part = ofLE (asciiBytes ['P', 'A', '2', '4', '-', 'L']) then some (9000, 9)
  else if part = ofLE (asciiBytes ['P', 'A', '2', '4', '-', 'E']) then some (6500, 4)
  else none

/-- The check that a variant record fails (R432): 1 its format, 2 its signature, 6 its serial or its row of R1. -/
def State.variantCheck (s : State) (x : Slot) (signatures : Nat) : Nat :=
  let b := x.bytes 64
  if leAt b 28 2 ≠ 1 || leAt b 31 1 ≠ 0 || !zeroSpan b 40 64 then 1
  else if signatures = 2 || signatures = 3 then signatures
  else if leAt b 8 16 ≠ s.get 0x1003 0x00 || partRow (leAt b 0 8) ≠ some (leAt b 24 4, leAt b 30 1) then 6
  else 0

/-- Command 0x01 of a load: the target is verified and marked valid, or left invalid (R440). -/
def State.loadCommit (s : State) (n : Nat) (f : LoadCheck) : State × Nat :=
  let t := s.get 0x1060 0x01
  if s.loadBusy n then (s, 0x08)
  else if s.security.loader.isNone then (s, 0x09)
  else
    let s := { s with security := { s.security with loader := none } }.change 0x1060 0x05 2
    let x := s.slot t
    let bad := if t < 2 then s.imageCheck x f.failed.toNat else s.variantCheck x f.failed.toNat
    if bad ≠ 0 then ((s.put 0x1060 0x06 bad).change 0x1060 0x05 4, 0)
    else if t = 2 then ((s.updSlot t fun x => { x with valid := true }).change 0x1060 0x05 3, 0)
    else
      let h := x.bytes 2048
      let s := s.updSlot t fun x =>
        { x with valid := true, svn := leAt h 6 2, version := [leAt h 2 1, leAt h 3 1, leAt h 4 2], hash := (h.drop 16).take 64 }
      ((s.put 0x4202 0x01 t).change 0x1060 0x05 3, 0)

/-- Command 0x02 of a load (R440). -/
def State.loadAbort (s : State) (n : Nat) : State × Nat :=
  if s.loadBusy n then (s, 0x08) else if s.security.loader.isNone then (s, 0x09) else (s.abortLoad, 0)

/-- svn_advance: the floor rises to the running image's SVN (R439). -/
def State.svnAdvance (s : State) : State × Nat :=
  if s.security.svn ≤ s.get 0x1061 0x01 then (s, 0x09) else (s.put 0x1061 0x01 s.security.svn, 0)

/-! ### Program measurement (R445) -/

/-- Whether a range can be measured: within one stack's memory, at most 64 MiB, readable, without poison (R445). -/
def State.measurable (s : State) (a n : Nat) : Bool :=
  decide (spaceOf a = 0 ∧ 1 ≤ n ∧ n ≤ 67108864 ∧ dramOffset a + n ≤ 0x1800000000) && !addrReserved a && !addrOut a
    && s.serviceStatus a = .ok && s.serviceStatus (a + n - 1) = .ok && !s.anyPoison a n

/-- measure_apply (R445). -/
def State.measureApply (s : State) : State × Nat :=
  let a := s.get 0x1070 0x01
  let n := s.get 0x1070 0x02
  if !s.measurable a n then (s, 0x10)
  else if 256 ≤ s.security.programLog.length then (s, 0x09)
  else
    let d := sha512 (s.readBytes a n)
    let e := toLE 8 s.now ++ toLE 8 a ++ toLE 4 n ++ toLE 12 0 ++ d
    ({ s with security := { s.security with programLog := s.security.programLog ++ [e], logValue := sha512 (s.security.logValue ++ d) } }, 0)

/-! ### Debug (R446) -/

/-- A fresh challenge, which cancels the one before; it expires after 300 s (R446). -/
def State.newChallenge (s : State) : State × Bytes :=
  let b := (List.range 32).map fun i => Config.challengeByte (s.fresh + i)
  ({ s with fresh := s.fresh + 32, security := { s.security with challenge := some (b, s.now + 300 * 1000000000) } }, b)

/-- Whether a token is accepted (R446). -/
def State.tokenOk (s : State) (b : Bytes) (f : TokenCheck) : Bool :=
  let answers := match s.security.challenge with
    | some (c, t) => decide (s.now < t) && (b.drop 24).take 32 = c
    | none => false
  f.verified && answers && leAt b 0 2 = 1 && leAt b 8 16 = s.get 0x1003 0x00 && decide (leAt b 2 2 < 8) && zeroSpan b 64 128
    && decide (60 ≤ leAt b 4 4 ∧ leAt b 4 4 ≤ 86400)

/-- A debug token: the challenge is consumed, and the scope granted where the token is accepted (R446). -/
def State.writeToken (s : State) (b : Bytes) (f : TokenCheck) : State × Nat :=
  let ok := s.tokenOk b f
  let s := { s with security := { s.security with challenge := none } }
  if !ok then (s, 0x10)
  else ((s.put 0x1080 0x04 (s.now + leAt b 4 4 * 1000000000)).change 0x1080 0x03 (leAt b 2 2), 0)

/-- Debug access ends (R446). -/
def State.lockDebug (s : State) : State := (s.put 0x1080 0x04 0).change 0x1080 0x03 0

/-- DEBUG_UNLOCK_EXPIRY: the unlock or the challenge, whichever ends first, has ended (R446). -/
def debugUnlockExpiry (s : State) : State :=
  let e := s.get 0x1080 0x04
  match s.security.challenge with
  | some (_, t) =>
    if e ≠ 0 ∧ e ≤ t then { s with now := max s.now e }.lockDebug
    else { s with now := max s.now t, security := { s.security with challenge := none } }
  | none => if e = 0 then s else { s with now := max s.now e }.lockDebug

/-- DEBUG_PORT_ATTACH: under scope bit 0 the standby controller halts (R446). -/
def debugPortAttach (s : State) : State := if bit (s.get 0x1080 0x03) 0 && s.get 0x4001 0x02 ≠ 1 then s.change 0x4001 0x02 1 else s

/-! ### Measurement blocks (R444) -/

/-- Bytes fixed at manufacture, n of them from a number. -/
def factoryBytes (lo n : Nat) : Bytes := (List.range n).map fun i => Config.factoryByte (lo + i)

/-- n fresh bytes of the device's own making, such as a signature. -/
def State.ownBytes (s : State) (n : Nat) : State × Bytes :=
  ({ s with fresh := s.fresh + n }, (List.range n).map fun i => Config.deviceByte (s.fresh + i))

/-- The device certificate chain (R436, R447). -/
def certificateChain : Bytes := factoryBytes 4096 16384

/-- Active values of every RWM object, in index and subindex order (R444). -/
def State.activeSet (s : State) : Bytes :=
  (List.range 0x9000).flatMap fun idx => if !objIndexListed idx then [] else
    (List.range 256).flatMap fun sub => match objRow idx sub with
      | some r => if r.access = .rwm then s.viewBytes r idx sub false else []
      | none => []

/-- Content of a measurement block whose value follows from the state, as it is when the response is formed (R444). -/
def State.blockValue (s : State) (i : Nat) : Bytes :=
  let slot := s.get 0x1008 0x04
  match i with
  | 1 => factoryBytes 0 64
  | 2 => if (s.slot slot).hash.isEmpty then factoryBytes 128 64 else (s.slot slot).hash
  | 3 => toLE 1 (s.get 0x1008 0x01) ++ toLE 1 (s.get 0x1008 0x02) ++ toLE 2 (s.get 0x1008 0x03)
  | 4 => toLE 2 s.security.svn ++ toLE 2 (s.get 0x1061 0x01)
  | 5 => sha512 (toLE 64 (s.get 0x4201 0x00))
  | 6 => factoryBytes 64 64
  | 7 => (List.range 64).map (Config.segmentDigest s.repair.inField)
  | 8 => sha512 s.activeSet
  | 9 => sha512 (s.credentials.flatMap (toLE 72))
  | 10 => toLE 2 (s.get 0x1080 0x03)
  | 11 => s.security.logValue
  | _ => []

/-- One block (R444). -/
def State.block (s : State) (i : Nat) : Bytes :=
  let b := s.blockValue i
  toLE 1 i ++ toLE 2 b.length ++ b

/-- The blocks a request asks for: 0xFF all, 0 their number (R444). -/
def State.blocks (s : State) (ask : Nat) : Bytes :=
  if ask = 0 then [11] else (((List.range 11).map (· + 1)).filter fun i => ask = 0xFF || ask = i).flatMap s.block

/-! ### The SPDM responder (R441 to R443) -/

/-- Whether no controller answers a source: none works, RESET_L is low, or the boot ROM serves M0 and M1 alone (R375, R421, R465). -/
def State.silent (s : State) (src : Source) : Bool := s.unmanaged || s.resetting.heldLow || (s.romMode && decide (src.port.val < 17))

/-- Answer an SPDM request. -/
def State.spdm (s : State) (src : Source) (code : Nat) (body : Bytes) : State := s.emit (.spdm src code body)

/-- ERROR, with its code: 0x07 UnsupportedRequest, 0x0A SessionLimitExceeded. -/
def State.spdmError (s : State) (src : Source) (code : Nat) : State := s.spdm src 0x7F (toLE 1 code)

/-- A request outside the subset is answered with ERROR UnsupportedRequest (R443). -/
def State.spdmRequest (s : State) (src : Source) (m : Spdm) (f : State → State) : State :=
  if s.silent src then s
  else if !m.ok || ! [0x11, 0x12, 0x13].contains m.version.toNat then s.spdmError src 0x07
  else f s

/-- Only certificate slot 0 is served (R443). -/
def State.spdmSlot0 (s : State) (src : Source) (m : Spdm) (f : State → State) : State :=
  s.spdmRequest src m fun s => if m.param1 ≠ 0 then s.spdmError src 0x07 else f s

/-- A request of a secured session (R443). -/
def State.inSession (s : State) (src : Source) (m : Spdm) (f : Session → State → State) : State :=
  match s.session m.session with
  | some x => if x.secure then s.spdmRequest src m (f x) else s
  | none => s

/-- GET_VERSION: 1.1, 1.2 and 1.3. -/
def getVersion (src : Source) (m : Spdm) (s : State) : State :=
  if s.silent src then s else if !m.ok then s.spdmError src 0x07 else s.spdm src 0x04 [0x11, 0x12, 0x13]

/-- CAPABILITIES as R443 lists them, each at the standard's bit (PRESUMED, log 69): CERT 1, CHAL 2, MEAS with signature 4, MEAS_FRESH 5,
ENCRYPT 6, MAC 7, MUT_AUTH 8, KEY_EX 9, HBEAT 13, KEY_UPD 14; from version 1.2 on DataTransferSize, 1,400 bytes. -/
def spdmCapabilities (version : Nat) : Bytes :=
  toLE 4 (([1, 2, 4, 5, 6, 7, 8, 9, 13, 14].map (2 ^ ·)).sum) ++ (if version < 0x12 then [] else toLE 4 1400)

/-- The algorithms of R443 at the standard's bits (PRESUMED, log 69): measurement hash SHA-512, RSASSA-PSS 4096, SHA-512, secp384r1,
AES-256-GCM, and RSASSA-PSS 4096 for the requester. -/
def spdmAlgorithms : Bytes := toLE 4 0x08 ++ toLE 4 0x40 ++ toLE 4 0x04 ++ toLE 2 0x10 ++ toLE 2 0x02 ++ toLE 2 0x40

/-- A part of slot 0's chain with its length and the number of bytes after it, in one message of at most 1,400 bytes (R441, R443). -/
def spdmCertificate (offset length : Nat) : Bytes :=
  let part := (certificateChain.drop offset).take (min 1392 length)
  toLE 2 part.length ++ toLE 2 (certificateChain.length - (offset + part.length)) ++ part

/-- GET_CAPABILITIES. -/
def getCapabilities (src : Source) (m : Spdm) (s : State) : State :=
  s.spdmRequest src m fun s => s.spdm src 0x61 (spdmCapabilities m.version.toNat)

/-- NEGOTIATE_ALGORITHMS. -/
def negotiateAlgorithms (src : Source) (m : Spdm) (s : State) : State := s.spdmRequest src m fun s => s.spdm src 0x63 spdmAlgorithms

/-- GET_DIGESTS: the digest of slot 0's chain. -/
def getDigests (src : Source) (m : Spdm) (s : State) : State := s.spdmRequest src m fun s => s.spdm src 0x01 (sha512 certificateChain)

/-- GET_CERTIFICATE: a part of the chain, by offset and length. -/
def getCertificate (src : Source) (m : Spdm) (s : State) : State :=
  s.spdmSlot0 src m fun s => s.spdm src 0x02 (spdmCertificate (leAt m.body 0 2) (leAt m.body 2 2))

/-- CHALLENGE: the chain's digest and a signature. -/
def challenge (src : Source) (m : Spdm) (s : State) : State :=
  s.spdmSlot0 src m fun s =>
    let r := s.ownBytes 512
    r.1.spdm src 0x03 (sha512 certificateChain ++ r.2)

/-- GET_MEASUREMENTS: the blocks asked for, signed where the request asks for a signature. -/
def getMeasurements (src : Source) (m : Spdm) (s : State) : State :=
  s.spdmRequest src m fun s =>
    if 11 < m.param2.toNat ∧ m.param2.toNat ≠ 0xFF then s.spdmError src 0x07
    else
      let b := s.blocks m.param2.toNat
      let r := if bit m.param1.toNat 0 then s.ownBytes 512 else (s, [])
      r.1.spdm src 0x60 (b ++ r.2)

/-- KEY_EXCHANGE: a session of the level that the credential gives, with a heartbeat period of 100 s; a 33rd is not formed (R41, R442,
R443). -/
def keyExchange (src : Source) (m : Spdm) (s : State) : State :=
  s.spdmRequest src m fun s =>
    match s.freeSession with
    | none => s.spdmError src 0x0A
    | some n =>
      let s := s.setSession n (some { source := { src with env := none }, level := s.levelOf src m.leaf, secure := true
                                      lastRequest := s.now, heartbeat := s.now })
      let r := s.ownBytes 512
      r.1.spdm src 0x64 (toLE 1 100 ++ toLE 1 n ++ r.2)

/-- FINISH completes the handshake; one that does not verify ends the session. -/
def finish (src : Source) (m : Spdm) (s : State) : State :=
  match s.session m.session with
  | none => s
  | some x =>
    if !x.secure || s.silent src then s
    else if !m.ok then (s.closeSession m.session).spdmError src 0x07
    else (s.updSession m.session fun x => { x with finished := true }).spdm src 0x65 []

/-- HEARTBEAT keeps the session. -/
def heartbeat (src : Source) (m : Spdm) (s : State) : State :=
  s.inSession src m fun _ s => (s.updSession m.session fun x => { x with heartbeat := s.now }).spdm src 0x68 []

/-- KEY_UPDATE. -/
def keyUpdate (src : Source) (m : Spdm) (s : State) : State :=
  s.inSession src m fun _ s => (s.updSession m.session fun x => { x with keyUpdates := x.keyUpdates + 1 }).spdm src 0x69 []

/-- END_SESSION: the envelope closes, and its session with it (R41). -/
def endSession (src : Source) (m : Spdm) (s : State) : State :=
  s.inSession src m fun _ s => (s.spdm src 0x6C []).closeSession m.session

/-- SPDM_HEARTBEAT_TIMEOUT: no heartbeat for 100 s closes the session (R41, R443). -/
def spdmHeartbeatTimeout (n : Nat) (s : State) : State :=
  match s.session n with
  | some x => if x.secure then { s with now := max s.now (x.heartbeat + 100 * 1000000000) }.closeSession n else s
  | none => s

def execGetVersion (src : Source) (m : Spdm) (s : State) : Host.Outcome State Fault Refusal := .next (getVersion src m s)
def execGetCapabilities (src : Source) (m : Spdm) (s : State) : Host.Outcome State Fault Refusal := .next (getCapabilities src m s)
def execNegotiateAlgorithms (src : Source) (m : Spdm) (s : State) : Host.Outcome State Fault Refusal := .next (negotiateAlgorithms src m s)
def execGetDigests (src : Source) (m : Spdm) (s : State) : Host.Outcome State Fault Refusal := .next (getDigests src m s)
def execGetCertificate (src : Source) (m : Spdm) (s : State) : Host.Outcome State Fault Refusal := .next (getCertificate src m s)
def execChallenge (src : Source) (m : Spdm) (s : State) : Host.Outcome State Fault Refusal := .next (challenge src m s)
def execGetMeasurements (src : Source) (m : Spdm) (s : State) : Host.Outcome State Fault Refusal := .next (getMeasurements src m s)
def execKeyExchange (src : Source) (m : Spdm) (s : State) : Host.Outcome State Fault Refusal := .next (keyExchange src m s)
def execFinish (src : Source) (m : Spdm) (s : State) : Host.Outcome State Fault Refusal := .next (finish src m s)
def execHeartbeat (src : Source) (m : Spdm) (s : State) : Host.Outcome State Fault Refusal := .next (heartbeat src m s)
def execKeyUpdate (src : Source) (m : Spdm) (s : State) : Host.Outcome State Fault Refusal := .next (keyUpdate src m s)
def execEndSession (src : Source) (m : Spdm) (s : State) : Host.Outcome State Fault Refusal := .next (endSession src m s)
def execSpdmHeartbeatTimeout (n : SessionId) (s : State) : Host.Outcome State Fault Refusal := .next (spdmHeartbeatTimeout n s)
def execDebugUnlockExpiry (s : State) : Host.Outcome State Fault Refusal := .next (debugUnlockExpiry s)
def execDebugPortAttach (s : State) : Host.Outcome State Fault Refusal := .next (debugPortAttach s)

end Sys2Proof.Machine
end

