-- ==== Sys2Proof/Machine/Mgmt.lean ====
section
/-! DEFINITION. The management protocol (R34 to R47): the checks of a request, what a read of an object does, what a write of one does, and the
services. -/

namespace Sys2Proof.Machine

open Sys2Proof

/-- What an action finds that no byte of its request carries: a boot, the signatures of a load and of a debug token, a voltage, the ports of an object
unit whose signals share the cycle of a manual setting. -/
structure Found where
  boot : BringUp := default
  load : LoadCheck := default
  token : TokenCheck := default
  present : Nat := 0
  ports : Nat := 0
  deriving DecidableEq, Repr

/-- The findings of a request that carries none: free values (log 21). -/
def State.found (s : State) : State × Found :=
  ({ s with fresh := s.fresh + 1 },
    ⟨Config.foundAtBoot s.fresh, Config.foundInLoad s.fresh, Config.foundInToken s.fresh, (Config.measured s.fresh).toNat, (Config.measured s.fresh).toNat % 32⟩)

/-- The status of the first check that fails, 0 for none (R47). -/
def firstStatus : List (Bool × Nat) → Nat
  | [] => 0
  | (b, n) :: r => if b then n else firstStatus r

/-- Level of a session (R40). -/
def State.levelAt (s : State) (n : Nat) : Nat := ((s.session n).map (·.level)).getD 0

/-- Whether a session travels in the envelope (R40). -/
def State.secured (s : State) (n : Nat) : Bool := ((s.session n).map (·.secure)).getD false

/-! ### Reads -/

/-- The bytes that a read returns, before what the read itself does. -/
def State.shown (s : State) (r : ObjRow) (idx sub : Nat) (maquette : Bool) : Bytes :=
  match s.viewMonitor idx sub with
  | some b => b
  | none => if idx = 0x1041 then certificateChain else s.viewBytes r idx sub maquette

/-- A read of a least-voltage record returns it and restarts it from the present voltage (R385); the voltages between are free, no higher than
the one the record began with. -/
def State.readVoltage (s : State) (idx sub present : Nat) : State × Bytes :=
  let old := s.get idx sub
  let began := bits old 0 64
  let low := (Config.measured s.fresh).toNat / 1000 * 1000
  let fell := old = 0 || decide (low < bits old 64 32)
  let stamp := if fell then began + (Config.measured (s.fresh + 1)).toNat % max 1 (s.now - began) else began
  let v := if fell then low else bits old 64 32
  ({ s with fresh := s.fresh + 2 }.put idx sub (s.now + present % 2 ^ 32 * 2 ^ 64), toLE 8 stamp ++ toLE 4 v ++ toLE 4 0)

/-- A read of an object: what it returns, and what it restarts (R321, R360, R385, R446); the offset between the references is what is measured then, a
free value (R417; log 21). -/
def State.readObject (s : State) (f : Found) (r : ObjRow) (idx sub : Nat) (maquette : Bool) : State × Bytes :=
  let b := s.shown r idx sub maquette
  if idx = 0x1080 ∧ sub = 1 then s.newChallenge
  else if idx = 0x3030 ∨ idx = 0x3031 then s.readVoltage idx sub f.present
  else if 0x6000 ≤ idx ∧ idx < 0x6000 + 0x40 * 19 ∧ idx % 0x40 = 0 ∧ sub = 0x08 then (s.put idx sub (s.bufferUsed ((idx - 0x6000) / 0x40)), b)
  else if idx = 0x4400 ∧ sub = 0x13 then (s.put idx sub s.replays.length, b)
  else if idx = 0x3110 ∧ sub = 0x04 then ({ s with fresh := s.fresh + 1 }, toLE 4 (Config.measured s.fresh).toNat)
  else (s, b)

/-- The status of a read request but for its length: objects, levels, class, type (R36, R39, R40, R43). -/
def State.readStatus (s : State) (n idx sub type : Nat) : Nat :=
  match objRow idx sub with
  | none => if objIndexListed idx then 0x02 else 0x01
  | some r => firstStatus [
      (decide (1 < r.rlevel.rank) && !s.secured n, 0x0F), (decide (s.levelAt n < r.rlevel.rank), 0x03),
      (r.access = .wo || r.access = .cmd, 0x05), (type ≠ 0 && type ≠ r.type.code, 0x06)]

/-! ### Writes -/

/-- Whether a write of an object is taken in the present device state (R61). -/
def State.acceptsWrites (s : State) (idx : Nat) : Bool :=
  let d := s.get 0x1010 0x00
  d = 4 || d = 6 || idx = 0x1060 || (idx = 0x1030 && !s.romMode) || (s.romMode && idx = 0xF010)

/-- Objects whose write needs the maquette lock (R49). -/
def needsLock (r : ObjRow) (idx sub : Nat) : Bool := r.access = .rwm || (sub = 0 && (idx = 0xF000 || idx = 0xF001))

/-- Whether a swap keeps a write away (R54); swap_command judges its own values. -/
def State.swapKeeps (s : State) (r : ObjRow) (idx : Nat) : Bool := (r.access = .rwm || idx = 0xF001) && s.swapping

/-- The status of a write request, its value apart (R36, R38 to R40, R43, R49, R54, R61): size judges its length; own spares the transfer that
writes. -/
def State.writeStatus (s : State) (n idx sub type : Nat) (own : Bool) (size : ObjRow → Nat) : Nat :=
  match objRow idx sub with
  | none => if objIndexListed idx then 0x02 else 0x01
  | some r => firstStatus [
      (decide (1 < r.wlevel.rank) && !s.secured n, 0x0F), (decide (s.levelAt n < r.wlevel.rank), 0x03), (r.access = .ro, 0x04),
      (type ≠ 0 && type ≠ r.type.code, 0x06), (size r ≠ 0, size r), (!s.acceptsWrites idx, 0x09),
      (needsLock r idx sub && s.get 0xF002 0x01 ≠ n + 1, 0x0E), (s.swapKeeps r idx, 0x08), (!own && s.writeInProgress idx sub, 0x08)]

/-- Whether a listing's value may be shorter than its maximum: a chunk of a load (R447). -/
def ObjRow.varies (r : ObjRow) : Bool := r.access = .wo && r.lo = 0x1060

/-- Length of an expedited write (R43, R44). -/
def expeditedSize (len : Nat) (r : ObjRow) : Nat :=
  if r.varies then (if 8 < len then 0x0D else if len = 0 then 0x06 else 0)
  else if 8 < r.size then 0x0D else if len ≠ r.size then 0x06 else 0

/-- Total of a segmented write (R43, R44). -/
def segmentedSize (len : Nat) (r : ObjRow) : Nat :=
  if 1048576 < len then 0x0D else if r.varies then (if len = 0 then 0x06 else 0) else if len ≠ r.size then 0x06 else 0

/-- An RW object takes a value in range (R36). -/
def State.writeSetting (s : State) (n idx sub v : Nat) : State × Nat :=
  let t := s.put idx sub v
  match idx, sub with
  | 0x1030, _ => (if v = s.get idx sub then t else { t with unacked := t.unacked.filter fun x => x.subscriber + 1 ≠ sub }, 0)
  | 0xF000, 0x01 => if s.swapState = 2 then (s, 0x08) else (t, 0)
  | 0x3000, 0x01 => ({ t with power := { t.power with raised := t.power.raised || decide (s.get idx sub < v) } }, 0)
  | 0x3110, 0x01 => (t.preferRef, 0)
  | 0x3111, 0x01 => (t.showHealth, 0)
  | 0x1040, _ => s.writeCredential sub v
  | 0x1060, _ => s.writeLoadSetting n sub v
  | _, _ => if 0x5100 ≤ idx ∧ idx < 0x5180 then s.writeMonSetting (idx - 0x5100) sub v else (t, 0)

/-- maquette_lock (R49): 1 take, 2 release; lock_holder shows session n as n + 1, since 0 is no holder (R62; DEDUCED, log 95). -/
def State.lockCommand (s : State) (n v : Nat) : State × Nat :=
  let h := s.get 0xF002 0x01
  if h ≠ 0 && h ≠ n + 1 then (s, 0x0E)
  else if v = 1 then (if h = 0 then { s.put 0xF002 0x01 (n + 1) with lockWrite := s.now } else s, 0)
  else (s.put 0xF002 0x01 0, 0)

/-- A CMD write starts its action (R36, R62). -/
def State.command (s : State) (f : Found) (n idx v : Nat) : State × Nat :=
  match idx with
  | 0xF000 => if v = 3 then s.cancelSwap else s.ownerSwap (v = 1)
  | 0xF001 => (s.discardEdits, 0)
  | 0xF002 => s.lockCommand n v
  | 0xF010 => s.acceptReset v (if v = 2 then some f.boot else none)
  | 0xF020 => s.powerRequest v
  | 0x1060 => if v = 1 then s.loadCommit n f.load else s.loadAbort n
  | 0x1061 => s.svnAdvance
  | 0x1070 => s.measureApply
  | 0x1080 => (s.lockDebug, 0)
  | 0x5000 => s.snapshotCommand (v = 2)
  | 0x7010 => s.manualApply n f.ports
  | _ => if 0x5100 ≤ idx ∧ idx < 0x5180 then s.monCommand (idx - 0x5100) v else s.groupRequest ((idx - 0x8000) / 0x80) v

/-- What a write of a value does, its request checked, with the status of its answer (R36, R47). -/
def State.writeObject (s : State) (f : Found) (n idx sub : Nat) (data : Bytes) : State × Nat :=
  match objRow idx sub with
  | none => (s, 0x01)
  | some r =>
    let v := writeMask idx sub (ofLE data)
    match r.access with
    | .ro => (s, 0x04)
    | .rwm => if s.rangeOk idx sub v then (s.maqPut idx sub v, 0) else (s, 0x07)
    | .rw => if s.rangeOk idx sub v then s.writeSetting n idx sub v else (s, 0x07)
    | .wo => if idx = 0x1060 then s.loadChunk n data else s.writeToken data f.token
    | .cmd => if cmdValueOk idx sub v then s.command f n idx v else (s, 0x07)

/-- A write by the lock holder puts off the idle limit of its lock (R62). -/
def State.noteWrite (s : State) (n : Nat) : State := if s.get 0xF002 0x01 = n + 1 then { s with lockWrite := s.now } else s

/-- What an admitted write does, with the status of its answer. -/
def State.applyWrite (s : State) (f : Found) (n idx sub : Nat) (data : Bytes) : State × Nat := (s.noteWrite n).writeObject f n idx sub data

/-- The answer is sent, and then the effect is had (R36): the answer reports what the effect will be. -/
def State.answerThen (s : State) (reply : Nat → State → State) (effect : State → State × Nat) : State :=
  (effect (reply (effect s).2 s)).1

/-! ### Replies -/

/-- Type code of an object, or what the request gave (R42). -/
def typeOf (idx sub type : Nat) : Nat := ((objRow idx sub).map (·.type.code)).getD type

/-- A reply to a request (R42). -/
def replyTo (src : Source) (u : TchUnit) (status param : Nat) (data : Bytes) : TchUnit :=
  let idx := u.index.toNat
  let sub := u.subindex.toNat
  deviceUnit src u.service.toNat u.transaction.toNat status idx sub (typeOf idx sub u.type.toNat) param false data

/-- Refuse a request (R42, R47). -/
def State.refuse (s : State) (src : Source) (u : TchUnit) (status : Nat) : State := s.sendUnit src (replyTo src u status 0 [])

/-! ### Services -/

/-- READ of a value of at most 8 bytes (R43, R44); a value of none is answered with no data (DEDUCED, log 103). -/
def State.serveRead (s : State) (f : Found) (n : Nat) (src : Source) (u : TchUnit) : State :=
  let idx := u.index.toNat
  let sub := u.subindex.toNat
  let st := s.readStatus n idx sub u.type.toNat
  match objRow idx sub with
  | none => s.answer n src u (replyTo src u st 0 [])
  | some r =>
    if st ≠ 0 then s.answer n src u (replyTo src u st 0 [])
    else if 8 < (s.shown r idx sub u.maquette).length then s.answer n src u (replyTo src u 0x0D 0 [])
    else
      let x := s.readObject f r idx sub u.maquette
      x.1.answer n src u (replyTo src u 0 0 x.2)

/-- WRITE of a value of at most 8 bytes (R43, R44). -/
def State.serveWrite (s : State) (f : Found) (n : Nat) (src : Source) (u : TchUnit) : State :=
  let idx := u.index.toNat
  let sub := u.subindex.toNat
  let st := s.writeStatus n idx sub u.type.toNat false (expeditedSize u.data.length)
  if st ≠ 0 then s.answer n src u (replyTo src u st 0 [])
  else s.answerThen (fun st s => s.answer n src u (replyTo src u st 0 [])) fun s => s.applyWrite f n idx sub u.data

/-- Add a transfer to a session. -/
def State.addTransfer (s : State) (n : Nat) (t : Transfer) : State := s.updSession n fun x => { x with transfers := x.transfers ++ [t] }

/-- READ_SEG_INIT: the value as it is now, its size, its first segments (R38, R45). -/
def State.serveReadInit (s : State) (f : Found) (n : Nat) (src : Source) (u : TchUnit) : State :=
  let idx := u.index.toNat
  let sub := u.subindex.toNat
  let st := s.readStatus n idx sub u.type.toNat
  match objRow idx sub with
  | none => s.refuse src u st
  | some r =>
    if st ≠ 0 then s.refuse src u st
    else
      let x := s.readObject f r idx sub u.maquette
      let s := x.1.sendUnit src (replyTo src u 0 x.2.length [])
      if x.2.isEmpty then s
      else (s.addTransfer n { txn := u.transaction.toNat, write := false, index := idx, sub := sub, total := x.2.length, data := x.2
                              next := 0, acked := 0, resends := 0, active := s.now }).pumpRead n u.transaction.toNat 4

/-- WRITE_SEG_INIT (R45). -/
def State.serveWriteInit (s : State) (n : Nat) (src : Source) (u : TchUnit) : State :=
  let idx := u.index.toNat
  let sub := u.subindex.toNat
  let st := s.writeStatus n idx sub u.type.toNat false (segmentedSize u.param.toNat)
  if st ≠ 0 then s.refuse src u st
  else (s.sendUnit src (replyTo src u 0 0 [])).addTransfer n
    { txn := u.transaction.toNat, write := true, index := idx, sub := sub, total := u.param.toNat, data := [], next := 0, acked := 0
      resends := 0, active := s.now }

/-- A unit of the device's own within a transfer. -/
def State.sendIn (s : State) (n : Nat) (t : Transfer) (service status param : Nat) (last : Bool) : State :=
  let src := s.sessionSource n
  s.sendUnit src (deviceUnit src service t.txn status t.index t.sub (typeOf t.index t.sub 0) param last [])

/-- The last segment of a write: the value is applied where all of it has arrived (R45). -/
def State.finishWrite (s : State) (f : Found) (n : Nat) (t : Transfer) : State :=
  let s := s.dropTransfer n t.txn
  let st := if t.data.length ≠ t.total then 0x0A else s.writeStatus n t.index t.sub 0 true fun _ => 0
  let reply (st : Nat) (s : State) : State := s.sendIn n t 0x06 st (t.next - 1) true
  if st ≠ 0 then reply st s else s.answerThen reply fun s => s.applyWrite f n t.index t.sub t.data

/-- SEGMENT of a write (R45). -/
def State.serveSegment (s : State) (f : Found) (n : Nat) (t : Transfer) (u : TchUnit) : State :=
  let s := s.updTransfer n t.txn fun t => { t with active := s.now }
  if u.param.toNat ≠ t.next then (if t.next = 0 then s else s.sendIn n t 0x06 0 (t.next - 1) false)
  else if u.data.isEmpty || (!u.last && u.data.length ≠ 1024) || decide (t.total < t.data.length + u.data.length) then
    (s.dropTransfer n t.txn).sendIn n t 0x07 0x0C 0 false
  else
    let t := { t with data := t.data ++ u.data, next := t.next + 1, active := s.now }
    if u.last then s.finishWrite f n t
    else (s.updTransfer n t.txn fun _ => t).sendIn n t 0x06 0 u.param.toNat false

/-- A unit of a transfer that a session does not have (R47). -/
def State.noTransfer (s : State) (src : Source) (u : TchUnit) : State :=
  s.sendUnit src (deviceUnit src 0x07 u.transaction.toNat 0x0A u.index.toNat u.subindex.toNat u.type.toNat 0 false [])

/-! ### Requests -/

/-- A queued in-band unit is taken up (R38, R308). -/
def State.unqueue (s : State) (src : Source) (txn : BitVec 16) : State :=
  match s.mgmt.find? fun e => e.1 = src && e.2.transaction = txn with
  | some e => { s with mgmt := s.mgmt.erase e }
  | none => s

/-- Whether the boot ROM answers a request in its recovery mode (R421). -/
def romAnswers (service idx : Nat) (data : Bytes) : Bool :=
  let reads := service = 0x01 || service = 0x03
  (reads && decide (0x1000 ≤ idx ∧ idx ≤ 0x1010)) || idx = 0x1060 || (service = 0x02 && idx = 0xF010 && ofLE data = 2)
    || [0x05, 0x06, 0x07].contains service

/-- Header rules of a request (R42, R43): the service whose row it is, no reserved field, LENGTH the data's, PARAM and data only where the
service has them. -/
def headerFits (service : Nat) (u : TchUnit) : Bool :=
  u.version = 1 && u.service.toNat = service && !u.response && u.reserved = 0 && u.length.toNat = u.data.length
    && decide (u.data.length ≤ 1024) && (! [0x01, 0x02, 0x07].contains service || u.param = 0)
    && ([0x02, 0x05].contains service || u.data.isEmpty)

/-- A unit reaches its session (R41, R42, R441): one in clear forms a session where a slot is free; a wrong header is refused. -/
def State.receiveUnit (s : State) (src : Source) (u : TchUnit) (fits : Bool) (act : Nat → State → State) : State :=
  let s := s.unqueue src u.transaction
  if s.silent src || (s.romMode && !romAnswers u.service.toNat u.index.toNat u.data) then s
  else
    let r := s.enter src
    match r.2 with
    | none => if src.env.isSome then s else s.refuse src u 0x08
    | some n =>
      if !fits then r.1.refuse src u 0x0C
      else if u.envelope ≠ src.env.isSome then r.1.refuse src u (if src.env.isSome then 0x0C else 0x0F)
      else act n r.1

/-- A request that opens a transaction (R41, R46): a repeat is answered from the record, or discarded while the original is under way; a 17th
open transaction is refused. Transfers are the transactions that stay open: an expedited request is answered in the row that serves it, and is not
counted while it waits (DEDUCED, log 102). -/
def State.transact (s : State) (n : Nat) (src : Source) (u : TchUnit) (act : State → State) : State :=
  match s.session n with
  | none => s
  | some x =>
    match x.completed.find? fun e => e.1 = u with
    | some e => s.sendUnit src e.2
    | none =>
      match x.transfers.find? fun t => t.txn = u.transaction.toNat with
      | some t => if t.index = u.index.toNat ∧ t.sub = u.subindex.toNat then s else s.refuse src u 0x0A
      | none => if 16 ≤ x.transfers.length then s.refuse src u 0x08 else act s

/-- A request of a service as its bytes arrive; what no byte of it carries is free. -/
def State.request (s : State) (service : Nat) (src : Source) (u : TchUnit) (act : Found → Nat → State → State) : State :=
  let r := s.found
  r.1.receiveUnit src u (headerFits service u) fun n s => s.transact n src u (act r.2 n)

/-- A unit of a session's transfer: of a write for the data of the requester, of a read for its acknowledgements (R45). -/
def State.transferUnit (s : State) (service : Nat) (src : Source) (u : TchUnit) (write : Bool) (act : Found → Nat → Transfer → State → State) :
    State :=
  let r := s.found
  r.1.receiveUnit src u (headerFits service u) fun n s =>
    match s.transfer n u.transaction.toNat with
    | some t => if t.write = write then act r.2 n t s else s.noTransfer src u
    | none => s.noTransfer src u

/-- READ. -/
def readUnit (src : Source) (u : TchUnit) (s : State) : State := s.request 0x01 src u fun f n s => s.serveRead f n src u
/-- WRITE. -/
def writeUnit (src : Source) (u : TchUnit) (s : State) : State := s.request 0x02 src u fun f n s => s.serveWrite f n src u
/-- READ_SEG_INIT. -/
def readInitUnit (src : Source) (u : TchUnit) (s : State) : State := s.request 0x03 src u fun f n s => s.serveReadInit f n src u
/-- WRITE_SEG_INIT. -/
def writeInitUnit (src : Source) (u : TchUnit) (s : State) : State := s.request 0x04 src u fun _ n s => s.serveWriteInit n src u
/-- SEGMENT. -/
def segmentUnit (src : Source) (u : TchUnit) (s : State) : State := s.transferUnit 0x05 src u true fun f n t s => s.serveSegment f n t u
/-- SEG_ACK. -/
def segAckUnit (src : Source) (u : TchUnit) (s : State) : State := s.transferUnit 0x06 src u false fun _ n _ s => s.segAck n u

/-- ABORT: the other end ends a transfer; a write leaves its object (R45). -/
def abortUnit (src : Source) (u : TchUnit) (s : State) : State :=
  s.receiveUnit src u (headerFits 0x07 u) fun n s => s.dropTransfer n u.transaction.toNat

/-- EVENT_ACK (R48). -/
def eventAckUnit (src : Source) (u : TchUnit) (s : State) : State :=
  s.receiveUnit src u (headerFits 0x11 u) fun _ s => s.ackEvent src u.param.toNat

/-! ### Requests for one object -/

/-- The request that a row for one object stands for. -/
def reqUnit (q : Req) (service idx sub : Nat) (data : Bytes) : TchUnit :=
  { version := 1, service := BitVec.ofNat 8 service, transaction := q.txn, status := 0, response := false, maquette := false
    envelope := q.src.env.isSome, last := false, reserved := 0, length := BitVec.ofNat 16 data.length, index := BitVec.ofNat 16 idx
    subindex := BitVec.ofNat 8 sub, type := 0, param := 0, data := data }

/-- Length check of a write of one object, however it travels (R44, R45). -/
def writeSize (len : Nat) (r : ObjRow) : Nat := if len ≤ 8 then expeditedSize len r else segmentedSize len r

/-- The answer to a write of one object: WRITE for a value of at most 8 bytes, otherwise the end of a segmented write (R44, R45). -/
def objectReply (src : Source) (u : TchUnit) (st : Nat) : TchUnit :=
  let idx := u.index.toNat
  let sub := u.subindex.toNat
  if u.data.length ≤ 8 then replyTo src u st 0 []
  else deviceUnit src 0x06 u.transaction.toNat st idx sub (typeOf idx sub 0) ((u.data.length - 1) / 1024) true []

/-- A write of one object by a session (R44, R45). -/
def State.serveObject (s : State) (f : Found) (n : Nat) (src : Source) (u : TchUnit) : State :=
  let idx := u.index.toNat
  let sub := u.subindex.toNat
  let reply (st : Nat) (s : State) : State := s.answer n src u (objectReply src u st)
  let st := s.writeStatus n idx sub 0 false (writeSize u.data.length)
  if st ≠ 0 then reply st s else s.answerThen reply fun s => s.applyWrite f n idx sub u.data

/-- A request to write one object (R34 to R47). -/
def State.writeRow (s : State) (f : Found) (q : Req) (idx sub : Nat) (data : Bytes) : State :=
  let u := reqUnit q 0x02 idx sub data
  s.receiveUnit q.src u true fun n s => s.transact n q.src u fun s => s.serveObject f n q.src u

/-- A request to read one object. -/
def State.readRow (s : State) (f : Found) (q : Req) (service idx sub : Nat) : State :=
  let u := reqUnit q service idx sub []
  s.receiveUnit q.src u true fun n s => s.transact n q.src u fun s =>
    if service = 0x01 then s.serveRead f n q.src u else s.serveReadInit f n q.src u

/-- One of the five manual settings: a write of 0x01 to manual_apply while manual_op names it (R290). -/
def State.manualRow (s : State) (q : Req) (ports op : Nat) : State :=
  if s.get 0x7010 0x02 = op then s.writeRow { ports := ports } q 0x7010 0x04 [1] else s

/-- LOCK_IDLE_TIMEOUT: the holder has not written for lock_idle_limit (R49, R62). -/
def lockIdleTimeout (s : State) : State :=
  if s.get 0xF002 0x01 = 0 then s
  else { s with now := max s.now (s.lockWrite + s.get 0xF002 0x02 * 1000000000) }.put 0xF002 0x01 0

/-- A request for some groups of a core (R206). -/
def State.groupRow (s : State) (q : Req) (c target : Nat) (mask : BitVec 8) : State :=
  s.writeRow {} q (coreObj c + 1) 0x04 [mask, BitVec.ofNat 8 target]

/-! ### Rows -/

def execRead (src : Source) (u : TchUnit) (s : State) : Host.Outcome State Fault Refusal := .next (readUnit src u s)
def execWrite (src : Source) (u : TchUnit) (s : State) : Host.Outcome State Fault Refusal := .next (writeUnit src u s)
def execReadSegInit (src : Source) (u : TchUnit) (s : State) : Host.Outcome State Fault Refusal := .next (readInitUnit src u s)
def execWriteSegInit (src : Source) (u : TchUnit) (s : State) : Host.Outcome State Fault Refusal := .next (writeInitUnit src u s)
def execSegment (src : Source) (u : TchUnit) (s : State) : Host.Outcome State Fault Refusal := .next (segmentUnit src u s)
def execSegAck (src : Source) (u : TchUnit) (s : State) : Host.Outcome State Fault Refusal := .next (segAckUnit src u s)
def execAbort (src : Source) (u : TchUnit) (s : State) : Host.Outcome State Fault Refusal := .next (abortUnit src u s)
def execEventAck (src : Source) (u : TchUnit) (s : State) : Host.Outcome State Fault Refusal := .next (eventAckUnit src u s)
def execRwmWrite (q : Req) (index : BitVec 16) (sub : BitVec 8) (value : Bytes) (s : State) : Host.Outcome State Fault Refusal :=
  .next (s.found.1.writeRow s.found.2 q index.toNat sub.toNat value)
def execObjectWrite (q : Req) (index : BitVec 16) (sub : BitVec 8) (value : Bytes) (s : State) : Host.Outcome State Fault Refusal :=
  .next (s.found.1.writeRow s.found.2 q index.toNat sub.toNat value)
def execMinVoltageRead (q : Req) (module : Bool) (point : BitVec 8) (present : BitVec 32) (s : State) : Host.Outcome State Fault Refusal :=
  .next (s.readRow { present := present.toNat } q 0x03 (if module then 0x3031 else 0x3030) (point.toNat + 1))
def execRxBufferPeakRead (q : Req) (p : PortId) (s : State) : Host.Outcome State Fault Refusal := .next (s.readRow {} q 0x01 (portObj p) 0x08)
def execSwapAtQuiescent (q : Req) (s : State) : Host.Outcome State Fault Refusal := .next (s.writeRow {} q 0xF000 0x00 [1])
def execSwapAtInstant (q : Req) (s : State) : Host.Outcome State Fault Refusal := .next (s.writeRow {} q 0xF000 0x00 [2])
def execSwapCancel (q : Req) (s : State) : Host.Outcome State Fault Refusal := .next (s.writeRow {} q 0xF000 0x00 [3])
def execCopyActiveToMaquette (q : Req) (s : State) : Host.Outcome State Fault Refusal := .next (s.writeRow {} q 0xF001 0x00 [1])
def execMaquetteLockTake (q : Req) (s : State) : Host.Outcome State Fault Refusal := .next (s.writeRow {} q 0xF002 0x00 [1])
def execMaquetteLockRelease (q : Req) (s : State) : Host.Outcome State Fault Refusal := .next (s.writeRow {} q 0xF002 0x00 [2])
def execLockIdleTimeout (s : State) : Host.Outcome State Fault Refusal := .next (lockIdleTimeout s)
def execWarmReset (q : Req) (s : State) : Host.Outcome State Fault Refusal := .next (s.writeRow {} q 0xF010 0x00 [1])
def execColdReset (q : Req) (f : BringUp) (s : State) : Host.Outcome State Fault Refusal := .next (s.writeRow { boot := f } q 0xF010 0x00 [2])
def execRun (q : Req) (s : State) : Host.Outcome State Fault Refusal := .next (s.writeRow {} q 0xF020 0x00 [0])
def execIdle (q : Req) (s : State) : Host.Outcome State Fault Refusal := .next (s.writeRow {} q 0xF020 0x00 [1])
def execRest (q : Req) (s : State) : Host.Outcome State Fault Refusal := .next (s.writeRow {} q 0xF020 0x00 [2])
def execHold (q : Req) (s : State) : Host.Outcome State Fault Refusal := .next (s.writeRow {} q 0xF020 0x00 [3])
def execKeep (q : Req) (s : State) : Host.Outcome State Fault Refusal := .next (s.writeRow {} q 0xF020 0x00 [4])
def execGroupOn (q : Req) (c : CoreId) (mask : BitVec 8) (s : State) : Host.Outcome State Fault Refusal := .next (s.groupRow q c 0 mask)
def execGroupRetention (q : Req) (c : CoreId) (mask : BitVec 8) (s : State) : Host.Outcome State Fault Refusal := .next (s.groupRow q c 1 mask)
def execGroupOff (q : Req) (c : CoreId) (mask : BitVec 8) (s : State) : Host.Outcome State Fault Refusal := .next (s.groupRow q c 2 mask)
def execManualWriteImage (q : Req) (ports : BitVec 5) (s : State) : Host.Outcome State Fault Refusal :=
  .next (s.manualRow q ports.toNat 1)
def execManualAdd (q : Req) (ports : BitVec 5) (s : State) : Host.Outcome State Fault Refusal :=
  .next (s.manualRow q ports.toNat 2)
def execManualSetFlag (q : Req) (ports : BitVec 5) (s : State) : Host.Outcome State Fault Refusal :=
  .next (s.manualRow q ports.toNat 3)
def execManualClearFlag (q : Req) (ports : BitVec 5) (s : State) : Host.Outcome State Fault Refusal :=
  .next (s.manualRow q ports.toNat 4)
def execManualCompleteGeneration (q : Req) (ports : BitVec 5) (s : State) : Host.Outcome State Fault Refusal :=
  .next (s.manualRow q ports.toNat 5)
def execCredentialWrite (q : Req) (k : Fin 8) (value : Bytes) (s : State) : Host.Outcome State Fault Refusal :=
  .next (s.writeRow {} q 0x1040 (k.val + 1) value)
def execLoadChunkWrite (q : Req) (data : Bytes) (s : State) : Host.Outcome State Fault Refusal := .next (s.writeRow {} q 0x1060 0x03 data)
def execLoadCommit (q : Req) (found : LoadCheck) (s : State) : Host.Outcome State Fault Refusal :=
  .next (s.writeRow { load := found } q 0x1060 0x04 [1])
def execLoadAbort (q : Req) (s : State) : Host.Outcome State Fault Refusal := .next (s.writeRow {} q 0x1060 0x04 [2])
def execSvnAdvance (q : Req) (s : State) : Host.Outcome State Fault Refusal := .next (s.writeRow {} q 0x1061 0x02 [1])
def execMeasureApply (q : Req) (s : State) : Host.Outcome State Fault Refusal := .next (s.writeRow {} q 0x1070 0x03 [1])
def execDebugChallengeRead (q : Req) (s : State) : Host.Outcome State Fault Refusal := .next (s.readRow {} q 0x03 0x1080 0x01)
def execDebugTokenWrite (q : Req) (token : Bytes) (found : TokenCheck) (s : State) : Host.Outcome State Fault Refusal :=
  .next (s.writeRow { token := found } q 0x1080 0x02 token)
def execDebugLock (q : Req) (s : State) : Host.Outcome State Fault Refusal := .next (s.writeRow {} q 0x1080 0x05 [1])
def execMonitorSnapshotAll (q : Req) (s : State) : Host.Outcome State Fault Refusal := .next (s.writeRow {} q 0x5000 0x01 [1])
def execMonitorSnapshotClearAll (q : Req) (s : State) : Host.Outcome State Fault Refusal := .next (s.writeRow {} q 0x5000 0x01 [2])
def execMonSnapshot (q : Req) (n : ChannelId) (s : State) : Host.Outcome State Fault Refusal := .next (s.writeRow {} q (monObj n) 0x05 [1])
def execMonSnapshotClear (q : Req) (n : ChannelId) (s : State) : Host.Outcome State Fault Refusal := .next (s.writeRow {} q (monObj n) 0x05 [2])
def execMonClear (q : Req) (n : ChannelId) (s : State) : Host.Outcome State Fault Refusal := .next (s.writeRow {} q (monObj n) 0x05 [3])
def execMonConfigWrite (q : Req) (n : ChannelId) (sub : BitVec 8) (value : Bytes) (s : State) : Host.Outcome State Fault Refusal :=
  .next (s.writeRow {} q (monObj n) sub.toNat value)

end Sys2Proof.Machine
end

