-- ==== Sys2Proof/Machine/Dispatch.lean ====
section
/-! DEFINITION. The dispatch: one arm for each command, one direct call of its meaning. -/

namespace Sys2Proof.Machine

open Sys2Proof

def exec (i : Instr) (s : State) : Host.Outcome State Fault Refusal :=
  match i with
  | .nop c => Sys2Proof.Machine.execNop c s
  | .wait c => Sys2Proof.Machine.execWait c s
  | .signal c => Sys2Proof.Machine.execSignal c s
  | .fence c => Sys2Proof.Machine.execFence c s
  | .stepBegin c => Sys2Proof.Machine.execStepBegin c s
  | .stepCommit c => Sys2Proof.Machine.execStepCommit c s
  | .hint c => Sys2Proof.Machine.execHint c s
  | .timestamp c => Sys2Proof.Machine.execTimestamp c s
  | .endRun c => Sys2Proof.Machine.execEndRun c s
  | .delay c => Sys2Proof.Machine.execDelay c s
  | .loop c => Sys2Proof.Machine.execLoop c s
  | .load c ups => Sys2Proof.Machine.execLoad c ups s
  | .gather c ups => Sys2Proof.Machine.execGather c ups s
  | .store c ups => Sys2Proof.Machine.execStore c ups s
  | .copy c ups => Sys2Proof.Machine.execCopy c ups s
  | .mm c ups => Sys2Proof.Machine.execMm c ups s
  | .mmSeg c ups => Sys2Proof.Machine.execMmSeg c ups s
  | .wload c ups => Sys2Proof.Machine.execWload c ups s
  | .mmW c bad ups => Sys2Proof.Machine.execMmW c bad ups s
  | .accIo c ups => Sys2Proof.Machine.execAccIo c ups s
  | .mmF64 c bad ups => Sys2Proof.Machine.execMmF64 c bad ups s
  | .fuseOut c ups => Sys2Proof.Machine.execFuseOut c ups s
  | .vop c ups => Sys2Proof.Machine.execVop c ups s
  | .vred c ups => Sys2Proof.Machine.execVred c ups s
  | .vtab c ups => Sys2Proof.Machine.execVtab c ups s
  | .send c ups => Sys2Proof.Machine.execSend c ups s
  | .mcast c ups => Sys2Proof.Machine.execMcast c ups s
  | .reduce c ups => Sys2Proof.Machine.execReduce c ups s
  | .rwrite c ups => Sys2Proof.Machine.execRwrite c ups s
  | .rread c ups => Sys2Proof.Machine.execRread c ups s
  | .commandFetch c ups => Sys2Proof.Machine.execCommandFetch c ups s
  | .commandDispatch c => Sys2Proof.Machine.execCommandDispatch c s
  | .commandStart c e => Sys2Proof.Machine.execCommandStart c e s
  | .commandComplete c e => Sys2Proof.Machine.execCommandComplete c e s
  | .passEnd c bad ups => Sys2Proof.Machine.execPassEnd c bad ups s
  | .delayExpiry c => Sys2Proof.Machine.execDelayExpiry c s
  | .waitDeadline c e => Sys2Proof.Machine.execWaitDeadline c e s
  | .wakeNotice c e => Sys2Proof.Machine.execWakeNotice c e s
  | .signalArrival c ports => Sys2Proof.Machine.execSignalArrival c ports s
  | .manualWriteImage q ports => Sys2Proof.Machine.execManualWriteImage q ports s
  | .manualAdd q ports => Sys2Proof.Machine.execManualAdd q ports s
  | .manualSetFlag q ports => Sys2Proof.Machine.execManualSetFlag q ports s
  | .manualClearFlag q ports => Sys2Proof.Machine.execManualClearFlag q ports s
  | .manualCompleteGeneration q ports => Sys2Proof.Machine.execManualCompleteGeneration q ports s
  | .read src u => Sys2Proof.Machine.execRead src u s
  | .write src u => Sys2Proof.Machine.execWrite src u s
  | .readSegInit src u => Sys2Proof.Machine.execReadSegInit src u s
  | .writeSegInit src u => Sys2Proof.Machine.execWriteSegInit src u s
  | .segment src u => Sys2Proof.Machine.execSegment src u s
  | .segAck src u => Sys2Proof.Machine.execSegAck src u s
  | .abort src u => Sys2Proof.Machine.execAbort src u s
  | .eventAck src u => Sys2Proof.Machine.execEventAck src u s
  | .segmentResendTimeout n txn => Sys2Proof.Machine.execSegmentResendTimeout n txn s
  | .transferIdleTimeout n txn => Sys2Proof.Machine.execTransferIdleTimeout n txn s
  | .sessionIdleTimeout n => Sys2Proof.Machine.execSessionIdleTimeout n s
  | .eventResendTimeout k seq => Sys2Proof.Machine.execEventResendTimeout k seq s
  | .rwmWrite q index sub value => Sys2Proof.Machine.execRwmWrite q index sub value s
  | .objectWrite q index sub value => Sys2Proof.Machine.execObjectWrite q index sub value s
  | .minVoltageRead q module point present => Sys2Proof.Machine.execMinVoltageRead q module point present s
  | .rxBufferPeakRead q p => Sys2Proof.Machine.execRxBufferPeakRead q p s
  | .swapAtQuiescent q => Sys2Proof.Machine.execSwapAtQuiescent q s
  | .swapAtInstant q => Sys2Proof.Machine.execSwapAtInstant q s
  | .swapCancel q => Sys2Proof.Machine.execSwapCancel q s
  | .targetAck t kind crcOk => Sys2Proof.Machine.execTargetAck t kind crcOk s
  | .targetAckTimeout => Sys2Proof.Machine.execTargetAckTimeout s
  | .quiescePointReached => Sys2Proof.Machine.execQuiescePointReached s
  | .quiesceTimeout => Sys2Proof.Machine.execQuiesceTimeout s
  | .swapTooLate => Sys2Proof.Machine.execSwapTooLate s
  | .swapInstant => Sys2Proof.Machine.execSwapInstant s
  | .copyActiveToMaquette q => Sys2Proof.Machine.execCopyActiveToMaquette q s
  | .maquetteLockTake q => Sys2Proof.Machine.execMaquetteLockTake q s
  | .maquetteLockRelease q => Sys2Proof.Machine.execMaquetteLockRelease q s
  | .lockIdleTimeout => Sys2Proof.Machine.execLockIdleTimeout s
  | .warmReset q => Sys2Proof.Machine.execWarmReset q s
  | .coldReset q f => Sys2Proof.Machine.execColdReset q f s
  | .resetContact ns => Sys2Proof.Machine.execResetContact ns s
  | .powerOn f => Sys2Proof.Machine.execPowerOn f s
  | .ptpLockWaitExpiry => Sys2Proof.Machine.execPtpLockWaitExpiry s
  | .run q => Sys2Proof.Machine.execRun q s
  | .idle q => Sys2Proof.Machine.execIdle q s
  | .rest q => Sys2Proof.Machine.execRest q s
  | .hold q => Sys2Proof.Machine.execHold q s
  | .keep q => Sys2Proof.Machine.execKeep q s
  | .idleEntry => Sys2Proof.Machine.execIdleEntry s
  | .groupOn q c mask => Sys2Proof.Machine.execGroupOn q c mask s
  | .groupRetention q c mask => Sys2Proof.Machine.execGroupRetention q c mask s
  | .groupOff q c mask => Sys2Proof.Machine.execGroupOff q c mask s
  | .groupDrainEnd c => Sys2Proof.Machine.execGroupDrainEnd c s
  | .groupWakeEnd c => Sys2Proof.Machine.execGroupWakeEnd c s
  | .spScrubInterval c ups => Sys2Proof.Machine.execSpScrubInterval c ups s
  | .spLayoutApply c => Sys2Proof.Machine.execSpLayoutApply c s
  | .coilLinkFail k layer dir position => Sys2Proof.Machine.execCoilLinkFail k layer dir position s
  | .spareSwapDone k layer dir => Sys2Proof.Machine.execSpareSwapDone k layer dir s
  | .dramScrubInterval k ups => Sys2Proof.Machine.execDramScrubInterval k ups s
  | .stackReformatDone k => Sys2Proof.Machine.execStackReformatDone k s
  | .hubReset h cause => Sys2Proof.Machine.execHubReset h cause s
  | .hubResetDone h ok => Sys2Proof.Machine.execHubResetDone h ok s
  | .retryBackoffExpiry r => Sys2Proof.Machine.execRetryBackoffExpiry r s
  | .mirrorResyncDone e => Sys2Proof.Machine.execMirrorResyncDone e s
  | .journalPartitionCopy p => Sys2Proof.Machine.execJournalPartitionCopy p s
  | .flitReceive l dir f => Sys2Proof.Machine.execFlitReceive l dir f s
  | .linkRetryTimeout l dir => Sys2Proof.Machine.execLinkRetryTimeout l dir s
  | .laneRetry l dir wires => Sys2Proof.Machine.execLaneRetry l dir wires s
  | .transactionArrival r => Sys2Proof.Machine.execTransactionArrival r s
  | .armatureResendTimeout r => Sys2Proof.Machine.execArmatureResendTimeout r s
  | .linkDownReport l => Sys2Proof.Machine.execLinkDownReport l s
  | .mcastTimeout c => Sys2Proof.Machine.execMcastTimeout c s
  | .reduceDeadline c => Sys2Proof.Machine.execReduceDeadline c s
  | .laneFail p lane => Sys2Proof.Machine.execLaneFail p lane s
  | .portLinkUp p => Sys2Proof.Machine.execPortLinkUp p s
  | .portDownTimeout p => Sys2Proof.Machine.execPortDownTimeout p s
  | .hostRoleMove => Sys2Proof.Machine.execHostRoleMove s
  | .frameReceive p f => Sys2Proof.Machine.execFrameReceive p f s
  | .pauseReceive p f => Sys2Proof.Machine.execPauseReceive p f s
  | .xoffRefresh p => Sys2Proof.Machine.execXoffRefresh p s
  | .ringStationReset p cause => Sys2Proof.Machine.execRingStationReset p cause s
  | .hello p => Sys2Proof.Machine.execHello p s
  | .helloAck p => Sys2Proof.Machine.execHelloAck p s
  | .close p => Sys2Proof.Machine.execClose p s
  | .ack p => Sys2Proof.Machine.execAck p s
  | .work p => Sys2Proof.Machine.execWork p s
  | .winWrite p ups => Sys2Proof.Machine.execWinWrite p ups s
  | .winReduceFp32 p ups => Sys2Proof.Machine.execWinReduceFp32 p ups s
  | .winReduceInt64 p ups => Sys2Proof.Machine.execWinReduceInt64 p ups s
  | .winReadReq p ups => Sys2Proof.Machine.execWinReadReq p ups s
  | .winReadData p ups => Sys2Proof.Machine.execWinReadData p ups s
  | .winSignal p => Sys2Proof.Machine.execWinSignal p s
  | .winStatus p => Sys2Proof.Machine.execWinStatus p s
  | .mgmt p => Sys2Proof.Machine.execMgmt p s
  | .ctpRtoExpiry n => Sys2Proof.Machine.execCtpRtoExpiry n s
  | .ctpAckTimer n => Sys2Proof.Machine.execCtpAckTimer n s
  | .helloRepeat n => Sys2Proof.Machine.execHelloRepeat n s
  | .closeRepeat n => Sys2Proof.Machine.execCloseRepeat n s
  | .creditProbe n => Sys2Proof.Machine.execCreditProbe n s
  | .xcvrPoll p data => Sys2Proof.Machine.execXcvrPoll p data s
  | .xcvrPresentEdge p present => Sys2Proof.Machine.execXcvrPresentEdge p present s
  | .wearRecordFlush => Sys2Proof.Machine.execWearRecordFlush s
  | .journalWriteDone stream sequence => Sys2Proof.Machine.execJournalWriteDone stream sequence s
  | .journalWriteFail stream sequence => Sys2Proof.Machine.execJournalWriteFail stream sequence s
  | .itemDispatch j => Sys2Proof.Machine.execItemDispatch j s
  | .completionDelivery stream => Sys2Proof.Machine.execCompletionDelivery stream s
  | .intakeRebuild => Sys2Proof.Machine.execIntakeRebuild s
  | .jobCreate => Sys2Proof.Machine.execJobCreate s
  | .jobStart => Sys2Proof.Machine.execJobStart s
  | .jobStop => Sys2Proof.Machine.execJobStop s
  | .jobCheckpoint => Sys2Proof.Machine.execJobCheckpoint s
  | .jobLayout => Sys2Proof.Machine.execJobLayout s
  | .jobDiscard => Sys2Proof.Machine.execJobDiscard s
  | .jobDelete => Sys2Proof.Machine.execJobDelete s
  | .replayRunDone c fault => Sys2Proof.Machine.execReplayRunDone c fault s
  | .coreFence h cause engine => Sys2Proof.Machine.execCoreFence h cause engine s
  | .coreWatchdog c e => Sys2Proof.Machine.execCoreWatchdog c e s
  | .assignmentTestDone h pass => Sys2Proof.Machine.execAssignmentTestDone h pass s
  | .fieldShort h phases amps => Sys2Proof.Machine.execFieldShort h phases amps s
  | .stageFault f => Sys2Proof.Machine.execStageFault f s
  | .vinLow mv => Sys2Proof.Machine.execVinLow mv s
  | .vinHigh mv => Sys2Proof.Machine.execVinHigh mv s
  | .controllerTakeover reason => Sys2Proof.Machine.execControllerTakeover reason s
  | .heartbeatPathLoss ring => Sys2Proof.Machine.execHeartbeatPathLoss ring s
  | .powerPeriod m => Sys2Proof.Machine.execPowerPeriod m s
  | .stepDecision => Sys2Proof.Machine.execStepDecision s
  | .tileStepChange h => Sys2Proof.Machine.execTileStepChange h s
  | .thermalReading h logic stack => Sys2Proof.Machine.execThermalReading h logic stack s
  | .thermalStepWindow h => Sys2Proof.Machine.execThermalStepWindow h s
  | .droopCrossing h => Sys2Proof.Machine.execDroopCrossing h s
  | .undervoltage h => Sys2Proof.Machine.execUndervoltage h s
  | .patinaMeasure h margin => Sys2Proof.Machine.execPatinaMeasure h margin s
  | .energyFlush => Sys2Proof.Machine.execEnergyFlush s
  | .replicaWindow h path slack => Sys2Proof.Machine.execReplicaWindow h path slack s
  | .referenceBad r => Sys2Proof.Machine.execReferenceBad r s
  | .referenceGood r => Sys2Proof.Machine.execReferenceGood r s
  | .timebaseCorrection r => Sys2Proof.Machine.execTimebaseCorrection r s
  | .ppsOut => Sys2Proof.Machine.execPpsOut s
  | .ppsInEdge width => Sys2Proof.Machine.execPpsInEdge width s
  | .ptpMessage p m => Sys2Proof.Machine.execPtpMessage p m s
  | .getVersion src m => Sys2Proof.Machine.execGetVersion src m s
  | .getCapabilities src m => Sys2Proof.Machine.execGetCapabilities src m s
  | .negotiateAlgorithms src m => Sys2Proof.Machine.execNegotiateAlgorithms src m s
  | .getDigests src m => Sys2Proof.Machine.execGetDigests src m s
  | .getCertificate src m => Sys2Proof.Machine.execGetCertificate src m s
  | .challenge src m => Sys2Proof.Machine.execChallenge src m s
  | .getMeasurements src m => Sys2Proof.Machine.execGetMeasurements src m s
  | .keyExchange src m => Sys2Proof.Machine.execKeyExchange src m s
  | .finish src m => Sys2Proof.Machine.execFinish src m s
  | .heartbeat src m => Sys2Proof.Machine.execHeartbeat src m s
  | .keyUpdate src m => Sys2Proof.Machine.execKeyUpdate src m s
  | .endSession src m => Sys2Proof.Machine.execEndSession src m s
  | .credentialWrite q k value => Sys2Proof.Machine.execCredentialWrite q k value s
  | .loadChunkWrite q data => Sys2Proof.Machine.execLoadChunkWrite q data s
  | .loadCommit q found => Sys2Proof.Machine.execLoadCommit q found s
  | .loadAbort q => Sys2Proof.Machine.execLoadAbort q s
  | .svnAdvance q => Sys2Proof.Machine.execSvnAdvance q s
  | .measureApply q => Sys2Proof.Machine.execMeasureApply q s
  | .debugChallengeRead q => Sys2Proof.Machine.execDebugChallengeRead q s
  | .debugTokenWrite q token found => Sys2Proof.Machine.execDebugTokenWrite q token found s
  | .debugLock q => Sys2Proof.Machine.execDebugLock q s
  | .debugUnlockExpiry => Sys2Proof.Machine.execDebugUnlockExpiry s
  | .monitorSnapshotAll q => Sys2Proof.Machine.execMonitorSnapshotAll q s
  | .monitorSnapshotClearAll q => Sys2Proof.Machine.execMonitorSnapshotClearAll q s
  | .snapshotInstantExpiry => Sys2Proof.Machine.execSnapshotInstantExpiry s
  | .monSnapshot q n => Sys2Proof.Machine.execMonSnapshot q n s
  | .monSnapshotClear q n => Sys2Proof.Machine.execMonSnapshotClear q n s
  | .monClear q n => Sys2Proof.Machine.execMonClear q n s
  | .monConfigWrite q n sub value => Sys2Proof.Machine.execMonConfigWrite q n sub value s
  | .monitorWindowEnd n => Sys2Proof.Machine.execMonitorWindowEnd n s
  | .monitorEvent n v stamp => Sys2Proof.Machine.execMonitorEvent n v stamp s
  | .controlQuiesceTimeout => Sys2Proof.Machine.execControlQuiesceTimeout s
  | .vmemVppShort k => Sys2Proof.Machine.execVmemVppShort k s
  | .layerFault k layer cause => Sys2Proof.Machine.execLayerFault k layer cause s
  | .complAddrWriteDone stream sequence => Sys2Proof.Machine.execComplAddrWriteDone stream sequence s
  | .resetLRelease f => Sys2Proof.Machine.execResetLRelease f s
  | .vinRestored mv => Sys2Proof.Machine.execVinRestored mv s
  | .pauseExpiry p => Sys2Proof.Machine.execPauseExpiry p s
  | .monitorWindowStart n => Sys2Proof.Machine.execMonitorWindowStart n s
  | .debugPortAttach => Sys2Proof.Machine.execDebugPortAttach s
  | .spdmHeartbeatTimeout n => Sys2Proof.Machine.execSpdmHeartbeatTimeout n s

end Sys2Proof.Machine
end

