-- ==== Sys2Proof/Machine/Step.lean ====
section
/-! DEFINITION. One step of the block: the command at the front of the queue takes effect; on an empty queue time passes. -/

namespace Sys2Proof.Machine

open Sys2Proof

/-- Put the command that a word spells at the front of the queue. -/
def State.withFetchWord (s : State) (nbits w : Nat) : State :=
  match decodeTableWord nbits w with
  | some c => { s with pending := c :: s.pending }
  | none => s

/-- With no command waiting, the timebase advances by 1 ns (R412; log 1). -/
def idle (s : State) : State := { s with now := s.now + 1 }

/-- One step: the front command with the rest of the queue, or a tick. -/
def step (s : State) : Host.Outcome State Fault Refusal :=
  match s.pending with
  | c :: rest => exec c { s with pending := rest }
  | [] => .next (idle s)

end Sys2Proof.Machine
end

