-- ==== Sys2Proof/Safety.lean ====
section
/-! DEFINITION. What counts as a safe run, every step of it answering a next state; the canonical form that every step keeps; and
the requests that a session admits. -/

namespace Sys2Proof

open Sys2Proof.Machine

/-- n steps from s all answer a next state, and the last one answers t. -/
def runsTo : Nat → State → State → Prop
  | 0, s, t => s = t
  | n + 1, s, t => ∃ u, step s = .next u ∧ runsTo n u t

/-- n steps from s neither fault nor refuse. -/
def safeFor (n : Nat) (s : State) : Prop := ∃ t, runsTo n s t

/-- The canonical form of a state: memory, poison and object images each hold no entry that says what an unlisted place reads as, and the keys
of every table rise strictly, so that what is written at a key is what is read there. -/
structure Canonical (s : State) : Prop where
  mem : Memory.wf s.mem = true
  poison : Tab.wf false s.poison = true
  sync : Tab.wf 0 s.sync = true
  obj : Tab.rising s.obj = true
  maq : Tab.rising s.maq = true
  cores : Tab.rising s.cores = true
  objLog : Tab.rising s.objLog = true
  refusalEvent : Tab.rising s.refusalEvent = true
  streams : Tab.rising s.streams = true
  jobs : Tab.rising s.jobs = true
  sessions : Tab.rising s.sessions = true
  leftOut : Tab.rising s.leftOut = true
  survivors : Tab.rising s.survivors = true
  rowLog : Tab.rising s.rowLog = true
  conns : Tab.rising s.conns = true
  ports : Tab.rising s.ports = true
  hubs : Tab.rising s.hubs = true
  hubResets : Tab.rising s.hubResets = true
  txns : Tab.rising s.txns = true
  links : Tab.rising s.links = true
  arrived : Tab.rising s.arrived = true
  channels : Tab.rising s.channels = true
  tiles : Tab.rising s.tiles = true
  xcvrs : Tab.rising s.xcvrs = true
  monitors : Tab.rising s.monitors = true
  requests : Tab.rising s.requests = true
  remoteOverruns : Tab.rising s.remoteOverruns = true

namespace Machine

/-- The session that a unit of a source reaches, and the state in which it is served. None where nothing answers the source, or where no session
is its own and none is free (R41, R421, R441). -/
def State.reaches (s : State) (src : Source) (u : TchUnit) : Option (Nat × State) :=
  let s := s.unqueue src u.transaction
  if s.silent src || (s.romMode && !romAnswers u.service.toNat u.index.toNat u.data) then none
  else
    let r := s.enter src
    r.2.map fun n => (n, r.1)

/-- Where a request of a source is admitted: it reaches a session, is no repeat and of no transfer under way, and a transaction is free (R41,
R46). -/
def State.admits (s : State) (src : Source) (u : TchUnit) : Option (Nat × State) :=
  (s.reaches src u).filter fun r => match r.2.session r.1 with
    | none => false
    | some x => (x.completed.find? fun e => e.1 = u).isNone && (x.transfers.find? fun t => t.txn = u.transaction.toNat).isNone
        && decide (x.transfers.length < 16)

/-- Where a request to write an object is admitted, and passes every check of R47 but that of its value. -/
def State.admitsWrite (s : State) (q : Req) (idx sub : Nat) (data : Bytes) : Option (Nat × State) :=
  (s.admits q.src (reqUnit q 0x02 idx sub data)).filter fun r => r.2.writeStatus r.1 idx sub 0 false (writeSize data.length) = 0

/-- The state once a request to write an object has been answered with a status, before its effect. -/
def State.replied (s : State) (n : Nat) (q : Req) (idx sub : Nat) (data : Bytes) (status : Nat) : State :=
  let u := reqUnit q 0x02 idx sub data
  (s.answer n q.src u (objectReply q.src u status)).noteWrite n

end Machine

end Sys2Proof
end

