-- ==== Sys2Proof/Certificates/Slice0/Obligations.lean ====
section
/-! DEFINITION. The statements for the provers. -/

open Sys2Proof Sys2Proof.Machine

/-- For every command c, every list of commands behind it and every state s: a step of the state whose queue is c followed by that list is
exec of c on the state whose queue is that list. -/
def Obligations.StepRunsFrontCommand : Prop :=
  ∀ (c : Instr) (rest : List Instr) (s : State),
    step { s with pending := c :: rest } = exec c { s with pending := rest }

/-- The model's choice (log 1): on an empty queue a step answers the same state with its timebase 1 ns later. -/
def Obligations.IdleStepIsOneNanosecond : Prop :=
  ∀ s : State, s.pending = [] → step s = .next { s with now := s.now + 1 }

/-- Every command of the table, with any operands and in every state, answers a next state, and so does every step. -/
def Obligations.EveryCommandAnswersNext : Prop :=
  (∀ (c : Instr) (s : State), ∃ t, exec c s = .next t) ∧ ∀ s : State, ∃ t, step s = .next t

/-- While core c's sequencer holds a started command a of the opcode named: NOP and FENCE only complete; HINT replaces the announcement of
its class (or ends it) and completes; DELAY sets the count of tile cycles that holds dispatch and keeps the sequencer's slot; when the
count has run out, DELAY_EXPIRY clears it, counts the cycles in the core's stalled-cycle counter and completes the DELAY. Nothing else
of the state changes. -/
def Obligations.PlainSequencerCommandsExecute : Prop :=
  ∀ (c : CoreId) (s : State) (i : Nat) (a : Active),
    ((s.core c).working 0 0x00 = some (i, a) →
      exec (.nop c) s = .next (s.setStarted c 0 [{ a with done := true, start := s.now }])) ∧
    ((s.core c).working 0 0x03 = some (i, a) →
      exec (.fence c) s = .next (s.setStarted c 0 [{ a with done := true, start := s.now }])) ∧
    ((s.core c).working 0 0x06 = some (i, a) →
      let w2 := a.q.cmd.word 2
      let w3 := a.q.cmd.word 3
      let start := s.now + bits w3 0 32 * 1000
      let h : Option Hint := if bit w2 2 then none else some ⟨bits w2 8 8, start, start + bits w3 32 32 * 1000⟩
      exec (.hint c) s = .next
        ((s.updCore c fun k => { k with hints := Tab.set none k.hints (bits w2 0 2) h }).setStarted c 0
          [{ a with done := true, start := s.now }])) ∧
    ((s.core c).working 0 0x09 = some (i, a) → a.streamed = 0 →
      exec (.delay c) s = .next
        ((s.updCore c fun k => { k with delay := bits (a.q.cmd.word 2) 0 32 }).setStarted c 0 [{ a with streamed := 1 }])) ∧
    ((s.core c).working 0 0x09 = some (i, a) → a.streamed ≠ 0 →
      exec (.delayExpiry c) s = .next
        (((s.updCore c fun k => { k with delay := 0 }).count (coreObj c) 0x0D 64 (s.core c).delay).setStarted c 0
          [{ a with done := true, start := s.now }]))

/-- While core c's sequencer holds a started LOOP a of level l from 1 to 4 with no slot of greater level held: with its slot empty and COUNT
1 it goes on with the next command; with its slot empty and COUNT greater, and the body not below the run start, it fills the slot with
i = 1 and jumps back BODY commands; owning its slot, it raises i and jumps back, or, when i reaches COUNT, empties the slot and goes on;
with its slot held by another LOOP, with a slot of greater level held (before its own slot is looked at: the model's choice, log 105), or
where the jump would go below the run start, it ends with LOOP_NEST and neither the PC nor any slot changes. In each case the slots of
the other levels keep their values and the sequencer's command is done. -/
def Obligations.LoopRunsItsBodyCountTimes : Prop :=
  ∀ (c : CoreId) (s : State) (i : Nat) (a : Active), Canonical s → (s.core c).working 0 0x0A = some (i, a) →
    let k := s.core c
    let w := a.q.cmd.word 2
    let l := bits w 0 3
    let count := bits w 32 32
    let body := bits w 8 13
    let slot := k.loops.getD (l - 1) {}
    1 ≤ l → l ≤ 4 →
    let inner := ∃ x ∈ k.loops.drop l, x.count ≠ 0
    let fits := k.runStart + 64 * body ≤ a.q.cmd.pc
    (¬ inner → slot.count = 0 → count = 1 → ∃ t, exec (.loop c) s = .next t ∧
      (t.core c).pc = k.pc ∧ (t.core c).loops = k.loops ∧ (t.core c).started 0 = [{ a with done := true, start := s.now }]) ∧
    (¬ inner → slot.count = 0 → count ≠ 1 → fits → ∃ t, exec (.loop c) s = .next t ∧
      (t.core c).pc = a.q.cmd.pc - 64 * body ∧ (t.core c).prefetch = [] ∧
      (∀ m, 1 ≤ m → m ≤ 4 → (t.core c).loops.getD (m - 1) {} = if m = l then ⟨a.q.cmd.pc, count, 1⟩ else k.loops.getD (m - 1) {}) ∧
      (t.core c).started 0 = [{ a with done := true, start := s.now }]) ∧
    (¬ inner → slot.count ≠ 0 → slot.pc = a.q.cmd.pc → slot.i + 1 ≠ slot.count → fits →
      ∃ t, exec (.loop c) s = .next t ∧
      (t.core c).pc = a.q.cmd.pc - 64 * body ∧ (t.core c).prefetch = [] ∧
      (∀ m, 1 ≤ m → m ≤ 4 → (t.core c).loops.getD (m - 1) {} =
        if m = l then { slot with i := slot.i + 1 } else k.loops.getD (m - 1) {}) ∧
      (t.core c).started 0 = [{ a with done := true, start := s.now }]) ∧
    (¬ inner → slot.count ≠ 0 → slot.pc = a.q.cmd.pc → slot.i + 1 = slot.count → ∃ t, exec (.loop c) s = .next t ∧
      (t.core c).pc = k.pc ∧ (t.core c).prefetch = k.prefetch ∧
      (∀ m, 1 ≤ m → m ≤ 4 → (t.core c).loops.getD (m - 1) {} = if m = l then {} else k.loops.getD (m - 1) {}) ∧
      (t.core c).started 0 = [{ a with done := true, start := s.now }]) ∧
    (inner ∨ (slot.count ≠ 0 ∧ slot.pc ≠ a.q.cmd.pc) ∨ (slot.count = 0 ∧ count ≠ 1 ∧ ¬ fits)
        ∨ (slot.count ≠ 0 ∧ slot.i + 1 ≠ slot.count ∧ ¬ fits) → ∃ t, exec (.loop c) s = .next t ∧
      (t.core c).pc = k.pc ∧ (t.core c).loops = k.loops ∧
      (t.core c).started 0 = [a.fail s.now { status := .loopNest }])

/-- While core c's sequencer holds a started WAIT whose condition has not been registered: with v the image of the object it names, on a
core whose object unit is reached, if the condition holds the WAIT is done and nothing else changes; if it does not hold, or the
object's unit cannot be reached, the wait stands with its deadline (TIMEOUT_US of the opcode, or the job's default where that is 0), the
WAIT keeps the sequencer's slot and core_state becomes 2, sequencer waiting; if the kinds differ, the module's count of kind errors
rises and the WAIT ends with SYNC_KIND naming the object. -/
def Obligations.WaitIsMetOutstandingOrOfWrongKind : Prop :=
  ∀ (c : CoreId) (s : State) (i : Nat) (a : Active), (s.core c).working 0 0x01 = some (i, a) → a.streamed = 0 →
    let cmd := a.q.cmd
    let obj := cmd.word 2
    let v := s.syncGet (syncCore obj) (syncIndex obj)
    let up := s.stationUp (syncCore obj)
    let kind := bits (cmd.word 3) 32 2
    let target := bits (cmd.word 3) 0 32
    let us := bits (cmd.word 4) 0 32
    let limit := if us = 0 then s.jobGet (s.core c).job 0x06 * 1000 else us * 1000
    let w : Wait := ⟨c, 0, obj, kind, target, cmd.tag, s.now, s.now + limit, true, none⟩
    (up = true → waitHolds v kind target = some true →
      exec (.wait c) s = .next (s.setStarted c 0 [{ a with done := true, start := s.now }])) ∧
    (up = false ∨ waitHolds v kind target = some false →
      exec (.wait c) s = .next (({ s with waits := s.waits ++ [w] }.setStarted c 0 [{ a with streamed := 1 }]).setCoreState c 2)) ∧
    (up = true → waitHolds v kind target = none →
      exec (.wait c) s = .next ((s.bump 0x7000 0x04).setStarted c 0 [a.fail s.now { status := .syncKind, addr := obj }]))

/-- For every object image v and every target: a counter wait holds exactly when VALUE minus target, as a signed 32-bit number, is at least
0; a barrier wait exactly when GENERATION minus target, as a signed 16-bit number, is at least 0; a flag wait exactly when STATE equals
the target; and a wait whose kind is not the object's holds neither way. -/
def Obligations.WaitTargetsCompareAsSigned : Prop :=
  ∀ (v target : Nat),
    (imgKind v = 0 → waitHolds v 0 target = some (decide (0 ≤ (BitVec.ofNat 32 v - BitVec.ofNat 32 target).toInt))) ∧
    (imgKind v = 1 → waitHolds v 1 target = some (decide (0 ≤ (BitVec.ofNat 16 (bits v 32 16) - BitVec.ofNat 16 target).toInt))) ∧
    (imgKind v = 2 → waitHolds v 2 target = some (decide (v % 2 = target))) ∧
    (∀ kind, imgKind v ≠ kind → waitHolds v kind target = none)

/-- When w is the oldest wake notice for engine e of core c, whose tile no replay has borrowed, and r the state without it: for a WAIT
opcode in the sequencer that is met, core_state goes back from 2 to 1 and the WAIT is done; met for the header wait of an engine, the
command at the head of that engine's queue has its condition met; for an object of another kind, the WAIT, or the command at the head of
the queue, which is taken from it as started, ends with SYNC_KIND naming the object. With no notice for the engine, or while the core is
lent to a replay, nothing changes. -/
def Obligations.WakeNoticeReleasesTheWaiter : Prop :=
  ∀ (c : CoreId) (e : EngineId) (s : State),
    (∀ w, s.lent c = false → (s.wakes.find? fun w => w.core = c.val && w.engine = e.val) = some w →
      let r : State := { s with wakes := s.wakes.erase w }
      let u := if e = 0 then r.seqResume c else r
      (w.opcode = true → ∀ i a, (u.core c).working 0 0x01 = some (i, a) →
        (w.ok = true → exec (.wakeNotice c e) s = .next (u.setStarted c 0 [{ a with done := true, start := u.now }])) ∧
        (w.ok = false → exec (.wakeNotice c e) s
          = .next (u.setStarted c 0 [a.fail u.now { status := .syncKind, addr := w.object }]))) ∧
      (w.opcode = false → w.ok = true →
        exec (.wakeNotice c e) s = .next (u.updHead c e fun q => { q with waitMet := true })) ∧
      (w.opcode = false → w.ok = false → ∀ q rest, (u.core c).queue e = q :: rest →
        exec (.wakeNotice c e) s = .next ((u.popQueue c e).addStarted c e
          (({ q := q } : Active).fail u.now { status := .syncKind, addr := w.object })))) ∧
    (s.lent c = true ∨ (s.wakes.find? fun w => w.core = c.val && w.engine = e.val) = none → exec (.wakeNotice c e) s = .next s)

/-- When w is the oldest outstanding wait of engine e of core c whose clock runs and whose object's unit is reached, and its deadline has
come: the wait is taken away, the 64-byte error record that names the object by address and the waiter by core, engine, tag and PC is
kept among the last 64 timeouts, the module's count of timed-out waits rises by one, and the core stops in error with WAIT_TIMEOUT,
DETAIL 1 for the WAIT opcode and 0 for a header wait; the timeout itself writes no object. With no such wait nothing
changes. -/
def Obligations.WaitDeadlineStopsTheCore : Prop :=
  ∀ (c : CoreId) (e : EngineId) (s : State),
    let due (w : Wait) : Bool := w.core = c.val && w.engine = e.val && w.frozen.isNone && s.stationUp (syncCore w.object)
    (∀ w, s.waits.find? due = some w →
      let s1 : State := { s with now := max s.now w.deadline }
      let cmd := s1.waiter w
      let k := s1.core c
      let detail := if w.opcode then 1 else 0
      let r : ErrInfo := { word := statusWord cmd.opcode detail e cmd.tag 0 0x12, pc := cmd.pc, addr := w.object, stamp := s1.now
                           later := k.laterErrors, header := cmd.word 0 }
      let log := s.timeouts ++ [ofLE (r.bytes c k.job k.openStep)]
      let s2 : State := { s1 with waits := s.waits.erase w, timeouts := log.drop (log.length - 64) }
      let s3 := (s2.bump 0x7000 0x02).seqResume c
      exec (.waitDeadline c e) s = .next (s3.coreError c r false) ∧ s2.sync = s.sync) ∧
    (s.waits.find? due = none → exec (.waitDeadline c e) s = .next s)

/-- In one cycle an object unit takes, of each port chosen, the oldest signal that stands there for core c, applies them in port order,
evaluates the waits on what changed once, and tells each signal's sender its result, whichever ports are chosen. Of one port p, with g
the oldest signal there, sent by a command's header or a SIGNAL opcode and not through a window, while no wait names an object of core
c: a counter add leaves VALUE plus the value modulo 2^32, a flag signal leaves the flag as asked, an arrival leaves the barrier as the
arrival table says; the count of signals applied rises by one, no other object changes, and a SIGNAL opcode that waits for its result is
done. A signal whose kind is not its object's changes no object, and the count of kind errors rises by one; an arrival that overruns is
counted so. Their sender's command fails with SYNC_KIND or BARRIER_OVERRUN. Where nothing stands at the ports nothing changes. -/
def Obligations.SignalArrivalAppliesTheOldestOfAPort : Prop :=
  ∀ (c : CoreId) (ports : BitVec 5) (s : State),
    (let r := s.signalCycle c (setPositions 5 ports.toNat)
     exec (.signalArrival c ports) s = .next (r.2.foldl (fun s x => s.signalResult x.1 x.2) r.1)) ∧
    (∀ (p : Fin 5) (g : Signal), Canonical s → ports = BitVec.ofNat 5 (2 ^ p.val) →
      takeSignal c p s.signals = some g → g.win = none → (∀ w ∈ s.waits, syncCore w.object ≠ c) →
      let v := s.syncGet c g.index
      let y := applySignal v g.kind g.value g.gen
      let u : State := { s with signals := s.signals.erase g }
      let set := (u.syncSet c g.index y.1).logSignal c g.index g.kind g.value g.gen g.tag v
      (imgKind v = 0 → g.kind = 0 → y = ((v + g.value) % 2 ^ 32, .ok)) ∧
      (imgKind v = 1 → g.kind = 1 → y = arrive v g.gen) ∧
      (imgKind v = 2 → g.kind = 2 → y = (2 * 2 ^ 62 + (if g.value = 0 then 0 else 1), .ok)) ∧
      (imgKind v ≠ g.kind → y = (v, .kindError)) ∧
      (set.syncGet c g.index = y.1 ∧ ∀ k, k ≠ syncKey c g.index → Tab.get 0 set.sync k = Tab.get 0 s.sync k) ∧
      (∀ d e cmd, g.source = .header d e cmd →
        (y.2 = .ok → exec (.signalArrival c ports) s = .next (set.bump 0x7000 0x01)) ∧
        (y.2 = .kindError → exec (.signalArrival c ports) s
          = .next ((u.bump 0x7000 0x04).signalFailed d e cmd .syncKind (syncAddr c g.index))) ∧
        (y.2 = .overrun → exec (.signalArrival c ports) s
          = .next ((u.bump 0x7000 0x03).signalFailed d e cmd .barrierOverrun (syncAddr c g.index)))) ∧
      (∀ d i a, g.source = .opcode d →
        (y.2 = .ok → ((set.bump 0x7000 0x01).core d).working 0 0x02 = some (i, a) → exec (.signalArrival c ports) s
          = .next ((set.bump 0x7000 0x01).setStarted d 0 [{ a with done := true, start := set.now }])) ∧
        (y.2 = .kindError → (u.core d).working 0 0x02 = some (i, a) → exec (.signalArrival c ports) s
          = .next ((u.bump 0x7000 0x04).setStarted d 0 [a.fail s.now { status := .syncKind, addr := syncAddr c g.index }])) ∧
        (y.2 = .overrun → (u.core d).working 0 0x02 = some (i, a) → exec (.signalArrival c ports) s
          = .next ((u.bump 0x7000 0x03).setStarted d 0 [a.fail s.now { status := .barrierOverrun, addr := syncAddr c g.index }])))) ∧
    ((∀ p, p < 5 → takeSignal c p s.signals = none) → exec (.signalArrival c ports) s = .next s)

/-- While core c's sequencer holds a started STEP_BEGIN a of number n: with no step open, n above the last committed step, a step area set
and, where the job keeps commit images, a mirror area set, the core's step becomes n and open, its latches become invalid, its flags are
cleared, its areas are taken from the active set, the images of the interval before stay, the record of the step holds where it began,
the job's arith_trap and the count of free values taken so far, and the command is done; with a step open, n not above the committed
step, no step area, or a mirror area that is wanted and not set, the command ends with STEP_STATE and nothing else changes. -/
def Obligations.StepBeginOpensOrRefuses : Prop :=
  ∀ (c : CoreId) (s : State) (i : Nat) (a : Active), (s.core c).working 0 0x04 = some (i, a) →
    let k := s.core c
    let n := a.q.cmd.word 2
    let area := s.get (coreObj c + 2) 0x01
    let mirror := s.get (coreObj c + 2) 0x03
    (k.stepOpen = false → k.committed < n → area ≠ 0 → (s.mirroredCommits k.job = true → mirror ≠ 0) →
      let u := s.updCore c fun k => { k with
        latch := none, step := n, stepOpen := true, flags := 0, stepArea := area
        regionMiB := s.get (coreObj c + 2) 0x02, mirrorArea := mirror
        record := { intervalImages := k.record.intervalImages, fresh := s.fresh, trap := s.get (0x2100 + k.job) 0x01
                    beginAt := { pc := k.pc, runStart := k.runStart, loops := k.loops, step := n
                                 committed := k.committed, groupOps := k.groupOps } } }
      exec (.stepBegin c) s = .next ({ u with fresh := s.fresh + 1 }.setStarted c 0 [{ a with done := true, start := s.now }])) ∧
    (k.stepOpen = true ∨ n ≤ k.committed ∨ area = 0 ∨ (s.mirroredCommits k.job = true ∧ mirror = 0) →
      exec (.stepBegin c) s = .next (s.setStarted c 0 [a.fail s.now { status := .stepState }]))

/-- While core c's sequencer holds a started STEP_COMMIT a and no replay of the core is under way: where no step is open or the number is not
the open step's, it ends with STEP_STATE; where the step stored poison, the step is undone and the core stops; where the step is
suspect, or the audit sampler's free draw chooses it (log 4), or it is to be replayed again, it stays open and a replay of the core is
put in line; else the step closes, the committed step becomes its number, the core's resume point is where it stands with that commit,
its interval number rises by one, its record is emptied, and the command is done; the PC, loop slots, queues and flags of the core,
every other core, every object and every item keep their values. While a replay of the core is under way nothing changes. -/
def Obligations.StepCommitClosesTheStep : Prop :=
  ∀ (c : CoreId) (s : State) (i : Nat) (a : Active), Canonical s → (s.core c).working 0 0x05 = some (i, a) →
    let k := s.core c
    let drawn := Config.auditDraw s.fresh % s.get 0x4400 0x01 = 0
    let u : State := { s with fresh := s.fresh + 1 }
    ((∃ r ∈ s.replays, r.core = c) → exec (.stepCommit c) s = .next s) ∧
    ((∀ r ∈ s.replays, r.core ≠ c) →
      (k.stepOpen = false ∨ a.q.cmd.word 2 ≠ k.step →
        exec (.stepCommit c) s = .next (s.setStarted c 0 [a.fail s.now { status := .stepState }])) ∧
      (k.stepOpen = true → a.q.cmd.word 2 = k.step →
        (k.record.poisonStored = true → exec (.stepCommit c) s = .next (s.poisonCommit c a)) ∧
        (k.record.poisonStored = false → k.record.suspect = true → exec (.stepCommit c) s = .next (s.queueReplay c)) ∧
        (k.record.poisonStored = false → k.record.suspect = false → drawn → exec (.stepCommit c) s
          = .next ((u.updCore c fun k => { k with record := { k.record with suspectAudit := true } }).queueReplay c)) ∧
        (k.record.poisonStored = false → k.record.suspect = false → ¬ drawn → k.again = some k.step →
          exec (.stepCommit c) s = .next (u.queueReplay c)) ∧
        (k.record.poisonStored = false → k.record.suspect = false → ¬ drawn → k.again ≠ some k.step →
          ∃ t, exec (.stepCommit c) s = .next t ∧
            (t.core c).stepOpen = false ∧ (t.core c).committed = k.step ∧ (t.core c).interval = k.interval + 1 ∧
            (t.core c).commit = some { k.resumePoint with committed := k.step } ∧ (t.core c).record = {} ∧
            (t.core c).started 0 = [{ a with done := true, start := s.now }] ∧
            (t.core c).pc = k.pc ∧ (t.core c).loops = k.loops ∧ (t.core c).queues = k.queues ∧ (t.core c).flags = k.flags ∧
            (∀ d, d ≠ c.val → t.core d = s.core d) ∧ t.sync = s.sync ∧ t.items = s.items)))

/-- While core c's sequencer holds a started END a: with no step open and no item running on the core, the core becomes idle with nothing
prefetched and no hint standing, and the command is done; where the core runs item (stream, sequence), whose completion record has not
been formed, that item first goes to DONE with RESULT 0 and a completion record that carries the core's accumulated flags, 128 bytes more of the journal counted (while the
intake rebuilds the record waits with it); with a step open the command ends with STEP_STATE and nothing else changes. -/
def Obligations.EndCompletesTheItemOrRefuses : Prop :=
  ∀ (c : CoreId) (s : State) (i : Nat) (a : Active), (s.core c).working 0 0x08 = some (i, a) →
    let k := s.core c
    let idle (u : State) : State :=
      ((u.updCore c fun k => { k with item := none, prefetch := [], hints := [] }).setCoreState c 0)
    (k.stepOpen = false → k.item = none →
      exec (.endRun c) s = .next ((idle s).setStarted c 0 [{ a with done := true, start := (idle s).now }])) ∧
    (∀ st seq it, k.stepOpen = false → k.item = some (st, seq) → s.findItem st seq = some it → s.recordFormed it = false →
      let r := s.completionRecord it 0 0 k.flags
      (s.intake.rebuilding = false →
        let u := (s.journal st seq 128).updItem st seq fun x => { x with state := 3, completion := r }
        exec (.endRun c) s = .next ((idle u).setStarted c 0 [{ a with done := true, start := (idle u).now }])) ∧
      (s.intake.rebuilding = true →
        let u : State := { s with intake := { s.intake with formed := s.intake.formed ++ [(st, seq, r)] } }
        exec (.endRun c) s = .next ((idle u).setStarted c 0 [{ a with done := true, start := (idle u).now }]))) ∧
    (k.stepOpen = true → exec (.endRun c) s = .next (s.setStarted c 0 [a.fail s.now { status := .stepState }]))

/-- While core c's sequencer holds a started TIMESTAMP a whose destination d lies in a scratchpad, aligned to 16 bytes, with no place of it
away and u the state in which its request is performed (which differs from s in neither memory, cores nor time): where the core may
reach d, no execute command reserves a byte of it and there is room for the page's image, afterwards the 8 bytes at d spell the timebase
and the 8 bytes after them the core's accumulated flags, every address that is not served from those 16 bytes reads as before, and the
command is done. -/
def Obligations.TimestampWritesSixteenBytes : Prop :=
  ∀ (c : CoreId) (s : State) (i : Nat) (a : Active), Canonical s → (s.core c).working 0 0x07 = some (i, a) →
    let d := a.q.cmd.word 2
    let u := s.requestDone c 0 (s.places [] [d])
    s.awayPlace c (s.places [] [d]) = none → spaceOf d = 1 → d % 16 = 0 → u.accessStatus c d = (.ok, 0) → u.reservedBy none d 16 = none →
    (u.imagePage c (d / 4096 * 4096)).isSome →
    u.mem = s.mem ∧ u.cores = s.cores ∧ u.now = s.now ∧
    ∃ t, exec (.timestamp c) s = .next t ∧
      t.readBytes d 16 = toLE 8 (s.now % 2 ^ 64) ++ toLE 8 (s.core c).flags ∧
      (∀ b, (∀ k, k < 16 → u.served b ≠ some (d + k)) → t.readByte b = u.readByte b) ∧
      (t.core c).started 0 = [{ a with done := true, start := s.now }]

/-- For a core that runs, with fewer than 128 commands prefetched and no failed fetch among them, whose next command's address pc is not
away: the upsets that its read finds are taken first; when the checks on pc then pass, the 64 bytes there are counted as read and join
the prefetched commands as eight little-endian words with their address; when a check fails, the failure joins them, or stops the core
at once where nothing waits before it. With 128 commands prefetched, a failed fetch among them, or a core that does not run, nothing
changes at all. -/
def Obligations.CommandFetchAppendsToPrefetch : Prop :=
  ∀ (c : CoreId) (s : State) (ups : List Upset),
    let k := s.core c
    let pc := (k.pc + 64 * k.prefetch.length) % 2 ^ 64
    let xs := s.places (if 2 ≤ spaceOf pc then [] else [pc]) []
    (k.runs = true → k.prefetch.length < 128 → (∀ x ∈ k.prefetch, x.status = 0) → s.awayPlace c xs = none →
      let u := (s.requestDone c fetchPort xs).takeUpsets c [(pc, 64)] ups
      (u.fetchStatus c k.job pc = (.ok, 0) →
        let cmd : Cmd := ⟨pc, (List.range 8).map fun i => leAt (u.readBytes pc 64) (8 * i) 8, 0⟩
        exec (.commandFetch c ups) s = .next ((u.countRead pc 64).updCore c fun k => { k with prefetch := k.prefetch ++ [cmd] })) ∧
      (∀ st d, u.fetchStatus c k.job pc = (st, d) → st ≠ .ok →
        exec (.commandFetch c ups) s = .next (u.prefetched c { pc := pc, status := st.code + d * 256 }))) ∧
    (k.runs = false ∨ 128 ≤ k.prefetch.length ∨ (∃ x ∈ k.prefetch, x.status ≠ 0) → exec (.commandFetch c ups) s = .next s)

/-- For a core whose sequencer may dispatch, with cmd the next fetched command, of an opcode of engine e and a header that breaks no rule:
where the queue of e is not full (or e is the sequencer), cmd leaves the prefetched commands, joins the end of e's queue with the four
loop indices and the counts of commands dispatched before it, the PC stands after it, and e's count of dispatched commands rises by one;
where the queue holds 256 commands only the core's count of stalled dispatches rises. An unknown opcode, a broken header or a fetch that
failed stops the core before the command starts. With nothing fetched, or while the sequencer may not dispatch, nothing changes. -/
def Obligations.CommandDispatchQueuesOrStalls : Prop :=
  ∀ (c : CoreId) (s : State),
    let k := s.core c
    (∀ cmd rest, k.mayDispatch = true → k.prefetch = cmd :: rest → cmd.status = 0 →
      (∀ e, engineOf cmd.opcode = some e → cmd.headerFault = none →
        (e = 0 ∨ (k.queue e).length < 256 →
          let q : Queued := { cmd := cmd, loops := (List.range 4).map fun i => (k.loops.getD i {}).i, before := (List.range 6).map k.sent }
          exec (.commandDispatch c) s = .next (s.setCore c { k with
            prefetch := rest, pc := cmd.pc + 64, queues := Tab.set [] k.queues e (k.queue e ++ [q])
            dispatched := Tab.upd 0 k.dispatched e (· + 1) })) ∧
        (e ≠ 0 → 256 ≤ (k.queue e).length → exec (.commandDispatch c) s = .next (s.bump (coreObj c) 0x09))) ∧
      (engineOf cmd.opcode = none → exec (.commandDispatch c) s = .next (s.stopAtHeader c cmd 0x01 0)) ∧
      (∀ e w, engineOf cmd.opcode = some e → cmd.headerFault = some w →
        exec (.commandDispatch c) s = .next (s.stopAtHeader c cmd 0x02 w))) ∧
    (∀ cmd rest, k.mayDispatch = true → k.prefetch = cmd :: rest → cmd.status ≠ 0 →
      exec (.commandDispatch c) s = .next (s.stopAtHeader c cmd (cmd.status % 256) (cmd.status / 256))) ∧
    (k.mayDispatch = false ∨ k.prefetch = [] → exec (.commandDispatch c) s = .next s)

/-- For a core that runs with q at the head of engine e's queue, room in the engine and both tokens, the fence where it carries one, and the
header wait satisfied: q leaves the queue and is started, with the slots, segment entries and reserved ranges its checks read; a start
of MM, MM_SEG, ACC_IO or MM_F64 invalidates the latches, and one that streams the arrays leaves Idle; where a check fails, the command
is started as ended in error with that check's status, a closed bank group counted. A header wait tested for the first time starts q in
the same way where its condition holds; where it does not, it stands with the job's default limit, and the sequencer's core_state
becomes 2; where the kinds differ, q is started as ended in error with SYNC_KIND. While a token or the fence is not met, the engine has
no room, or the wait stands unmet, nothing changes. -/
def Obligations.CommandStartTestsThenStarts : Prop :=
  ∀ (c : CoreId) (e : EngineId) (s : State) (q : Queued) (rest : List Queued),
    let k := s.core c
    let op := q.cmd.opcode
    let ready := k.runs = true ∧ k.hasRoom e = true ∧ k.tokenMet q 48 = true ∧ k.tokenMet q 54 = true
      ∧ (q.cmd.fences = true → k.fenceMet q = true)
    let a : Active := { q := q, start := s.now, trap := s.get (0x2100 + k.job) 0x01
                        deadline := if op = 0x51 ∨ op = 0x52 then some (s.now + s.jobGet k.job 0x06 * 1000) else none }
    let s1 := s.popQueue c e
    k.queue e = q :: rest →
    (ready → (q.cmd.waitEn = true → q.waitMet = true) →
      (∀ u, s1.checkCommand c k.job q.loops q.cmd = .ok u →
        let s2 := if op ∈ [0x20, 0x21, 0x24, 0x25] then s1.updCore c fun k => { k with latch := none } else s1
        let s3 := if op ∈ [0x20, 0x21, 0x23, 0x25] then s2.leaveIdle else s2
        exec (.commandStart c e) s = .next
          (s3.addStarted c e { a with slots := (s3.slots c).keep u.slots, segments := u.segments, reserved := u.reserved })) ∧
      (∀ err, s1.checkCommand c k.job q.loops q.cmd = .error err →
        exec (.commandStart c e) s = .next ((s1.countClosed err.addr err.status).addStarted c e (a.fail s.now err)))) ∧
    (ready → q.cmd.waitEn = true → q.waitMet = false → q.waiting = false →
      let h := q.cmd.word 0
      let oc := s.headerCore c (bit h 12)
      let obj := syncAddr oc (bits h 32 14)
      let w : Wait := ⟨c, e, obj, bits h 46 2, bits (q.cmd.word 1) 0 32, q.cmd.tag, s.now, s.now + s.jobGet k.job 0x06 * 1000, false, none⟩
      let q' : Queued := { q with waiting := true, waitMet := true }
      (∀ u, s.registerWait w = (u, some true) →
        exec (.commandStart c e) s = .next ((u.updHead c e fun q => { q with waiting := true, waitMet := true }).startHead c e q')) ∧
      (∀ u, s.registerWait w = (u, some false) →
        let v := u.updHead c e fun q => { q with waiting := true }
        exec (.commandStart c e) s = .next (if e = 0 then v.setCoreState c 2 else v)) ∧
      (∀ u, s.registerWait w = (u, none) →
        exec (.commandStart c e) s
          = .next ((u.popQueue c e).addStarted c e (({ q := q } : Active).fail u.now { status := .syncKind, addr := obj })))) ∧
    (k.runs = false ∨ k.hasRoom e = false ∨ k.tokenMet q 48 = false ∨ k.tokenMet q 54 = false
      ∨ (q.cmd.fences = true ∧ k.fenceMet q = false) ∨ (q.cmd.waitEn = true ∧ q.waitMet = false ∧ q.waiting = true) →
      exec (.commandStart c e) s = .next s)

/-- With a the oldest started command of engine e of core c: when a is done with status OK it leaves the engine, the engine's count of
completed commands and the step's and the core's counts rise by one, its arithmetic flags join the core's, and its header signal, where
it carries one, is sent to the object of this core or of the lead, with what its kind adds; when a is done in error on a core that runs,
the core stops with the error record that names a, the errors of other commands met by then counted in it, or, for an RWRITE that
withheld poison, the job ends for its egress; when a is done in error on a core that has stopped, it leaves the engine and is counted as
a later error. A job that goes on after an error starts again once its last core has so stopped. While a is not done, and with no command
started, nothing changes. -/
def Obligations.CommandCompleteCountsOrStopsTheCore : Prop :=
  ∀ (c : CoreId) (e : EngineId) (s : State),
    let k := s.core c
    (k.started e = [] → exec (.commandComplete c e) s = .next s) ∧
    (∀ a rest, k.started e = a :: rest →
      let left := s.updCore c fun k => { k with active := Tab.set [] k.active e rest }
      let ok := (s.updCore c fun k => { k with
          active := Tab.set [] k.active e rest, completed := Tab.upd 0 k.completed e (· + 1)
          flags := ((ArithFlags.ofByte k.flags).or (ArithFlags.ofByte a.flags)).byte
          record := { k.record with completed := k.record.completed + 1 } }).bump (coreObj c) 0x08
      let h := a.q.cmd.word 0
      let kind := bits h 62 2
      let r := errOf e a.q.cmd a a.start (k.laterErrors - 1)
      (a.done = false → exec (.commandComplete c e) s = .next s) ∧
      (a.done = true → a.status = 0 → a.q.cmd.signalEn = false → exec (.commandComplete c e) s = .next (ok.settleStop k.job)) ∧
      (a.done = true → a.status = 0 → a.q.cmd.signalEn = true → exec (.commandComplete c e) s
        = .next ((ok.sendSignal c (ok.headerCore c (bit h 13)) (bits h 48 14) kind (if kind = 0 then bits (a.q.cmd.word 1) 32 16 else 1)
            (if kind = 1 then some (ok.core c).expectedGen else none) (.header c e a.q.cmd)
            (some (if a.q.cmd.opcode = 0x05 then (c.val, (ok.core c).interval - 1) else ok.tagOf c)) none).settleStop k.job)) ∧
      (a.done = true → a.status ≠ 0 → k.runs = false →
        exec (.commandComplete c e) s = .next ((left.laterError c).settleStop k.job)) ∧
      (a.done = true → a.status ≠ 0 → k.runs = true → ¬ (a.q.cmd.opcode = 0x53 ∧ a.status = 0x0E ∧ a.desc = 0xFFFF) →
        exec (.commandComplete c e) s = .next (s.coreError c r false)) ∧
      (a.done = true → k.runs = true → a.q.cmd.opcode = 0x53 → a.status = 0x0E → a.desc = 0xFFFF →
        exec (.commandComplete c e) s = .next (s.egressByCommand c 1 r))) ∧
    (∀ (u : State) (j : Nat), (u.job j).freshAtStop = false → u.settleStop j = u)

/-- While core c has a started LOAD, STORE, COPY (access engine) or SEND (transfer engine) with source src and destination dst, none of the
places they reach away: the request is performed and what its reads find is taken (SEND: the message's CRC is kept and another core
marked as written), then the tensor is copied run by run, in ascending order of dimensions 3, 2 and 1, then what its writes meet is
taken. When no piece is refused, the command is done with every effect the copy's, OK, or POISON where a run held poison and the command
does not allow it; when a piece is refused, the command is done with that piece's status, detail and address, and what was copied before
it stays. -/
def Obligations.AccessCommandsCopyThenEnd : Prop :=
  ∀ (c : CoreId) (s : State) (ups : List Upset) (i : Nat) (a : Active) (src dst : Tensor),
    a.tensor (a.q.cmd.desc 0) = some src → a.tensor (a.q.cmd.desc 12) = some dst →
    s.awayPlace c (s.places [src.base] [dst.base]) = none →
    (let u := (s.requestDone c 1 (s.places [src.base] [dst.base])).takeUpsets c src.spans ups
     let r := u.moveTensor c 1 a.q src dst
     let t := r.1.writeUpsets dst.spans ups
     let flags : ArithFlags := { poison := r.2.2 }
     (r.2.1 = none →
       ((s.core c).working 1 0x10 = some (i, a) → exec (.load c ups) s = .next (t.putActive c 1 i (a.finish t.now flags))) ∧
       ((s.core c).working 1 0x13 = some (i, a) → exec (.store c ups) s = .next (t.putActive c 1 i (a.finish t.now flags))) ∧
       ((s.core c).working 1 0x14 = some (i, a) → exec (.copy c ups) s = .next (t.putActive c 1 i (a.finish t.now flags)))) ∧
     (∀ err, r.2.1 = some err →
       let b : Active := { a with flags := ((ArithFlags.ofByte a.flags).or flags).byte }
       ((s.core c).working 1 0x10 = some (i, a) → exec (.load c ups) s = .next (t.putActive c 1 i (b.refuse t.now err))) ∧
       ((s.core c).working 1 0x13 = some (i, a) → exec (.store c ups) s = .next (t.putActive c 1 i (b.refuse t.now err))) ∧
       ((s.core c).working 1 0x14 = some (i, a) → exec (.copy c ups) s = .next (t.putActive c 1 i (b.refuse t.now err))))) ∧
    ((s.core c).working 5 0x50 = some (i, a) →
      let u := (s.requestDone c 5 (s.places [src.base] [dst.base])).takeUpsets c src.spans ups
      let r := ((u.noteMessage c a.q (u.imageOf src)).markForeign c dst.base).moveTensor c 5 a.q src dst
      let t := r.1.writeUpsets dst.spans ups
      (r.2.1 = none → exec (.send c ups) s = .next (t.putActive c 5 i (a.finish t.now { poison := r.2.2 }))) ∧
      (∀ err, r.2.1 = some err → exec (.send c ups) s = .next (t.putActive c 5 i
        (({ a with flags := ((ArithFlags.ofByte a.flags).or { poison := r.2.2 }).byte } : Active).refuse t.now err))))

/-- While core c has a started GATHER with source src, destination dst and row index list, none of the places they reach away: where the
list may not be read, the command is refused so. Else let the good rows be those before the first list entry that is negative or at or
beyond the source's DIM1. The good rows are copied in order. If none is refused and every entry was good, the command is done, OK or
POISON; if none is refused and entry n was bad, the command is done with ADDR_RANGE naming list entry FIRST + n, the rows before it
written; if a piece is refused, the command is done with that status. -/
def Obligations.GatherCopiesTheListedRows : Prop :=
  ∀ (c : CoreId) (s : State) (ups : List Upset) (i : Nat) (a : Active) (src dst list : Tensor),
    (s.core c).working 1 0x11 = some (i, a) → a.tensor (a.q.cmd.desc 0) = some src → a.tensor (a.q.cmd.desc 12) = some dst →
    a.tensor (a.q.cmd.desc 24) = some list → s.awayPlace c (s.places [src.base, list.base] [dst.base]) = none →
    let s0 := s.requestDone c 1 (s.places [src.base, list.base] [dst.base])
    let first := bits (a.q.cmd.word 3) 0 32
    let listed := ((list.elemPlace { i0 := first }).1, 4 * bits (a.q.cmd.word 3) 32 32)
    (∀ err, s0.readErr c listed.1 listed.2 = some err →
      exec (.gather c ups) s = .next ((s0.countClosed err.addr err.status).putActive c 1 i (a.refuse s0.now err))) ∧
    (s0.readErr c listed.1 listed.2 = none →
      let u := (s0.countRead listed.1 listed.2).takeUpsets c (listed :: src.spans) ups
      let free := u.openKey c a.q (src.overlaps dst)
      let rows := (List.range (bits (a.q.cmd.word 3) 32 32)).map fun n =>
        (n, u.listEntry list (first + n), u.elemPoison list { i0 := first + n })
      let ok := rows.takeWhile fun x => decide (0 ≤ x.2.1 ∧ x.2.1 < (src.dim 1 : Int))
      let r := eachUntil (fun s x => s.moveRun c 1 free x.2.2 src dst { i1 := x.2.1.toNat } { i1 := x.1 }) ok u
      let t := (r.1.writeUpsets dst.spans ups).useKey free
      let poison := rows.any (·.2.2) || ok.any fun x => u.runPoison src { i1 := x.2.1.toNat }
      (r.2 = none → rows.drop ok.length = [] →
        exec (.gather c ups) s = .next (t.putActive c 1 i (a.finish t.now { poison := poison }))) ∧
      (∀ x xs, r.2 = none → rows.drop ok.length = x :: xs →
        exec (.gather c ups) s = .next (t.putActive c 1 i (a.fail t.now { status := .addrRange, entry := first + x.1 }))) ∧
      (∀ err, r.2 = some err → exec (.gather c ups) s = .next (t.putActive c 1 i
        (({ a with flags := ((ArithFlags.ofByte a.flags).or { poison := poison }).byte } : Active).refuse t.now err))))

/-- While core c has the command started, its operands read and none of the places they reach away: FUSE_OUT, VOP and VRED compute each run of
the destination from the sources as they then stand and write it; with no read or write refused the command is done with the flags
raised (POISON where an element was poisoned and the command does not allow it, ARITH_TRAP where a trapped flag was raised). VTAB
writes, run by run, the elements the index tensor names, and is done likewise, or with ADDR_RANGE at the first index outside the table.
Where a read or a write is refused the command is done with that status and the flags of what it did. -/
def Obligations.ComputingCommandsWriteThenEnd : Prop :=
  ∀ (c : CoreId) (s : State) (ups : List Upset) (i : Nat) (a : Active),
    let cmd := a.q.cmd
    let w := cmd.word 2
    let kept (fl : ArithFlags) : Active := { a with flags := ((ArithFlags.ofByte a.flags).or fl).byte }
    (∀ src dst fu, (s.core c).working 3 0x30 = some (i, a) → a.tensor (cmd.desc 0) = some src → a.tensor (cmd.desc 12) = some dst →
      readFusion a.slotView a.q.loops (cmd.desc 24) = .ok fu →
      let xs := s.places ((src :: fu.tensors).map (·.base)) [dst.base]
      let u := (s.requestDone c 3 xs).readRanges c (src.spans ++ fu.reads) ups
      let tab := ((fu.table.map fun t => u.tableEntries t)).getD []
      let fp := u.fusionPoison fu
      let r := u.putComputed c 3 dst fu.setting.round fu.setting.sat (u.openKey c a.q (src.overlaps dst)) src.runSpans fun s k =>
        (List.range (dst.dim 0)).map fun e =>
          let y := s.fuseElem fu tab src { k with i0 := e }
          { value := y.1, flags := y.2, poison := fp || s.elemPoison src { k with i0 := e } }
      let t := r.1.writeUpsets dst.spans ups
      let fl := { r.2.2 with poison := r.2.2.poison || fp }
      s.awayPlace c xs = none →
      (u.fusionErr c fu = none → r.2.1 = none → exec (.fuseOut c ups) s = .next (t.putActive c 3 i (a.finish t.now fl))) ∧
      (∀ err, u.fusionErr c fu = none → r.2.1 = some err → exec (.fuseOut c ups) s = .next (t.putActive c 3 i ((kept fl).refuse t.now err))) ∧
      (∀ err, u.fusionErr c fu = some err → exec (.fuseOut c ups) s = .next (u.refuseRead c 3 i a err))) ∧
    (∀ s0 dst d, (s.core c).working 4 0x40 = some (i, a) → a.tensor (cmd.desc 0) = some s0 → a.tensor (cmd.desc 36) = some dst →
      Domain.ofField (bits w 54 2) = some d →
      let s1 := a.tensor (cmd.desc 12)
      let s2 := a.tensor (cmd.desc 24)
      let imm := if (vecSources 0x40 (bits w 48 6)).1 then d.immediate (cmd.word 3) else (.int 0, {})
      let srcs := [s0] ++ s1.toList ++ s2.toList
      let xs := s.places (srcs.map (·.base)) [dst.base]
      let u := (s.requestDone c 4 xs).readRanges c (srcs.flatMap Tensor.spans) ups
      let r := u.putComputed c 4 dst cmd.vecRound (bit w 58) (u.openKey c a.q (srcs.any fun t => t.clash dst))
        (fun k => srcs.flatMap fun t => t.runSpans (t.broadcast k)) fun s k =>
        (List.range (dst.dim 0)).map fun e => s.vopElem d (bits w 48 6) s0 s1 s2 imm { k with i0 := e }
      let t := r.1.writeUpsets dst.spans ups
      s.awayPlace c xs = none →
      (r.2.1 = none → exec (.vop c ups) s = .next (t.putActive c 4 i (a.finish t.now r.2.2))) ∧
      (∀ err, r.2.1 = some err → exec (.vop c ups) s = .next (t.putActive c 4 i ((kept r.2.2).refuse t.now err)))) ∧
    (∀ src dst d, (s.core c).working 4 0x41 = some (i, a) → a.tensor (cmd.desc 0) = some src → a.tensor (cmd.desc 36) = some dst →
      Domain.ofField (bits w 54 2) = some d →
      let xs := s.places [src.base] [dst.base]
      let u := (s.requestDone c 4 xs).readRanges c src.spans ups
      let r := u.putComputed c 4 dst cmd.vecRound (bit w 58) (u.openKey c a.q (src.clash dst)) src.runSpans fun s k =>
        let idx := (List.range (src.dim 0)).map fun e => { k with i0 := e }
        match d.reduce (bits w 48 6) (idx.map (s.vecElem d src)) with
        | some y => [{ value := y.1.num, flags := y.2, poison := idx.any (s.elemPoison src) }]
        | none => []
      let t := r.1.writeUpsets dst.spans ups
      s.awayPlace c xs = none →
      (r.2.1 = none → exec (.vred c ups) s = .next (t.putActive c 4 i (a.finish t.now r.2.2))) ∧
      (∀ err, r.2.1 = some err → exec (.vred c ups) s = .next (t.putActive c 4 i ((kept r.2.2).refuse t.now err)))) ∧
    (∀ ix tab dst, (s.core c).working 4 0x42 = some (i, a) → a.tensor (cmd.desc 0) = some ix → a.tensor (cmd.desc 12) = some tab →
      a.tensor (cmd.desc 36) = some dst →
      let xs := s.places [ix.base, tab.base] [dst.base]
      let u := (s.requestDone c 4 xs).readRanges c (ix.spans ++ tab.spans) ups
      let free := u.openKey c a.q (tab.overlaps dst || ix.clash dst)
      let r := dst.runs.foldl (fun (st : State × Option AccErr × Option Nat × Bool) k =>
        match st.2.1, st.2.2.1 with
        | none, none => let w := st.1.vtabRun c ix tab dst free k; (w.1, w.2.1, w.2.2.1, st.2.2.2 || w.2.2.2)
        | _, _ => st) (u, none, none, false)
      let t := (r.1.writeUpsets dst.spans ups).useKey free
      s.awayPlace c xs = none →
      (r.2.1 = none → r.2.2.1 = none → exec (.vtab c ups) s = .next (t.putActive c 4 i (a.finish t.now { poison := r.2.2.2 }))) ∧
      (∀ e, r.2.1 = none → r.2.2.1 = some e →
        exec (.vtab c ups) s = .next (t.putActive c 4 i (a.fail t.now { status := .addrRange, entry := e }))) ∧
      (∀ err, r.2.1 = some err → exec (.vtab c ups) s = .next (t.putActive c 4 i ((kept { poison := r.2.2.2 }).refuse t.now err))))

/-- While core c has a started WLOAD of tensor w, none of the places it reaches away and the arrays free, with u the state in which its
request is performed and what its reads find is taken: where every column may be read and w has at most 512 latched rows, the core's
latch set then has w's format code, row count and width, element (row r, column j) of it is the element of w at dimension 0 index r and
dimension 1 index j, it holds poison when w did, the checksum column has w's sums, and the command is done; memory, objects and the
other cores keep their values. Where a column may not be read the command is refused so. -/
def Obligations.WloadLatchesEveryElement : Prop :=
  ∀ (c : CoreId) (s : State) (ups : List Upset) (i : Nat) (a : Active) (w : Tensor), (s.core c).working 2 0x22 = some (i, a) →
    (s.core c).arraysFree = true → a.tensor (a.q.cmd.desc 0) = some w → s.awayPlace c (s.places [w.base] []) = none →
    let u := (s.requestDone c 2 (s.places [w.base] [])).readRanges c w.spans ups
    (Canonical u → w.dim 0 ≤ 512 → (∀ j, j < w.dim 1 → u.lineErr c w j = none) →
      ∃ t l, exec (.wload c ups) s = .next t ∧ (t.core c).latch = some l ∧
        l.format = leAt (a.slotView w.slot).1 8 1 ∧ l.rows = w.dim 0 ∧ l.width = w.dim 1 ∧ l.poison = u.tensorPoison w ∧
        (∀ r j, r < w.dim 0 → j < w.dim 1 → (l.elem r j).bits = (u.readElem w { i0 := r, i1 := j }).bits) ∧
        (t.core c).checkColumn = u.latchSums w ∧
        (t.core c).started 2 = ((u.core c).started 2).set i (a.finish u.now { poison := u.tensorPoison w }) ∧
        t.mem = u.mem ∧ t.sync = u.sync ∧ (∀ d, d ≠ c.val → t.core d = u.core d)) ∧
    (∀ err, ((List.range (w.dim 1)).findSome? fun j => u.lineErr c w j) = some err → exec (.wload c ups) s = .next (u.refuseRead c 2 i a err))

/-- While core c has a started MM or MM_SEG whose operands were read, the arrays free and none of the places it reaches away: with every line
of the next pass readable, the accumulators are replaced by what the parts of the pass compute from their start values and lines, the
checksum row, the checksum column and the reload buffers by what the parts give, the command has streamed one pass more and keeps the
flags, poison and failed comparisons found, and it drains its last pass once that was the last; memory is not written. With a line that
may not be read, the command is refused so. An MM_SEG of no tile is done at once. -/
def Obligations.MatrixPassStreamsIntoTheArrays : Prop :=
  ∀ (c : CoreId) (s : State) (ups : List Upset) (i : Nat) (a : Active) (ta tb : Tensor) (kind : PairKind),
    (s.core c).arraysFree = true → a.tensor (a.q.cmd.desc 0) = some ta → a.tensor (a.q.cmd.desc 12) = some tb →
    pairKind ta.format tb.format = some kind →
    let cmd := a.q.cmd
    let quarter := bit (cmd.word 2) 48
    let ps := mmPasses (s.widths c) quarter (ta.dim 0) (bits (cmd.word 4) 0 32) (ta.dim 1) (tb.dim 1)
    ((s.core c).working 2 0x20 = some (i, a) → s.awayPlace c (s.places [ta.base, tb.base] []) = none → ∀ p, ps[a.streamed]? = some p →
      let s0 := s.requestDone c 2 (s.places [ta.base, tb.base] [])
      let back := startsReads kind p.first (cmd.word 3) (tb.dim 1)
      let u := s0.readRanges c (p.parts.flatMap fun x => (s0.mmLines c ta tb p.k0 p.k1 x).reads ++ back x) ups
      let parts := p.parts.map fun x =>
        let l := u.mmLines c ta tb p.k0 p.k1 x
        (x, { l with err := l.err <|> u.rangesErr c (back x) }, u.startsOf kind p.first (cmd.word 3) (tb.dim 1) x
          , u.startsPoison kind p.first (cmd.word 3) (tb.dim 1) x)
      let rs := parts.map fun y => u.runPart kind ta.format tb.format y.1 y.2.1 y.2.2.1
      let poison := parts.any fun y => y.2.1.poison || y.2.2.2
      let fl := rs.foldl (fun f y => f.or y.flags) (ArithFlags.ofByte a.flags)
      ((∀ y ∈ parts, y.2.1.err = none) →
        exec (.mm c ups) s = .next ((u.updCore c fun k => { k with
            acc := bufferOf (rs.flatMap (·.cells)), reloadBuffer := bufferOf (parts.flatMap fun x => startCells x.1 x.2.2.1)
            checkRow := bufferOf (rs.flatMap (·.row)), checkColumn := bufferOf (rs.flatMap (·.column)) }).putActive c 2 i { a with
          streamed := a.streamed + 1, passPoison := poison, flags := (if poison then { fl with poison := true } else fl).byte
          bad := rs.flatMap (·.bad), draining := decide (a.streamed + 1 = ps.length) })) ∧
      (∀ err, (parts.findSome? fun y => y.2.1.err) = some err → exec (.mm c ups) s = .next (u.refuseRead c 2 i a err))) ∧
    ((s.core c).working 2 0x21 = some (i, a) → ∀ tl, a.tensor (bits (cmd.word 4) 0 12) = some tl →
      let gs := a.segments.map segmentOf
      let ts := segTiles (s.widths c) quarter (tb.dim 1) gs
      (ts = [] → exec (.mmSeg c ups) s = .next (s.putActive c 2 i (a.finish s.now {}))) ∧
      (s.awayPlace c (s.places [ta.base, tb.base, tl.base] []) = none → ∀ p, ts[a.streamed]? = some p →
        let s0 := s.requestDone c 2 (s.places [ta.base, tb.base, tl.base] [])
        let lines (s : State) (x : Part) : Lines := s.segLines c ta tl (a.segOps (gs.getD x.seg (segmentOf [])) tb) (ta.dim 0) x
        let u := s0.readRanges c (p.flatMap fun x => (lines s0 x).reads) ups
        let parts := p.map fun x => (x, lines u x, u.startsOf kind true 0 0 x, false)
        let rs := parts.map fun y => u.runPart kind ta.format tb.format y.1 y.2.1 y.2.2.1
        let poison := parts.any fun y => y.2.1.poison || y.2.2.2
        let fl := rs.foldl (fun f y => f.or y.flags) (ArithFlags.ofByte a.flags)
        ((∀ y ∈ parts, y.2.1.err = none) →
          exec (.mmSeg c ups) s = .next ((u.updCore c fun k => { k with
              acc := bufferOf (rs.flatMap (·.cells)), reloadBuffer := bufferOf (parts.flatMap fun x => startCells x.1 x.2.2.1)
              checkRow := bufferOf (rs.flatMap (·.row)), checkColumn := bufferOf (rs.flatMap (·.column)) }).putActive c 2 i { a with
            streamed := a.streamed + 1, passPoison := poison, flags := (if poison then { fl with poison := true } else fl).byte
            bad := rs.flatMap (·.bad), draining := decide (a.streamed + 1 = ts.length) })) ∧
        (∀ err, (parts.findSome? fun y => y.2.1.err) = some err → exec (.mmSeg c ups) s = .next (u.refuseRead c 2 i a err))))

/-- While core c has a started MM or MM_SEG with one pass in the arrays: where its core has stopped, the pass is dropped and the command leaves
the engine. Else, with the settings read and none of the places of the drain away, the comparisons that fail are logged and counted; at
the end of a pass of an MM that is not the last of its output tile, every row of every part is written to the partial-sum area from the
drain buffers, in row and part order, and, when no write is refused, the accumulators are empty and the command has drained one pass
more, or is refused where one is; at the end of any other pass its rows go through fused output to the destination. When the last pass
has been drained with no write refused, the command is done and what its reserved areas hold is open. With no pass in the arrays nothing
changes. -/
def Obligations.PassEndDrainsTheArrays : Prop :=
  ∀ (c : CoreId) (s : State) (bad : List Mismatch) (ups : List Upset),
    let k := s.core c
    let l := k.started 2
    let inArrays (x : Nat × Active) : Bool := decide (x.2.drained < x.2.streamed) && !x.2.done
    (((List.range l.length).zip l).find? inArrays = none → exec (.passEnd c bad ups) s = .next s) ∧
    (∀ i a, ((List.range l.length).zip l).find? inArrays = some (i, a) →
      (a.stopping = true → exec (.passEnd c bad ups) s = .next ((s.updCore c fun k =>
        { k with acc := [], active := Tab.set [] k.active 2 ((k.started 2).eraseIdx i) }).settleStop k.job)) ∧
      (∀ ta tb td, a.stopping = false → a.tensor (a.q.cmd.desc 0) = some ta → a.tensor (a.q.cmd.desc 12) = some tb →
        a.tensor (a.q.cmd.desc 24) = some td →
        let cmd := a.q.cmd
        let n := tb.dim 1
        let fu := a.fusion (cmd.desc 36)
        let xs := s.places (fu.tensors.map (·.base)) [td.base]
        let x := (s.requestDone c 2 xs).takeMismatches c i a a.drained (a.bad ++ bad)
        let b := x.2
        let ps := mmPasses (s.widths c) (bit (cmd.word 2) 48) (ta.dim 0) (bits (cmd.word 4) 0 32) (ta.dim 1) n
        let gs := a.segments.map segmentOf
        let ts := segTiles (s.widths c) (bit (cmd.word 2) 48) n gs
        s.awayPlace c xs = none →
        (∀ p kind, cmd.opcode = 0x20 → ps[b.drained]? = some p → pairKind ta.format tb.format = some kind →
          (p.last = false →
            let v := x.1.handOver c
            let r := eachUntil (fun u (y : Nat × Part) => u.drainPsum c (cmd.word 3) n kind y.2 y.1 (v.core c).drainBuffer b.passPoison)
              (rowOrder p.parts) v
            let t := r.1.updCore c fun k => { k with acc := [] }
            let fl := ((ArithFlags.ofByte b.flags).or {}).byte
            (r.2 = none → b.drained + 1 ≠ ps.length → exec (.passEnd c bad ups) s = .next (t.putActive c 2 i
              { b with drained := b.drained + 1, flags := fl, passPoison := false, bad := [] })) ∧
            (∀ err, r.2 = some err →
              exec (.passEnd c bad ups) s = .next (t.putActive c 2 i (({ b with flags := fl } : Active).refuse t.now err)))) ∧
          (p.last = true → exec (.passEnd c bad ups) s = .next
            (x.1.drainOut c i b td fu (decide (kind = .integer)) ps.length p.parts (fun x r => x.i0 + r) ups))) ∧
        (∀ p, cmd.opcode ≠ 0x20 → ts[b.drained]? = some p → exec (.passEnd c bad ups) s = .next
          (x.1.drainOut c i b td fu (decide (pairKind ta.format tb.format = some .integer)) ts.length p
            (fun x r => (gs.getD x.seg (segmentOf [])).dest + x.i0 + r) ups)))) ∧
    (∀ (v : State) (i : Nat) (b : Active) (fl : ArithFlags) (held : Tab (Option Nat)),
      let all := (ArithFlags.ofByte b.flags).or fl
      let w := v.updCore c fun k => { k with acc := [] }
      let t := w.leaveArea (w.freeKey c b.q) b.reserved
      v.afterDrain c i b (b.drained + 1) none fl held = t.putActive c 2 i
        (({ b with drained := b.drained + 1, flags := all.byte, held := held, passPoison := false, bad := [] } : Active).finish w.now all))

/-- While core c has the command started with its operands read, the arrays free and none of the places it reaches away: MM_W streams its rows
against the latch set, takes the comparisons that fail, writes the rows through fused output and ends with the flags raised; ACC_IO
drains the accumulators row by row, or replaces them by the tile it reloads, or both, the reload read before anything is written, and
ends; MM_F64 fills its slice workspace with open bytes, writes every tile from the operands as they stood, leaves the accumulators
empty, and ends with the flags raised. A read that is refused ends each with nothing written; a write that is refused ends it there. -/
def Obligations.ResidentWideAndSplitProductsEnd : Prop :=
  ∀ (c : CoreId) (s : State) (bad : List Mismatch) (ups : List Upset) (i : Nat) (a : Active), (s.core c).arraysFree = true →
    let cmd := a.q.cmd
    (∀ lt ta td wf kind, (s.core c).working 2 0x23 = some (i, a) → (s.core c).latch = some lt → a.tensor (cmd.desc 0) = some ta →
      a.tensor (cmd.desc 24) = some td → Format.ofCode lt.format = some wf → pairKind ta.format wf = some kind →
      let carry := a.tensor (cmd.desc 12)
      let fu := a.fusion (cmd.desc 36)
      let xs := s.places ((ta :: carry.toList ++ fu.tensors).map (·.base)) [td.base]
      let s0 := s.requestDone c 2 xs
      let u := s0.readRanges c ((s0.mmwLines c a lt ta td).reads ++ fu.reads) ups
      let l := u.mmwLines c a lt ta td
      let starts := u.mmwStarts carry (ta.dim 1) (td.dim 0)
      let vals := mmwValues kind ta.format wf l starts (ta.dim 1) (td.dim 0)
      let x := u.takeMismatches c i a 0 (u.mmwFails kind ta.format wf l starts vals (ta.dim 0) ++ a.bad ++ bad)
      let poison := (l.poison || (carry.any fun t => u.tensorPoison t) || u.fusionPoison fu) || x.2.passPoison
      let fl : ArithFlags := (vals.flatMap id).foldl (fun f x => f.or x.2) { poison := poison }
      let r := x.1.mmwWrite c td fu (decide (kind = .integer)) poison vals (ta.dim 1) (td.dim 0) fl
      let t := r.1.writeUpsets td.spans ups
      s.awayPlace c xs = none →
      ((l.err <|> u.fusionErr c fu) = none → r.2.1 = none →
        exec (.mmW c bad ups) s = .next (t.putActive c 2 i (x.2.finish t.now r.2.2))) ∧
      (∀ err, (l.err <|> u.fusionErr c fu) = some err → exec (.mmW c bad ups) s = .next (u.refuseRead c 2 i a err)) ∧
      (∀ err, (l.err <|> u.fusionErr c fu) = none → r.2.1 = some err → exec (.mmW c bad ups) s = .next (t.putActive c 2 i
        (({ x.2 with flags := ((ArithFlags.ofByte x.2.flags).or r.2.2).byte } : Active).refuse t.now err)))) ∧
    ((s.core c).working 2 0x24 = some (i, a) →
      let dir := bits (cmd.word 4) 0 2
      let wide := bit (cmd.word 4) 2
      let w := min 1024 (wsum (s.widths c))
      let rl := cmd.word 3
      let reads := if dir = 0 then [] else accRows rl w wide
      let u := s.readRanges c reads ups
      let loaded := u.accLoaded rl w wide
      let poison := reads.any fun x => u.anyPoison x.1 x.2
      let r := u.accDrain c (cmd.word 2) w wide
      (u.rangesErr c reads = none → dir = 0 → r.2 = none →
        exec (.accIo c ups) s = .next (r.1.putActive c 2 i (a.finish r.1.now { poison := poison }))) ∧
      (u.rangesErr c reads = none → dir = 1 →
        exec (.accIo c ups) s = .next ((u.updCore c fun k => { k with acc := loaded }).putActive c 2 i
          (a.finish u.now { poison := poison }))) ∧
      (u.rangesErr c reads = none → dir = 2 → r.2 = none →
        exec (.accIo c ups) s = .next ((r.1.updCore c fun k => { k with acc := loaded }).putActive c 2 i
          (a.finish r.1.now { poison := poison }))) ∧
      (∀ err, u.rangesErr c reads = none → dir ≠ 1 → r.2 = some err →
        exec (.accIo c ups) s = .next (r.1.putActive c 2 i (a.refuse r.1.now err))) ∧
      (∀ err, u.rangesErr c reads = some err → exec (.accIo c ups) s = .next (u.refuseRead c 2 i a err))) ∧
    (∀ ta tb td, (s.core c).working 2 0x25 = some (i, a) → a.tensor (cmd.desc 0) = some ta → a.tensor (cmd.desc 12) = some tb →
      a.tensor (cmd.desc 24) = some td →
      let xs := s.places [ta.base, tb.base] [td.base, cmd.word 3]
      let u := (s.requestDone c 2 xs).readRanges c (ta.spans ++ tb.spans) ups
      let errs := ((List.range (ta.dim 1)).findSome? fun r => u.lineErr c ta r) <|> ((List.range (tb.dim 1)).findSome? fun j => u.lineErr c tb j)
      let sl := bits (cmd.word 4) 0 4
      let cols := (List.range (tb.dim 1)).map fun j => (u.lineOf tb j 0 (ta.dim 0)).map fun e => f64 e.bits
      let x := u.takeMismatches c i a 0 (a.bad ++ bad)
      let w := x.1.fillWork c (x.1.freeKey c a.q) (cmd.word 3) (sl * ta.dim 0 * 1280)
      let r := w.1.f64Tiles u c sl ta tb td cols x.2.passPoison
      let t := (r.1.writeUpsets td.spans ups).updCore c fun k => { k with acc := [] }
      s.awayPlace c xs = none →
      (errs = none → w.2 = none → r.2.1 = none → exec (.mmF64 c bad ups) s = .next (t.putActive c 2 i (x.2.finish t.now r.2.2))) ∧
      (∀ err, errs = none → w.2 = none → r.2.1 = some err → exec (.mmF64 c bad ups) s = .next (t.putActive c 2 i
        (({ x.2 with flags := ((ArithFlags.ofByte x.2.flags).or r.2.2).byte } : Active).refuse t.now err))) ∧
      (∀ err, errs = none → w.2 = some err →
        exec (.mmF64 c bad ups) s = .next (w.1.putActive c 2 i (x.2.refuse w.1.now err))) ∧
      (∀ err, errs = some err → exec (.mmF64 c bad ups) s = .next (u.refuseRead c 2 i a err)))

/-- For every accumulator value as the arrays hold it (FP32 bits, or an INT64 whose value fits the 48-bit register) the bytes that a drain
writes, read back as a reload reads them, give that same value: 4 bytes without WIDE, 8 with it. -/
def Obligations.AccumulatorsSurviveDrainAndReload : Prop :=
  (∀ v, v < 2 ^ 32 → (drainedBytes false v).length = 4 ∧ ofLE (drainedBytes false v) = v) ∧
  (∀ x : Int, -(2 ^ 47) ≤ x → x < 2 ^ 47 →
    let v := ofSigned 64 x
    (drainedBytes true v).length = 8 ∧ ofSigned 64 (toSigned 48 (ofLE (drainedBytes true v) % 2 ^ 48)) = v)

/-- While core c's sequencer holds a started SIGNAL not yet sent: an object address puts the signal, with its kind, value, generation and
the core's tag, in flight to that object's unit; a window of this module is first admitted by the checks of a window access, and then
the signal goes to the object the window covers, or the SIGNAL ends with WINDOW_REFUSED; for another module the message 0x25 is queued
on the connection to it and awaited, or the SIGNAL ends with REMOTE_UNREACHABLE where there is none. Once sent, nothing changes. -/
def Obligations.SignalGoesToItsObject : Prop :=
  ∀ (c : CoreId) (s : State) (i : Nat) (a : Active), (s.core c).working 0 0x02 = some (i, a) →
    let w3 := a.q.cmd.word 3
    let k := s.core c
    let obj := a.q.cmd.word 2
    let kind := bits w3 32 2
    let value := if kind = 1 then 1 else bits w3 0 32
    let gen := if kind ≠ 1 then none else some (if bit w3 50 then bits w3 34 16 else k.expectedGen)
    let going := s.setStarted c 0 [{ a with streamed := 1 }]
    (a.streamed ≠ 0 → exec (.signal c) s = .next s) ∧
    (a.streamed = 0 → spaceOf obj = 2 → exec (.signal c) s
      = .next (going.sendSignal c (syncCore obj) (syncIndex obj) kind value gen (.opcode c) (some (s.tagOf c)) none)) ∧
    (a.streamed = 0 → spaceOf obj ≠ 2 → winModule obj = s.moduleNo →
      let x := s.accessOf k.job obj 8 4
      (∀ u o, going.windowSignal x = (u, .inl o) → exec (.signal c) s
        = .next (u.sendSignal c (syncCore o) (syncIndex o) kind value gen (.opcode c) none (some x))) ∧
      (∀ u e off, going.windowSignal x = (u, .inr (e, off)) → exec (.signal c) s = .next (u.setStarted c 0 [a.fail u.now
        { status := .windowRefused, detail := e, addr := winAddr (winModule obj) (winNumber obj) off }]))) ∧
    (a.streamed = 0 → spaceOf obj ≠ 2 → winModule obj ≠ s.moduleNo →
      (∀ u, s.connTo (winModule obj) = (u, none) →
        exec (.signal c) s = .next (u.setStarted c 0 [a.fail u.now { status := .remoteUnreachable, addr := obj }])) ∧
      (∀ u n, s.connTo (winModule obj) = (u, some n) →
        let q := u.queueMessage n 0x25 (u.jobGet k.job 0x04) (u.jobGet k.job 0x05)
          (winPrefix obj (if kind = 1 then 0 else value) kind (if kind = 1 then 1 else 0) (gen.getD 0))
        exec (.signal c) s = .next (q.1.setStarted c 0 [{ a with streamed := 1, messages := [{ offset := 0, length := 8, conn := n, psn := q.2 }] }])))

/-- While core c has the command started, not yet sent, and its source not away: MCAST reads the source, counts the operation of its group,
keeps the CRC of its message, and carries the data to every member that it can reach, the root last; once every member is written the
root's command ends OK or POISON, or as the first refusal says. A REDUCE contributes its values once under the group's next operation
number, and the operations of the group from that number on are carried as far as their inputs allow; a member's REDUCE is done when its
parent has taken its partial, the root's when the result is written. Either is refused where its source may not be read. At its deadline
an MCAST or a REDUCE ends with WAIT_TIMEOUT, DETAIL 2, its operation cleared, with nothing written by the timeout. -/
def Obligations.GroupTransfersReachEveryMember : Prop :=
  ∀ (c : CoreId) (s : State) (ups : List Upset) (i : Nat) (a : Active),
    let cmd := a.q.cmd
    let g := cmd.group
    (∀ src dst ms root op par, (s.core c).unsent 5 0x51 = some (i, a) → a.tensor (cmd.desc 0) = some src →
      a.tensor (cmd.desc 12) = some dst → s.group true g = some (ms, root, op, par) → s.awayPlace c (s.places [src.base] []) = none →
      let s0 := s.requestDone c 5 (s.places [src.base] [])
      (∀ err, s0.tensorErr c src = some err → exec (.mcast c ups) s = .next (s0.refuseRead c 5 i a err)) ∧
      (s0.tensorErr c src = none →
        let u := s0.readRanges c src.spans ups
        let n := Tab.get 0 (u.core c).groupOps g
        let free := u.openKey c a.q (src.overlaps (dst.onCore c))
        let o : GroupOp := { mcast := true, group := g, number := n, job := (u.core c).job, root := root, members := ms, parents := par, op := 0
                             contributions := [], data := u.mcastData free src dst, toWrite := groupMembers ms c, refusal := 0, detail := 0
                             address := 0 }
        let v := (u.noteMessage c a.q (u.imageOf src)).updCore c fun k => { k with groupOps := Tab.upd 0 k.groupOps g (· + 1) }
        exec (.mcast c ups) s = .next (({ v.useKey free with ops := v.ops ++ [o] }.putActive c 5 i { a with streamed := 1, operation := some n }).advanceMcast g n))) ∧
    (∀ (v : State) (n : Nat) (o : GroupOp), v.opOf true g n = some o →
      let w := (o.toWrite.filter (v.mcastComes o)).foldl (fun s m => match s.opOf true g n with
        | some o => s.writeMember o m
        | none => s) v
      ∀ o', w.opOf true g n = some o' →
        (o'.toWrite ≠ [] → v.advanceMcast g n = w) ∧
        (∀ j b, o'.toWrite = [] → w.groupOn 0x51 o'.root o'.group o'.number = some (j, b) →
          let f : ArithFlags := { poison := o'.data.any (·.2.2) }
          v.advanceMcast g n = (w.dropOp o').putActive o'.root 5 j (if o'.refusal = 0 then b.finish w.now f
            else { b with done := true, status := o'.refusal, detail := o'.detail, addr := o'.address, flags := f.byte, start := w.now }))) ∧
    (∀ src, (s.core c).unsent 5 0x52 = some (i, a) → a.tensor (cmd.desc 0) = some src → s.awayPlace c (s.places [src.base] []) = none →
      let s0 := s.requestDone c 5 (s.places [src.base] [])
      (∀ err, s0.tensorErr c src = some err → exec (.reduce c ups) s = .next (s0.refuseRead c 5 i a err)) ∧
      (s0.tensorErr c src = none →
        let u := s0.readRanges c src.spans ups
        let n := Tab.get 0 (u.core c).groupOps (reduceKey g)
        let idx := src.runs.flatMap fun r => (List.range (src.dim 0)).map fun e => { r with i0 := e }
        let wide := src.format = .int64
        let x : Contribution :=
          { core := c, format := src.format.bits, taken := false, poison := idx.map (u.elemPoison src)
            values := idx.map fun e => if wide then (u.readElem src e).bits else (rn32 (u.readNum src e)).bits }
        let v := (u.noteMessage c a.q (u.imageOf src)).updCore c fun k => { k with groupOps := Tab.upd 0 k.groupOps (reduceKey g) (· + 1) }
        let v := (v.putActive c 5 i { a with streamed := 1, operation := some n }).openOp (u.core c).job g n (bits (cmd.word 2) 32 4)
        ∀ o, v.opOf false g n = some o →
          let o' := { o with contributions := o.contributions ++ [x], op := if o.root = c.val then bits (cmd.word 2) 32 4 else o.op }
          exec (.reduce c ups) s = .next ((List.range 23).foldl (fun s d => s.advanceOp g (n + d)) (v.putOp o')))) ∧
    (∀ (v : State) (n m j : Nat) (b : Active) (o : GroupOp), v.opOf false g n = some o → m ≠ o.root →
      ((o.of m).any fun x => !x.taken) = true → v.partialTaken o m = true → (v.txnOf m 5) = none →
      let w := (v.putOp { o with contributions := o.contributions.map fun x => if x.core = m then { x with taken := true } else x }).escapeSent
        (v.tileOf m) (v.tileOf (o.parent m))
      w.txnOf m 5 = none → w.groupOn 0x52 m g n = some (j, b) → v.takePartial g n m = w.putActive m 5 j (b.finish w.now {})) ∧
    ((s.core c).working 5 0x51 = some (i, a) →
      let u := { s with now := max s.now (a.deadline.getD s.now)
                        ops := s.ops.filter fun o => !o.mcast || o.group ≠ g || some o.number ≠ a.operation }
      exec (.mcastTimeout c) s = .next (u.putActive c 5 i (a.fail u.now { status := .waitTimeout, detail := 2 }))) ∧
    ((s.core c).working 5 0x52 = some (i, a) →
      let u := { s with now := max s.now (a.deadline.getD s.now)
                        ops := s.ops.filter fun o => o.mcast || o.group ≠ g || some o.number ≠ a.operation }
      exec (.reduceDeadline c) s = .next (u.putActive c 5 i (a.fail u.now { status := .waitTimeout, detail := 2 })))

/-- While core c has a started RWRITE or RREAD, not yet sent, with none of the places it reaches away, and every range of an RWRITE's source
readable (else it is refused): for a window of this module the parts are written or read through the window in turn, and the command
ends when the last is done or as the first refused one says; for another module with a connection one message for each part is queued,
type 0x20 + MODE for a write and 0x23 for a read, and awaited; without one the command ends with REMOTE_UNREACHABLE. Poisoned granules
are withheld from a write, which then ends with POISON naming the first. -/
def Obligations.RemoteTransfersUseWindowsOrMessages : Prop :=
  ∀ (c : CoreId) (s : State) (ups : List Upset) (i : Nat) (a : Active) (t : Tensor),
    let remote := a.q.cmd.word 3
    let j := (s.core c).job
    let mode := bits (a.q.cmd.word 4) 0 2
    let own := winModule remote = s.moduleNo
    ((s.core c).unsent 5 0x53 = some (i, a) → a.tensor (a.q.cmd.desc 0) = some t →
      let xs := s.places [t.base] (s.ownTarget own remote)
      let s0 := s.requestDone c 5 xs
      s.awayPlace c xs = none →
      (∀ err, s0.rangesErr c t.imageRanges = some err → exec (.rwrite c ups) s = .next (s0.refuseRead c 5 i a err)) ∧
      (s0.rangesErr c t.imageRanges = none →
        let s1 := s0.readRanges c t.imageRanges ups
        let sent (v : State) (limit : Nat) : State :=
          (v.writeParts t remote (cutSize limit)).foldl (fun s p => s.noteMessage c a.q (winPrefix (remote + p.1) 0 0 0 0 ++ p.2) limit) v
        let b (v : State) : Active := { a with
          streamed := 1, flags := if (v.firstPoison t).isSome then 16 else 0
          status := if (v.firstPoison t).isSome then Status.poison.code else 0, addr := (v.firstPoison t).getD 0 }
        (own → let parts := s1.writeParts t remote (cutSize 8208)
          let w := (sent s1 8208).writeOwn j remote (1 + mode) (some c) ups parts
          (w.2 = none → exec (.rwrite c ups) s = .next (w.1.putActive c 5 i ((b s1).settle w.1.now))) ∧
          (∀ e, w.2 = some e → exec (.rwrite c ups) s = .next (w.1.putActive c 5 i
            (if (b s1).status ≠ 0 then { b s1 with done := true, start := w.1.now } else (b s1).fail w.1.now e)))) ∧
        (¬ own → ∀ v, s1.connTo (winModule remote) = (v, none) → let u := sent v 8208
          exec (.rwrite c ups) s = .next (u.putActive c 5 i ({ b v with status := 0 }.fail u.now { status := .remoteUnreachable, addr := remote }))) ∧
        (¬ own → ∀ v n, s1.connTo (winModule remote) = (v, some n) →
          let limit := ((v.conn n).map (·.limit)).getD 8208
          let u := sent v limit
          let q := u.queueAll n (0x20 + mode) (u.jobGet j 0x04) (u.jobGet j 0x05)
            ((v.writeParts t remote (cutSize limit)).map fun p => (p.1, p.2.length, winPrefix (remote + p.1) 0 0 0 0 ++ p.2))
          exec (.rwrite c ups) s = .next (q.1.putActive c 5 i ({ b v with messages := q.2 }.settle u.now))))) ∧
    ((s.core c).unsent 5 0x54 = some (i, a) → a.tensor (a.q.cmd.desc 12) = some t →
      let xs := s.places (s.ownTarget own remote) [t.base]
      let s0 := s.requestDone c 5 xs
      let b : Active := { a with streamed := 1 }
      let parts (limit : Nat) := readParts t.imageLen remote (cutSize limit)
      let sent (v : State) (limit : Nat) : State :=
        (parts limit).foldl (fun s p => s.noteMessage c a.q (winPrefix (remote + p.1) p.2 0 0 0) limit) v
      s.awayPlace c xs = none →
      (own → let w := (sent s0 8208).readOwn c j t remote ups (parts 8208)
        (w.2 = none → exec (.rread c ups) s = .next (w.1.putActive c 5 i (b.finish w.1.now {}))) ∧
        (∀ e, w.2 = some e → exec (.rread c ups) s = .next (w.1.putActive c 5 i (b.fail w.1.now e)))) ∧
      (¬ own → ∀ v, s0.connTo (winModule remote) = (v, none) → let u := sent v 8208
        exec (.rread c ups) s = .next (u.putActive c 5 i (b.fail u.now { status := .remoteUnreachable, addr := remote }))) ∧
      (¬ own → ∀ v n, s0.connTo (winModule remote) = (v, some n) →
        let limit := ((v.conn n).map (·.limit)).getD 8208
        let u := sent v limit
        let q := u.queueAll n 0x23 (u.jobGet j 0x04) (u.jobGet j 0x05)
          ((parts limit).map fun p => (p.1, p.2, winPrefix (remote + p.1) p.2 0 0 0))
        exec (.rread c ups) s = .next (q.1.putActive c 5 i { b with messages := q.2 })))

/-- Let a write be admitted by session n, with t the state it is served in. An RWM object in range takes the value in the maquette, after an
answer of status 0, and out of range is answered with status 0x07 alone. An RW object in range takes its setting after the answer.
Taking a free lock makes n its holder, shown as n + 1 (the model's choice, log 95); taking or releasing another holder's is answered
with 0x0E alone; releasing frees it. COPY_ACTIVE_TO_MAQUETTE discards every edit. When lock_idle_limit has run out the lock is free
again; with no holder nothing changes. -/
def Obligations.MaquetteRequestsEditUnderTheLock : Prop :=
  ∀ (q : Req) (s : State),
    (∀ (i : BitVec 16) (j : BitVec 8) (value : Bytes) (n : Nat) (t : State) (r : ObjRow), objRow i.toNat j.toNat = some r →
      s.found.1.admitsWrite q i.toNat j.toNat value = some (n, t) →
      let v := writeMask i.toNat j.toNat (ofLE value)
      let u := t.replied n q i.toNat j.toNat value
      (r.access = .rwm →
        exec (.rwmWrite q i j value) s = .next (if t.rangeOk i.toNat j.toNat v then (u 0).maqPut i.toNat j.toNat v else u 0x07)) ∧
      (r.access = .rw →
        exec (.objectWrite q i j value) s = .next (if t.rangeOk i.toNat j.toNat v
          then ((u ((t.noteWrite n).writeSetting n i.toNat j.toNat v).2).writeSetting n i.toNat j.toNat v).1 else u 0x07))) ∧
    (∀ n t, s.admitsWrite q 0xF002 0x00 [1] = some (n, t) →
      let u := t.replied n q 0xF002 0x00 [1]
      (t.get 0xF002 0x01 = 0 → exec (.maquetteLockTake q) s = .next { (u 0).put 0xF002 0x01 (n + 1) with lockWrite := t.now }) ∧
      (t.get 0xF002 0x01 = n + 1 → exec (.maquetteLockTake q) s = .next (u 0)) ∧
      (t.get 0xF002 0x01 ≠ 0 → t.get 0xF002 0x01 ≠ n + 1 → exec (.maquetteLockTake q) s = .next (u 0x0E))) ∧
    (∀ n t, s.admitsWrite q 0xF002 0x00 [2] = some (n, t) →
      let u := t.replied n q 0xF002 0x00 [2]
      (t.get 0xF002 0x01 = 0 ∨ t.get 0xF002 0x01 = n + 1 → exec (.maquetteLockRelease q) s = .next ((u 0).put 0xF002 0x01 0)) ∧
      (t.get 0xF002 0x01 ≠ 0 → t.get 0xF002 0x01 ≠ n + 1 → exec (.maquetteLockRelease q) s = .next (u 0x0E))) ∧
    (∀ n t, s.admitsWrite q 0xF001 0x00 [1] = some (n, t) →
      exec (.copyActiveToMaquette q) s = .next { t.replied n q 0xF001 0x00 [1] 0 with maq := [], rewritten := [] }) ∧
    (s.get 0xF002 0x01 ≠ 0 →
      exec .lockIdleTimeout s = .next ({ s with now := max s.now (s.lockWrite + s.get 0xF002 0x02 * 1000000000) }.put 0xF002 0x01 0)) ∧
    (s.get 0xF002 0x01 = 0 → exec .lockIdleTimeout s = .next s)

/-- Let a swap command be admitted by session n, with t the state it is served in and no swap under way. At the quiescent point, or at an
instant between 2 ms and 1,000 s ahead with no running job on a core the maquette moves: where the maquette passes R51 the command is
answered with status 0 and distribution begins; where an object fails, it is answered with 0x10 and the swap is aborted with reason 0x07
naming the first such object. An instant out of range is answered with 0x07, running jobs with 0x09, a swap under way with 0x08, and
nothing else. A cancel of a distributing or armed swap whose GO is not acknowledged is answered with 0 and ends it as cancelled; any
other is answered with 0x09 alone. -/
def Obligations.SwapRequestsBeginRefuseOrCancel : Prop :=
  ∀ (q : Req) (s : State) (n : Nat) (t : State),
    (s.admitsWrite q 0xF000 0x00 [1] = some (n, t) →
      let u := t.replied n q 0xF000 0x00 [1]
      (t.swapping = true → exec (.swapAtQuiescent q) s = .next (u 0x08)) ∧
      (t.swapping = false → t.maquetteFirstBad = none → exec (.swapAtQuiescent q) s = .next ((u 0).beginSwap true 0 .owner)) ∧
      (∀ k, t.swapping = false → t.maquetteFirstBad = some k → exec (.swapAtQuiescent q) s = .next ((u 0x10).refuseSwap k))) ∧
    (s.admitsWrite q 0xF000 0x00 [2] = some (n, t) →
      let u := t.replied n q 0xF000 0x00 [2]
      let T := t.get 0xF000 0x01
      let inRange := t.now + 2000000 ≤ T ∧ T ≤ t.now + 1000000000000
      let running := t.changedCores.any fun c => (List.range 64).any fun j => [2, 3].contains (t.jobState j) && (t.jobCores j).contains c
      (t.swapping = true → exec (.swapAtInstant q) s = .next (u 0x08)) ∧
      (t.swapping = false → ¬ inRange → exec (.swapAtInstant q) s = .next (u 0x07)) ∧
      (t.swapping = false → inRange → running = true → exec (.swapAtInstant q) s = .next (u 0x09)) ∧
      (t.swapping = false → inRange → running = false → t.maquetteFirstBad = none →
        exec (.swapAtInstant q) s = .next ((u 0).beginSwap false T .owner)) ∧
      (∀ k, t.swapping = false → inRange → running = false → t.maquetteFirstBad = some k →
        exec (.swapAtInstant q) s = .next ((u 0x10).refuseSwap k))) ∧
    (s.admitsWrite q 0xF000 0x00 [3] = some (n, t) →
      let u := t.replied n q 0xF000 0x00 [3]
      let may := [1, 2].contains t.swapState = true ∧ t.goAcked = false
      (may → exec (.swapCancel q) s
        = .next (((((u 0).put 0xF000 0x05 0x04).put 0xF000 0x04 0).setSwapState 6).endSwap false).pumpChanges) ∧
      (¬ may → exec (.swapCancel q) s = .next (u 0x09)))

/-- Let one of these commands be admitted by session n, with t the state it is served in. RUN and IDLE from a state above Rest, or from Rest,
are answered with 0 and leave Idle and Rest; from Hold or Keep they begin to leave it; in a transition they are answered with 0x08 alone.
REST, HOLD and KEEP for the state that stands are answered with 0 alone; with a job running or a swap distributing with 0x09 alone; in a
transition with 0x08 alone; else with 0, and Rest is entered, or Hold or Keep begun, or left for the other as the rule says. GROUP_ON,
GROUP_RETENTION and GROUP_OFF for whole spans, with none of the core's groups moving and none of the mask reserved, are answered with 0
and wake or close the groups of the mask; for a mask that cuts a span with 0x07, for the top group of a core with a job, closed, with 0x09,
else with 0x08, alone. WARM_RESET and COLD_RESET with no reset under way are answered with 0 and begin 10 ms later, at once where no swap
is under way; with one under way with 0x09 alone. -/
def Obligations.StateRequestsAreAnsweredThenActed : Prop :=
  ∀ (q : Req) (c : CoreId) (mask : BitVec 8) (f : BringUp) (s : State) (n : Nat) (t : State),
    let still := t.entering = none
    let gs := setPositions 8 mask.toNat
    let busy : Bool := t.groupsMoving c
      || gs.any fun g => (t.core c).reservedRanges.any fun r => rangesMeet r.1 r.2 (spAddr c (g * 2 ^ 23)) (2 ^ 23)
    let whole := wholeSpans (t.layoutApplied c) mask.toNat
    let top : Bool := bit mask.toNat 7 && (t.core c).job ≠ 0xFF
    (s.admitsWrite q 0xF020 0 [0] = some (n, t) → let u := t.replied n q 0xF020 0 [0]
      (still → t.powerState < 3 → exec (.run q) s = .next (u 0).leaveIdle.leaveRest) ∧
      (still → 3 ≤ t.powerState → exec (.run q) s = .next ((u 0).leaveLow 0).settlePower) ∧
      (¬ still → exec (.run q) s = .next (u 0x08))) ∧
    (s.admitsWrite q 0xF020 0 [1] = some (n, t) → let u := t.replied n q 0xF020 0 [1]
      (still → t.powerState < 3 → exec (.idle q) s = .next (u 0).leaveIdle.leaveRest) ∧
      (still → 3 ≤ t.powerState → exec (.idle q) s = .next ((u 0).leaveLow 0).settlePower) ∧
      (¬ still → exec (.idle q) s = .next (u 0x08))) ∧
    (s.admitsWrite q 0xF020 0 [2] = some (n, t) → let u := t.replied n q 0xF020 0 [2]
      (still → t.powerState = 2 → exec (.rest q) s = .next (u 0)) ∧
      (still → t.powerState < 2 → t.powerHeld = false → exec (.rest q) s = .next (u 0).leaveIdle.enterRest) ∧
      (still → 3 ≤ t.powerState → t.powerHeld = false → exec (.rest q) s = .next ((u 0).leaveLow 2).settlePower) ∧
      (t.powerHeld = true → ¬ (still ∧ t.powerState = 2) → exec (.rest q) s = .next (u 0x09)) ∧
      (¬ still → t.powerHeld = false → exec (.rest q) s = .next (u 0x08))) ∧
    (s.admitsWrite q 0xF020 0 [3] = some (n, t) → let u := t.replied n q 0xF020 0 [3]
      (still → t.powerState = 3 → exec (.hold q) s = .next (u 0)) ∧
      (still → t.powerState < 3 → t.powerHeld = false → exec (.hold q) s = .next ((u 0).leaveIdle.thawWaits.enterLow 3).settlePower) ∧
      (still → t.powerState = 4 → t.powerHeld = false → exec (.hold q) s = .next ((u 0).setPowerState 3)) ∧
      (t.powerHeld = true → ¬ (still ∧ t.powerState = 3) → exec (.hold q) s = .next (u 0x09)) ∧
      (¬ still → t.powerHeld = false → exec (.hold q) s = .next (u 0x08))) ∧
    (s.admitsWrite q 0xF020 0 [4] = some (n, t) → let u := t.replied n q 0xF020 0 [4]
      (still → t.powerState = 4 → exec (.keep q) s = .next (u 0)) ∧
      (still → t.powerState ≠ 4 → t.powerHeld = false → exec (.keep q) s = .next ((u 0).leaveIdle.thawWaits.enterLow 4).settlePower) ∧
      (t.powerHeld = true → ¬ (still ∧ t.powerState = 4) → exec (.keep q) s = .next (u 0x09)) ∧
      (¬ still → t.powerHeld = false → exec (.keep q) s = .next (u 0x08))) ∧
    (s.admitsWrite q (coreObj c + 1) 4 [mask, 0] = some (n, t) → let u := t.replied n q (coreObj c + 1) 4 [mask, 0]
      (whole = true → busy = false → exec (.groupOn q c mask) s = .next ((u 0).wakeGroups c gs)) ∧
      (whole = false → exec (.groupOn q c mask) s = .next (u 0x07)) ∧
      (whole = true → busy = true → exec (.groupOn q c mask) s = .next (u 0x08))) ∧
    (s.admitsWrite q (coreObj c + 1) 4 [mask, 1] = some (n, t) → let u := t.replied n q (coreObj c + 1) 4 [mask, 1]
      (whole = true → top = false → busy = false → exec (.groupRetention q c mask) s
        = .next (((u 0).closeGroups c gs 3).wakeGroups c (gs.filter fun g => (u 0).groupState c g = 4))) ∧
      (whole = false → exec (.groupRetention q c mask) s = .next (u 0x07)) ∧
      (whole = true → top = true → exec (.groupRetention q c mask) s = .next (u 0x09)) ∧
      (whole = true → top = false → busy = true → exec (.groupRetention q c mask) s = .next (u 0x08))) ∧
    (s.admitsWrite q (coreObj c + 1) 4 [mask, 2] = some (n, t) → let u := t.replied n q (coreObj c + 1) 4 [mask, 2]
      (whole = true → top = false → busy = false → exec (.groupOff q c mask) s
        = .next (((u 0).closeGroups c gs 4).wakeGroups c (gs.filter fun g => (u 0).groupState c g = 3))) ∧
      (whole = false → exec (.groupOff q c mask) s = .next (u 0x07)) ∧
      (whole = true → top = true → exec (.groupOff q c mask) s = .next (u 0x09)) ∧
      (whole = true → top = false → busy = true → exec (.groupOff q c mask) s = .next (u 0x08))) ∧
    (s.admitsWrite q 0xF010 0 [1] = some (n, t) → let u := t.replied n q 0xF010 0 [1]
      let r (x : State) : State := { x with resetting := { kind := 1, start := x.now + 10000000, found := none } }
      (t.resetting.kind = 0 → t.swapping = false → exec (.warmReset q) s = .next (r (u 0)).beginReset) ∧
      (t.resetting.kind = 0 → t.swapState = 3 ∨ (t.swapState = 2 ∧ t.goAcked = true) → exec (.warmReset q) s
        = .next { r (u 0) with resetting := { (r (u 0)).resetting with waitSwap := true } }) ∧
      (t.resetting.kind ≠ 0 → exec (.warmReset q) s = .next (u 0x09))) ∧
    (s.admitsWrite q 0xF010 0 [2] = some (n, t) → let u := t.replied n q 0xF010 0 [2]
      let r (x : State) : State := { x with resetting := { kind := 2, start := x.now + 10000000, found := some f } }
      (t.resetting.kind = 0 → t.swapping = false → exec (.coldReset q f) s = .next (r (u 0)).beginReset) ∧
      (t.resetting.kind = 0 → t.swapState = 3 ∨ (t.swapState = 2 ∧ t.goAcked = true) → exec (.coldReset q f) s
        = .next { r (u 0) with resetting := { (r (u 0)).resetting with waitSwap := true } }) ∧
      (t.resetting.kind ≠ 0 → exec (.coldReset q f) s = .next (u 0x09)))

/-- While manual_op names the operation, a write of 0x01 to manual_apply that session n is admitted for is answered with the status of
manualApply and then does it, in a cycle in which the object's other ports take the signals of the ports given. With the address in
manual_address a valid object of a core with a running job, and the operation one that the kind of the object then allows, the status is 0:
the ports take their signals, and then the object is set as a signal of that kind and value would set it; the object log, its waits, the
job's manual flag, the fault log and the manual log follow, with the old and new images. With no running job the status is 0x09, and with
no valid address or kind 0x07: then only the manual log is written, the object and every wait staying. (The other ports of the cycle are
the model's choice: log entry 108.) -/
def Obligations.ManualSettingsAreLoggedAndApplied : Prop :=
  ∀ (q : Req) (ports : BitVec 5) (s : State) (n : Nat) (t : State), s.admitsWrite q 0x7010 0x04 [1] = some (n, t) →
    let done : State := ((t.replied n q 0x7010 0x04 [1] ((t.noteWrite n).manualApply n ports.toNat).2).manualApply n ports.toNat).1
    (s.get 0x7010 0x02 = 1 → exec (.manualWriteImage q ports) s = .next done) ∧
    (s.get 0x7010 0x02 = 2 → exec (.manualAdd q ports) s = .next done) ∧
    (s.get 0x7010 0x02 = 3 → exec (.manualSetFlag q ports) s = .next done) ∧
    (s.get 0x7010 0x02 = 4 → exec (.manualClearFlag q ports) s = .next done) ∧
    (s.get 0x7010 0x02 = 5 → exec (.manualCompleteGeneration q ports) s = .next done) ∧
    (∀ u : State,
      let a := u.get 0x7010 0x01
      let op := u.get 0x7010 0x02
      let c := syncCore a
      let i := syncIndex a
      let old := u.syncGet c i
      let r := u.takeSignals c (setPositions 5 ports.toNat)
      let before := r.1.syncGet c i
      let ok := spaceOf a = 2 ∧ addrReserved a = false ∧ addrOut a = false
      (ok → ∀ k, manualSignal before op (u.get 0x7010 0x03) = some k → u.hasRunningJob c = true →
        u.manualApply n ports.toNat = ((r.1.setByHand c i k op r.2).logManual (n + 1) a before
          (LogEntry.apply ⟨i, k.1, k.2, none, none, u.now⟩ before).1 op 0, 0)) ∧
      (ok → ∀ k, manualSignal before op (u.get 0x7010 0x03) = some k → u.hasRunningJob c = false →
        u.manualApply n ports.toNat = (u.logManual (n + 1) a old old op 0x09, 0x09)) ∧
      (ok → manualSignal before op (u.get 0x7010 0x03) = none →
        u.manualApply n ports.toNat = (u.logManual (n + 1) a old old op 0x07, 0x07)) ∧
      (¬ ok → u.manualApply n ports.toNat = (u.logManual (n + 1) a 0 0 op 0x07, 0x07)) ∧
      (∀ a old new op st, (u.logManual (n + 1) a old new op st).sync = u.sync ∧ (u.logManual (n + 1) a old new op st).waits = u.waits))

/-- Let one of these writes be admitted by session n, with t the state it is served in: the session is answered with the status given here, and
the effect follows the answer; with a status other than 0 there is no effect. An entry of the credential table takes a value of one of the four
levels, but the last owner entry is kept from other levels with 0x09. A chunk is refused with 0x08 while another session loads, with 0x09 for
the running slot, with 0x07 outside its target; the first begins the load. LOAD_COMMIT and LOAD_ABORT are refused with 0x08 or 0x09 where
this session has no load under way; a commit marks its target valid where the first failing check is none. The floor of SVNs rises to the
running image's SVN only where that is greater, else 0x09. A range that cannot be measured is answered with 0x10, a full log with 0x09. A
token consumes the challenge whether or not it is accepted (0x10), and grants its scope for its time. DEBUG_LOCK ends debug access. -/
def Obligations.SecurityRequestsLoadMeasureAndAdvance : Prop :=
  ∀ (q : Req) (s : State) (n : Nat) (t : State) (k : Fin 8) (data : Bytes) (lc : LoadCheck) (tc : TokenCheck),
    (s.admitsWrite q 0x1040 (k.val + 1) data = some (n, t) →
      let u := t.replied n q 0x1040 (k.val + 1) data
      let v := writeMask 0x1040 (k.val + 1) (ofLE data)
      let last : Prop := credLevel (t.get 0x1040 (k.val + 1)) = 3 ∧ credLevel v ≠ 3 ∧
        ∀ i, i < 8 → i + 1 ≠ k.val + 1 → credLevel (t.get 0x1040 (i + 1)) ≠ 3
      (credLevel v ≤ 3 → ¬ last → exec (.credentialWrite q k data) s = .next ((u 0).put 0x1040 (k.val + 1) v)) ∧
      (credLevel v ≤ 3 → last → exec (.credentialWrite q k data) s = .next (u 0x09)) ∧
      (3 < credLevel v → exec (.credentialWrite q k data) s = .next (u 0x07))) ∧
    (s.admitsWrite q 0x1060 3 data = some (n, t) →
      let u := t.replied n q 0x1060 3 data
      let T := t.get 0x1060 1
      let off := t.get 0x1060 2
      let put (x : State) : State := x.updSlot T fun y => { y with chunks := y.chunks ++ [(off, data)] }
      (t.loadBusy n = true → exec (.loadChunkWrite q data) s = .next (u 0x08)) ∧
      (t.loadBusy n = false → t.runs T = true → exec (.loadChunkWrite q data) s = .next (u 0x09)) ∧
      (t.loadBusy n = false → t.runs T = false → targetSize T < off + data.length → exec (.loadChunkWrite q data) s = .next (u 0x07)) ∧
      (t.security.loader = some n → t.runs T = false → off + data.length ≤ targetSize T →
        exec (.loadChunkWrite q data) s = .next (put (u 0))) ∧
      (t.security.loader = none → t.runs T = false → off + data.length ≤ targetSize T →
        let x := (u 0).updSlot T fun y => { y with chunks := [], valid := false }
        exec (.loadChunkWrite q data) s
          = .next (put (({ x with security := { x.security with loader := some n } }.put 0x1060 6 0).change 0x1060 5 1)))) ∧
    (s.admitsWrite q 0x1060 4 [1] = some (n, t) →
      let u := t.replied n q 0x1060 4 [1]
      (t.loadBusy n = true → exec (.loadCommit q lc) s = .next (u 0x08)) ∧
      (t.security.loader = none → exec (.loadCommit q lc) s = .next (u 0x09)) ∧
      (t.security.loader = some n →
        let x := { u 0 with security := { (u 0).security with loader := none } }.change 0x1060 5 2
        let T := x.get 0x1060 1
        let bad := if T < 2 then x.imageCheck (x.slot T) lc.failed.toNat else x.variantCheck (x.slot T) lc.failed.toNat
        let h := (x.slot T).bytes 2048
        (bad ≠ 0 → exec (.loadCommit q lc) s = .next ((x.put 0x1060 6 bad).change 0x1060 5 4)) ∧
        (bad = 0 → T = 2 → exec (.loadCommit q lc) s = .next ((x.updSlot T fun y => { y with valid := true }).change 0x1060 5 3)) ∧
        (bad = 0 → T ≠ 2 → exec (.loadCommit q lc) s = .next (((x.updSlot T fun y =>
          { y with valid := true, svn := leAt h 6 2, version := [leAt h 2 1, leAt h 3 1, leAt h 4 2], hash := (h.drop 16).take 64 }).put
            0x4202 1 T).change 0x1060 5 3)))) ∧
    (s.admitsWrite q 0x1060 4 [2] = some (n, t) →
      let u := t.replied n q 0x1060 4 [2]
      (t.loadBusy n = true → exec (.loadAbort q) s = .next (u 0x08)) ∧
      (t.security.loader = none → exec (.loadAbort q) s = .next (u 0x09)) ∧
      (t.security.loader = some n → exec (.loadAbort q) s = .next (u 0).abortLoad)) ∧
    (s.admitsWrite q 0x1061 2 [1] = some (n, t) →
      let u := t.replied n q 0x1061 2 [1]
      (t.get 0x1061 1 < t.security.svn → exec (.svnAdvance q) s = .next ((u 0).put 0x1061 1 t.security.svn)) ∧
      (t.security.svn ≤ t.get 0x1061 1 → exec (.svnAdvance q) s = .next (u 0x09))) ∧
    (s.admitsWrite q 0x1070 3 [1] = some (n, t) →
      let u := t.replied n q 0x1070 3 [1]
      let a := t.get 0x1070 1
      let len := t.get 0x1070 2
      let d := sha512 (t.readBytes a len)
      let e := toLE 8 t.now ++ toLE 8 a ++ toLE 4 len ++ toLE 12 0 ++ d
      (t.measurable a len = false → exec (.measureApply q) s = .next (u 0x10)) ∧
      (t.measurable a len = true → 256 ≤ t.security.programLog.length → exec (.measureApply q) s = .next (u 0x09)) ∧
      (t.measurable a len = true → t.security.programLog.length < 256 → exec (.measureApply q) s = .next
        { u 0 with security := { (u 0).security with programLog := (u 0).security.programLog ++ [e]
                                                     logValue := sha512 ((u 0).security.logValue ++ d) } })) ∧
    (s.admitsWrite q 0x1080 2 data = some (n, t) →
      let u (st : Nat) : State :=
        let x := t.replied n q 0x1080 2 data st
        { x with security := { x.security with challenge := none } }
      (t.tokenOk data tc = true → exec (.debugTokenWrite q data tc) s
        = .next (((u 0).put 0x1080 4 (t.now + leAt data 4 4 * 1000000000)).change 0x1080 3 (leAt data 2 2))) ∧
      (t.tokenOk data tc = false → exec (.debugTokenWrite q data tc) s = .next (u 0x10))) ∧
    (s.admitsWrite q 0x1080 5 [1] = some (n, t) →
      exec (.debugLock q) s = .next (t.replied n q 0x1080 5 [1] 0).lockDebug)

/-- Where a session n with a free transaction is served in t and the read of debug_challenge passes its checks, the state draws a new
challenge of 32 fresh bytes which cancels the one before and expires after 300 s, the answer gives its size, and its segment is sent.
DEBUG_UNLOCK_EXPIRY ends the unlock at its time, or the challenge where that ends first, and leaves a module with neither as it was.
DEBUG_PORT_ATTACH under scope bit 0 with the standby controller not yet failed makes controller 1 failed; without the scope it does
nothing. -/
def Obligations.DebugAccessIsChallengedTimedAndScoped : Prop :=
  ∀ (q : Req) (s : State),
    (∀ n t, let u := reqUnit q 0x03 0x1080 0x01 []
      s.admits q.src u = some (n, t) → t.readStatus n 0x1080 0x01 0 = 0 →
      let r := t.newChallenge
      exec (.debugChallengeRead q) s = .next (((r.1.sendUnit q.src (replyTo q.src u 0 32 [])).addTransfer n
        { txn := q.txn.toNat, write := false, index := 0x1080, sub := 0x01, total := 32, data := r.2, next := 0, acked := 0, resends := 0
          active := (r.1.sendUnit q.src (replyTo q.src u 0 32 [])).now }).pumpRead n q.txn.toNat 4) ∧
      r.1.security.challenge = some (r.2, t.now + 300 * 1000000000)) ∧
    (∀ b T, s.security.challenge = some (b, T) →
      (s.get 0x1080 4 ≠ 0 → s.get 0x1080 4 ≤ T →
        exec .debugUnlockExpiry s = .next { s with now := max s.now (s.get 0x1080 4) }.lockDebug) ∧
      (s.get 0x1080 4 = 0 ∨ T < s.get 0x1080 4 →
        exec .debugUnlockExpiry s = .next { s with now := max s.now T, security := { s.security with challenge := none } })) ∧
    (s.security.challenge = none →
      (s.get 0x1080 4 ≠ 0 → exec .debugUnlockExpiry s = .next { s with now := max s.now (s.get 0x1080 4) }.lockDebug) ∧
      (s.get 0x1080 4 = 0 → exec .debugUnlockExpiry s = .next s)) ∧
    (bit (s.get 0x1080 3) 0 = true → s.get 0x4001 2 ≠ 1 → exec .debugPortAttach s = .next (s.change 0x4001 2 1)) ∧
    (bit (s.get 0x1080 3) 0 = false → exec .debugPortAttach s = .next s)

/-- Let one of these writes be admitted by session n, with t the state it is served in: the session is answered with the status given here, and
the effect follows the answer. A command for one channel first rolls a repeating window whose end has come, and then snapshots, snapshots and
clears, or clears. A module-wide snapshot with snapshot_instant 0 is taken at once of every masked channel; one between 100 µs and 1,000 s
ahead waits for its instant; another is answered with 0x07 alone. A setting out of range is answered with 0x07 alone; in range, it rolls,
snapshots and clears with FLAGS bit 2, takes the value, opens its window, and the interval begins. -/
def Obligations.MonitorRequestsSnapshotClearOrSet : Prop :=
  ∀ (q : Req) (s : State) (n : Nat) (t : State) (ch : ChannelId) (sub : BitVec 8) (value : Bytes),
    let T := t.get 0x5000 3
    let ahead : Prop := t.now + 100000 ≤ T ∧ T ≤ t.now + 1000000000000
    (s.admitsWrite q 0x5000 1 [1] = some (n, t) → let u := t.replied n q 0x5000 1 [1]
      (T = 0 → exec (.monitorSnapshotAll q) s = .next ((u 0).snapshotAll false t.now)) ∧
      (ahead → exec (.monitorSnapshotAll q) s = .next { u 0 with snapshotAt := some (T, false) }) ∧
      (T ≠ 0 → ¬ ahead → exec (.monitorSnapshotAll q) s = .next (u 0x07))) ∧
    (s.admitsWrite q 0x5000 1 [2] = some (n, t) → let u := t.replied n q 0x5000 1 [2]
      (T = 0 → exec (.monitorSnapshotClearAll q) s = .next ((u 0).snapshotAll true t.now)) ∧
      (ahead → exec (.monitorSnapshotClearAll q) s = .next { u 0 with snapshotAt := some (T, true) }) ∧
      (T ≠ 0 → ¬ ahead → exec (.monitorSnapshotClearAll q) s = .next (u 0x07))) ∧
    (s.admitsWrite q (monObj ch) 5 [1] = some (n, t) → let u := (t.replied n q (monObj ch) 5 [1] 0).rollFirst ch t.now
      exec (.monSnapshot q ch) s = .next (u.snapshot ch u.now)) ∧
    (s.admitsWrite q (monObj ch) 5 [2] = some (n, t) → let u := (t.replied n q (monObj ch) 5 [2] 0).rollFirst ch t.now
      exec (.monSnapshotClear q ch) s = .next (u.snapshotClear ch u.now)) ∧
    (s.admitsWrite q (monObj ch) 5 [3] = some (n, t) → let u := (t.replied n q (monObj ch) 5 [3] 0).rollFirst ch t.now
      exec (.monClear q ch) s = .next (u.clearMonitor ch u.now)) ∧
    (1 ≤ sub.toNat → sub.toNat ≤ 4 → s.admitsWrite q (monObj ch) sub.toNat value = some (n, t) →
      let v := writeMask (monObj ch) sub.toNat (ofLE value)
      let u := t.replied n q (monObj ch) sub.toNat value
      (t.monSettingOk ch sub.toNat v = true →
        let r := (u 0).rollFirst ch t.now
        let m := r.monitor ch
        let x := (r.setMonitor ch { m with flags := setBit m.flags 2 true }).snapshotClear ch r.now
        let y := (x.put (monObj ch) sub.toNat v).openWindow ch x.now
        exec (.monConfigWrite q ch sub value) s = .next (y.clearMonitor ch y.now)) ∧
      (t.monSettingOk ch sub.toNat v = false → exec (.monConfigWrite q ch sub value) s = .next (u 0x07)))

/-- For an enabled channel whose source serves, in a state in canonical form: an event whose stamp lies in the window and the interval,
every 2^SAMPLE_SHIFT-th of those seen, and within the rate, raises the count by one, the sum by its value within 64 bits signed, keeps
the least and the greatest, and raises its bin by one up to 2^48 - 1; a stamp before the interval changes nothing, nor does any event of
a disabled channel, nor one at or after the end of a single window; one at or after the end of a repeating window waits for its roll. At
its window's end a repeating window rolls over and a single one only stops; before its window's start a channel's interval begins there;
a waiting module-wide snapshot is taken at its instant. -/
def Obligations.MonitorEventsEnterTheStatistics : Prop :=
  ∀ (ch : ChannelId) (x stamp : BitVec 64) (s : State), Canonical s →
    let v := s.monConfig ch
    let m := s.monitor ch
    let on := monEnable v = true ∧ monSource v ≠ 0 ∧ s.channelUp ch = true
    let within := max m.start m.opens ≤ stamp.toNat ∧ (m.closes = 0 ∨ stamp.toNat < m.closes)
    let late := m.closes ≠ 0 ∧ m.closes ≤ stamp.toNat
    (¬ (on ∧ max m.start m.opens ≤ stamp.toNat) ∨ (late ∧ s.get (monObj ch) 4 = 0) → exec (.monitorEvent ch x stamp) s = .next s) ∧
    (on → max m.start m.opens ≤ stamp.toNat → late → s.get (monObj ch) 4 ≠ 0 →
      exec (.monitorEvent ch x stamp) s = .next (s.setMonitor ch { m with early := m.early ++ [(x.toInt, stamp.toNat)] })) ∧
    (on → within → (m.seen + 1) % 2 ^ monSample v = 0 → (m.second = stamp.toNat / monRate → m.taken < monRate) →
      ∃ t, exec (.monitorEvent ch x stamp) s = .next t ∧
        (t.monitor ch).seen = m.seen + 1 ∧ (t.monitor ch).count = (m.count + 1) % 2 ^ 64 ∧
        (t.monitor ch).sum = max (-(2 ^ 63)) (min (2 ^ 63 - 1) (m.sum + x.toInt)) ∧
        (t.monitor ch).least = (if m.count = 0 then x.toInt else min m.least x.toInt) ∧
        (t.monitor ch).greatest = (if m.count = 0 then x.toInt else max m.greatest x.toInt) ∧
        (Tab.rising m.bins = true → Tab.get 0 (t.monitor ch).bins (monBin v x.toInt) = min (2 ^ 48 - 1) (Tab.get 0 m.bins (monBin v x.toInt) + 1)) ∧
        (∀ d, d ≠ ch.val → t.monitor d = s.monitor d) ∧ t.obj = s.obj ∧ t.mem = s.mem) ∧
    (monEnable v = true → m.closes ≠ 0 →
      let u := { s with now := max s.now m.closes }
      (s.get (monObj ch) 4 ≠ 0 → exec (.monitorWindowEnd ch) s = .next (u.rollWindow ch)) ∧
      (s.get (monObj ch) 4 = 0 → exec (.monitorWindowEnd ch) s = .next u)) ∧
    (monEnable v = true → s.now < m.opens →
      exec (.monitorWindowStart ch) s = .next ({ s with now := m.opens }.setMonitor ch { m with start := m.opens })) ∧
    (∀ T clear, s.snapshotAt = some (T, clear) →
      exec .snapshotInstantExpiry s = .next ({ s with now := max s.now T, snapshotAt := none }.snapshotAll clear T))

/-- Where something answers the source and a request is within the subset (a version 1.1 to 1.3, slot 0, a block that exists): GET_VERSION,
GET_CAPABILITIES, NEGOTIATE_ALGORITHMS, GET_DIGESTS, GET_CERTIFICATE, CHALLENGE and GET_MEASUREMENTS have their response and change
nothing else but the count of fresh bytes where they sign; KEY_EXCHANGE makes a secure session of the level its credential gives in the
lowest free slot, or is answered with SessionLimitExceeded; FINISH marks it finished; HEARTBEAT and KEY_UPDATE are noted; END_SESSION
and 100 s without a heartbeat close it. A request outside the subset is answered with UnsupportedRequest and changes nothing. -/
def Obligations.SpdmRequestsAreAnsweredWithinTheSubset : Prop :=
  ∀ (src : Source) (m : Spdm) (s : State), s.silent src = false →
    let good := m.ok = true ∧ m.version.toNat ∈ [0x11, 0x12, 0x13]
    let signed (u : State) (code : Nat) (body : Bytes) : State := (u.ownBytes 512).1.spdm src code (body ++ (u.ownBytes 512).2)
    (m.ok = true → exec (.getVersion src m) s = .next (s.spdm src 0x04 [0x11, 0x12, 0x13])) ∧
    (good → exec (.getCapabilities src m) s = .next (s.spdm src 0x61 (spdmCapabilities m.version.toNat)) ∧
      exec (.negotiateAlgorithms src m) s = .next (s.spdm src 0x63 spdmAlgorithms) ∧
      exec (.getDigests src m) s = .next (s.spdm src 0x01 (sha512 certificateChain)) ∧
      (m.param1 = 0 → exec (.getCertificate src m) s
          = .next (s.spdm src 0x02 (spdmCertificate (leAt m.body 0 2) (leAt m.body 2 2))) ∧
        exec (.challenge src m) s = .next (signed s 0x03 (sha512 certificateChain))) ∧
      (m.param2.toNat ≤ 11 ∨ m.param2.toNat = 0xFF → exec (.getMeasurements src m) s
        = .next (let b := s.blocks m.param2.toNat
                 if bit m.param1.toNat 0 then signed s 0x60 b else s.spdm src 0x60 b)) ∧
      (∀ n, s.freeSession = some n → exec (.keyExchange src m) s = .next
        (signed (s.setSession n (some { source := { src with env := none }, level := s.levelOf src m.leaf, secure := true
                                        lastRequest := s.now, heartbeat := s.now })) 0x64 (toLE 1 100 ++ toLE 1 n))) ∧
      (s.freeSession = none → exec (.keyExchange src m) s = .next (s.spdmError src 0x0A)) ∧
      (∀ x, s.session m.session = some x → x.secure = true →
        exec (.heartbeat src m) s = .next ((s.updSession m.session fun x => { x with heartbeat := s.now }).spdm src 0x68 []) ∧
        exec (.keyUpdate src m) s = .next ((s.updSession m.session fun x => { x with keyUpdates := x.keyUpdates + 1 }).spdm src 0x69 []) ∧
        exec (.endSession src m) s = .next ((s.spdm src 0x6C []).closeSession m.session))) ∧
    (∀ x, s.session m.session = some x → x.secure = true →
      (m.ok = true → exec (.finish src m) s = .next ((s.updSession m.session fun x => { x with finished := true }).spdm src 0x65 [])) ∧
      (m.ok = false → exec (.finish src m) s = .next ((s.closeSession m.session).spdmError src 0x07))) ∧
    (¬ good → ∀ y ∈ [Instr.getCapabilities src m, .negotiateAlgorithms src m, .getDigests src m, .getCertificate src m, .challenge src m,
        .getMeasurements src m, .keyExchange src m], exec y s = .next (s.spdmError src 0x07)) ∧
    (∀ (n : SessionId) x, s.session n = some x → x.secure = true →
      exec (.spdmHeartbeatTimeout n) s = .next ({ s with now := max s.now (x.heartbeat + 100 * 1000000000) }.closeSession n))

/-- Let a unit have the header its service needs, with s1 the state and f the findings a request without any carries. A request admitted by
session n in t whose checks give status 0: READ of at most 8 bytes is answered with the value, of more with 0x0D; WRITE is answered and
applied; READ_SEG_INIT is answered with the size and its first segments follow; WRITE_SEG_INIT is answered and opens the transfer. With
another status it is answered with that status and nothing else. A unit that reaches session n in t: SEGMENT of one of its writes and SEG_ACK
of one of its reads carry the transfer on, and are aborted with 0x0A where it has none; ABORT drops the transfer, EVENT_ACK ends the
re-sending of its event. -/
def Obligations.UnitsAreServedByTheirService : Prop :=
  ∀ (src : Source) (u : TchUnit) (s : State), u.envelope = src.env.isSome →
    let s1 := s.found.1
    let f := s.found.2
    let idx := u.index.toNat
    let sub := u.subindex.toNat
    let txn := u.transaction.toNat
    (∀ n t r, s1.admits src u = some (n, t) → objRow idx sub = some r →
      let rd := t.readStatus n idx sub u.type.toNat
      let wr (size : ObjRow → Nat) := t.writeStatus n idx sub u.type.toNat false size
      let x := t.readObject f r idx sub u.maquette
      (headerFits 0x01 u = true →
        (rd = 0 → (t.shown r idx sub u.maquette).length ≤ 8 → exec (.read src u) s = .next (x.1.answer n src u (replyTo src u 0 0 x.2))) ∧
        (rd = 0 → 8 < (t.shown r idx sub u.maquette).length → exec (.read src u) s = .next (t.answer n src u (replyTo src u 0x0D 0 []))) ∧
        (rd ≠ 0 → exec (.read src u) s = .next (t.answer n src u (replyTo src u rd 0 [])))) ∧
      (headerFits 0x02 u = true → let st := wr (expeditedSize u.data.length)
        (st = 0 → exec (.write src u) s
          = .next ((t.answer n src u (replyTo src u (t.applyWrite f n idx sub u.data).2 0 [])).applyWrite f n idx sub u.data).1) ∧
        (st ≠ 0 → exec (.write src u) s = .next (t.answer n src u (replyTo src u st 0 [])))) ∧
      (headerFits 0x03 u = true →
        (rd = 0 → x.2 ≠ [] → let y := x.1.sendUnit src (replyTo src u 0 x.2.length [])
          exec (.readSegInit src u) s = .next ((y.addTransfer n { txn := txn, write := false, index := idx, sub := sub, total := x.2.length
                                                                  data := x.2, next := 0, acked := 0, resends := 0, active := y.now }).pumpRead n txn 4)) ∧
        (rd = 0 → x.2 = [] → exec (.readSegInit src u) s = .next (x.1.sendUnit src (replyTo src u 0 0 []))) ∧
        (rd ≠ 0 → exec (.readSegInit src u) s = .next (t.refuse src u rd))) ∧
      (headerFits 0x04 u = true → let st := wr (segmentedSize u.param.toNat)
        (st = 0 → exec (.writeSegInit src u) s = .next ((t.sendUnit src (replyTo src u 0 0 [])).addTransfer n { txn := txn, write := true
                                                                                                                index := idx, sub := sub, total := u.param.toNat, data := [], next := 0, acked := 0, resends := 0, active := t.now })) ∧
        (st ≠ 0 → exec (.writeSegInit src u) s = .next (t.refuse src u st)))) ∧
    (∀ n t, s1.reaches src u = some (n, t) →
      (headerFits 0x05 u = true → ∀ tr, t.transfer n txn = some tr → tr.write = true →
        exec (.segment src u) s = .next (t.serveSegment f n tr u)) ∧
      (headerFits 0x05 u = true → t.transfer n txn = none → exec (.segment src u) s = .next (t.noTransfer src u)) ∧
      (headerFits 0x06 u = true → ∀ tr, t.transfer n txn = some tr → tr.write = false → exec (.segAck src u) s = .next (t.segAck n u)) ∧
      (headerFits 0x06 u = true → t.transfer n txn = none → exec (.segAck src u) s = .next (t.noTransfer src u))) ∧
    (∀ n t, s.reaches src u = some (n, t) →
      (headerFits 0x07 u = true → exec (.abort src u) s = .next (t.dropTransfer n txn)) ∧
      (headerFits 0x11 u = true → exec (.eventAck src u) s = .next (t.ackEvent src u.param.toNat)))

/-- Let a read of one of these objects be admitted by session n in t with status 0. MIN_VOLTAGE_READ answers with the 16 bytes of the
record's stamp and least voltage and sends their segment, and the record then begins anew at the present time and voltage.
RX_BUFFER_PEAK_READ answers with the peak the object held, and the object then holds the bytes the port's receive buffer has taken up. -/
def Obligations.RestartingReadsReturnAndRestart : Prop :=
  ∀ (q : Req) (s : State) (n : Nat) (t : State),
    (∀ (whole : Bool) (point : BitVec 8) (present : BitVec 32), let idx := if whole then 0x3031 else 0x3030
      let u := reqUnit q 0x03 idx (point.toNat + 1) []
      point.toNat < 255 → s.admits q.src u = some (n, t) → t.readStatus n idx (point.toNat + 1) 0 = 0 →
      let x := t.readVoltage idx (point.toNat + 1) present.toNat
      let y := x.1.sendUnit q.src (replyTo q.src u 0 16 [])
      exec (.minVoltageRead q whole point present) s = .next ((y.addTransfer n { txn := q.txn.toNat, write := false, index := idx
                                                                                 sub := point.toNat + 1, total := 16, data := x.2, next := 0, acked := 0, resends := 0, active := y.now }).pumpRead n q.txn.toNat 4) ∧
      x.1 = { t with fresh := t.fresh + 2 }.put idx (point.toNat + 1) (t.now + present.toNat * 2 ^ 64) ∧ x.2.length = 16) ∧
    (∀ p : PortId, let u := reqUnit q 0x01 (portObj p) 0x08 []
      s.admits q.src u = some (n, t) → t.readStatus n (portObj p) 0x08 0 = 0 →
      exec (.rxBufferPeakRead q p) s = .next ((t.put (portObj p) 0x08 (t.bufferUsed p)).answer n q.src u
        (replyTo q.src u 0 0 (toLE 4 (t.get (portObj p) 0x08)))))

/-- A read of which segments are unacknowledged is sent again from the first of them, at most three times, and then aborted with TIMEOUT. A
transfer without activity for 1 s is aborted with TIMEOUT. A session without a request for 300 s is closed. An event unacknowledged
after 10 ms is sent again to its subscriber under its number, at most three times, and is then dropped for that subscriber. -/
def Obligations.SessionTimersResendAbortOrClose : Prop :=
  ∀ (s : State),
    (∀ (n : SessionId) (txn : BitVec 16) t, s.transfer n txn.toNat = some t →
      (t.write = false → t.acked < t.next → t.resends < 3 →
        exec (.segmentResendTimeout n txn) s = .next ((List.range (t.next - t.acked)).foldl (fun u i => u.sendSegment n t (t.acked + i))
          (s.updTransfer n txn.toNat fun t => { t with resends := t.resends + 1 }))) ∧
      (t.write = false → t.acked < t.next → 3 ≤ t.resends → exec (.segmentResendTimeout n txn) s = .next (s.abortTransfer n t 0x0B)) ∧
      exec (.transferIdleTimeout n txn) s = .next ({ s with now := max s.now (t.active + 1000000000) }.abortTransfer n t 0x0B)) ∧
    (∀ (n : SessionId) x, s.session n = some x →
      let u : State := { s with now := max s.now (x.lastRequest + 300 * 1000000000) }
      exec (.sessionIdleTimeout n) s = .next (u.closeSession n)) ∧
    (∀ (k : Fin 8) (seq : BitVec 32) x, (s.unacked.find? fun x => x.subscriber = k.val && x.seq = seq.toNat) = some x →
      (3 ≤ x.resends → exec (.eventResendTimeout k seq) s = .next { s with unacked := s.unacked.erase x }) ∧
      (∀ e, x.resends < 3 → s.events.find? (fun e => e.seq = seq.toNat) = some e →
        exec (.eventResendTimeout k seq) s = .next { s.emit (.event k.val (eventUnit e)) with
          unacked := s.unacked.map fun y => if y = x then { y with resends := y.resends + 1, sent := s.now } else y }))

/-- While a swap distributes, a target's good image acknowledgement takes it from the list, and a bad CRC or 50 µs sends again; with none left
the swap is armed. Armed with GO sent, a GO acknowledgement takes the target from its list. Swapping, a confirmation takes it from its list;
with none left the swap is counted, sets state 4 and ends. An owner's swap still distributing gives way, with reason 6, to a change that a
fault asks for. An armed swap at the quiescent point, all its jobs quiet, sends GO for 20 µs later. A quiesce limit before GO aborts with
reason 3, a chosen instant less 100 µs without every GO aborts with reason 2. At the instant, every GO acknowledged, the maquette becomes
the active set. A reset that waits goes on after each; a control operation whose quiesce time has run out ends with BUSY. -/
def Obligations.SwapsAdvanceByAcknowledgementAndTime : Prop :=
  ∀ (s : State) (t : TargetId) (crc : Bool),
    let w := s.swap
    let swap (x : Swap) : State := { s with swap := x }
    (s.swapState = 1 → w.image.contains t.val = true →
      exec (.targetAck t .image false) s = .next (s.resendImage [t.val]).continueReset ∧
      exec (.targetAck t .image true) s = .next ((swap { w with image := w.image.erase t.val }).pumpChanges).continueReset) ∧
    (s.swapState = 2 → w.goSent = true → exec (.targetAck t .go crc) s = .next (swap { w with go := w.go.erase t.val }).continueReset) ∧
    (s.swapState = 3 → w.confirm.contains t.val = true →
      exec (.targetAck t .swapped crc) s = .next ((swap { w with confirm := w.confirm.erase t.val }).pumpChanges).continueReset) ∧
    ((s.swapState = 1 → w.image = [] → s.advanceSwap = (s.setSwapState 2).sendGo) ∧
      (s.swapState = 3 → w.confirm = [] → s.advanceSwap = ((s.count 0xF000 3 32 1).setSwapState 4).endSwap true) ∧
      (s.advanceSwap.changes = [] → s.pumpChanges = s.advanceSwap) ∧
      (s.swapState = 1 → w.image ≠ [] → w.purpose = .owner → s.unmanaged = false → s.changes.any Change.ofFault = true →
        let u := s.abortSwap 0x06 []
        s.pumpChanges = u.startChanges (u.changes.length + u.tests.length + 1))) ∧
    (s.swapState = 1 → exec .targetAckTimeout s = .next (s.resendImage w.image).continueReset) ∧
    (s.swapState = 2 → w.goSent = false → w.atQuiescent = true → w.jobs.all s.jobQuiet = true →
      exec .quiescePointReached s
        = .next ((swap { w with goSent := true, go := s.targets, instant := s.now + 20000 }).tryQuiesced).continueReset) ∧
    ([1, 2].contains s.swapState = true → w.jobs ≠ [] → w.goSent = false →
      exec .quiesceTimeout s = .next (({ s with now := max s.now (w.accepted + s.get 0xF000 6 * 1000000) }.abortSwap 3 []).pumpChanges)) ∧
    ([1, 2].contains s.swapState = true → w.atQuiescent = false → s.goAcked = false →
      exec .swapTooLate s = .next (({ s with now := max s.now (w.instant - 100000) }.abortSwap 2 []).pumpChanges).continueReset) ∧
    (s.swapState = 2 → s.goAcked = true →
      let v := { s with now := max s.now w.instant }.setSwapState 3
      let u := if w.purpose = .routes then v.applyEdits.routesActive else v.applyEdits
      exec .swapInstant s = .next { u with swap := { u.swap with confirm := u.targets } }) ∧
    (s.resetting.waitJobs = true →
      exec .controlQuiesceTimeout s = .next { s with now := max s.now (s.resetting.start + s.get 0x2540 1 * msNs) }.finishReset) ∧
    (s.resetting.waitJobs = false → ∀ i, s.runningControl = some i → i.control = 3 ∨ i.control = 4 →
      let u : State := { s with now := max s.now (i.started + s.jobGet i.job 6 * 1000) }
      exec .controlQuiesceTimeout s
        = .next (((u.updJob i.job fun b => { b with quiesce := false }).releaseQuiesce i.job).controlEnds i 0x08))

/-- When VIN enters 46 to 56 V, the state is what flash keeps, with the energy counter from flash, and boots; outside that range nothing
happens. RESET_L low for 10 µs or longer with VIN at or above 36 V sets device_state 5, takes the high-speed links down, abandons the
running items and stops their jobs, saves wear and energy, takes the cold state, and holds the module in reset; a shorter pulse does
nothing. The release of RESET_L boots it. When the wait for the PTP lock has run out the module is READY without it. What power leaves:
no memory, no cores, no items, no sessions, no connections, no maquette, no events. -/
def Obligations.StartsKeepWhatTheirKindKeepsAndBoot : Prop :=
  ∀ (s : State) (f : BringUp) (ns : BitVec 64),
    (46000 ≤ f.vin.toNat → f.vin.toNat ≤ 56000 →
      exec (.powerOn f) s = .next ((State.put { s.powerOnState with power := { s.powerOnState.power with vin := f.vin.toNat } } 0x3040 0x01
        s.powerOnState.power.energyFlash).boot f true)) ∧
    (f.vin.toNat < 46000 ∨ 56000 < f.vin.toNat → exec (.powerOn f) s = .next s) ∧
    (10000 ≤ ns.toNat → 36000 ≤ s.power.vin →
      let u := (s.setDevice 5).dropLinks (List.range 17)
      let v := u.runningJobs.foldl (fun v j => (v.endStarted j 3 0).stopJob j) u.endRunningControl
      exec (.resetContact ns) s
        = .next { v.flushWear.flushEnergy.coldState.restartMonitors with resetting := { kind := 3, start := s.now, heldLow := true } }) ∧
    (ns.toNat < 10000 → exec (.resetContact ns) s = .next s) ∧
    (s.resetting.heldLow = true →
      exec (.resetLRelease f) s = .next (State.boot { s with resetting := { s.resetting with heldLow := false } } f false)) ∧
    (s.resetting.heldLow = false → exec (.resetLRelease f) s = .next s) ∧
    (∀ T, s.resetting.waitPtp = some T →
      exec .ptpLockWaitExpiry s = .next (State.ready { s with now := max s.now (T + s.get 0x4202 0x02 * msNs) })) ∧
    (s.powerOnState.mem = [] ∧ s.powerOnState.cores = [] ∧ s.powerOnState.items = [] ∧ s.powerOnState.sessions = [] ∧
      s.powerOnState.conns = [] ∧ s.powerOnState.maq = [] ∧ s.powerOnState.events = [] ∧ s.powerOnState.eventSeq = 0)

/-- Draining groups of a core that have no request left go to off, zeroed, where their target is off, and else to retention; waking groups
are on, and go on into Hold or Keep where that is being entered; each may be the last that a power state waited for. A held layout of an idle, fenced or out-of-service core is applied: groups
whose code changes are zeroed. A scrub of a core's scratchpad takes the upsets found in groups that are on and is counted; no step is
marked. In Run, with no transition and no array streaming, the module enters Idle. -/
def Obligations.GroupsDrainWakeAndAreScrubbed : Prop :=
  ∀ (c : CoreId) (ups : List Upset) (s : State),
    (let gs := s.groupsIn c [2]
     let off := gs.filter fun g => Tab.get 3 (s.core c).groupGoal g = 4
     let u := off.foldl (fun s g => s.zeroGroup c g) s
     exec (.groupDrainEnd c) s = .next (((u.setGroups c fun g v => if gs.contains g then (if off.contains g then 4 else 3) else v).updCore c
       fun k => { k with groupGoal := [] }).settlePower)) ∧
    (let u := s.setGroups c fun g v => if (s.groupsIn c [5]).contains g then 0 else v
     (s.entering.all (decide <| · < 3) = true → exec (.groupWakeEnd c) s = .next u.settlePower) ∧
     (∀ goal, s.entering = some goal → 3 ≤ goal → exec (.groupWakeEnd c) s = .next (u.lowerGroups c goal).settlePower)) ∧
    (s.get (coreObj c + 1) 1 ≠ s.layoutApplied c → (s.core c).state ∈ [0, 5, 6] →
      let new := s.get (coreObj c + 1) 1
      let u := (List.range 8).foldl (fun u g => if bits new (3 * g) 3 = bits (s.layoutApplied c) (3 * g) 3 then u else u.zeroGroup c g) s
      exec (.spLayoutApply c) s = .next (u.put (coreObj c + 1) 2 new)) ∧
    (s.get (coreObj c + 1) 1 = s.layoutApplied c ∨ ¬ (s.core c).state ∈ [0, 5, 6] → exec (.spLayoutApply c) s = .next s) ∧
    (let on (u : Upset) : Bool := spaceOf u.addr.toNat = 1 && spCore u.addr.toNat = c.val && s.groupState c (groupOf u.addr.toNat) = 0
     exec (.spScrubInterval c ups) s = .next (((ups.filter on).foldl (fun v x => v.takeUpset none x) s).bump (coreObj c + 1) 0x0A)) ∧
    (s.powerState = 0 → s.entering = none → (s.cores.any fun e => e.2.streams) = false → exec .idleEntry s = .next (s.setPowerState 1))

/-- A position in use of a serving layer's direction that fails for the first time is logged with the action its width gives, and its link is
counted out of the good ones: with the width unchanged and a spare left, the spare is pending, and a second one holds the direction; the first
fall below 512 good links is logged as a half width, over which the positions are filled anew and held; below 256 the layer is lost. A pending
spare that is done takes its position, is counted and shown, and the last ends a hold. A layer not yet lost is logged, read lost in map and
objects, appended to the repair record and shown, its mirrors react, L1 takes the journal partition with it and the third layer the stack. A
stack is lost by its regulators. A scrub takes the upsets found on serving layers; a resync copies the survivor and pairs the entry; a reformat
ends; a lost partition's records move from its partner to another pair, and what they move is counted. (Which spare, and how half width is filled, is the model's choice: log entry 91.) -/
def Obligations.StacksSwapSparesNarrowLoseAndReformat : Prop :=
  ∀ (s : State) (k : StackId) (l : Fin 3) (dir : Sys2Proof.Dir) (pos : BitVec 16) (cause : BitVec 8) (ups : List Upset),
    let d := Dir.code dir
    let p := pos.toNat
    let old := s.channel k l d
    let c := { old with failed := old.failed ++ [old.linkOf p], charges := Tab.set [] old.charges p [] }
    let serves := s.stackLost k = false ∧ s.layerLost k l = false
    let inUse := p < old.positions ∧ (old.pending.any (·.1 = p)) = false
    let logged (action : Nat) : State := s.fault { cls := 0x03, action := action, tile := s.stackTile k, stack := k, layer := l
                                                   detail := toLE 1 d ++ toLE 2 p ++ toLE 2 (old.linkOf p) }
    (serves → inUse →
      (256 ≤ c.good → c.half = old.half →
        (∀ x, c.spare = some x → exec (.coilLinkFail k l dir pos) s = .next ((logged 0x01).setChannel k l d
          { c with pending := c.pending ++ [(p, x)], held := c.held || !c.pending.isEmpty }).endLost) ∧
        (c.spare = none → exec (.coilLinkFail k l dir pos) s = .next ((logged 0x01).setChannel k l d c).endLost)) ∧
      (256 ≤ c.good → c.half = true → old.half = false → exec (.coilLinkFail k l dir pos) s = .next (((logged 0x02).fault
        { cls := 0x04, action := 0x02, tile := (logged 0x02).stackTile k, stack := k, layer := l, detail := toLE 1 d ++ toLE 2 c.good
          cause := s.faultNext }).setChannel k l d { c.halve with held := true }).endLost) ∧
      (c.good < 256 → exec (.coilLinkFail k l dir pos) s = .next ((((logged (if c.half = old.half then 0x01 else 0x02)).updChannel k l d
        fun _ => c).loseLayer k l 0 s.faultNext)).endLost)) ∧
    (¬ (serves ∧ inUse) → exec (.coilLinkFail k l dir pos) s = .next s.endLost) ∧
    (serves →
      (∀ q x r, old.pending = (q, x) :: r → exec (.spareSwapDone k l dir) s = .next
        ((s.setChannel k l d { old.assign q x with pending := r, held := old.held && !r.isEmpty }).bump (0x4500 + k) 0x04)) ∧
      (old.pending = [] → old.held = true →
        exec (.spareSwapDone k l dir) s = .next (s.updChannel k l d fun c => { c with held := false }))) ∧
    (s.stackLost k = false →
      let here (u : Upset) : Bool := spaceOf u.addr.toNat = 0 && stackOf u.addr.toNat = k.val && !s.locationLost u.addr.toNat
      exec (.dramScrubInterval k ups) s = .next (((ups.filter here).foldl (fun v x => v.takeUpset none x) s).bump (0x4500 + k) 0x0A)) ∧
    exec (.stackReformatDone k) s = .next { s with reformatting := s.reformatting.filter (· ≠ k.val) } ∧
    (∀ (e : Fin 64) p m n, mirrorEntry (s.get 0x2700 (e.val + 1)) = some (p, m, n) → s.mirrorState e = 3 → exec (.mirrorResyncDone e) s
      = .next ((if s.mirrorSurvivor e then s.copyMem m p n else s.copyMem p m n).setMirror e 1 false)) ∧
    (∀ (p : Fin 24) g, s.partitionLost p = true → Tab.get false s.intake.copied p = false → s.partitionLost ((p.val + 12) % 24) = false →
      s.choosePair = some g →
      let moved := s.items.filter fun i => i.pair = p.val % 12
      let u := moved.foldl (fun u i => [g, g + 12].foldl (fun u q => u.countWritten (u.partitionAddr q) i.recordBytes)
        (u.count (0x4500 + u.stackOn ((p.val + 12) % 24)) 0x0B 64 i.recordBytes)) s
      exec (.journalPartitionCopy p) s = .next (State.fault
        { u with items := u.items.map fun i => if i.pair = p.val % 12 then { i with pair := g } else i
                 intake := { u.intake with nextPair := (g + 1) % 12, copied := Tab.set false u.intake.copied p true } }
        { cls := 0x16, action := 0x01, detail := toLE 1 p ++ toLE 1 g ++ toLE 4 moved.length })) ∧
    exec (.vmemVppShort k) s = .next (s.loseStack k 1).endLost ∧
    (serves →
      let u := s.fault { cls := 0x05, action := 0x08, tile := s.stackTile k, stack := k, layer := l, detail := toLE 1 cause.toNat }
      let u := (u.put 0x4100 (k + 0x17) (setBit (u.get 0x4100 (k + 0x17)) (5 + l) true)).setLayerField k l 0 4 0b1010
      let u := if l.val = 1 then u.losePartition (u.stackTile k) else u
      let u := u.appendRepair 0x06 (s.stackTile k) (toLE 1 l ++ toLE 1 cause.toNat)
      let u := (u.showStack k).mirrorsAfterLoss
      exec (.layerFault k l cause) s = .next (if (u.layersUp k).isEmpty then u.loseStack k 2 s.faultNext else u).endLost) ∧
    (s.stackLost k = true → exec (.layerFault k l cause) s = .next s.endLost ∧ exec (.vmemVppShort k) s = .next s.endLost)

/-- On a link up and not held, both its hubs out of reset, a flit whose SEQ its sender still keeps is that flit again; one with the sender's next
SEQ, of a form that a hub sends and with room and credit for it, is sent, kept for a resend, its escape packet and request counted; no other
comes. A flit that comes is taken where its CRC is good and its SEQ the one expected: SEQ advances, its ACK and credits free the other side,
what waited there goes on, and a packet is placed; another changes nothing. A retry timeout counts and, at the fourth in 1 ms, holds the
direction; lane retry releases it at the width its good wires give. A down link asks for routes, and a swap of the controller's own carries
them. A hub to be reset is noted with its cause, asks for tables without it, and enters reset by them, its layers in self-refresh; its end puts
it back, or it is dead. A request that backed off or arrives is carried out as its hub allows; one without a response is sent again three times
at most, then given up. -/
def Obligations.LinksDeliverInOrderAndHubsResetOrReroute : Prop :=
  ∀ (s : State) (l : LinkId) (dir : Sys2Proof.LinkDir) (f : Flit) (h : TileId) (r : RequestId),
    let d := LinkDir.code dir
    let k := s.linkSide l d
    let live := s.linkDown l = false ∧ k.held = false ∧ s.hub (linkHubs l d).1 ≠ 1 ∧ s.hub (linkHubs l d).2 ≠ 1
    let kept := k.buffer.find? fun g => g.seq = f.seq
    (live → ∀ g, kept = some g → exec (.flitReceive l dir f) s = .next (s.flitIn l d { g with crcOk := f.crcOk })) ∧
    (live → kept = none → f.seq.toNat = k.next → s.sideOpen l d = true → ∀ g, s.injected l d f = some g →
      let first : Bool := carries g && g.head
      let a := if first && g.escape then s.bump 0x4603 4 else s
      let b := if first && g.vc.val = 0 && decide (g.src.toNat < 24)
        then { a with requests := Tab.upd [] a.requests g.src.toNat (· ++ [g.txn.toNat]) } else a
      let u := b.sendFlit l d (entryPort g) g
      ∀ x, (u.linkSide l d).buffer.getLast? = some x → exec (.flitReceive l dir f) s = .next (u.flitIn l d { x with crcOk := f.crcOk })) ∧
    (¬ live ∨ (kept = none ∧ (f.seq.toNat ≠ k.next ∨ s.sideOpen l d = false ∨ s.injected l d f = none)) →
      exec (.flitReceive l dir f) s = .next s) ∧
    (f.crcOk = false ∨ f.seq.toNat ≠ k.expect → s.flitIn l d f = s) ∧
    (f.crcOk = true → f.seq.toNat = k.expect →
      let u := ((s.updLink l d fun k => { k with expect := (k.expect + 1) % 256 }).updLink l (1 - d)
        fun k => (k.acked f.ack.toNat).credited f.credit.toNat).drain l (1 - d)
      s.flitIn l d f = if carries f then u.placeFlit (linkHubs l d).2 (inPort l d) f else u) ∧
    (k.buffer ≠ [] → k.held = false → s.linkDown l = false →
      let recent := (k.retries.filter fun t => decide (s.now < t + 1000000)) ++ [s.now]
      exec (.linkRetryTimeout l dir) s = .next ((s.bump 0x4601 (l + 1)).updLink l d fun k =>
        { k with retries := if 4 ≤ recent.length then [] else recent, held := decide (4 ≤ recent.length) })) ∧
    (∀ wires : List (BitVec 16), k.held = true →
      let failed := (k.failed ++ wires.map (·.toNat)).eraseDups.filter (· < 8384)
      let good := 8384 - failed.length
      let width := wiresWidth good
      let u := s.updLink l d fun k => { k with held := false, failed := failed }
      let v := if good = k.good then u else (u.fault { cls := 0x08, action := if width = 0 then 0x01 else if width = 1 then 0x02 else 0x00, link := l
                                                       detail := toLE 1 d ++ toLE 2 (k.good - good) ++ toLE 1 width }).count 0x4602 (l + 1) 64 (k.good - good)
      let w := v.change 0x4600 (l + 1) (linkValue (s.get 0x4600 (l + 1)) d good width)
      exec (.laneRetry l dir wires) s = .next (if width = 2 then w else w.drain l d)) ∧
    (s.linkDown l = true → exec (.linkDownReport l) s = .next (s.reroute l).pumpChanges) ∧
    (s.linkDown l = false → exec (.linkDownReport l) s = .next s.pumpChanges) ∧
    (∀ cause : BitVec 8,
      (s.unmanaged = false → s.hub h = 0 → Tab.get 0 s.hubResets h = 0 → exec (.hubReset h cause) s = .next (State.askRoutes
        { s with hubResets := Tab.set 0 s.hubResets h (1 + cause.toNat + 512 * s.get (0x4500 + s.stackOn h) 9) }).pumpChanges) ∧
      (s.unmanaged = true ∨ s.hub h ≠ 0 ∨ Tab.get 0 s.hubResets h ≠ 0 → exec (.hubReset h cause) s = .next s.pumpChanges)) ∧
    (s.hub h = 0 → Tab.get 0 s.hubResets h ≠ 0 → s.enterReset h = State.hubRefresh { s with hubs := Tab.set 0 s.hubs h 1 } h true) ∧
    (∀ ok, s.hub h = 1 →
      let v := Tab.get 0 s.hubResets h
      let given := (s.get (0x4500 + s.stackOn h) 9 + 2 ^ 64 - v / 512) % 2 ^ 32
      let u := s.fault { cls := 0x0A, action := if ok then 0x01 else 0x08, tile := h, detail := toLE 1 (v % 512 - 1) ++ toLE 4 given }
      let u : State := { u with hubResets := Tab.set 0 u.hubResets h 0 }
      exec (.hubResetDone h ok) s = .next (if ok
        then (State.hubRefresh { u with hubs := Tab.set 0 u.hubs h 0 } h false).askRoutes.releaseHeld.advanceGroups
        else (State.hubDead { u with fresh := u.fresh + 1 } h (Config.deviceByte u.fresh) s.faultNext).askRoutes).pumpChanges) ∧
    (∀ t, s.txn r = some t →
      (t.phase = 1 → exec (.retryBackoffExpiry r) s = .next (s.atHub r t)) ∧
      (t.phase = 0 → exec (.transactionArrival r) s = .next (s.atHub r t)) ∧
      (t.phase = 2 → exec (.transactionArrival r) s = .next (s.bump 0x4603 2)) ∧
      (t.phase = 0 → t.resends < 3 →
        exec (.armatureResendTimeout r) s = .next ((s.setTxn r (some { t with resends := t.resends + 1 })).bump 0x4603 1)) ∧
      (t.phase = 0 → 3 ≤ t.resends →
        exec (.armatureResendTimeout r) s = .next ((s.failWaiting t (giveUpStatus t.address)).setTxn r none)))

/-- A port with a mode to train in comes up at it, narrowed where the mode is not the configured one, its connections go on, and H0 reads moved
once F0 is up with the host role; a port that is up, or has no mode, does not, and H0 without its role is only ready. A lane failing for the
first time is entered as a fault of class 0x11 and counted; where the port uses it, the port retrains on its good lanes or goes down. A port
still training after 10 ms is down, or, 20 ms after a reset of its station, failed. With H0 down, F0 takes the host role: its own connections
move, H0's end, and it trains. A station reset is a fault of class 0x12, takes the port down, discards buffers and queues and retrains. -/
def Obligations.PortsTrainMoveAndFail : Prop :=
  ∀ (s : State) (p : PortId) (lane : Fin 8) (cause : BitVec 8),
    let away := p.val = 0 ∧ (s.portOf 0).roleMoved = true
    (let u := if s.get (portObj p) 0x02 = 0 then s.trainPort p else s
     let m := u.get (portObj p) 0x02
     let v := u.updPort p fun q => { q with afterReset := false }
     (¬ away → s.portUp p = false → m ≠ 0 → exec (.portLinkUp p) s
       = .next (((v.change (portObj p) 0x01 (if m = v.portMode p then 2 else 3)).portCameUp p).roleStands p)) ∧
     (¬ away → s.portUp p = false → m = 0 → exec (.portLinkUp p) s = .next u)) ∧
    (away → exec (.portLinkUp p) s = .next (s.updPort 0 fun q => { q with ready := true })) ∧
    (¬ away → s.portUp p = true → exec (.portLinkUp p) s = .next s) ∧
    (s.portState p ∈ [1, 2, 3] → bit (s.get (portObj p) 0x03) lane = true →
      let used := s.laneUsed p lane
      let u := s.put (portObj p) 0x03 (setBit (s.get (portObj p) 0x03) lane false)
      let m := if used then u.modeWithout p else some (u.get (portObj p) 0x02, (u.portOf p).highGroup)
      let v := (u.fault { cls := 0x11, action := if used && m.isSome then 0x02 else 0x00, port := p
                          detail := toLE 1 lane ++ toLE 1 ((m.map (·.1)).getD 0) }).countRare (portObj p) 0x0A
      exec (.laneFail p lane) s = .next (if used then v.trainIn p m else v)) ∧
    (¬ (s.portState p ∈ [1, 2, 3] ∧ bit (s.get (portObj p) 0x03) lane = true) → exec (.laneFail p lane) s = .next s) ∧
    (s.portState p = 1 →
      let u : State := { s with now := max s.now ((s.portOf p).downSince + (if (s.portOf p).afterReset then 20000000 else 10000000)) }
      exec (.portDownTimeout p) s = .next ((u.change (portObj p) 0x01 (if (s.portOf p).afterReset then 4 else 0)).watch)) ∧
    (s.portState p ≠ 1 → exec (.portDownTimeout p) s = .next s) ∧
    (s.get 0x2600 0x0A ≠ 0 → (s.portOf 0).roleMoved = false → s.portUp 0 = false → s.portMode 0 ≠ 0 →
      let u : State := if s.portState 0 = 4 then s else { s with now := max s.now ((s.portOf 0).downSince + 10000000) }
      exec .hostRoleMove s = .next ((((u.leaveUp 1 0).dropPort 0).updPort 0 fun q => { q with roleMoved := true }).trainPort 1)) ∧
    (s.unmanaged = false →
      let u := (s.fault { cls := 0x12, action := 0x01, port := p, detail := toLE 1 cause.toNat }).countRare (portObj p) 0x0B
      let v := if u.portState p = 5 then u else u.leaveUp p 0
      let w := v.updPort p fun q => { q with buffer := [], transmit := [], paused := [], xoff := false, afterReset := true, ready := false }
      exec (.ringStationReset p cause) s = .next (if u.portState p = 5 then w else w.trainPort p))

/-- A frame at an up port is counted. At a high-speed port its FEC codewords are too; with a bad FCS, with no room in the 32 MiB buffer, or, at a
fabric port, where it is an IPv4 or a flow-control frame, it is dropped and counted; a datagram to ctp_udp_port waits in the buffer as a packet
where its TYPE is listed and is discarded and counted otherwise; what carries none leaves the buffer at once. Buffering keeps the highest
occupancy and sends XOFF past the mark. Ports 17 and 18 take only field frames of the three forms to their address. A flow-control frame at the
host port stops its transmitter, by priority under PFC, for the quanta given, each of 512 bit times at its rate, 0 resuming it; a fabric port
drops it. At the end of the pause that ends first what was held is sent as far as no pause stops it. While space stays low XOFF is repeated,
else XON is sent. A port that is not up does nothing. -/
def Obligations.FramesAreBufferedAndPaused : Prop :=
  ∀ (s : State) (p : PortId) (f : Frame) (w : FlowFrame),
    (∀ q : Fin 19, s.portUp q = false → exec (.frameReceive q f) s = .next s) ∧
    (s.portUp p = false → exec (.pauseReceive p w) s = .next s) ∧
    (s.portUp p = true →
      let q : Fin 19 := ⟨p, by omega⟩
      let n := f.length.toNat
      let u := ((s.bump (portObj p) 0x06).count (portObj p) 0x04 64 f.fecCorrected.toNat).count (portObj p) 0x05 64 f.fecUncorrected.toNat
      let drop := u.bump (portObj p) 0x07
      let through := (u.bufferFrame p n none).unbufferFrame p n
      let host : Bool := p.val = u.hostPort
      (f.fcsOk = false ∨ bufferBytes < u.bufferUsed p + cellsOf n → exec (.frameReceive q f) s = .next drop) ∧
      (f.fcsOk = true → u.bufferUsed p + cellsOf n ≤ bufferBytes →
        (∀ dest a, f.kind = .udp dest a →
          (a.source = none → host = false → exec (.frameReceive q f) s = .next drop) ∧
          (¬ (a.source = none ∧ host = false) →
            (dest.toNat ≠ u.get (0x2600 + p) 0x05 → exec (.frameReceive q f) s = .next through) ∧
            (dest.toNat = u.get (0x2600 + p) 0x05 → knownType a.packet.type.toNat = true →
              exec (.frameReceive q f) s = .next (u.bufferFrame p n (some a))) ∧
            (dest.toNat = u.get (0x2600 + p) 0x05 → knownType a.packet.type.toNat = false →
              exec (.frameReceive q f) s = .next (through.bump (portObj p) 0x0D)))) ∧
        (f.kind = .ip4 → exec (.frameReceive q f) s = .next (if host then through else drop)) ∧
        (f.kind = .flow w → exec (.frameReceive q f) s = .next (if host then u.heedFlow p w else drop)) ∧
        (f.kind = .other → exec (.frameReceive q f) s = .next through) ∧
        (∀ form, f.kind = .field form → exec (.frameReceive q f) s = .next through)) ∧
      (exec (.pauseReceive p w) s = .next (if p.val = (s.bump (portObj p) 0x06).hostPort then (s.bump (portObj p) 0x06).heedFlow p w
        else (s.bump (portObj p) 0x06).bump (portObj p) 0x07))) ∧
    (let stop (i q : Nat) (u : State) : State := u.updPort p fun x =>
       { x with paused := Tab.set 0 x.paused i (if q = 0 then 0 else s.now + max 1 (q * 512 / modeRate (s.get (portObj p) 0x02))) }
     (∀ q, s.get 0x2600 0x06 = 1 → s.heedFlow p (.pause q) = (stop 8 q.toNat s).resumePort p) ∧
     (∀ e ts, s.get 0x2600 0x06 = 2 → s.heedFlow p (.pfc e ts) = (((setPositions 8 e.toNat).filter fun i => bit (s.get 0x2600 0x07) i).foldl
       (fun u i => stop i (ts.getD i 0).toNat u) s).resumePort p) ∧
     (s.get 0x2600 0x06 = 0 → s.heedFlow p w = s.resumePort p)) ∧
    (∀ q : Fin 19, 17 ≤ q.val → s.portUp q = true →
      let u := s.bump (portObj q) 0x06
      let drop := u.bump (portObj q) 0x07
      (∀ form, f.kind = .field form → f.fcsOk = true → u.answersAt q f.dest.toNat = true → form.toNat ∈ [0x01, 0xE0, 0xE1] →
        exec (.frameReceive q f) s = .next u) ∧
      (∀ form, f.kind = .field form → f.fcsOk = false ∨ u.answersAt q f.dest.toNat = false ∨ form.toNat ∉ [0x01, 0xE0, 0xE1] →
        exec (.frameReceive q f) s = .next drop) ∧
      ((∀ form, f.kind ≠ .field form) → exec (.frameReceive q f) s = .next drop)) ∧
    (∀ e r, (s.portOf p).paused = e :: r →
      let T := (r.map (·.2)).foldl min e.2
      exec (.pauseExpiry p) s = .next ((({ s with now := max s.now T } : State).updPort p fun q =>
        { q with paused := q.paused.filter fun x => decide (T < x.2) }).resumePort p)) ∧
    ((s.portOf p).paused = [] → exec (.pauseExpiry p) s = .next s) ∧
    ((s.portOf p).xoff = true → exec (.xoffRefresh p) s
      = .next (if 8 * 2 ^ 20 < s.bufferUsed p then (s.emit (.xoff p s.flowPriorities)).bump (portObj p) 0x09 else s.sendXon p)) ∧
    ((s.portOf p).xoff = false → exec (.xoffRefresh p) s = .next s)

/-- An edge of presence seats a transceiver, or removes it with every reading and state cleared. A poll of a seated one that answers clears
the silent count, keeps its state, flags, temperature and supply, reads the identity where it changed, keeps the readings of eight lanes,
and adds to the wear record of a managed revision. A silent poll is counted; the fifth in a row sets bit 6 of xcvr_state. With none seated
nothing is polled. A flush writes the wear records as they stand to flash and changes nothing else. -/
def Obligations.TransceiversArePolledAndWearIsKept : Prop :=
  ∀ (s : State) (p : PortId) (d : Cmis),
    ((s.xcvr p).present = false → exec (.xcvrPoll p d) s = .next s ∧
      exec (.xcvrPresentEdge p true) s = .next (s.updXcvr p fun x => { x with present := true }) ∧
      exec (.xcvrPresentEdge p false) s = .next s) ∧
    ((s.xcvr p).present = true →
      exec (.xcvrPresentEdge p true) s = .next s ∧
      (let u := [1, 2, 3, 4, 5, 6].foldl (fun s i => State.put s (portObj p + 1) i 0) (s.updXcvr p fun _ => {})
       exec (.xcvrPresentEdge p false) s = .next ((u.change (portObj p + 1) 0x07 0).change (portObj p + 1) 0x08 0)) ∧
      (d.silent = true →
        let u := s.updXcvr p fun x => { x with silentPolls := x.silentPolls + 1 }
        exec (.xcvrPoll p d) s = .next (if 5 ≤ (s.xcvr p).silentPolls + 1 then u.setXcvrState p 6 true else u)) ∧
      (d.silent = false →
        let u := (s.updXcvr p fun x =>
          { x with silentPolls := 0, identifier := d.identifier.toNat, moduleState := d.moduleState.toNat, moduleFlags := d.moduleFlags
                   temperature := d.temperature.toNat, supply := d.supply.toNat, laneFlags := d.laneFlags }).setXcvrState p 6 false
        let v := if u.get (portObj p + 1) 0x01 = 0 ∨ (s.xcvr p).serial ≠ d.serial then u.newXcvr p d else u
        let lane (l : Nat) : Bytes := toLE 2 (d.bias.getD l 0).toNat ++ toLE 2 (d.txPower.getD l 0).toNat ++ toLE 2 (d.rxPower.getD l 0).toNat
        let w := v.put (portObj p + 1) 0x06 (ofLE ((List.range 8).flatMap lane))
        exec (.xcvrPoll p d) s = .next (if managedRevision d.revision.toNat then w.pollWear p d else w))) ∧
    exec .wearRecordFlush s = .next { s with wearFlash := s.wear }

/-- For each of the nine sequenced types: with no packet of the type at the front of the port's buffer nothing happens; a packet that fails a
check of R304 leaves the buffer, is discarded and counted; one that is next in order and whose destination does not answer stays, a hub in
reset counting its RETRY; any other leaves the buffer and is received. Received, an earlier PSN is acknowledged and not acted on; the one
expected, or one kept ahead, is held, and what is held is acted on in order, each by its type, up to a signal on its way or a destination that
does not answer, the expected PSN and the acknowledgements owed moving on; one kept ahead is acknowledged; one further ahead than the
connection keeps is not taken. In each case the header's acknowledgement and credit are taken, an acknowledgement is sent on request or at 16
owed, and a connection in closing closes once idle. -/
def Obligations.SequencedPacketsAreActedOnInOrder : Prop :=
  ∀ (s : State) (p : PortId) (ups : List Upset),
    let rows := [(0x10, Instr.work p), (0x20, .winWrite p ups), (0x21, .winReduceFp32 p ups), (0x22, .winReduceInt64 p ups),
      (0x23, .winReadReq p ups), (0x24, .winReadData p ups), (0x25, .winSignal p), (0x26, .winStatus p), (0x30, .mgmt p)]
    (∀ x ∈ rows, (s.frontPacket p x.1 = none → exec x.2 s = .next s) ∧
      ∀ a, s.frontPacket p x.1 = some a → s.admitted p a = none → exec x.2 s = .next ((s.takeFrame p).bump (portObj p) 0x0D)) ∧
    (∀ a n c, s.admitted p a = some (n, c) →
      let k := s.sourced p a.packet
      let waits : Prop := k.psn.toNat = c.expect ∧ c.keeps c.expect = true ∧ s.mustWait n k = true
      let received (ups : List Upset) : State := (s.takeFrame p).receiveMessage n p c k ups
      (∀ x ∈ rows, s.frontPacket p x.1 = some a → waits → exec x.2 s = .next (s.ringRetry (s.messagePlaces n k))) ∧
      (¬ waits →
        (s.frontPacket p 0x10 = some a → exec (.work p) s = .next (received [])) ∧
        (s.frontPacket p 0x20 = some a → exec (.winWrite p ups) s = .next (received ups)) ∧
        (s.frontPacket p 0x21 = some a → exec (.winReduceFp32 p ups) s = .next (received ups)) ∧
        (s.frontPacket p 0x22 = some a → exec (.winReduceInt64 p ups) s = .next (received ups)) ∧
        (s.frontPacket p 0x23 = some a → exec (.winReadReq p ups) s = .next (received ups)) ∧
        (s.frontPacket p 0x24 = some a → exec (.winReadData p ups) s = .next (received ups)) ∧
        (s.frontPacket p 0x25 = some a → exec (.winSignal p) s = .next (received [])) ∧
        (s.frontPacket p 0x26 = some a → exec (.winStatus p) s = .next (received [])) ∧
        (s.frontPacket p 0x30 = some a → exec (.mgmt p) s = .next (received [])))) ∧
    (∀ (t : State) (n : Nat) (c : Conn) (k : CtpPacket),
      let d := psnDiff k.psn.toNat c.expect
      let finish (u : State) : State := ((u.headerAck n k).ackBack n (headerFlag k 1)).closeIfIdle n
      let held := (t.updConn n fun c => { c with held := c.held ++ [k] }).actHeld n p ups (c.held.length + 1)
      (d < 0 → t.receiveMessage n p c k ups = finish (t.sendAck n false)) ∧
      (d = 0 → c.keeps k.psn.toNat = true → t.receiveMessage n p c k ups = finish held) ∧
      (0 < d → c.keeps k.psn.toNat = true → t.receiveMessage n p c k ups = finish (held.sendAck n false)) ∧
      (0 ≤ d → c.keeps k.psn.toNat = false → t.receiveMessage n p c k ups = finish (t.actHeld n p ups (c.held.length + 1)))) ∧
    (∀ (t : State) (n f : Nat) (c : Conn) (k : CtpPacket), t.conn n = some c → c.nextHeld = some k →
      (c.signalling = true ∨ t.mustWait n k = true → t.actHeld n p ups (f + 1) = t) ∧
      (c.signalling = false → t.mustWait n k = false →
        let u := t.act n p k ups
        let signals : Bool := ((u.conn n).map (·.signalling)).getD false
        (signals = true → t.actHeld n p ups (f + 1) = u) ∧
        (signals = false → t.actHeld n p ups (f + 1) = (u.updConn n fun c =>
          { c with held := c.held.erase k, expect := psnNext c.expect, owed := c.owed + 1, signalling := false }).actHeld n p ups f))) ∧
    (∀ (t : State) (n : Nat) (k : CtpPacket),
      (k.type = 0x10 → t.act n p k ups = t.takeWork n k.payload) ∧
      (k.type = 0x20 ∨ k.type = 0x21 ∨ k.type = 0x22 ∨ k.type = 0x23 → t.act n p k ups = t.actWindow n k ups) ∧
      (k.type = 0x24 → t.act n p k ups = t.actReadData n k ups) ∧ (k.type = 0x25 → t.act n p k ups = t.actSignal n p k) ∧
      (k.type = 0x26 → t.act n p k ups = t.actStatus n k) ∧ (k.type = 0x30 → t.act n p k ups = t.actMgmt n p k))

/-- With no packet of its type at the front of the port's buffer a row does nothing; else the packet leaves the buffer. An offer that passes the
checks and is new opens a connection in the lowest free number, answered with its own offer, or is refused for want of a version or a number;
a repeated one is answered as before. An answer to an own offer opens or ends it. ACK takes acknowledgement, credit and SACK blocks. CLOSE
ends an own close, else begins one. A retransmission timeout, after rto doubled by each timeout before it up to 16 rto, resends all in version
1, the first in version 2, and ends the connection at retry_limit; packets owed are acknowledged; HELLO and CLOSE repeat every rto up to
retry_limit; at CREDIT 0 with something to send the credit is asked for. -/
def Obligations.ConnectionsOpenAcknowledgeCloseAndTimeOut : Prop :=
  ∀ (s : State) (p : PortId) (a : Arrival) (n : ConnId),
    let t := s.takeFrame p
    let m := t.sourced p a.packet
    let b := m.payload
    let own := t.addressed p a = true ∧ headerOk m 1 8208 = true
    (∀ x ∈ [(1, Instr.hello p), (2, .helloAck p), (3, .close p), (4, .ack p)], s.frontPacket p x.1 = none → exec x.2 s = .next s) ∧
    (s.frontPacket p 1 = some a →
      let vs := t.get 0x2620 0x03
      let v := commonVersion vs (leAt b 0 2)
      let answer (u : State) (offer : Bytes) : State := u.answerOffer p m.src.toNat (leAt b 12 2) offer
      let known := t.connList.find? fun e => e.2.peer = m.src.toNat && e.2.asked = b
      (¬ (own ∧ m.conn = 0xFFFF) → exec (.hello p) s = .next (t.dropPacket p)) ∧
      (own → m.conn = 0xFFFF → ∀ e, known = some e → exec (.hello p) s = .next (answer t e.2.offer)) ∧
      (own → m.conn = 0xFFFF → known = none → v = 0 → exec (.hello p) s = .next (answer t (offerBytes vs 0 0 0 0 0 1))) ∧
      (own → m.conn = 0xFFFF → known = none → v ≠ 0 → t.freeConn = none →
        exec (.hello p) s = .next (answer t (offerBytes vs 0 0 0 0 0 2))) ∧
      (own → m.conn = 0xFFFF → known = none → v ≠ 0 → ∀ x, t.freeConn = some x →
        let psn := Config.initialPsn t.fresh % 2 ^ 32
        let ip4 := a.source.isNone
        let c : Conn := { phase := 1, peer := m.src.toNat, port := p, next := psn, acked := psn, limit := t.portLimit p ip4, ip4 := ip4 }
        let u := (State.setConn { t with fresh := t.fresh + 1 } x (c.negotiate vs t.windowOffer b)).drawCredit x
        let g := ((u.conn x).map (·.granted)).getD 0
        let offer := offerBytes vs u.windowOffer psn g (u.portLimit p ip4) x 0
        exec (.hello p) s = .next ((answer (u.updConn x fun c => { c with grantedInit := g, offer := offer }) offer).adoptItems x m.src.toNat))) ∧
    (s.frontPacket p 2 = some a →
      (t.conn m.conn.toNat = none → exec (.helloAck p) s = .next (t.dropPacket p)) ∧
      (∀ c, t.conn m.conn.toNat = some c →
        let d := c.negotiate (t.get 0x2620 0x03) c.window b
        (¬ own → exec (.helloAck p) s = .next (t.dropPacket p)) ∧
        (own → c.phase ≠ 0 → exec (.helloAck p) s = .next t) ∧
        (own → c.phase = 0 → leAt b 14 1 ≠ 0 ∨ d.version = 0 → exec (.helloAck p) s = .next (t.dropConn m.conn.toNat)) ∧
        (own → c.phase = 0 → leAt b 14 1 = 0 → d.version ≠ 0 →
          exec (.helloAck p) s = .next ((t.setConn m.conn.toNat { d with phase := 1, repeats := 0 }).pump m.conn.toNat)))) ∧
    (s.frontPacket p 3 = some a →
      (t.admitted p a = none → exec (.close p) s = .next (t.dropPacket p)) ∧
      (∀ x c, t.admitted p a = some (x, c) →
        (c.phase = 3 → exec (.close p) s = .next (t.dropConn x)) ∧
        (c.phase ≠ 3 → exec (.close p) s = .next (((t.headerAck x m).updConn x fun c => { c with phase := 2 }).closeIfIdle x)))) ∧
    (s.frontPacket p 4 = some a →
      (t.admitted p a = none → exec (.ack p) s = .next (t.dropPacket p)) ∧
      (∀ x c, t.admitted p a = some (x, c) →
        exec (.ack p) s = .next ((((t.headerAck x m).takeSacks x (sacksOf b)).ackBack x (headerFlag m 1)).closeIfIdle x))) ∧
    (∀ c, s.conn n = some c →
      let limit := s.get 0x2620 0x05
      let rto := s.get 0x2620 0x04 * 1000
      (∀ first rest, c.queue.filter (·.sent) = first :: rest →
        let u := { s with now := max s.now (c.timer + rto * min 16 (2 ^ c.timeouts)) }
        (limit ≤ c.timeouts + 1 → exec (.ctpRtoExpiry n) s = .next (u.dropConn n)) ∧
        (c.timeouts + 1 < limit → exec (.ctpRtoExpiry n) s = .next ((if c.version = 1 then first :: rest else [first]).foldl
          (fun s m => s.resend n m) (u.setConn n { c with timeouts := c.timeouts + 1, timer := u.now })))) ∧
      (0 < c.owed → exec (.ctpAckTimer n) s = .next (s.sendAck n false)) ∧
      (let u := { s with now := max s.now (c.timer + rto) }
       (c.phase = 0 → limit ≤ c.repeats → exec (.helloRepeat n) s = .next (u.dropConn n)) ∧
       (c.phase = 0 → c.repeats < limit → exec (.helloRepeat n) s
         = .next ((u.setConn n { c with repeats := c.repeats + 1, timer := u.now }).sendPacket n 0x01 0 0 0 0 c.offer)) ∧
       (c.phase = 3 → limit ≤ c.repeats → exec (.closeRepeat n) s = .next (u.dropConn n)) ∧
       (c.phase = 3 → c.repeats < limit → exec (.closeRepeat n) s
         = .next ((u.setConn n { c with repeats := c.repeats + 1, timer := u.now }).sendPacket n 0x03 1 0 0 0 []))) ∧
      (1 ≤ c.phase → c.credit = 0 → (c.queue.any fun m => !m.sent) = true →
        let u := { s with now := max s.now (c.probeTimer + rto) }
        exec (.creditProbe n) s = .next ((u.setConn n { c with probeTimer := u.now }).sendAck n true)))

/-- A journal write that is done, both its partitions standing and its hubs answering, marks its item stored and counts its bytes, and every stored
item of the stream that none in flight precedes is accepted in order. One that fails, as a write to a lost partition does, drops its item and
the later ones of the stream in flight, returns NEXT_SEQ, and has their BUSY answers sent. While a job's lead is free and an item eligible,
dispatch makes the best one STARTED, with its LONG hint, and gives it to the lead: in its mailbox, its PC at ENTRY, or, where the mailbox
refuses a piece, ended as an error of the lead would end it. The next due completion of a stream is written to memory, sent, or both, as its
mode asks and its hub and connection allow. A confirmed memory record retires the item. A parity error begins the rebuild, and its end brings
back what is stored. -/
def Obligations.ItemsAreAcceptedDispatchedAndDelivered : Prop :=
  ∀ (s : State) (st : StreamId) (seq : BitVec 64) (j : JobId),
    (∀ i, s.findItem st seq.toNat = some i → i.state = 0 → i.stored = false → i.partitions.any s.partitionLost = false →
      s.ringAway (i.partitions.map fun p => ⟨1, s.partitionAddr p, s.partitionAddr p⟩) = none →
      let u := (s.journal st seq.toNat i.recordBytes).updItem st seq.toNat fun x => { x with stored := true }
      exec (.journalWriteDone st seq) s = .next (u.acceptStored st u.items.length)) ∧
    (∀ i, s.findItem st seq.toNat = some i → i.state = 0 →
      let gone (x : Item) : Bool := x.stream = st.val && x.state = 0 && decide (seq.toNat ≤ x.sequence)
      let busy := ((s.items.filter gone).mergeSort fun a b => decide (a.sequence ≤ b.sequence)).map fun x : Item =>
        (⟨x.conn, x.sequence, leAt x.descriptor 124 4, 2, 0x04⟩ : HeldAnswer)
      let v := (({ s with items := s.items.filter fun x => !gone x }.updStream st fun r =>
        { r with next := seq.toNat }).updStream st fun r => { r with answers := busy ++ r.answers }).flushAnswers st
      exec (.journalWriteFail st seq) s = .next v ∧
      (i.stored = false → i.partitions.any s.partitionLost = true → exec (.journalWriteDone st seq) s = .next v)) ∧
    (∀ i, s.leadFree j = true → s.nextItem j = some i →
      let u : State := { s with intake := { s.intake with lastStream := i.stream } }
      let u := (u.journal i.stream i.sequence 128).updItem i.stream i.sequence fun x => { x with state := 2, started := u.now }
      let u := if i.long then u.updCore (u.lead j) fun k => { k with hints := Tab.set none k.hints 0 (some ⟨64, u.now, u.now + 100000000⟩) } else u
      let r := u.writeMailbox j i
      (r.2 = none → exec (.itemDispatch j) s
        = .next ((r.1.updCore (r.1.lead j) fun k => { k with item := some (i.stream, i.sequence) }).runFrom (r.1.lead j) i.entry)) ∧
      (∀ e, r.2 = some e → let v := r.1.stopOthers j 22
        exec (.itemDispatch j) s = .next ((v.finishItem i.stream i.sequence 1 (statusWord 0 e.detail 0 0 0 e.status.code)
          (v.core (v.lead j)).flags).afterError j false))) ∧
    (∀ i, s.deliverable st = some i →
      let write := s.writeDue i
      let send := s.messageDue i
      let u := if write then s.writeCompletion i else s
      let v := if send then (u.queueMessage i.conn 0x12 0 0 i.completion).1 else u
      exec (.completionDelivery st) s = .next (v.updItem st i.sequence fun x =>
        let y := { x with written := x.written || write, sent := x.sent || send }
        { y with deliveredOnce := y.deliveredOnce || y.delivered })) ∧
    (∀ i, s.findItem st seq.toNat = some i → i.state = 3 → i.written = true → bit i.mode 1 = true →
      exec (.complAddrWriteDone st seq) s = .next (s.updItem st seq.toNat fun x => { x with addrConfirmed := true }).retireItems) ∧
    (s.intake.rebuilding = false → exec .intakeRebuild s = .next { s with intake := { s.intake with rebuilding := true } }) ∧
    (s.intake.rebuilding = true →
      let d := s.dropUnstored
      let u := ((d.items.map (·.stream)).eraseDups.foldl (fun s st => s.acceptStored st s.items.length) d).redeliver.applyFormed
      let v := u.fault { cls := 0x15, action := 0x01, detail := toLE 4 u.items.length }
      exec .intakeRebuild s = .next (v.change 0x2540 7 (satAdd 32 (v.get 0x2540 7) 1)))

/-- Let i be the next control item and u the state with it STARTED and Rest left. JOB_CREATE, JOB_LAYOUT and JOB_DELETE in a job state that
allows them ask for the record's edits, or for their clearing, through a swap of the controller's own, or end with LOCKED while a session holds
the maquette, else end with ERROR and STATE. JOB_STOP and JOB_CHECKPOINT of a running job ask it to quiesce, and go on at once where it is
quiescent, else end with STATE. JOB_DISCARD makes every accepted item of the job DONE and ends. JOB_START, not deferred, restores the job from
its context where the flag asks, or starts it afresh, and ends with the outcome; with a core out of service it ends with that status. -/
def Obligations.ControlOperationsRunOnePerItemInOrder : Prop :=
  ∀ (s : State) (i : Item), s.nextControl = some i →
    let u := s.leaveRest.updItem 0 i.sequence fun x => { x with state := 2, started := s.now }
    let j := i.job
    let refused : State := u.controlEnds i 0x09
    let swapped : State := if u.get 0xF002 0x01 ≠ 0 then u.controlEnds i 0x0E
      else State.pumpChanges { u with changes := u.changes ++ [⟨.control 0 i.sequence, i.jobEdits⟩] }
    let quiescing : State := ((u.updJob j fun b => { b with quiesce := true }).askQuiesce j).tryQuiesced
    (i.control = 0x01 → exec .jobCreate s = .next (if u.jobGet j 1 = 1 then refused else swapped)) ∧
    (i.control = 0x05 → exec .jobLayout s = .next (if u.jobState j ≠ 1 then refused else swapped)) ∧
    (i.control = 0x07 → exec .jobDelete s = .next (if u.jobState j = 1 ∧ u.jobItems j = 0 then swapped else refused)) ∧
    (i.control = 0x03 → exec .jobStop s = .next (if u.jobState j ≠ 2 then refused else quiescing)) ∧
    (i.control = 0x04 → exec .jobCheckpoint s = .next (if u.jobState j ≠ 2 then refused else quiescing)) ∧
    (i.control = 0x06 → exec .jobDiscard s
      = .next (((u.items.filter fun x => x.job = j && x.stream ≠ 0 && x.state = 1).foldl
          (fun v x => v.finishItem x.stream x.sequence 2 0 0) u).controlEnds i 0)) ∧
    (i.control = 0x02 → s.startDeferred j = false →
      let restore := bit i.controlFlags 0
      let can := u.jobState j = 1 ∨ u.jobState j = 4 ∧ restore = false
      (¬ can → exec .jobStart s = .next refused) ∧
      (can → (u.jobCores j).any u.coreOut = true → exec .jobStart s = .next (u.controlEnds i Status.coreOutOfService.code)) ∧
      (can → (u.jobCores j).any u.coreOut = false →
        (restore = true → (u.job j).mustFresh = false →
          exec .jobStart s = .next ((u.restoreJob j).1.controlEnds i (u.restoreJob j).2)) ∧
        (restore = false ∨ (u.job j).mustFresh = true →
          ((u.freshJob j).2 = none → exec .jobStart s = .next ((u.freshJob j).1.controlEnds i 0)) ∧
          ∀ k, (u.freshJob j).2 = some k → exec .jobStart s = .next ((u.freshJob j).1.endControl 0 i.sequence 0x10 k)))) ∧
    (s.startDeferred j = true → exec .jobStart s = .next s) ∧
    (i.jobEdits = if i.control = 7 then clearEdits j else recordEdits j i.payload)

/-- Runs are given to tiles as they may go on. The run of a core's suspect step that goes on ends: what it leaves is what the step gives again, or
what the row carries where the tile has a fault (log entry 75); the tile is given back, the run counted, the runs vote, and tiles are given
again. With no run going on nothing else happens. The first run that did not fail itself: agreeing, the original is committed; disagreeing,
another run is awaited, unless four have been made. The second: with the original in agreement it is committed and the other run's tile struck;
with each other, the replay is committed and the core's own tile struck; with none, the step is restored and the core stops with POISON. With
no run that did not fail itself another is awaited, up to four. -/
def Obligations.ReplayRunsVote : Prop :=
  ∀ (s : State) (c : CoreId) (fault : Option ReplayResult),
    let t := s.assignRuns
    ((∀ x, t.replays.find? (fun x => x.core = c.val) = some x → x.tile = none) → exec (.replayRunDone c fault) s = .next t) ∧
    (∀ x h, t.replays.find? (fun x => x.core = c.val) = some x → x.tile = some h →
      let r : Run := ⟨h, fault.getD (t.replayed c)⟩
      let u := (t.freeRun x).countRun c r (x.runs.filter fun r => !r.result.ownFailed).length
      exec (.replayRunDone c fault) s = .next (u.vote c (t.original c) (x.runs ++ [r])).assignRuns) ∧
    (∀ (u : State) (o : ReplayResult) (runs : List Run),
      let sound := runs.filter fun r => !r.result.ownFailed
      let resolved : State := { u with replays := u.replays.filter fun y => y.core ≠ c.val }
      let wait : State := { u with replays := u.replays.map fun y => if y.core = c.val then { y with runs := runs } else y }
      let undecided := if 4 ≤ runs.length then resolved.noMajority c runs else wait
      (∀ a, sound = [a] → u.runsAgree c o a.result = true → u.vote c o runs = resolved.commitOriginal c runs none) ∧
      (∀ a, sound = [a] → u.runsAgree c o a.result = false → u.vote c o runs = undecided) ∧
      (sound = [] → u.vote c o runs = undecided) ∧
      (∀ a b, sound = [a, b] → u.runsAgree c o b.result = true → u.vote c o runs = resolved.commitOriginal c runs (some a.tile)) ∧
      (∀ a b, sound = [a, b] → u.runsAgree c o b.result = false → u.runsAgree c a.result b.result = true →
        u.vote c o runs = resolved.commitReplay c o b.result runs) ∧
      (∀ a b, sound = [a, b] → u.runsAgree c o b.result = false → u.runsAgree c a.result b.result = false →
        u.vote c o runs = resolved.noMajority c runs))

/-- A core fault fences its tile; the watchdog fences where an unfinished command has stalled that may not. An assignment test passed queues
the substitution; failed, it fences the tile. A field short loses the field. A stage fault is entered as class 0x0F, and the converter
noted as out. An input below 42 V or above 57 V stops the converters; between 42 and 46 V its limit shows; from 42 to 56.5 V they
restart. A controller failure with its standby in service puts the standby in charge with the epoch raised, a fault of class 0x14, a swap
before its GO aborted (a control operation's waits to be made anew), transfers ended and events resent; with none, the module is unmanaged. The loss of a heartbeat path is counted and logged. -/
def Obligations.FaultsFenceTestAndTakeOver : Prop :=
  ∀ (s : State) (h : TileId) (cause reason : BitVec 8) (c : CoreId) (e : EngineId) (amps mv : BitVec 32) (phases : BitVec 16) (ring : Bool),
    exec (.coreFence h cause e) s = .next (s.fenceTile h cause.toNat e).pumpChanges ∧
    (∀ a, ((s.core c).started e).find? (fun a => !a.done) = some a → a.mayStall e = false → s.coreOut c = false →
      exec (.coreWatchdog c e) s = .next (s.fenceTile (s.tileOf c) 0x02 e).pumpChanges) ∧
    (∀ a, s.tests.find? (fun t => t.tile = h.val && !t.passed) = some a →
      exec (.assignmentTestDone h true) s = .next (State.pumpChanges
        { s with tests := (s.tests.map fun t => if t.tile = h.val then { t with passed := true } else t)
                 changes := s.changes ++ [⟨.substitute a.core h a.job, [(okey 0x4101 (a.core + 1), h.val)]⟩] }) ∧
      exec (.assignmentTestDone h false) s = .next (s.fenceTile h 0x06 0 a.entry).pumpChanges) ∧
    exec (.fieldShort h phases amps) s = .next (s.loseField h phases.toNat amps.toNat).pumpChanges ∧
    (∀ p : Fin 10, ¬ p.val ∈ (s.tile h).phasesOut →
      let u := s.fault { cls := 0x0F, action := 0x01, tile := h, detail := toLE 1 p ++ toLE 1 h }
      let v := u.updTile h fun t => { t with phasesOut := t.phasesOut ++ [p.val] }
      exec (.stageFault (.field h p)) s = .next (if 8 ∈ (v.tile h).phasesOut ∧ 9 ∈ (v.tile h).phasesOut then
        (State.loseField { v with fresh := v.fresh + 1 } h 768 (Config.current v.fresh).toNat s.faultNext).pumpChanges else v)) ∧
    (∀ f : Stage, 24 ≤ (stagePlace f).2 → bit (Tab.get 0 s.power.stagesOut (stagePlace f).2) (stagePlace f).1 = false →
      let u := s.fault { cls := 0x0F, action := 0x01, tile := 0xFF, detail := toLE 1 (stagePlace f).1 ++ toLE 1 (stagePlace f).2 }
      let out := Tab.set 0 u.power.stagesOut (stagePlace f).2 (setBit (Tab.get 0 u.power.stagesOut (stagePlace f).2) (stagePlace f).1 true)
      exec (.stageFault f) s = .next (State.showLimits { u with power := { u.power with stagesOut := out } })) ∧
    (let u : State := { s with power := { s.power with vin := mv.toNat } }
     (mv.toNat < 42000 → exec (.vinLow mv) s = .next u.stopInput) ∧
     (42000 ≤ mv.toNat → mv.toNat < 46000 → exec (.vinLow mv) s = .next u.showLimits) ∧
     (57000 < mv.toNat → exec (.vinHigh mv) s = .next u.stopInput) ∧
     (mv.toNat ≤ 57000 → exec (.vinHigh mv) s = .next u) ∧
     exec (.vinRestored mv) s = .next (if 42000 ≤ mv.toNat ∧ mv.toNat < 56500 then
       State.showLimits { u with power := { u.power with stopped := false } } else u.showLimits)) ∧
    (s.unmanaged = true → exec (.controllerTakeover reason) s = .next s) ∧
    (s.unmanaged = false → s.get 0x4001 0x02 ≠ 0 → exec (.controllerTakeover reason) s = .next { s with unmanaged := true }) ∧
    (s.unmanaged = false → s.get 0x4001 0x02 = 0 →
      let failed := s.get 0x4001 0x01
      let epoch := (s.get 0x4001 0x03 + 1) % 256
      let u := ((s.put 0x4001 0x03 epoch).countRare 0x4001 0x04).change 0x4001 0x01 (1 - failed)
      let u := (u.fault { cls := 0x14, action := 0x09, detail := toLE 1 failed ++ toLE 1 epoch ++ toLE 1 reason.toNat }).change 0x4001 0x02 1
      exec (.controllerTakeover reason) s =
        .next ((List.range 32).foldl (fun s n => s.abortTransfers n 0x11) u.swapAtTakeover).resendEvents.pumpChanges) ∧
    (¬ (s.swapState ∈ [1, 2] ∧ s.goAcked = false) → s.swapAtTakeover = s) ∧
    (s.swapState ∈ [1, 2] → s.goAcked = false →
      ((∀ st seq, s.swap.purpose ≠ .control st seq) → s.swapAtTakeover = s.abortSwap 0x05 []) ∧
      (∀ st seq i, s.swap.purpose = .control st seq → s.findItem st seq = some i →
        let w := (State.abortSwap { s with swap := { s.swap with purpose := .owner } } 0x05 []).discardEdits
        s.swapAtTakeover = { w with changes := ⟨.control st seq, i.jobEdits⟩ :: w.changes })) ∧
    exec (.heartbeatPathLoss ring) s = .next ((s.countRare 0x4001 0x05).fault
      { cls := 0x14, detail := toLE 1 (s.get 0x4001 0x01) ++ toLE 1 (s.get 0x4001 0x03) ++ [1] })

/-- A period publishes its means, lets each tile's thermal limits act, judges the cap and grants the next period, unless the cap is
unreachable. The module step falls at once to the best one or rises by one. A tile whose lowest ceiling is not its step stops and
restarts at it, counted, for at most 6,000 ns. Readings show the hottest sensors; 115 degrees in the logic trips the tile. After 100 ms
at or below half issue the thermal ceiling falls by one, after 100 ms at full issue and at most 100 degrees it rises by one. Droops and
undervoltages are counted, the latter marks the open step. A measurement below the last one raises the trim. A flush keeps the energy
counter. A replica window shows the lowest slack of the last microsecond, warns below the level set, and below 20 thousandths of the
period fences the tile. -/
def Obligations.TilesStepThrottleTripAndTrim : Prop :=
  ∀ (s : State) (h : TileId) (m : PowerSample) (margin : BitVec 32) (logic : List (BitVec 32)) (path : BitVec 8) (slack : BitVec 16),
    (let u := State.publish { s with now := s.periodEnd } m
     let v := (List.range 24).foldl State.thermalPeriod u
     let w := (v.judgePeriod (v.get 0x3000 0x04)).lowerStageCap.showLimits
     exec (.powerPeriod m) s = .next (if bit (w.get 0x3000 0x02) 0 then { w with power := { w.power with inForce := w.capInForce } }
       else w.setGrants m)) ∧
    (let best := s.bestStep (min s.variant.2 (s.get 0x3100 0x01))
     let now := s.get 0x3000 0x06
     (best ≤ now → exec .stepDecision s = .next (s.put 0x3000 0x06 best)) ∧
     (now < best → exec .stepDecision s = .next (s.put 0x3000 0x06 (now + 1)))) ∧
    (s.get 0x3101 (h + 1) ≠ 0xFF → s.get 0x3101 (h + 1) ≠ s.tileStep h → s.powerState ≠ 2 → s.tileServes h = true →
      let u := (State.put { s with fresh := s.fresh + 1 } 0x3101 (h + 1) (s.tileStep h)).bump 0x3100 0x03
      exec (.tileStepChange h) s = .next (u.put 0x3100 0x04 (max (u.get 0x3100 0x04) (min 6000 (Config.stopTime s.fresh))))) ∧
    (s.get 0x3101 (h + 1) = 0xFF ∨ s.get 0x3101 (h + 1) = s.tileStep h ∨ s.powerState = 2 ∨ s.tileServes h = false →
      exec (.tileStepChange h) s = .next s) ∧
    (∀ t, hottest (logic.map (·.toInt)) = some t →
      let u := (s.put 0x3200 (h + 1) (f32OfMilli t)).updTile h fun x => { x with logic := t, notFull := x.notFull || decide (100000 < t) }
      exec (.thermalReading h logic []) s = .next (if 115000 ≤ t ∧ u.tileFenced h = false then
        u.trip h ((logic.map (·.toInt)).findIdx (· = t)) t else u)) ∧
    (let t := s.tile h
     let v := s.get 0x3203 (h + 1)
     let n := bits v 0 7
     let c := bits v 8 4
     let u := s.updTile h fun t => { t with notLow := decide (32 < n), notFull := decide (n < 64) || decide (100000 < t.logic) }
     (t.notLow = false → n ≤ 32 → exec (.thermalStepWindow h) s = .next (u.change 0x3203 (h + 1) (setBits v 8 4 (c - 1)))) ∧
     (t.notFull = false → n = 64 → t.logic ≤ 100000 → c < s.variant.2 →
       exec (.thermalStepWindow h) s = .next (u.change 0x3203 (h + 1) (setBits v 8 4 (c + 1)))) ∧
     (t.notLow = true → t.notFull = true → exec (.thermalStepWindow h) s = .next (u.change 0x3203 (h + 1) (setBits v 8 4 c)))) ∧
    exec (.droopCrossing h) s = .next (s.bump 0x3050 (h + 1)) ∧
    (∀ c, s.coreOn h = some c → (s.core c).stepOpen = true → (s.bump 0x3051 (h + 1)).coreOn h = some c →
      ((s.bump 0x3051 (h + 1)).core c).stepOpen = true → exec (.undervoltage h) s = .next
        ((s.bump 0x3051 (h + 1)).updCore c fun k => { k with record := { k.record with suspectMargin := true } })) ∧
    (let u := s.updTile h fun t => { t with measured := some margin.toNat }
     (∀ last, (s.tile h).measured = some last → margin.toNat < last → exec (.patinaMeasure h margin) s = .next (u.raiseTrim h)) ∧
     ((s.tile h).measured = none → exec (.patinaMeasure h margin) s = .next u)) ∧
    exec .energyFlush s = .next { s with power := { s.power with energyFlash := s.get 0x3040 0x01 } } ∧
    (let recent := ((s.tile h).slacks.filter fun e => decide (s.now < e.1 + 1000000)) ++ [(s.now, slack.toNat)]
     let u := (s.updTile h fun t => { t with slacks := recent }).put 0x3112 (h + 1) (recent.foldl (fun m e => min m e.2) slack.toNat)
     (u.get 0x3111 0x03 ≤ slack.toNat → 20 ≤ slack.toNat → exec (.replicaWindow h path slack) s = .next u) ∧
     (slack.toNat < u.get 0x3111 0x03 → 20 ≤ slack.toNat → exec (.replicaWindow h path slack) s = .next (u.replicaWarn h path.toNat)) ∧
     (slack.toNat < 20 → exec (.replicaWindow h path slack) s =
       .next (((if slack.toNat < u.get 0x3111 0x03 then u.replicaWarn h path.toNat else u).fenceTile h 0x03 0).pumpChanges)))

/-- The input not followed, declared bad or good, only shows so, except that a good preferred input is taken. The followed one gone bad
begins a holdover, which ends on the other where that is good, after at most 10 microseconds. In holdover a good input ends it. A
correction moves a region's counter by at most 1 ns towards the master. A pulse goes out at the next whole second, one second or more
after the last. A pulse in of at least 100 ns is stamped unless it is within 500 ms of the one before. A PTP event message
that a port with PTP takes or sends is stamped with the time; one sent carries the stamp, or in two-step operation its Follow_Up tells it.
A Sync of the domain at the port followed shows the offset of its stamp, with the port's path delay, and its rate clipped to 100,000 parts
per 10^9, and without a lock the timebase shows that it follows. -/
def Obligations.ReferencesTimebaseAndPulses : Prop :=
  ∀ (s : State) (r : RefInput) (g : BitVec 8) (width : BitVec 32) (p : PortId) (m : PtpMsg),
    (s.refGood (refCode r) = false → exec (.referenceBad r) s = .next s) ∧
    (s.refGood (refCode r) = true → exec (.referenceGood r) s = .next s) ∧
    (s.refGood (refCode r) = true →
      let u := s.change 0x3110 0x03 (setBit (s.get 0x3110 0x03) (refCode r) false)
      (u.get 0x3110 0x02 ≠ refCode r → exec (.referenceBad r) s = .next u.showHealth) ∧
      (u.get 0x3110 0x02 = refCode r →
        let v := (State.change { u with clocks := { u.clocks with holdover := some u.now } } 0x3110 0x02 2).showHealth
        let ns := min 10000 (Config.holdTime v.fresh)
        exec (.referenceBad r) s = .next (if v.refGood (1 - refCode r) then
          (State.endHoldover { v with fresh := v.fresh + 1, now := v.now + ns } (1 - refCode r) ns).showHealth else v))) ∧
    (s.refGood (refCode r) = false →
      let u := s.change 0x3110 0x03 (setBit (s.get 0x3110 0x03) (refCode r) true)
      (∀ t, u.clocks.holdover = some t → exec (.referenceGood r) s = .next (u.endHoldover (refCode r) (u.now - t)).showHealth) ∧
      (u.clocks.holdover = none → exec (.referenceGood r) s = .next u.preferRef.showHealth)) ∧
    (let a := s.advanceSlew
     let u : State := { a with clocks := { a.clocks with regions := Tab.upd 0 a.clocks.regions g.toNat fun v => followOne v a.clocks.slewed } }
     exec (.timebaseCorrection g) s = .next (State.showHealth (if u.get 0x3120 0x03 = 2 ∧ u.clocks.lastPtp + Config.ptpSilence < u.now then
       u.change 0x3120 0x03 3 else u)) ∧
     (∀ own master : Int, (followOne own master - own).natAbs ≤ 1)) ∧
    (let t := max ((s.now + 1000000000 - 1) / 1000000000 * 1000000000) (s.clocks.ppsOut + 1000000000)
     exec .ppsOut s = .next { s.emit (.pulse t) with now := t, clocks := { s.clocks with ppsOut := t } }) ∧
    (width.toNat < 100 → exec (.ppsInEdge width) s = .next s) ∧
    (100 ≤ width.toNat →
      let u : State := { s with clocks := { s.clocks with ppsIn := some s.now } }
      (∀ t, s.clocks.ppsIn = some t → s.now < t + 500000000 → exec (.ppsInEdge width) s = .next u) ∧
      ((∀ t, s.clocks.ppsIn = some t → t + 500000000 ≤ s.now) → exec (.ppsInEdge width) s = .next (u.put 0x3120 0x08 s.now))) ∧
    (let on := s.get (0x2600 + p) 0x08 ≠ 0 ∧ s.portUp p = true ∧ (m.carrier = .udp4 → p.val = s.hostPort)
     let stamped := s.updPort p fun q => { q with stamps := Tab.set 0 q.stamps (ptpNumber m) s.now }
     let source := s.get 0x3120 0x02
     let heard := m.domain.toNat = s.get 0x3120 0x07 ∧ ((source = 0xFF ∧ m.best = true) ∨ (source ≠ 0xFF ∧ source = p))
     (¬ on → exec (.ptpMessage p m) s = .next s) ∧
     (on → m.sent = true → m.kind ≠ .delayReq → exec (.ptpMessage p m) s =
       .next (stamped.emit (.ptp p (ptpNumber m - 4) (if s.get (0x2600 + p) 0x08 = 2 then some s.now else none)))) ∧
     (on → m.sent = false → (m.kind = .delayReq ∨ m.kind = .pdelayReq) → exec (.ptpMessage p m) s = .next stamped) ∧
     (on → m.sent = false → m.kind = .sync →
       let u := stamped.updPort p fun q => { q with origin := m.told.toNat }
       (¬ heard → exec (.ptpMessage p m) s = .next u) ∧
       (heard → m.locks = false →
         let v := u.advanceSlew.put 0x3120 0x04 (ofSigned 64 ((m.told.toNat : Int) + (u.portOf p).delay - u.now))
         let w := v.put 0x3120 0x06 (ofSigned 32 (max (-100000) (min 100000 m.rate.toInt)))
         exec (.ptpMessage p m) s = .next (State.change { w with clocks := { w.clocks with lastPtp := w.now, slewedTo := w.now } } 0x3120 0x03 1))))

/-- While core c's sequencer holds a started HINT a: it completes; the announcement of its class, where it is not an end, is replaced by its
level, start and stop, and those of the other classes stay; memory, poison, synchronisation objects, signals and waits under way,
objects, items and every other core stay as they were, and of core c the queues, the commands started on the engines, the PC, the loop
slots, the arithmetic flags, the step and its record. -/
def Obligations.HintOnlyAnnounces : Prop :=
  ∀ (c : CoreId) (s : State) (i : Nat) (a : Active), Canonical s → Tab.rising (s.core c).hints = true → Tab.rising (s.core c).active = true →
    (s.core c).working 0 0x06 = some (i, a) →
    let w2 := a.q.cmd.word 2
    let w3 := a.q.cmd.word 3
    let start := s.now + bits w3 0 32 * 1000
    ∃ t, exec (.hint c) s = .next t ∧ (t.core c).started 0 = [{ a with done := true, start := s.now }] ∧
      (bit w2 2 = false → Tab.get none (t.core c).hints (bits w2 0 2) = some ⟨bits w2 8 8, start, start + bits w3 32 32 * 1000⟩) ∧
      (∀ n, n ≠ bits w2 0 2 → Tab.get none (t.core c).hints n = Tab.get none (s.core c).hints n) ∧
      t.mem = s.mem ∧ t.poison = s.poison ∧ t.sync = s.sync ∧ t.signals = s.signals ∧ t.waits = s.waits ∧ t.wakes = s.wakes ∧
      t.obj = s.obj ∧ t.items = s.items ∧ t.ops = s.ops ∧ (∀ d, d ≠ c.val → t.core d = s.core d) ∧
      (t.core c).queues = (s.core c).queues ∧ (∀ e, 1 ≤ e → (t.core c).started e = (s.core c).started e) ∧
      (t.core c).pc = (s.core c).pc ∧ (t.core c).loops = (s.core c).loops ∧ (t.core c).flags = (s.core c).flags ∧
      (t.core c).stepOpen = (s.core c).stepOpen ∧ (t.core c).step = (s.core c).step ∧ (t.core c).record = (s.core c).record

/-- State.reset has the canonical form; no command, wait, signal, item or connection waits; memory lists nothing and no granule is poisoned;
every core is idle with nothing started; every synchronisation object is zero; an object reads as its default; the fault, refusal and
timeout logs are empty. Where the spec gives no value at power-on the model's choice stands (log 3). -/
def Obligations.ResetIsCanonicalAndIdle : Prop :=
  Canonical State.reset ∧ State.reset.pending = [] ∧ State.reset.waits = [] ∧ State.reset.signals = [] ∧ State.reset.items = [] ∧
    State.reset.connList = [] ∧ State.reset.faults = [] ∧ State.reset.refusals = [] ∧ State.reset.timeouts = [] ∧
    State.reset.mem = [] ∧ State.reset.poison = [] ∧
    (∀ c, (State.reset.core c).state = 0 ∧ ∀ e, (State.reset.core c).started e = []) ∧
    (∀ c i, State.reset.syncGet c i = 0) ∧ (∀ i j, i ≠ 0x4101 → State.reset.get i j = objDefault i j)

/-- In every state, reached by a run or not, whose memory, poison and synchronisation images list no entry that says what an unlisted place
reads as, and whose tables have strictly rising keys, every step, whatever command it takes, answers a state of that form. So what is
written at a place is what is read there, after any number of commands (memory and its reading are the model's choice of form, logs 3
and 9). -/
def Obligations.EveryStepKeepsTheCanonicalForm : Prop :=
  ∀ s t : State, Canonical s → step s = .next t → Canonical t
end

