-- ==== Sys2Proof/Laws/State.lean ====
section
/-! SUPPORT. One lemma for each field of the state that a basic update leaves alone. -/

namespace Sys2Proof.Machine

variable (s : State)

@[simp] theorem put_pending (i j v : Nat) : (s.put i j v).pending = s.pending := rfl
@[simp] theorem put_now (i j v : Nat) : (s.put i j v).now = s.now := rfl
@[simp] theorem put_fresh (i j v : Nat) : (s.put i j v).fresh = s.fresh := rfl
@[simp] theorem put_out (i j v : Nat) : (s.put i j v).out = s.out := rfl
@[simp] theorem put_maq (i j v : Nat) : (s.put i j v).maq = s.maq := rfl
@[simp] theorem put_rewritten (i j v : Nat) : (s.put i j v).rewritten = s.rewritten := rfl
@[simp] theorem put_mem (i j v : Nat) : (s.put i j v).mem = s.mem := rfl
@[simp] theorem put_poison (i j v : Nat) : (s.put i j v).poison = s.poison := rfl
@[simp] theorem put_sync (i j v : Nat) : (s.put i j v).sync = s.sync := rfl
@[simp] theorem put_cores (i j v : Nat) : (s.put i j v).cores = s.cores := rfl
@[simp] theorem put_waits (i j v : Nat) : (s.put i j v).waits = s.waits := rfl
@[simp] theorem put_wakes (i j v : Nat) : (s.put i j v).wakes = s.wakes := rfl
@[simp] theorem put_signals (i j v : Nat) : (s.put i j v).signals = s.signals := rfl
@[simp] theorem put_remoteOverruns (i j v : Nat) : (s.put i j v).remoteOverruns = s.remoteOverruns := rfl
@[simp] theorem put_objLog (i j v : Nat) : (s.put i j v).objLog = s.objLog := rfl
@[simp] theorem put_timeouts (i j v : Nat) : (s.put i j v).timeouts = s.timeouts := rfl
@[simp] theorem put_manual (i j v : Nat) : (s.put i j v).manual = s.manual := rfl
@[simp] theorem put_eventSeq (i j v : Nat) : (s.put i j v).eventSeq = s.eventSeq := rfl
@[simp] theorem put_events (i j v : Nat) : (s.put i j v).events = s.events := rfl
@[simp] theorem put_unacked (i j v : Nat) : (s.put i j v).unacked = s.unacked := rfl
@[simp] theorem put_faults (i j v : Nat) : (s.put i j v).faults = s.faults := rfl
@[simp] theorem put_faultNext (i j v : Nat) : (s.put i j v).faultNext = s.faultNext := rfl
@[simp] theorem put_refusals (i j v : Nat) : (s.put i j v).refusals = s.refusals := rfl
@[simp] theorem put_refusalEvent (i j v : Nat) : (s.put i j v).refusalEvent = s.refusalEvent := rfl
@[simp] theorem put_streams (i j v : Nat) : (s.put i j v).streams = s.streams := rfl
@[simp] theorem put_items (i j v : Nat) : (s.put i j v).items = s.items := rfl
@[simp] theorem put_intake (i j v : Nat) : (s.put i j v).intake = s.intake := rfl
@[simp] theorem put_jobs (i j v : Nat) : (s.put i j v).jobs = s.jobs := rfl
@[simp] theorem put_sessions (i j v : Nat) : (s.put i j v).sessions = s.sessions := rfl
@[simp] theorem put_swap (i j v : Nat) : (s.put i j v).swap = s.swap := rfl
@[simp] theorem put_reformatting (i j v : Nat) : (s.put i j v).reformatting = s.reformatting := rfl
@[simp] theorem put_leftOut (i j v : Nat) : (s.put i j v).leftOut = s.leftOut := rfl
@[simp] theorem put_survivors (i j v : Nat) : (s.put i j v).survivors = s.survivors := rfl
@[simp] theorem put_rowLog (i j v : Nat) : (s.put i j v).rowLog = s.rowLog := rfl
@[simp] theorem put_retired (i j v : Nat) : (s.put i j v).retired = s.retired := rfl
@[simp] theorem put_repair (i j v : Nat) : (s.put i j v).repair = s.repair := rfl
@[simp] theorem put_ops (i j v : Nat) : (s.put i j v).ops = s.ops := rfl
@[simp] theorem put_replays (i j v : Nat) : (s.put i j v).replays = s.replays := rfl
@[simp] theorem put_conns (i j v : Nat) : (s.put i j v).conns = s.conns := rfl
@[simp] theorem put_ports (i j v : Nat) : (s.put i j v).ports = s.ports := rfl
@[simp] theorem put_mgmt (i j v : Nat) : (s.put i j v).mgmt = s.mgmt := rfl
@[simp] theorem put_hubs (i j v : Nat) : (s.put i j v).hubs = s.hubs := rfl
@[simp] theorem put_hubResets (i j v : Nat) : (s.put i j v).hubResets = s.hubResets := rfl
@[simp] theorem put_txns (i j v : Nat) : (s.put i j v).txns = s.txns := rfl
@[simp] theorem put_txnNext (i j v : Nat) : (s.put i j v).txnNext = s.txnNext := rfl
@[simp] theorem put_changes (i j v : Nat) : (s.put i j v).changes = s.changes := rfl
@[simp] theorem put_lockWrite (i j v : Nat) : (s.put i j v).lockWrite = s.lockWrite := rfl
@[simp] theorem put_links (i j v : Nat) : (s.put i j v).links = s.links := rfl
@[simp] theorem put_arrived (i j v : Nat) : (s.put i j v).arrived = s.arrived := rfl
@[simp] theorem put_requests (i j v : Nat) : (s.put i j v).requests = s.requests := rfl
@[simp] theorem put_channels (i j v : Nat) : (s.put i j v).channels = s.channels := rfl
@[simp] theorem put_tiles (i j v : Nat) : (s.put i j v).tiles = s.tiles := rfl
@[simp] theorem put_power (i j v : Nat) : (s.put i j v).power = s.power := rfl
@[simp] theorem put_clocks (i j v : Nat) : (s.put i j v).clocks = s.clocks := rfl
@[simp] theorem put_wear (i j v : Nat) : (s.put i j v).wear = s.wear := rfl
@[simp] theorem put_wearFlash (i j v : Nat) : (s.put i j v).wearFlash = s.wearFlash := rfl
@[simp] theorem put_xcvrs (i j v : Nat) : (s.put i j v).xcvrs = s.xcvrs := rfl
@[simp] theorem put_security (i j v : Nat) : (s.put i j v).security = s.security := rfl
@[simp] theorem put_monitors (i j v : Nat) : (s.put i j v).monitors = s.monitors := rfl
@[simp] theorem put_snapshotAt (i j v : Nat) : (s.put i j v).snapshotAt = s.snapshotAt := rfl
@[simp] theorem put_resetting (i j v : Nat) : (s.put i j v).resetting = s.resetting := rfl
@[simp] theorem put_tests (i j v : Nat) : (s.put i j v).tests = s.tests := rfl
@[simp] theorem put_lostFields (i j v : Nat) : (s.put i j v).lostFields = s.lostFields := rfl
@[simp] theorem put_unmanaged (i j v : Nat) : (s.put i j v).unmanaged = s.unmanaged := rfl
@[simp] theorem put_romMode (i j v : Nat) : (s.put i j v).romMode = s.romMode := rfl
@[simp] theorem put_entering (i j v : Nat) : (s.put i j v).entering = s.entering := rfl

@[simp] theorem maqPut_pending (i j v : Nat) : (s.maqPut i j v).pending = s.pending := rfl
@[simp] theorem maqPut_now (i j v : Nat) : (s.maqPut i j v).now = s.now := rfl
@[simp] theorem maqPut_fresh (i j v : Nat) : (s.maqPut i j v).fresh = s.fresh := rfl
@[simp] theorem maqPut_out (i j v : Nat) : (s.maqPut i j v).out = s.out := rfl
@[simp] theorem maqPut_obj (i j v : Nat) : (s.maqPut i j v).obj = s.obj := rfl
@[simp] theorem maqPut_mem (i j v : Nat) : (s.maqPut i j v).mem = s.mem := rfl
@[simp] theorem maqPut_poison (i j v : Nat) : (s.maqPut i j v).poison = s.poison := rfl
@[simp] theorem maqPut_sync (i j v : Nat) : (s.maqPut i j v).sync = s.sync := rfl
@[simp] theorem maqPut_cores (i j v : Nat) : (s.maqPut i j v).cores = s.cores := rfl
@[simp] theorem maqPut_waits (i j v : Nat) : (s.maqPut i j v).waits = s.waits := rfl
@[simp] theorem maqPut_wakes (i j v : Nat) : (s.maqPut i j v).wakes = s.wakes := rfl
@[simp] theorem maqPut_signals (i j v : Nat) : (s.maqPut i j v).signals = s.signals := rfl
@[simp] theorem maqPut_remoteOverruns (i j v : Nat) : (s.maqPut i j v).remoteOverruns = s.remoteOverruns := rfl
@[simp] theorem maqPut_objLog (i j v : Nat) : (s.maqPut i j v).objLog = s.objLog := rfl
@[simp] theorem maqPut_timeouts (i j v : Nat) : (s.maqPut i j v).timeouts = s.timeouts := rfl
@[simp] theorem maqPut_manual (i j v : Nat) : (s.maqPut i j v).manual = s.manual := rfl
@[simp] theorem maqPut_eventSeq (i j v : Nat) : (s.maqPut i j v).eventSeq = s.eventSeq := rfl
@[simp] theorem maqPut_events (i j v : Nat) : (s.maqPut i j v).events = s.events := rfl
@[simp] theorem maqPut_unacked (i j v : Nat) : (s.maqPut i j v).unacked = s.unacked := rfl
@[simp] theorem maqPut_faults (i j v : Nat) : (s.maqPut i j v).faults = s.faults := rfl
@[simp] theorem maqPut_faultNext (i j v : Nat) : (s.maqPut i j v).faultNext = s.faultNext := rfl
@[simp] theorem maqPut_refusals (i j v : Nat) : (s.maqPut i j v).refusals = s.refusals := rfl
@[simp] theorem maqPut_refusalEvent (i j v : Nat) : (s.maqPut i j v).refusalEvent = s.refusalEvent := rfl
@[simp] theorem maqPut_streams (i j v : Nat) : (s.maqPut i j v).streams = s.streams := rfl
@[simp] theorem maqPut_items (i j v : Nat) : (s.maqPut i j v).items = s.items := rfl
@[simp] theorem maqPut_intake (i j v : Nat) : (s.maqPut i j v).intake = s.intake := rfl
@[simp] theorem maqPut_jobs (i j v : Nat) : (s.maqPut i j v).jobs = s.jobs := rfl
@[simp] theorem maqPut_sessions (i j v : Nat) : (s.maqPut i j v).sessions = s.sessions := rfl
@[simp] theorem maqPut_swap (i j v : Nat) : (s.maqPut i j v).swap = s.swap := rfl
@[simp] theorem maqPut_reformatting (i j v : Nat) : (s.maqPut i j v).reformatting = s.reformatting := rfl
@[simp] theorem maqPut_leftOut (i j v : Nat) : (s.maqPut i j v).leftOut = s.leftOut := rfl
@[simp] theorem maqPut_survivors (i j v : Nat) : (s.maqPut i j v).survivors = s.survivors := rfl
@[simp] theorem maqPut_rowLog (i j v : Nat) : (s.maqPut i j v).rowLog = s.rowLog := rfl
@[simp] theorem maqPut_retired (i j v : Nat) : (s.maqPut i j v).retired = s.retired := rfl
@[simp] theorem maqPut_repair (i j v : Nat) : (s.maqPut i j v).repair = s.repair := rfl
@[simp] theorem maqPut_ops (i j v : Nat) : (s.maqPut i j v).ops = s.ops := rfl
@[simp] theorem maqPut_replays (i j v : Nat) : (s.maqPut i j v).replays = s.replays := rfl
@[simp] theorem maqPut_conns (i j v : Nat) : (s.maqPut i j v).conns = s.conns := rfl
@[simp] theorem maqPut_ports (i j v : Nat) : (s.maqPut i j v).ports = s.ports := rfl
@[simp] theorem maqPut_mgmt (i j v : Nat) : (s.maqPut i j v).mgmt = s.mgmt := rfl
@[simp] theorem maqPut_hubs (i j v : Nat) : (s.maqPut i j v).hubs = s.hubs := rfl
@[simp] theorem maqPut_hubResets (i j v : Nat) : (s.maqPut i j v).hubResets = s.hubResets := rfl
@[simp] theorem maqPut_txns (i j v : Nat) : (s.maqPut i j v).txns = s.txns := rfl
@[simp] theorem maqPut_txnNext (i j v : Nat) : (s.maqPut i j v).txnNext = s.txnNext := rfl
@[simp] theorem maqPut_changes (i j v : Nat) : (s.maqPut i j v).changes = s.changes := rfl
@[simp] theorem maqPut_lockWrite (i j v : Nat) : (s.maqPut i j v).lockWrite = s.lockWrite := rfl
@[simp] theorem maqPut_links (i j v : Nat) : (s.maqPut i j v).links = s.links := rfl
@[simp] theorem maqPut_arrived (i j v : Nat) : (s.maqPut i j v).arrived = s.arrived := rfl
@[simp] theorem maqPut_requests (i j v : Nat) : (s.maqPut i j v).requests = s.requests := rfl
@[simp] theorem maqPut_channels (i j v : Nat) : (s.maqPut i j v).channels = s.channels := rfl
@[simp] theorem maqPut_tiles (i j v : Nat) : (s.maqPut i j v).tiles = s.tiles := rfl
@[simp] theorem maqPut_power (i j v : Nat) : (s.maqPut i j v).power = s.power := rfl
@[simp] theorem maqPut_clocks (i j v : Nat) : (s.maqPut i j v).clocks = s.clocks := rfl
@[simp] theorem maqPut_wear (i j v : Nat) : (s.maqPut i j v).wear = s.wear := rfl
@[simp] theorem maqPut_wearFlash (i j v : Nat) : (s.maqPut i j v).wearFlash = s.wearFlash := rfl
@[simp] theorem maqPut_xcvrs (i j v : Nat) : (s.maqPut i j v).xcvrs = s.xcvrs := rfl
@[simp] theorem maqPut_security (i j v : Nat) : (s.maqPut i j v).security = s.security := rfl
@[simp] theorem maqPut_monitors (i j v : Nat) : (s.maqPut i j v).monitors = s.monitors := rfl
@[simp] theorem maqPut_snapshotAt (i j v : Nat) : (s.maqPut i j v).snapshotAt = s.snapshotAt := rfl
@[simp] theorem maqPut_resetting (i j v : Nat) : (s.maqPut i j v).resetting = s.resetting := rfl
@[simp] theorem maqPut_tests (i j v : Nat) : (s.maqPut i j v).tests = s.tests := rfl
@[simp] theorem maqPut_lostFields (i j v : Nat) : (s.maqPut i j v).lostFields = s.lostFields := rfl
@[simp] theorem maqPut_unmanaged (i j v : Nat) : (s.maqPut i j v).unmanaged = s.unmanaged := rfl
@[simp] theorem maqPut_romMode (i j v : Nat) : (s.maqPut i j v).romMode = s.romMode := rfl
@[simp] theorem maqPut_entering (i j v : Nat) : (s.maqPut i j v).entering = s.entering := rfl

@[simp] theorem emit_pending (e : Emit) : (s.emit e).pending = s.pending := rfl
@[simp] theorem emit_now (e : Emit) : (s.emit e).now = s.now := rfl
@[simp] theorem emit_fresh (e : Emit) : (s.emit e).fresh = s.fresh := rfl
@[simp] theorem emit_obj (e : Emit) : (s.emit e).obj = s.obj := rfl
@[simp] theorem emit_maq (e : Emit) : (s.emit e).maq = s.maq := rfl
@[simp] theorem emit_rewritten (e : Emit) : (s.emit e).rewritten = s.rewritten := rfl
@[simp] theorem emit_mem (e : Emit) : (s.emit e).mem = s.mem := rfl
@[simp] theorem emit_poison (e : Emit) : (s.emit e).poison = s.poison := rfl
@[simp] theorem emit_sync (e : Emit) : (s.emit e).sync = s.sync := rfl
@[simp] theorem emit_cores (e : Emit) : (s.emit e).cores = s.cores := rfl
@[simp] theorem emit_waits (e : Emit) : (s.emit e).waits = s.waits := rfl
@[simp] theorem emit_wakes (e : Emit) : (s.emit e).wakes = s.wakes := rfl
@[simp] theorem emit_signals (e : Emit) : (s.emit e).signals = s.signals := rfl
@[simp] theorem emit_remoteOverruns (e : Emit) : (s.emit e).remoteOverruns = s.remoteOverruns := rfl
@[simp] theorem emit_objLog (e : Emit) : (s.emit e).objLog = s.objLog := rfl
@[simp] theorem emit_timeouts (e : Emit) : (s.emit e).timeouts = s.timeouts := rfl
@[simp] theorem emit_manual (e : Emit) : (s.emit e).manual = s.manual := rfl
@[simp] theorem emit_eventSeq (e : Emit) : (s.emit e).eventSeq = s.eventSeq := rfl
@[simp] theorem emit_events (e : Emit) : (s.emit e).events = s.events := rfl
@[simp] theorem emit_unacked (e : Emit) : (s.emit e).unacked = s.unacked := rfl
@[simp] theorem emit_faults (e : Emit) : (s.emit e).faults = s.faults := rfl
@[simp] theorem emit_faultNext (e : Emit) : (s.emit e).faultNext = s.faultNext := rfl
@[simp] theorem emit_refusals (e : Emit) : (s.emit e).refusals = s.refusals := rfl
@[simp] theorem emit_refusalEvent (e : Emit) : (s.emit e).refusalEvent = s.refusalEvent := rfl
@[simp] theorem emit_streams (e : Emit) : (s.emit e).streams = s.streams := rfl
@[simp] theorem emit_items (e : Emit) : (s.emit e).items = s.items := rfl
@[simp] theorem emit_intake (e : Emit) : (s.emit e).intake = s.intake := rfl
@[simp] theorem emit_jobs (e : Emit) : (s.emit e).jobs = s.jobs := rfl
@[simp] theorem emit_sessions (e : Emit) : (s.emit e).sessions = s.sessions := rfl
@[simp] theorem emit_swap (e : Emit) : (s.emit e).swap = s.swap := rfl
@[simp] theorem emit_reformatting (e : Emit) : (s.emit e).reformatting = s.reformatting := rfl
@[simp] theorem emit_leftOut (e : Emit) : (s.emit e).leftOut = s.leftOut := rfl
@[simp] theorem emit_survivors (e : Emit) : (s.emit e).survivors = s.survivors := rfl
@[simp] theorem emit_rowLog (e : Emit) : (s.emit e).rowLog = s.rowLog := rfl
@[simp] theorem emit_retired (e : Emit) : (s.emit e).retired = s.retired := rfl
@[simp] theorem emit_repair (e : Emit) : (s.emit e).repair = s.repair := rfl
@[simp] theorem emit_ops (e : Emit) : (s.emit e).ops = s.ops := rfl
@[simp] theorem emit_replays (e : Emit) : (s.emit e).replays = s.replays := rfl
@[simp] theorem emit_conns (e : Emit) : (s.emit e).conns = s.conns := rfl
@[simp] theorem emit_ports (e : Emit) : (s.emit e).ports = s.ports := rfl
@[simp] theorem emit_mgmt (e : Emit) : (s.emit e).mgmt = s.mgmt := rfl
@[simp] theorem emit_hubs (e : Emit) : (s.emit e).hubs = s.hubs := rfl
@[simp] theorem emit_hubResets (e : Emit) : (s.emit e).hubResets = s.hubResets := rfl
@[simp] theorem emit_txns (e : Emit) : (s.emit e).txns = s.txns := rfl
@[simp] theorem emit_txnNext (e : Emit) : (s.emit e).txnNext = s.txnNext := rfl
@[simp] theorem emit_changes (e : Emit) : (s.emit e).changes = s.changes := rfl
@[simp] theorem emit_lockWrite (e : Emit) : (s.emit e).lockWrite = s.lockWrite := rfl
@[simp] theorem emit_links (e : Emit) : (s.emit e).links = s.links := rfl
@[simp] theorem emit_arrived (e : Emit) : (s.emit e).arrived = s.arrived := rfl
@[simp] theorem emit_requests (e : Emit) : (s.emit e).requests = s.requests := rfl
@[simp] theorem emit_channels (e : Emit) : (s.emit e).channels = s.channels := rfl
@[simp] theorem emit_tiles (e : Emit) : (s.emit e).tiles = s.tiles := rfl
@[simp] theorem emit_power (e : Emit) : (s.emit e).power = s.power := rfl
@[simp] theorem emit_clocks (e : Emit) : (s.emit e).clocks = s.clocks := rfl
@[simp] theorem emit_wear (e : Emit) : (s.emit e).wear = s.wear := rfl
@[simp] theorem emit_wearFlash (e : Emit) : (s.emit e).wearFlash = s.wearFlash := rfl
@[simp] theorem emit_xcvrs (e : Emit) : (s.emit e).xcvrs = s.xcvrs := rfl
@[simp] theorem emit_security (e : Emit) : (s.emit e).security = s.security := rfl
@[simp] theorem emit_monitors (e : Emit) : (s.emit e).monitors = s.monitors := rfl
@[simp] theorem emit_snapshotAt (e : Emit) : (s.emit e).snapshotAt = s.snapshotAt := rfl
@[simp] theorem emit_resetting (e : Emit) : (s.emit e).resetting = s.resetting := rfl
@[simp] theorem emit_tests (e : Emit) : (s.emit e).tests = s.tests := rfl
@[simp] theorem emit_lostFields (e : Emit) : (s.emit e).lostFields = s.lostFields := rfl
@[simp] theorem emit_unmanaged (e : Emit) : (s.emit e).unmanaged = s.unmanaged := rfl
@[simp] theorem emit_romMode (e : Emit) : (s.emit e).romMode = s.romMode := rfl
@[simp] theorem emit_entering (e : Emit) : (s.emit e).entering = s.entering := rfl

@[simp] theorem setCore_pending (c : Nat) (k : Core) : (s.setCore c k).pending = s.pending := rfl
@[simp] theorem setCore_now (c : Nat) (k : Core) : (s.setCore c k).now = s.now := rfl
@[simp] theorem setCore_fresh (c : Nat) (k : Core) : (s.setCore c k).fresh = s.fresh := rfl
@[simp] theorem setCore_out (c : Nat) (k : Core) : (s.setCore c k).out = s.out := rfl
@[simp] theorem setCore_obj (c : Nat) (k : Core) : (s.setCore c k).obj = s.obj := rfl
@[simp] theorem setCore_maq (c : Nat) (k : Core) : (s.setCore c k).maq = s.maq := rfl
@[simp] theorem setCore_rewritten (c : Nat) (k : Core) : (s.setCore c k).rewritten = s.rewritten := rfl
@[simp] theorem setCore_mem (c : Nat) (k : Core) : (s.setCore c k).mem = s.mem := rfl
@[simp] theorem setCore_poison (c : Nat) (k : Core) : (s.setCore c k).poison = s.poison := rfl
@[simp] theorem setCore_sync (c : Nat) (k : Core) : (s.setCore c k).sync = s.sync := rfl
@[simp] theorem setCore_waits (c : Nat) (k : Core) : (s.setCore c k).waits = s.waits := rfl
@[simp] theorem setCore_wakes (c : Nat) (k : Core) : (s.setCore c k).wakes = s.wakes := rfl
@[simp] theorem setCore_signals (c : Nat) (k : Core) : (s.setCore c k).signals = s.signals := rfl
@[simp] theorem setCore_remoteOverruns (c : Nat) (k : Core) : (s.setCore c k).remoteOverruns = s.remoteOverruns := rfl
@[simp] theorem setCore_objLog (c : Nat) (k : Core) : (s.setCore c k).objLog = s.objLog := rfl
@[simp] theorem setCore_timeouts (c : Nat) (k : Core) : (s.setCore c k).timeouts = s.timeouts := rfl
@[simp] theorem setCore_manual (c : Nat) (k : Core) : (s.setCore c k).manual = s.manual := rfl
@[simp] theorem setCore_eventSeq (c : Nat) (k : Core) : (s.setCore c k).eventSeq = s.eventSeq := rfl
@[simp] theorem setCore_events (c : Nat) (k : Core) : (s.setCore c k).events = s.events := rfl
@[simp] theorem setCore_unacked (c : Nat) (k : Core) : (s.setCore c k).unacked = s.unacked := rfl
@[simp] theorem setCore_faults (c : Nat) (k : Core) : (s.setCore c k).faults = s.faults := rfl
@[simp] theorem setCore_faultNext (c : Nat) (k : Core) : (s.setCore c k).faultNext = s.faultNext := rfl
@[simp] theorem setCore_refusals (c : Nat) (k : Core) : (s.setCore c k).refusals = s.refusals := rfl
@[simp] theorem setCore_refusalEvent (c : Nat) (k : Core) : (s.setCore c k).refusalEvent = s.refusalEvent := rfl
@[simp] theorem setCore_streams (c : Nat) (k : Core) : (s.setCore c k).streams = s.streams := rfl
@[simp] theorem setCore_items (c : Nat) (k : Core) : (s.setCore c k).items = s.items := rfl
@[simp] theorem setCore_intake (c : Nat) (k : Core) : (s.setCore c k).intake = s.intake := rfl
@[simp] theorem setCore_jobs (c : Nat) (k : Core) : (s.setCore c k).jobs = s.jobs := rfl
@[simp] theorem setCore_sessions (c : Nat) (k : Core) : (s.setCore c k).sessions = s.sessions := rfl
@[simp] theorem setCore_swap (c : Nat) (k : Core) : (s.setCore c k).swap = s.swap := rfl
@[simp] theorem setCore_reformatting (c : Nat) (k : Core) : (s.setCore c k).reformatting = s.reformatting := rfl
@[simp] theorem setCore_leftOut (c : Nat) (k : Core) : (s.setCore c k).leftOut = s.leftOut := rfl
@[simp] theorem setCore_survivors (c : Nat) (k : Core) : (s.setCore c k).survivors = s.survivors := rfl
@[simp] theorem setCore_rowLog (c : Nat) (k : Core) : (s.setCore c k).rowLog = s.rowLog := rfl
@[simp] theorem setCore_retired (c : Nat) (k : Core) : (s.setCore c k).retired = s.retired := rfl
@[simp] theorem setCore_repair (c : Nat) (k : Core) : (s.setCore c k).repair = s.repair := rfl
@[simp] theorem setCore_ops (c : Nat) (k : Core) : (s.setCore c k).ops = s.ops := rfl
@[simp] theorem setCore_replays (c : Nat) (k : Core) : (s.setCore c k).replays = s.replays := rfl
@[simp] theorem setCore_conns (c : Nat) (k : Core) : (s.setCore c k).conns = s.conns := rfl
@[simp] theorem setCore_ports (c : Nat) (k : Core) : (s.setCore c k).ports = s.ports := rfl
@[simp] theorem setCore_mgmt (c : Nat) (k : Core) : (s.setCore c k).mgmt = s.mgmt := rfl
@[simp] theorem setCore_hubs (c : Nat) (k : Core) : (s.setCore c k).hubs = s.hubs := rfl
@[simp] theorem setCore_hubResets (c : Nat) (k : Core) : (s.setCore c k).hubResets = s.hubResets := rfl
@[simp] theorem setCore_txns (c : Nat) (k : Core) : (s.setCore c k).txns = s.txns := rfl
@[simp] theorem setCore_txnNext (c : Nat) (k : Core) : (s.setCore c k).txnNext = s.txnNext := rfl
@[simp] theorem setCore_changes (c : Nat) (k : Core) : (s.setCore c k).changes = s.changes := rfl
@[simp] theorem setCore_lockWrite (c : Nat) (k : Core) : (s.setCore c k).lockWrite = s.lockWrite := rfl
@[simp] theorem setCore_links (c : Nat) (k : Core) : (s.setCore c k).links = s.links := rfl
@[simp] theorem setCore_arrived (c : Nat) (k : Core) : (s.setCore c k).arrived = s.arrived := rfl
@[simp] theorem setCore_requests (c : Nat) (k : Core) : (s.setCore c k).requests = s.requests := rfl
@[simp] theorem setCore_channels (c : Nat) (k : Core) : (s.setCore c k).channels = s.channels := rfl
@[simp] theorem setCore_tiles (c : Nat) (k : Core) : (s.setCore c k).tiles = s.tiles := rfl
@[simp] theorem setCore_power (c : Nat) (k : Core) : (s.setCore c k).power = s.power := rfl
@[simp] theorem setCore_clocks (c : Nat) (k : Core) : (s.setCore c k).clocks = s.clocks := rfl
@[simp] theorem setCore_wear (c : Nat) (k : Core) : (s.setCore c k).wear = s.wear := rfl
@[simp] theorem setCore_wearFlash (c : Nat) (k : Core) : (s.setCore c k).wearFlash = s.wearFlash := rfl
@[simp] theorem setCore_xcvrs (c : Nat) (k : Core) : (s.setCore c k).xcvrs = s.xcvrs := rfl
@[simp] theorem setCore_security (c : Nat) (k : Core) : (s.setCore c k).security = s.security := rfl
@[simp] theorem setCore_monitors (c : Nat) (k : Core) : (s.setCore c k).monitors = s.monitors := rfl
@[simp] theorem setCore_snapshotAt (c : Nat) (k : Core) : (s.setCore c k).snapshotAt = s.snapshotAt := rfl
@[simp] theorem setCore_resetting (c : Nat) (k : Core) : (s.setCore c k).resetting = s.resetting := rfl
@[simp] theorem setCore_tests (c : Nat) (k : Core) : (s.setCore c k).tests = s.tests := rfl
@[simp] theorem setCore_lostFields (c : Nat) (k : Core) : (s.setCore c k).lostFields = s.lostFields := rfl
@[simp] theorem setCore_unmanaged (c : Nat) (k : Core) : (s.setCore c k).unmanaged = s.unmanaged := rfl
@[simp] theorem setCore_romMode (c : Nat) (k : Core) : (s.setCore c k).romMode = s.romMode := rfl
@[simp] theorem setCore_entering (c : Nat) (k : Core) : (s.setCore c k).entering = s.entering := rfl

@[simp] theorem updCore_pending (c : Nat) (f : Core → Core) : (s.updCore c f).pending = s.pending := rfl
@[simp] theorem updCore_now (c : Nat) (f : Core → Core) : (s.updCore c f).now = s.now := rfl
@[simp] theorem updCore_fresh (c : Nat) (f : Core → Core) : (s.updCore c f).fresh = s.fresh := rfl
@[simp] theorem updCore_out (c : Nat) (f : Core → Core) : (s.updCore c f).out = s.out := rfl
@[simp] theorem updCore_obj (c : Nat) (f : Core → Core) : (s.updCore c f).obj = s.obj := rfl
@[simp] theorem updCore_maq (c : Nat) (f : Core → Core) : (s.updCore c f).maq = s.maq := rfl
@[simp] theorem updCore_rewritten (c : Nat) (f : Core → Core) : (s.updCore c f).rewritten = s.rewritten := rfl
@[simp] theorem updCore_mem (c : Nat) (f : Core → Core) : (s.updCore c f).mem = s.mem := rfl
@[simp] theorem updCore_poison (c : Nat) (f : Core → Core) : (s.updCore c f).poison = s.poison := rfl
@[simp] theorem updCore_sync (c : Nat) (f : Core → Core) : (s.updCore c f).sync = s.sync := rfl
@[simp] theorem updCore_waits (c : Nat) (f : Core → Core) : (s.updCore c f).waits = s.waits := rfl
@[simp] theorem updCore_wakes (c : Nat) (f : Core → Core) : (s.updCore c f).wakes = s.wakes := rfl
@[simp] theorem updCore_signals (c : Nat) (f : Core → Core) : (s.updCore c f).signals = s.signals := rfl
@[simp] theorem updCore_remoteOverruns (c : Nat) (f : Core → Core) : (s.updCore c f).remoteOverruns = s.remoteOverruns := rfl
@[simp] theorem updCore_objLog (c : Nat) (f : Core → Core) : (s.updCore c f).objLog = s.objLog := rfl
@[simp] theorem updCore_timeouts (c : Nat) (f : Core → Core) : (s.updCore c f).timeouts = s.timeouts := rfl
@[simp] theorem updCore_manual (c : Nat) (f : Core → Core) : (s.updCore c f).manual = s.manual := rfl
@[simp] theorem updCore_eventSeq (c : Nat) (f : Core → Core) : (s.updCore c f).eventSeq = s.eventSeq := rfl
@[simp] theorem updCore_events (c : Nat) (f : Core → Core) : (s.updCore c f).events = s.events := rfl
@[simp] theorem updCore_unacked (c : Nat) (f : Core → Core) : (s.updCore c f).unacked = s.unacked := rfl
@[simp] theorem updCore_faults (c : Nat) (f : Core → Core) : (s.updCore c f).faults = s.faults := rfl
@[simp] theorem updCore_faultNext (c : Nat) (f : Core → Core) : (s.updCore c f).faultNext = s.faultNext := rfl
@[simp] theorem updCore_refusals (c : Nat) (f : Core → Core) : (s.updCore c f).refusals = s.refusals := rfl
@[simp] theorem updCore_refusalEvent (c : Nat) (f : Core → Core) : (s.updCore c f).refusalEvent = s.refusalEvent := rfl
@[simp] theorem updCore_streams (c : Nat) (f : Core → Core) : (s.updCore c f).streams = s.streams := rfl
@[simp] theorem updCore_items (c : Nat) (f : Core → Core) : (s.updCore c f).items = s.items := rfl
@[simp] theorem updCore_intake (c : Nat) (f : Core → Core) : (s.updCore c f).intake = s.intake := rfl
@[simp] theorem updCore_jobs (c : Nat) (f : Core → Core) : (s.updCore c f).jobs = s.jobs := rfl
@[simp] theorem updCore_sessions (c : Nat) (f : Core → Core) : (s.updCore c f).sessions = s.sessions := rfl
@[simp] theorem updCore_swap (c : Nat) (f : Core → Core) : (s.updCore c f).swap = s.swap := rfl
@[simp] theorem updCore_reformatting (c : Nat) (f : Core → Core) : (s.updCore c f).reformatting = s.reformatting := rfl
@[simp] theorem updCore_leftOut (c : Nat) (f : Core → Core) : (s.updCore c f).leftOut = s.leftOut := rfl
@[simp] theorem updCore_survivors (c : Nat) (f : Core → Core) : (s.updCore c f).survivors = s.survivors := rfl
@[simp] theorem updCore_rowLog (c : Nat) (f : Core → Core) : (s.updCore c f).rowLog = s.rowLog := rfl
@[simp] theorem updCore_retired (c : Nat) (f : Core → Core) : (s.updCore c f).retired = s.retired := rfl
@[simp] theorem updCore_repair (c : Nat) (f : Core → Core) : (s.updCore c f).repair = s.repair := rfl
@[simp] theorem updCore_ops (c : Nat) (f : Core → Core) : (s.updCore c f).ops = s.ops := rfl
@[simp] theorem updCore_replays (c : Nat) (f : Core → Core) : (s.updCore c f).replays = s.replays := rfl
@[simp] theorem updCore_conns (c : Nat) (f : Core → Core) : (s.updCore c f).conns = s.conns := rfl
@[simp] theorem updCore_ports (c : Nat) (f : Core → Core) : (s.updCore c f).ports = s.ports := rfl
@[simp] theorem updCore_mgmt (c : Nat) (f : Core → Core) : (s.updCore c f).mgmt = s.mgmt := rfl
@[simp] theorem updCore_hubs (c : Nat) (f : Core → Core) : (s.updCore c f).hubs = s.hubs := rfl
@[simp] theorem updCore_hubResets (c : Nat) (f : Core → Core) : (s.updCore c f).hubResets = s.hubResets := rfl
@[simp] theorem updCore_txns (c : Nat) (f : Core → Core) : (s.updCore c f).txns = s.txns := rfl
@[simp] theorem updCore_txnNext (c : Nat) (f : Core → Core) : (s.updCore c f).txnNext = s.txnNext := rfl
@[simp] theorem updCore_changes (c : Nat) (f : Core → Core) : (s.updCore c f).changes = s.changes := rfl
@[simp] theorem updCore_lockWrite (c : Nat) (f : Core → Core) : (s.updCore c f).lockWrite = s.lockWrite := rfl
@[simp] theorem updCore_links (c : Nat) (f : Core → Core) : (s.updCore c f).links = s.links := rfl
@[simp] theorem updCore_arrived (c : Nat) (f : Core → Core) : (s.updCore c f).arrived = s.arrived := rfl
@[simp] theorem updCore_requests (c : Nat) (f : Core → Core) : (s.updCore c f).requests = s.requests := rfl
@[simp] theorem updCore_channels (c : Nat) (f : Core → Core) : (s.updCore c f).channels = s.channels := rfl
@[simp] theorem updCore_tiles (c : Nat) (f : Core → Core) : (s.updCore c f).tiles = s.tiles := rfl
@[simp] theorem updCore_power (c : Nat) (f : Core → Core) : (s.updCore c f).power = s.power := rfl
@[simp] theorem updCore_clocks (c : Nat) (f : Core → Core) : (s.updCore c f).clocks = s.clocks := rfl
@[simp] theorem updCore_wear (c : Nat) (f : Core → Core) : (s.updCore c f).wear = s.wear := rfl
@[simp] theorem updCore_wearFlash (c : Nat) (f : Core → Core) : (s.updCore c f).wearFlash = s.wearFlash := rfl
@[simp] theorem updCore_xcvrs (c : Nat) (f : Core → Core) : (s.updCore c f).xcvrs = s.xcvrs := rfl
@[simp] theorem updCore_security (c : Nat) (f : Core → Core) : (s.updCore c f).security = s.security := rfl
@[simp] theorem updCore_monitors (c : Nat) (f : Core → Core) : (s.updCore c f).monitors = s.monitors := rfl
@[simp] theorem updCore_snapshotAt (c : Nat) (f : Core → Core) : (s.updCore c f).snapshotAt = s.snapshotAt := rfl
@[simp] theorem updCore_resetting (c : Nat) (f : Core → Core) : (s.updCore c f).resetting = s.resetting := rfl
@[simp] theorem updCore_tests (c : Nat) (f : Core → Core) : (s.updCore c f).tests = s.tests := rfl
@[simp] theorem updCore_lostFields (c : Nat) (f : Core → Core) : (s.updCore c f).lostFields = s.lostFields := rfl
@[simp] theorem updCore_unmanaged (c : Nat) (f : Core → Core) : (s.updCore c f).unmanaged = s.unmanaged := rfl
@[simp] theorem updCore_romMode (c : Nat) (f : Core → Core) : (s.updCore c f).romMode = s.romMode := rfl
@[simp] theorem updCore_entering (c : Nat) (f : Core → Core) : (s.updCore c f).entering = s.entering := rfl

@[simp] theorem setStarted_pending (c e : Nat) (l : List Active) : (s.setStarted c e l).pending = s.pending := rfl
@[simp] theorem setStarted_now (c e : Nat) (l : List Active) : (s.setStarted c e l).now = s.now := rfl
@[simp] theorem setStarted_fresh (c e : Nat) (l : List Active) : (s.setStarted c e l).fresh = s.fresh := rfl
@[simp] theorem setStarted_out (c e : Nat) (l : List Active) : (s.setStarted c e l).out = s.out := rfl
@[simp] theorem setStarted_obj (c e : Nat) (l : List Active) : (s.setStarted c e l).obj = s.obj := rfl
@[simp] theorem setStarted_maq (c e : Nat) (l : List Active) : (s.setStarted c e l).maq = s.maq := rfl
@[simp] theorem setStarted_rewritten (c e : Nat) (l : List Active) : (s.setStarted c e l).rewritten = s.rewritten := rfl
@[simp] theorem setStarted_mem (c e : Nat) (l : List Active) : (s.setStarted c e l).mem = s.mem := rfl
@[simp] theorem setStarted_poison (c e : Nat) (l : List Active) : (s.setStarted c e l).poison = s.poison := rfl
@[simp] theorem setStarted_sync (c e : Nat) (l : List Active) : (s.setStarted c e l).sync = s.sync := rfl
@[simp] theorem setStarted_waits (c e : Nat) (l : List Active) : (s.setStarted c e l).waits = s.waits := rfl
@[simp] theorem setStarted_wakes (c e : Nat) (l : List Active) : (s.setStarted c e l).wakes = s.wakes := rfl
@[simp] theorem setStarted_signals (c e : Nat) (l : List Active) : (s.setStarted c e l).signals = s.signals := rfl
@[simp] theorem setStarted_remoteOverruns (c e : Nat) (l : List Active) : (s.setStarted c e l).remoteOverruns = s.remoteOverruns := rfl
@[simp] theorem setStarted_objLog (c e : Nat) (l : List Active) : (s.setStarted c e l).objLog = s.objLog := rfl
@[simp] theorem setStarted_timeouts (c e : Nat) (l : List Active) : (s.setStarted c e l).timeouts = s.timeouts := rfl
@[simp] theorem setStarted_manual (c e : Nat) (l : List Active) : (s.setStarted c e l).manual = s.manual := rfl
@[simp] theorem setStarted_eventSeq (c e : Nat) (l : List Active) : (s.setStarted c e l).eventSeq = s.eventSeq := rfl
@[simp] theorem setStarted_events (c e : Nat) (l : List Active) : (s.setStarted c e l).events = s.events := rfl
@[simp] theorem setStarted_unacked (c e : Nat) (l : List Active) : (s.setStarted c e l).unacked = s.unacked := rfl
@[simp] theorem setStarted_faults (c e : Nat) (l : List Active) : (s.setStarted c e l).faults = s.faults := rfl
@[simp] theorem setStarted_faultNext (c e : Nat) (l : List Active) : (s.setStarted c e l).faultNext = s.faultNext := rfl
@[simp] theorem setStarted_refusals (c e : Nat) (l : List Active) : (s.setStarted c e l).refusals = s.refusals := rfl
@[simp] theorem setStarted_refusalEvent (c e : Nat) (l : List Active) : (s.setStarted c e l).refusalEvent = s.refusalEvent := rfl
@[simp] theorem setStarted_streams (c e : Nat) (l : List Active) : (s.setStarted c e l).streams = s.streams := rfl
@[simp] theorem setStarted_items (c e : Nat) (l : List Active) : (s.setStarted c e l).items = s.items := rfl
@[simp] theorem setStarted_intake (c e : Nat) (l : List Active) : (s.setStarted c e l).intake = s.intake := rfl
@[simp] theorem setStarted_jobs (c e : Nat) (l : List Active) : (s.setStarted c e l).jobs = s.jobs := rfl
@[simp] theorem setStarted_sessions (c e : Nat) (l : List Active) : (s.setStarted c e l).sessions = s.sessions := rfl
@[simp] theorem setStarted_swap (c e : Nat) (l : List Active) : (s.setStarted c e l).swap = s.swap := rfl
@[simp] theorem setStarted_reformatting (c e : Nat) (l : List Active) : (s.setStarted c e l).reformatting = s.reformatting := rfl
@[simp] theorem setStarted_leftOut (c e : Nat) (l : List Active) : (s.setStarted c e l).leftOut = s.leftOut := rfl
@[simp] theorem setStarted_survivors (c e : Nat) (l : List Active) : (s.setStarted c e l).survivors = s.survivors := rfl
@[simp] theorem setStarted_rowLog (c e : Nat) (l : List Active) : (s.setStarted c e l).rowLog = s.rowLog := rfl
@[simp] theorem setStarted_retired (c e : Nat) (l : List Active) : (s.setStarted c e l).retired = s.retired := rfl
@[simp] theorem setStarted_repair (c e : Nat) (l : List Active) : (s.setStarted c e l).repair = s.repair := rfl
@[simp] theorem setStarted_ops (c e : Nat) (l : List Active) : (s.setStarted c e l).ops = s.ops := rfl
@[simp] theorem setStarted_replays (c e : Nat) (l : List Active) : (s.setStarted c e l).replays = s.replays := rfl
@[simp] theorem setStarted_conns (c e : Nat) (l : List Active) : (s.setStarted c e l).conns = s.conns := rfl
@[simp] theorem setStarted_ports (c e : Nat) (l : List Active) : (s.setStarted c e l).ports = s.ports := rfl
@[simp] theorem setStarted_mgmt (c e : Nat) (l : List Active) : (s.setStarted c e l).mgmt = s.mgmt := rfl
@[simp] theorem setStarted_hubs (c e : Nat) (l : List Active) : (s.setStarted c e l).hubs = s.hubs := rfl
@[simp] theorem setStarted_hubResets (c e : Nat) (l : List Active) : (s.setStarted c e l).hubResets = s.hubResets := rfl
@[simp] theorem setStarted_txns (c e : Nat) (l : List Active) : (s.setStarted c e l).txns = s.txns := rfl
@[simp] theorem setStarted_txnNext (c e : Nat) (l : List Active) : (s.setStarted c e l).txnNext = s.txnNext := rfl
@[simp] theorem setStarted_changes (c e : Nat) (l : List Active) : (s.setStarted c e l).changes = s.changes := rfl
@[simp] theorem setStarted_lockWrite (c e : Nat) (l : List Active) : (s.setStarted c e l).lockWrite = s.lockWrite := rfl
@[simp] theorem setStarted_links (c e : Nat) (l : List Active) : (s.setStarted c e l).links = s.links := rfl
@[simp] theorem setStarted_arrived (c e : Nat) (l : List Active) : (s.setStarted c e l).arrived = s.arrived := rfl
@[simp] theorem setStarted_requests (c e : Nat) (l : List Active) : (s.setStarted c e l).requests = s.requests := rfl
@[simp] theorem setStarted_channels (c e : Nat) (l : List Active) : (s.setStarted c e l).channels = s.channels := rfl
@[simp] theorem setStarted_tiles (c e : Nat) (l : List Active) : (s.setStarted c e l).tiles = s.tiles := rfl
@[simp] theorem setStarted_power (c e : Nat) (l : List Active) : (s.setStarted c e l).power = s.power := rfl
@[simp] theorem setStarted_clocks (c e : Nat) (l : List Active) : (s.setStarted c e l).clocks = s.clocks := rfl
@[simp] theorem setStarted_wear (c e : Nat) (l : List Active) : (s.setStarted c e l).wear = s.wear := rfl
@[simp] theorem setStarted_wearFlash (c e : Nat) (l : List Active) : (s.setStarted c e l).wearFlash = s.wearFlash := rfl
@[simp] theorem setStarted_xcvrs (c e : Nat) (l : List Active) : (s.setStarted c e l).xcvrs = s.xcvrs := rfl
@[simp] theorem setStarted_security (c e : Nat) (l : List Active) : (s.setStarted c e l).security = s.security := rfl
@[simp] theorem setStarted_monitors (c e : Nat) (l : List Active) : (s.setStarted c e l).monitors = s.monitors := rfl
@[simp] theorem setStarted_snapshotAt (c e : Nat) (l : List Active) : (s.setStarted c e l).snapshotAt = s.snapshotAt := rfl
@[simp] theorem setStarted_resetting (c e : Nat) (l : List Active) : (s.setStarted c e l).resetting = s.resetting := rfl
@[simp] theorem setStarted_tests (c e : Nat) (l : List Active) : (s.setStarted c e l).tests = s.tests := rfl
@[simp] theorem setStarted_lostFields (c e : Nat) (l : List Active) : (s.setStarted c e l).lostFields = s.lostFields := rfl
@[simp] theorem setStarted_unmanaged (c e : Nat) (l : List Active) : (s.setStarted c e l).unmanaged = s.unmanaged := rfl
@[simp] theorem setStarted_romMode (c e : Nat) (l : List Active) : (s.setStarted c e l).romMode = s.romMode := rfl
@[simp] theorem setStarted_entering (c e : Nat) (l : List Active) : (s.setStarted c e l).entering = s.entering := rfl

@[simp] theorem putActive_pending (c e i : Nat) (a : Active) : (s.putActive c e i a).pending = s.pending := rfl
@[simp] theorem putActive_now (c e i : Nat) (a : Active) : (s.putActive c e i a).now = s.now := rfl
@[simp] theorem putActive_fresh (c e i : Nat) (a : Active) : (s.putActive c e i a).fresh = s.fresh := rfl
@[simp] theorem putActive_out (c e i : Nat) (a : Active) : (s.putActive c e i a).out = s.out := rfl
@[simp] theorem putActive_obj (c e i : Nat) (a : Active) : (s.putActive c e i a).obj = s.obj := rfl
@[simp] theorem putActive_maq (c e i : Nat) (a : Active) : (s.putActive c e i a).maq = s.maq := rfl
@[simp] theorem putActive_rewritten (c e i : Nat) (a : Active) : (s.putActive c e i a).rewritten = s.rewritten := rfl
@[simp] theorem putActive_mem (c e i : Nat) (a : Active) : (s.putActive c e i a).mem = s.mem := rfl
@[simp] theorem putActive_poison (c e i : Nat) (a : Active) : (s.putActive c e i a).poison = s.poison := rfl
@[simp] theorem putActive_sync (c e i : Nat) (a : Active) : (s.putActive c e i a).sync = s.sync := rfl
@[simp] theorem putActive_waits (c e i : Nat) (a : Active) : (s.putActive c e i a).waits = s.waits := rfl
@[simp] theorem putActive_wakes (c e i : Nat) (a : Active) : (s.putActive c e i a).wakes = s.wakes := rfl
@[simp] theorem putActive_signals (c e i : Nat) (a : Active) : (s.putActive c e i a).signals = s.signals := rfl
@[simp] theorem putActive_remoteOverruns (c e i : Nat) (a : Active) : (s.putActive c e i a).remoteOverruns = s.remoteOverruns := rfl
@[simp] theorem putActive_objLog (c e i : Nat) (a : Active) : (s.putActive c e i a).objLog = s.objLog := rfl
@[simp] theorem putActive_timeouts (c e i : Nat) (a : Active) : (s.putActive c e i a).timeouts = s.timeouts := rfl
@[simp] theorem putActive_manual (c e i : Nat) (a : Active) : (s.putActive c e i a).manual = s.manual := rfl
@[simp] theorem putActive_eventSeq (c e i : Nat) (a : Active) : (s.putActive c e i a).eventSeq = s.eventSeq := rfl
@[simp] theorem putActive_events (c e i : Nat) (a : Active) : (s.putActive c e i a).events = s.events := rfl
@[simp] theorem putActive_unacked (c e i : Nat) (a : Active) : (s.putActive c e i a).unacked = s.unacked := rfl
@[simp] theorem putActive_faults (c e i : Nat) (a : Active) : (s.putActive c e i a).faults = s.faults := rfl
@[simp] theorem putActive_faultNext (c e i : Nat) (a : Active) : (s.putActive c e i a).faultNext = s.faultNext := rfl
@[simp] theorem putActive_refusals (c e i : Nat) (a : Active) : (s.putActive c e i a).refusals = s.refusals := rfl
@[simp] theorem putActive_refusalEvent (c e i : Nat) (a : Active) : (s.putActive c e i a).refusalEvent = s.refusalEvent := rfl
@[simp] theorem putActive_streams (c e i : Nat) (a : Active) : (s.putActive c e i a).streams = s.streams := rfl
@[simp] theorem putActive_items (c e i : Nat) (a : Active) : (s.putActive c e i a).items = s.items := rfl
@[simp] theorem putActive_intake (c e i : Nat) (a : Active) : (s.putActive c e i a).intake = s.intake := rfl
@[simp] theorem putActive_jobs (c e i : Nat) (a : Active) : (s.putActive c e i a).jobs = s.jobs := rfl
@[simp] theorem putActive_sessions (c e i : Nat) (a : Active) : (s.putActive c e i a).sessions = s.sessions := rfl
@[simp] theorem putActive_swap (c e i : Nat) (a : Active) : (s.putActive c e i a).swap = s.swap := rfl
@[simp] theorem putActive_reformatting (c e i : Nat) (a : Active) : (s.putActive c e i a).reformatting = s.reformatting := rfl
@[simp] theorem putActive_leftOut (c e i : Nat) (a : Active) : (s.putActive c e i a).leftOut = s.leftOut := rfl
@[simp] theorem putActive_survivors (c e i : Nat) (a : Active) : (s.putActive c e i a).survivors = s.survivors := rfl
@[simp] theorem putActive_rowLog (c e i : Nat) (a : Active) : (s.putActive c e i a).rowLog = s.rowLog := rfl
@[simp] theorem putActive_retired (c e i : Nat) (a : Active) : (s.putActive c e i a).retired = s.retired := rfl
@[simp] theorem putActive_repair (c e i : Nat) (a : Active) : (s.putActive c e i a).repair = s.repair := rfl
@[simp] theorem putActive_ops (c e i : Nat) (a : Active) : (s.putActive c e i a).ops = s.ops := rfl
@[simp] theorem putActive_replays (c e i : Nat) (a : Active) : (s.putActive c e i a).replays = s.replays := rfl
@[simp] theorem putActive_conns (c e i : Nat) (a : Active) : (s.putActive c e i a).conns = s.conns := rfl
@[simp] theorem putActive_ports (c e i : Nat) (a : Active) : (s.putActive c e i a).ports = s.ports := rfl
@[simp] theorem putActive_mgmt (c e i : Nat) (a : Active) : (s.putActive c e i a).mgmt = s.mgmt := rfl
@[simp] theorem putActive_hubs (c e i : Nat) (a : Active) : (s.putActive c e i a).hubs = s.hubs := rfl
@[simp] theorem putActive_hubResets (c e i : Nat) (a : Active) : (s.putActive c e i a).hubResets = s.hubResets := rfl
@[simp] theorem putActive_txns (c e i : Nat) (a : Active) : (s.putActive c e i a).txns = s.txns := rfl
@[simp] theorem putActive_txnNext (c e i : Nat) (a : Active) : (s.putActive c e i a).txnNext = s.txnNext := rfl
@[simp] theorem putActive_changes (c e i : Nat) (a : Active) : (s.putActive c e i a).changes = s.changes := rfl
@[simp] theorem putActive_lockWrite (c e i : Nat) (a : Active) : (s.putActive c e i a).lockWrite = s.lockWrite := rfl
@[simp] theorem putActive_links (c e i : Nat) (a : Active) : (s.putActive c e i a).links = s.links := rfl
@[simp] theorem putActive_arrived (c e i : Nat) (a : Active) : (s.putActive c e i a).arrived = s.arrived := rfl
@[simp] theorem putActive_requests (c e i : Nat) (a : Active) : (s.putActive c e i a).requests = s.requests := rfl
@[simp] theorem putActive_channels (c e i : Nat) (a : Active) : (s.putActive c e i a).channels = s.channels := rfl
@[simp] theorem putActive_tiles (c e i : Nat) (a : Active) : (s.putActive c e i a).tiles = s.tiles := rfl
@[simp] theorem putActive_power (c e i : Nat) (a : Active) : (s.putActive c e i a).power = s.power := rfl
@[simp] theorem putActive_clocks (c e i : Nat) (a : Active) : (s.putActive c e i a).clocks = s.clocks := rfl
@[simp] theorem putActive_wear (c e i : Nat) (a : Active) : (s.putActive c e i a).wear = s.wear := rfl
@[simp] theorem putActive_wearFlash (c e i : Nat) (a : Active) : (s.putActive c e i a).wearFlash = s.wearFlash := rfl
@[simp] theorem putActive_xcvrs (c e i : Nat) (a : Active) : (s.putActive c e i a).xcvrs = s.xcvrs := rfl
@[simp] theorem putActive_security (c e i : Nat) (a : Active) : (s.putActive c e i a).security = s.security := rfl
@[simp] theorem putActive_monitors (c e i : Nat) (a : Active) : (s.putActive c e i a).monitors = s.monitors := rfl
@[simp] theorem putActive_snapshotAt (c e i : Nat) (a : Active) : (s.putActive c e i a).snapshotAt = s.snapshotAt := rfl
@[simp] theorem putActive_resetting (c e i : Nat) (a : Active) : (s.putActive c e i a).resetting = s.resetting := rfl
@[simp] theorem putActive_tests (c e i : Nat) (a : Active) : (s.putActive c e i a).tests = s.tests := rfl
@[simp] theorem putActive_lostFields (c e i : Nat) (a : Active) : (s.putActive c e i a).lostFields = s.lostFields := rfl
@[simp] theorem putActive_unmanaged (c e i : Nat) (a : Active) : (s.putActive c e i a).unmanaged = s.unmanaged := rfl
@[simp] theorem putActive_romMode (c e i : Nat) (a : Active) : (s.putActive c e i a).romMode = s.romMode := rfl
@[simp] theorem putActive_entering (c e i : Nat) (a : Active) : (s.putActive c e i a).entering = s.entering := rfl

@[simp] theorem updTile_pending (h : Nat) (f : Tile → Tile) : (s.updTile h f).pending = s.pending := rfl
@[simp] theorem updTile_now (h : Nat) (f : Tile → Tile) : (s.updTile h f).now = s.now := rfl
@[simp] theorem updTile_fresh (h : Nat) (f : Tile → Tile) : (s.updTile h f).fresh = s.fresh := rfl
@[simp] theorem updTile_out (h : Nat) (f : Tile → Tile) : (s.updTile h f).out = s.out := rfl
@[simp] theorem updTile_obj (h : Nat) (f : Tile → Tile) : (s.updTile h f).obj = s.obj := rfl
@[simp] theorem updTile_maq (h : Nat) (f : Tile → Tile) : (s.updTile h f).maq = s.maq := rfl
@[simp] theorem updTile_rewritten (h : Nat) (f : Tile → Tile) : (s.updTile h f).rewritten = s.rewritten := rfl
@[simp] theorem updTile_mem (h : Nat) (f : Tile → Tile) : (s.updTile h f).mem = s.mem := rfl
@[simp] theorem updTile_poison (h : Nat) (f : Tile → Tile) : (s.updTile h f).poison = s.poison := rfl
@[simp] theorem updTile_sync (h : Nat) (f : Tile → Tile) : (s.updTile h f).sync = s.sync := rfl
@[simp] theorem updTile_cores (h : Nat) (f : Tile → Tile) : (s.updTile h f).cores = s.cores := rfl
@[simp] theorem updTile_waits (h : Nat) (f : Tile → Tile) : (s.updTile h f).waits = s.waits := rfl
@[simp] theorem updTile_wakes (h : Nat) (f : Tile → Tile) : (s.updTile h f).wakes = s.wakes := rfl
@[simp] theorem updTile_signals (h : Nat) (f : Tile → Tile) : (s.updTile h f).signals = s.signals := rfl
@[simp] theorem updTile_remoteOverruns (h : Nat) (f : Tile → Tile) : (s.updTile h f).remoteOverruns = s.remoteOverruns := rfl
@[simp] theorem updTile_objLog (h : Nat) (f : Tile → Tile) : (s.updTile h f).objLog = s.objLog := rfl
@[simp] theorem updTile_timeouts (h : Nat) (f : Tile → Tile) : (s.updTile h f).timeouts = s.timeouts := rfl
@[simp] theorem updTile_manual (h : Nat) (f : Tile → Tile) : (s.updTile h f).manual = s.manual := rfl
@[simp] theorem updTile_eventSeq (h : Nat) (f : Tile → Tile) : (s.updTile h f).eventSeq = s.eventSeq := rfl
@[simp] theorem updTile_events (h : Nat) (f : Tile → Tile) : (s.updTile h f).events = s.events := rfl
@[simp] theorem updTile_unacked (h : Nat) (f : Tile → Tile) : (s.updTile h f).unacked = s.unacked := rfl
@[simp] theorem updTile_faults (h : Nat) (f : Tile → Tile) : (s.updTile h f).faults = s.faults := rfl
@[simp] theorem updTile_faultNext (h : Nat) (f : Tile → Tile) : (s.updTile h f).faultNext = s.faultNext := rfl
@[simp] theorem updTile_refusals (h : Nat) (f : Tile → Tile) : (s.updTile h f).refusals = s.refusals := rfl
@[simp] theorem updTile_refusalEvent (h : Nat) (f : Tile → Tile) : (s.updTile h f).refusalEvent = s.refusalEvent := rfl
@[simp] theorem updTile_streams (h : Nat) (f : Tile → Tile) : (s.updTile h f).streams = s.streams := rfl
@[simp] theorem updTile_items (h : Nat) (f : Tile → Tile) : (s.updTile h f).items = s.items := rfl
@[simp] theorem updTile_intake (h : Nat) (f : Tile → Tile) : (s.updTile h f).intake = s.intake := rfl
@[simp] theorem updTile_jobs (h : Nat) (f : Tile → Tile) : (s.updTile h f).jobs = s.jobs := rfl
@[simp] theorem updTile_sessions (h : Nat) (f : Tile → Tile) : (s.updTile h f).sessions = s.sessions := rfl
@[simp] theorem updTile_swap (h : Nat) (f : Tile → Tile) : (s.updTile h f).swap = s.swap := rfl
@[simp] theorem updTile_reformatting (h : Nat) (f : Tile → Tile) : (s.updTile h f).reformatting = s.reformatting := rfl
@[simp] theorem updTile_leftOut (h : Nat) (f : Tile → Tile) : (s.updTile h f).leftOut = s.leftOut := rfl
@[simp] theorem updTile_survivors (h : Nat) (f : Tile → Tile) : (s.updTile h f).survivors = s.survivors := rfl
@[simp] theorem updTile_rowLog (h : Nat) (f : Tile → Tile) : (s.updTile h f).rowLog = s.rowLog := rfl
@[simp] theorem updTile_retired (h : Nat) (f : Tile → Tile) : (s.updTile h f).retired = s.retired := rfl
@[simp] theorem updTile_repair (h : Nat) (f : Tile → Tile) : (s.updTile h f).repair = s.repair := rfl
@[simp] theorem updTile_ops (h : Nat) (f : Tile → Tile) : (s.updTile h f).ops = s.ops := rfl
@[simp] theorem updTile_replays (h : Nat) (f : Tile → Tile) : (s.updTile h f).replays = s.replays := rfl
@[simp] theorem updTile_conns (h : Nat) (f : Tile → Tile) : (s.updTile h f).conns = s.conns := rfl
@[simp] theorem updTile_ports (h : Nat) (f : Tile → Tile) : (s.updTile h f).ports = s.ports := rfl
@[simp] theorem updTile_mgmt (h : Nat) (f : Tile → Tile) : (s.updTile h f).mgmt = s.mgmt := rfl
@[simp] theorem updTile_hubs (h : Nat) (f : Tile → Tile) : (s.updTile h f).hubs = s.hubs := rfl
@[simp] theorem updTile_hubResets (h : Nat) (f : Tile → Tile) : (s.updTile h f).hubResets = s.hubResets := rfl
@[simp] theorem updTile_txns (h : Nat) (f : Tile → Tile) : (s.updTile h f).txns = s.txns := rfl
@[simp] theorem updTile_txnNext (h : Nat) (f : Tile → Tile) : (s.updTile h f).txnNext = s.txnNext := rfl
@[simp] theorem updTile_changes (h : Nat) (f : Tile → Tile) : (s.updTile h f).changes = s.changes := rfl
@[simp] theorem updTile_lockWrite (h : Nat) (f : Tile → Tile) : (s.updTile h f).lockWrite = s.lockWrite := rfl
@[simp] theorem updTile_links (h : Nat) (f : Tile → Tile) : (s.updTile h f).links = s.links := rfl
@[simp] theorem updTile_arrived (h : Nat) (f : Tile → Tile) : (s.updTile h f).arrived = s.arrived := rfl
@[simp] theorem updTile_requests (h : Nat) (f : Tile → Tile) : (s.updTile h f).requests = s.requests := rfl
@[simp] theorem updTile_channels (h : Nat) (f : Tile → Tile) : (s.updTile h f).channels = s.channels := rfl
@[simp] theorem updTile_power (h : Nat) (f : Tile → Tile) : (s.updTile h f).power = s.power := rfl
@[simp] theorem updTile_clocks (h : Nat) (f : Tile → Tile) : (s.updTile h f).clocks = s.clocks := rfl
@[simp] theorem updTile_wear (h : Nat) (f : Tile → Tile) : (s.updTile h f).wear = s.wear := rfl
@[simp] theorem updTile_wearFlash (h : Nat) (f : Tile → Tile) : (s.updTile h f).wearFlash = s.wearFlash := rfl
@[simp] theorem updTile_xcvrs (h : Nat) (f : Tile → Tile) : (s.updTile h f).xcvrs = s.xcvrs := rfl
@[simp] theorem updTile_security (h : Nat) (f : Tile → Tile) : (s.updTile h f).security = s.security := rfl
@[simp] theorem updTile_monitors (h : Nat) (f : Tile → Tile) : (s.updTile h f).monitors = s.monitors := rfl
@[simp] theorem updTile_snapshotAt (h : Nat) (f : Tile → Tile) : (s.updTile h f).snapshotAt = s.snapshotAt := rfl
@[simp] theorem updTile_resetting (h : Nat) (f : Tile → Tile) : (s.updTile h f).resetting = s.resetting := rfl
@[simp] theorem updTile_tests (h : Nat) (f : Tile → Tile) : (s.updTile h f).tests = s.tests := rfl
@[simp] theorem updTile_lostFields (h : Nat) (f : Tile → Tile) : (s.updTile h f).lostFields = s.lostFields := rfl
@[simp] theorem updTile_unmanaged (h : Nat) (f : Tile → Tile) : (s.updTile h f).unmanaged = s.unmanaged := rfl
@[simp] theorem updTile_romMode (h : Nat) (f : Tile → Tile) : (s.updTile h f).romMode = s.romMode := rfl
@[simp] theorem updTile_entering (h : Nat) (f : Tile → Tile) : (s.updTile h f).entering = s.entering := rfl

@[simp] theorem updJob_pending (j : Nat) (f : Job → Job) : (s.updJob j f).pending = s.pending := rfl
@[simp] theorem updJob_now (j : Nat) (f : Job → Job) : (s.updJob j f).now = s.now := rfl
@[simp] theorem updJob_fresh (j : Nat) (f : Job → Job) : (s.updJob j f).fresh = s.fresh := rfl
@[simp] theorem updJob_out (j : Nat) (f : Job → Job) : (s.updJob j f).out = s.out := rfl
@[simp] theorem updJob_obj (j : Nat) (f : Job → Job) : (s.updJob j f).obj = s.obj := rfl
@[simp] theorem updJob_maq (j : Nat) (f : Job → Job) : (s.updJob j f).maq = s.maq := rfl
@[simp] theorem updJob_rewritten (j : Nat) (f : Job → Job) : (s.updJob j f).rewritten = s.rewritten := rfl
@[simp] theorem updJob_mem (j : Nat) (f : Job → Job) : (s.updJob j f).mem = s.mem := rfl
@[simp] theorem updJob_poison (j : Nat) (f : Job → Job) : (s.updJob j f).poison = s.poison := rfl
@[simp] theorem updJob_sync (j : Nat) (f : Job → Job) : (s.updJob j f).sync = s.sync := rfl
@[simp] theorem updJob_cores (j : Nat) (f : Job → Job) : (s.updJob j f).cores = s.cores := rfl
@[simp] theorem updJob_waits (j : Nat) (f : Job → Job) : (s.updJob j f).waits = s.waits := rfl
@[simp] theorem updJob_wakes (j : Nat) (f : Job → Job) : (s.updJob j f).wakes = s.wakes := rfl
@[simp] theorem updJob_signals (j : Nat) (f : Job → Job) : (s.updJob j f).signals = s.signals := rfl
@[simp] theorem updJob_remoteOverruns (j : Nat) (f : Job → Job) : (s.updJob j f).remoteOverruns = s.remoteOverruns := rfl
@[simp] theorem updJob_objLog (j : Nat) (f : Job → Job) : (s.updJob j f).objLog = s.objLog := rfl
@[simp] theorem updJob_timeouts (j : Nat) (f : Job → Job) : (s.updJob j f).timeouts = s.timeouts := rfl
@[simp] theorem updJob_manual (j : Nat) (f : Job → Job) : (s.updJob j f).manual = s.manual := rfl
@[simp] theorem updJob_eventSeq (j : Nat) (f : Job → Job) : (s.updJob j f).eventSeq = s.eventSeq := rfl
@[simp] theorem updJob_events (j : Nat) (f : Job → Job) : (s.updJob j f).events = s.events := rfl
@[simp] theorem updJob_unacked (j : Nat) (f : Job → Job) : (s.updJob j f).unacked = s.unacked := rfl
@[simp] theorem updJob_faults (j : Nat) (f : Job → Job) : (s.updJob j f).faults = s.faults := rfl
@[simp] theorem updJob_faultNext (j : Nat) (f : Job → Job) : (s.updJob j f).faultNext = s.faultNext := rfl
@[simp] theorem updJob_refusals (j : Nat) (f : Job → Job) : (s.updJob j f).refusals = s.refusals := rfl
@[simp] theorem updJob_refusalEvent (j : Nat) (f : Job → Job) : (s.updJob j f).refusalEvent = s.refusalEvent := rfl
@[simp] theorem updJob_streams (j : Nat) (f : Job → Job) : (s.updJob j f).streams = s.streams := rfl
@[simp] theorem updJob_items (j : Nat) (f : Job → Job) : (s.updJob j f).items = s.items := rfl
@[simp] theorem updJob_intake (j : Nat) (f : Job → Job) : (s.updJob j f).intake = s.intake := rfl
@[simp] theorem updJob_sessions (j : Nat) (f : Job → Job) : (s.updJob j f).sessions = s.sessions := rfl
@[simp] theorem updJob_swap (j : Nat) (f : Job → Job) : (s.updJob j f).swap = s.swap := rfl
@[simp] theorem updJob_reformatting (j : Nat) (f : Job → Job) : (s.updJob j f).reformatting = s.reformatting := rfl
@[simp] theorem updJob_leftOut (j : Nat) (f : Job → Job) : (s.updJob j f).leftOut = s.leftOut := rfl
@[simp] theorem updJob_survivors (j : Nat) (f : Job → Job) : (s.updJob j f).survivors = s.survivors := rfl
@[simp] theorem updJob_rowLog (j : Nat) (f : Job → Job) : (s.updJob j f).rowLog = s.rowLog := rfl
@[simp] theorem updJob_retired (j : Nat) (f : Job → Job) : (s.updJob j f).retired = s.retired := rfl
@[simp] theorem updJob_repair (j : Nat) (f : Job → Job) : (s.updJob j f).repair = s.repair := rfl
@[simp] theorem updJob_ops (j : Nat) (f : Job → Job) : (s.updJob j f).ops = s.ops := rfl
@[simp] theorem updJob_replays (j : Nat) (f : Job → Job) : (s.updJob j f).replays = s.replays := rfl
@[simp] theorem updJob_conns (j : Nat) (f : Job → Job) : (s.updJob j f).conns = s.conns := rfl
@[simp] theorem updJob_ports (j : Nat) (f : Job → Job) : (s.updJob j f).ports = s.ports := rfl
@[simp] theorem updJob_mgmt (j : Nat) (f : Job → Job) : (s.updJob j f).mgmt = s.mgmt := rfl
@[simp] theorem updJob_hubs (j : Nat) (f : Job → Job) : (s.updJob j f).hubs = s.hubs := rfl
@[simp] theorem updJob_hubResets (j : Nat) (f : Job → Job) : (s.updJob j f).hubResets = s.hubResets := rfl
@[simp] theorem updJob_txns (j : Nat) (f : Job → Job) : (s.updJob j f).txns = s.txns := rfl
@[simp] theorem updJob_txnNext (j : Nat) (f : Job → Job) : (s.updJob j f).txnNext = s.txnNext := rfl
@[simp] theorem updJob_changes (j : Nat) (f : Job → Job) : (s.updJob j f).changes = s.changes := rfl
@[simp] theorem updJob_lockWrite (j : Nat) (f : Job → Job) : (s.updJob j f).lockWrite = s.lockWrite := rfl
@[simp] theorem updJob_links (j : Nat) (f : Job → Job) : (s.updJob j f).links = s.links := rfl
@[simp] theorem updJob_arrived (j : Nat) (f : Job → Job) : (s.updJob j f).arrived = s.arrived := rfl
@[simp] theorem updJob_requests (j : Nat) (f : Job → Job) : (s.updJob j f).requests = s.requests := rfl
@[simp] theorem updJob_channels (j : Nat) (f : Job → Job) : (s.updJob j f).channels = s.channels := rfl
@[simp] theorem updJob_tiles (j : Nat) (f : Job → Job) : (s.updJob j f).tiles = s.tiles := rfl
@[simp] theorem updJob_power (j : Nat) (f : Job → Job) : (s.updJob j f).power = s.power := rfl
@[simp] theorem updJob_clocks (j : Nat) (f : Job → Job) : (s.updJob j f).clocks = s.clocks := rfl
@[simp] theorem updJob_wear (j : Nat) (f : Job → Job) : (s.updJob j f).wear = s.wear := rfl
@[simp] theorem updJob_wearFlash (j : Nat) (f : Job → Job) : (s.updJob j f).wearFlash = s.wearFlash := rfl
@[simp] theorem updJob_xcvrs (j : Nat) (f : Job → Job) : (s.updJob j f).xcvrs = s.xcvrs := rfl
@[simp] theorem updJob_security (j : Nat) (f : Job → Job) : (s.updJob j f).security = s.security := rfl
@[simp] theorem updJob_monitors (j : Nat) (f : Job → Job) : (s.updJob j f).monitors = s.monitors := rfl
@[simp] theorem updJob_snapshotAt (j : Nat) (f : Job → Job) : (s.updJob j f).snapshotAt = s.snapshotAt := rfl
@[simp] theorem updJob_resetting (j : Nat) (f : Job → Job) : (s.updJob j f).resetting = s.resetting := rfl
@[simp] theorem updJob_tests (j : Nat) (f : Job → Job) : (s.updJob j f).tests = s.tests := rfl
@[simp] theorem updJob_lostFields (j : Nat) (f : Job → Job) : (s.updJob j f).lostFields = s.lostFields := rfl
@[simp] theorem updJob_unmanaged (j : Nat) (f : Job → Job) : (s.updJob j f).unmanaged = s.unmanaged := rfl
@[simp] theorem updJob_romMode (j : Nat) (f : Job → Job) : (s.updJob j f).romMode = s.romMode := rfl
@[simp] theorem updJob_entering (j : Nat) (f : Job → Job) : (s.updJob j f).entering = s.entering := rfl

@[simp] theorem syncSet_pending (c i v : Nat) : (s.syncSet c i v).pending = s.pending := rfl
@[simp] theorem syncSet_now (c i v : Nat) : (s.syncSet c i v).now = s.now := rfl
@[simp] theorem syncSet_fresh (c i v : Nat) : (s.syncSet c i v).fresh = s.fresh := rfl
@[simp] theorem syncSet_out (c i v : Nat) : (s.syncSet c i v).out = s.out := rfl
@[simp] theorem syncSet_obj (c i v : Nat) : (s.syncSet c i v).obj = s.obj := rfl
@[simp] theorem syncSet_maq (c i v : Nat) : (s.syncSet c i v).maq = s.maq := rfl
@[simp] theorem syncSet_rewritten (c i v : Nat) : (s.syncSet c i v).rewritten = s.rewritten := rfl
@[simp] theorem syncSet_mem (c i v : Nat) : (s.syncSet c i v).mem = s.mem := rfl
@[simp] theorem syncSet_poison (c i v : Nat) : (s.syncSet c i v).poison = s.poison := rfl
@[simp] theorem syncSet_cores (c i v : Nat) : (s.syncSet c i v).cores = s.cores := rfl
@[simp] theorem syncSet_waits (c i v : Nat) : (s.syncSet c i v).waits = s.waits := rfl
@[simp] theorem syncSet_wakes (c i v : Nat) : (s.syncSet c i v).wakes = s.wakes := rfl
@[simp] theorem syncSet_signals (c i v : Nat) : (s.syncSet c i v).signals = s.signals := rfl
@[simp] theorem syncSet_remoteOverruns (c i v : Nat) : (s.syncSet c i v).remoteOverruns = s.remoteOverruns := rfl
@[simp] theorem syncSet_objLog (c i v : Nat) : (s.syncSet c i v).objLog = s.objLog := rfl
@[simp] theorem syncSet_timeouts (c i v : Nat) : (s.syncSet c i v).timeouts = s.timeouts := rfl
@[simp] theorem syncSet_manual (c i v : Nat) : (s.syncSet c i v).manual = s.manual := rfl
@[simp] theorem syncSet_eventSeq (c i v : Nat) : (s.syncSet c i v).eventSeq = s.eventSeq := rfl
@[simp] theorem syncSet_events (c i v : Nat) : (s.syncSet c i v).events = s.events := rfl
@[simp] theorem syncSet_unacked (c i v : Nat) : (s.syncSet c i v).unacked = s.unacked := rfl
@[simp] theorem syncSet_faults (c i v : Nat) : (s.syncSet c i v).faults = s.faults := rfl
@[simp] theorem syncSet_faultNext (c i v : Nat) : (s.syncSet c i v).faultNext = s.faultNext := rfl
@[simp] theorem syncSet_refusals (c i v : Nat) : (s.syncSet c i v).refusals = s.refusals := rfl
@[simp] theorem syncSet_refusalEvent (c i v : Nat) : (s.syncSet c i v).refusalEvent = s.refusalEvent := rfl
@[simp] theorem syncSet_streams (c i v : Nat) : (s.syncSet c i v).streams = s.streams := rfl
@[simp] theorem syncSet_items (c i v : Nat) : (s.syncSet c i v).items = s.items := rfl
@[simp] theorem syncSet_intake (c i v : Nat) : (s.syncSet c i v).intake = s.intake := rfl
@[simp] theorem syncSet_jobs (c i v : Nat) : (s.syncSet c i v).jobs = s.jobs := rfl
@[simp] theorem syncSet_sessions (c i v : Nat) : (s.syncSet c i v).sessions = s.sessions := rfl
@[simp] theorem syncSet_swap (c i v : Nat) : (s.syncSet c i v).swap = s.swap := rfl
@[simp] theorem syncSet_reformatting (c i v : Nat) : (s.syncSet c i v).reformatting = s.reformatting := rfl
@[simp] theorem syncSet_leftOut (c i v : Nat) : (s.syncSet c i v).leftOut = s.leftOut := rfl
@[simp] theorem syncSet_survivors (c i v : Nat) : (s.syncSet c i v).survivors = s.survivors := rfl
@[simp] theorem syncSet_rowLog (c i v : Nat) : (s.syncSet c i v).rowLog = s.rowLog := rfl
@[simp] theorem syncSet_retired (c i v : Nat) : (s.syncSet c i v).retired = s.retired := rfl
@[simp] theorem syncSet_repair (c i v : Nat) : (s.syncSet c i v).repair = s.repair := rfl
@[simp] theorem syncSet_ops (c i v : Nat) : (s.syncSet c i v).ops = s.ops := rfl
@[simp] theorem syncSet_replays (c i v : Nat) : (s.syncSet c i v).replays = s.replays := rfl
@[simp] theorem syncSet_conns (c i v : Nat) : (s.syncSet c i v).conns = s.conns := rfl
@[simp] theorem syncSet_ports (c i v : Nat) : (s.syncSet c i v).ports = s.ports := rfl
@[simp] theorem syncSet_mgmt (c i v : Nat) : (s.syncSet c i v).mgmt = s.mgmt := rfl
@[simp] theorem syncSet_hubs (c i v : Nat) : (s.syncSet c i v).hubs = s.hubs := rfl
@[simp] theorem syncSet_hubResets (c i v : Nat) : (s.syncSet c i v).hubResets = s.hubResets := rfl
@[simp] theorem syncSet_txns (c i v : Nat) : (s.syncSet c i v).txns = s.txns := rfl
@[simp] theorem syncSet_txnNext (c i v : Nat) : (s.syncSet c i v).txnNext = s.txnNext := rfl
@[simp] theorem syncSet_changes (c i v : Nat) : (s.syncSet c i v).changes = s.changes := rfl
@[simp] theorem syncSet_lockWrite (c i v : Nat) : (s.syncSet c i v).lockWrite = s.lockWrite := rfl
@[simp] theorem syncSet_links (c i v : Nat) : (s.syncSet c i v).links = s.links := rfl
@[simp] theorem syncSet_arrived (c i v : Nat) : (s.syncSet c i v).arrived = s.arrived := rfl
@[simp] theorem syncSet_requests (c i v : Nat) : (s.syncSet c i v).requests = s.requests := rfl
@[simp] theorem syncSet_channels (c i v : Nat) : (s.syncSet c i v).channels = s.channels := rfl
@[simp] theorem syncSet_tiles (c i v : Nat) : (s.syncSet c i v).tiles = s.tiles := rfl
@[simp] theorem syncSet_power (c i v : Nat) : (s.syncSet c i v).power = s.power := rfl
@[simp] theorem syncSet_clocks (c i v : Nat) : (s.syncSet c i v).clocks = s.clocks := rfl
@[simp] theorem syncSet_wear (c i v : Nat) : (s.syncSet c i v).wear = s.wear := rfl
@[simp] theorem syncSet_wearFlash (c i v : Nat) : (s.syncSet c i v).wearFlash = s.wearFlash := rfl
@[simp] theorem syncSet_xcvrs (c i v : Nat) : (s.syncSet c i v).xcvrs = s.xcvrs := rfl
@[simp] theorem syncSet_security (c i v : Nat) : (s.syncSet c i v).security = s.security := rfl
@[simp] theorem syncSet_monitors (c i v : Nat) : (s.syncSet c i v).monitors = s.monitors := rfl
@[simp] theorem syncSet_snapshotAt (c i v : Nat) : (s.syncSet c i v).snapshotAt = s.snapshotAt := rfl
@[simp] theorem syncSet_resetting (c i v : Nat) : (s.syncSet c i v).resetting = s.resetting := rfl
@[simp] theorem syncSet_tests (c i v : Nat) : (s.syncSet c i v).tests = s.tests := rfl
@[simp] theorem syncSet_lostFields (c i v : Nat) : (s.syncSet c i v).lostFields = s.lostFields := rfl
@[simp] theorem syncSet_unmanaged (c i v : Nat) : (s.syncSet c i v).unmanaged = s.unmanaged := rfl
@[simp] theorem syncSet_romMode (c i v : Nat) : (s.syncSet c i v).romMode = s.romMode := rfl
@[simp] theorem syncSet_entering (c i v : Nat) : (s.syncSet c i v).entering = s.entering := rfl

@[simp] theorem setBytes_pending (a : Nat) (bs : Bytes) : (s.setBytes a bs).pending = s.pending := rfl
@[simp] theorem setBytes_now (a : Nat) (bs : Bytes) : (s.setBytes a bs).now = s.now := rfl
@[simp] theorem setBytes_fresh (a : Nat) (bs : Bytes) : (s.setBytes a bs).fresh = s.fresh := rfl
@[simp] theorem setBytes_out (a : Nat) (bs : Bytes) : (s.setBytes a bs).out = s.out := rfl
@[simp] theorem setBytes_obj (a : Nat) (bs : Bytes) : (s.setBytes a bs).obj = s.obj := rfl
@[simp] theorem setBytes_maq (a : Nat) (bs : Bytes) : (s.setBytes a bs).maq = s.maq := rfl
@[simp] theorem setBytes_rewritten (a : Nat) (bs : Bytes) : (s.setBytes a bs).rewritten = s.rewritten := rfl
@[simp] theorem setBytes_poison (a : Nat) (bs : Bytes) : (s.setBytes a bs).poison = s.poison := rfl
@[simp] theorem setBytes_sync (a : Nat) (bs : Bytes) : (s.setBytes a bs).sync = s.sync := rfl
@[simp] theorem setBytes_cores (a : Nat) (bs : Bytes) : (s.setBytes a bs).cores = s.cores := rfl
@[simp] theorem setBytes_waits (a : Nat) (bs : Bytes) : (s.setBytes a bs).waits = s.waits := rfl
@[simp] theorem setBytes_wakes (a : Nat) (bs : Bytes) : (s.setBytes a bs).wakes = s.wakes := rfl
@[simp] theorem setBytes_signals (a : Nat) (bs : Bytes) : (s.setBytes a bs).signals = s.signals := rfl
@[simp] theorem setBytes_remoteOverruns (a : Nat) (bs : Bytes) : (s.setBytes a bs).remoteOverruns = s.remoteOverruns := rfl
@[simp] theorem setBytes_objLog (a : Nat) (bs : Bytes) : (s.setBytes a bs).objLog = s.objLog := rfl
@[simp] theorem setBytes_timeouts (a : Nat) (bs : Bytes) : (s.setBytes a bs).timeouts = s.timeouts := rfl
@[simp] theorem setBytes_manual (a : Nat) (bs : Bytes) : (s.setBytes a bs).manual = s.manual := rfl
@[simp] theorem setBytes_eventSeq (a : Nat) (bs : Bytes) : (s.setBytes a bs).eventSeq = s.eventSeq := rfl
@[simp] theorem setBytes_events (a : Nat) (bs : Bytes) : (s.setBytes a bs).events = s.events := rfl
@[simp] theorem setBytes_unacked (a : Nat) (bs : Bytes) : (s.setBytes a bs).unacked = s.unacked := rfl
@[simp] theorem setBytes_faults (a : Nat) (bs : Bytes) : (s.setBytes a bs).faults = s.faults := rfl
@[simp] theorem setBytes_faultNext (a : Nat) (bs : Bytes) : (s.setBytes a bs).faultNext = s.faultNext := rfl
@[simp] theorem setBytes_refusals (a : Nat) (bs : Bytes) : (s.setBytes a bs).refusals = s.refusals := rfl
@[simp] theorem setBytes_refusalEvent (a : Nat) (bs : Bytes) : (s.setBytes a bs).refusalEvent = s.refusalEvent := rfl
@[simp] theorem setBytes_streams (a : Nat) (bs : Bytes) : (s.setBytes a bs).streams = s.streams := rfl
@[simp] theorem setBytes_items (a : Nat) (bs : Bytes) : (s.setBytes a bs).items = s.items := rfl
@[simp] theorem setBytes_intake (a : Nat) (bs : Bytes) : (s.setBytes a bs).intake = s.intake := rfl
@[simp] theorem setBytes_jobs (a : Nat) (bs : Bytes) : (s.setBytes a bs).jobs = s.jobs := rfl
@[simp] theorem setBytes_sessions (a : Nat) (bs : Bytes) : (s.setBytes a bs).sessions = s.sessions := rfl
@[simp] theorem setBytes_swap (a : Nat) (bs : Bytes) : (s.setBytes a bs).swap = s.swap := rfl
@[simp] theorem setBytes_reformatting (a : Nat) (bs : Bytes) : (s.setBytes a bs).reformatting = s.reformatting := rfl
@[simp] theorem setBytes_leftOut (a : Nat) (bs : Bytes) : (s.setBytes a bs).leftOut = s.leftOut := rfl
@[simp] theorem setBytes_survivors (a : Nat) (bs : Bytes) : (s.setBytes a bs).survivors = s.survivors := rfl
@[simp] theorem setBytes_rowLog (a : Nat) (bs : Bytes) : (s.setBytes a bs).rowLog = s.rowLog := rfl
@[simp] theorem setBytes_retired (a : Nat) (bs : Bytes) : (s.setBytes a bs).retired = s.retired := rfl
@[simp] theorem setBytes_repair (a : Nat) (bs : Bytes) : (s.setBytes a bs).repair = s.repair := rfl
@[simp] theorem setBytes_ops (a : Nat) (bs : Bytes) : (s.setBytes a bs).ops = s.ops := rfl
@[simp] theorem setBytes_replays (a : Nat) (bs : Bytes) : (s.setBytes a bs).replays = s.replays := rfl
@[simp] theorem setBytes_conns (a : Nat) (bs : Bytes) : (s.setBytes a bs).conns = s.conns := rfl
@[simp] theorem setBytes_ports (a : Nat) (bs : Bytes) : (s.setBytes a bs).ports = s.ports := rfl
@[simp] theorem setBytes_mgmt (a : Nat) (bs : Bytes) : (s.setBytes a bs).mgmt = s.mgmt := rfl
@[simp] theorem setBytes_hubs (a : Nat) (bs : Bytes) : (s.setBytes a bs).hubs = s.hubs := rfl
@[simp] theorem setBytes_hubResets (a : Nat) (bs : Bytes) : (s.setBytes a bs).hubResets = s.hubResets := rfl
@[simp] theorem setBytes_txns (a : Nat) (bs : Bytes) : (s.setBytes a bs).txns = s.txns := rfl
@[simp] theorem setBytes_txnNext (a : Nat) (bs : Bytes) : (s.setBytes a bs).txnNext = s.txnNext := rfl
@[simp] theorem setBytes_changes (a : Nat) (bs : Bytes) : (s.setBytes a bs).changes = s.changes := rfl
@[simp] theorem setBytes_lockWrite (a : Nat) (bs : Bytes) : (s.setBytes a bs).lockWrite = s.lockWrite := rfl
@[simp] theorem setBytes_links (a : Nat) (bs : Bytes) : (s.setBytes a bs).links = s.links := rfl
@[simp] theorem setBytes_arrived (a : Nat) (bs : Bytes) : (s.setBytes a bs).arrived = s.arrived := rfl
@[simp] theorem setBytes_requests (a : Nat) (bs : Bytes) : (s.setBytes a bs).requests = s.requests := rfl
@[simp] theorem setBytes_channels (a : Nat) (bs : Bytes) : (s.setBytes a bs).channels = s.channels := rfl
@[simp] theorem setBytes_tiles (a : Nat) (bs : Bytes) : (s.setBytes a bs).tiles = s.tiles := rfl
@[simp] theorem setBytes_power (a : Nat) (bs : Bytes) : (s.setBytes a bs).power = s.power := rfl
@[simp] theorem setBytes_clocks (a : Nat) (bs : Bytes) : (s.setBytes a bs).clocks = s.clocks := rfl
@[simp] theorem setBytes_wear (a : Nat) (bs : Bytes) : (s.setBytes a bs).wear = s.wear := rfl
@[simp] theorem setBytes_wearFlash (a : Nat) (bs : Bytes) : (s.setBytes a bs).wearFlash = s.wearFlash := rfl
@[simp] theorem setBytes_xcvrs (a : Nat) (bs : Bytes) : (s.setBytes a bs).xcvrs = s.xcvrs := rfl
@[simp] theorem setBytes_security (a : Nat) (bs : Bytes) : (s.setBytes a bs).security = s.security := rfl
@[simp] theorem setBytes_monitors (a : Nat) (bs : Bytes) : (s.setBytes a bs).monitors = s.monitors := rfl
@[simp] theorem setBytes_snapshotAt (a : Nat) (bs : Bytes) : (s.setBytes a bs).snapshotAt = s.snapshotAt := rfl
@[simp] theorem setBytes_resetting (a : Nat) (bs : Bytes) : (s.setBytes a bs).resetting = s.resetting := rfl
@[simp] theorem setBytes_tests (a : Nat) (bs : Bytes) : (s.setBytes a bs).tests = s.tests := rfl
@[simp] theorem setBytes_lostFields (a : Nat) (bs : Bytes) : (s.setBytes a bs).lostFields = s.lostFields := rfl
@[simp] theorem setBytes_unmanaged (a : Nat) (bs : Bytes) : (s.setBytes a bs).unmanaged = s.unmanaged := rfl
@[simp] theorem setBytes_romMode (a : Nat) (bs : Bytes) : (s.setBytes a bs).romMode = s.romMode := rfl
@[simp] theorem setBytes_entering (a : Nat) (bs : Bytes) : (s.setBytes a bs).entering = s.entering := rfl

@[simp] theorem count_pending (i j n d : Nat) : (s.count i j n d).pending = s.pending := rfl
@[simp] theorem count_now (i j n d : Nat) : (s.count i j n d).now = s.now := rfl
@[simp] theorem count_fresh (i j n d : Nat) : (s.count i j n d).fresh = s.fresh := rfl
@[simp] theorem count_out (i j n d : Nat) : (s.count i j n d).out = s.out := rfl
@[simp] theorem count_maq (i j n d : Nat) : (s.count i j n d).maq = s.maq := rfl
@[simp] theorem count_rewritten (i j n d : Nat) : (s.count i j n d).rewritten = s.rewritten := rfl
@[simp] theorem count_mem (i j n d : Nat) : (s.count i j n d).mem = s.mem := rfl
@[simp] theorem count_poison (i j n d : Nat) : (s.count i j n d).poison = s.poison := rfl
@[simp] theorem count_sync (i j n d : Nat) : (s.count i j n d).sync = s.sync := rfl
@[simp] theorem count_cores (i j n d : Nat) : (s.count i j n d).cores = s.cores := rfl
@[simp] theorem count_waits (i j n d : Nat) : (s.count i j n d).waits = s.waits := rfl
@[simp] theorem count_wakes (i j n d : Nat) : (s.count i j n d).wakes = s.wakes := rfl
@[simp] theorem count_signals (i j n d : Nat) : (s.count i j n d).signals = s.signals := rfl
@[simp] theorem count_remoteOverruns (i j n d : Nat) : (s.count i j n d).remoteOverruns = s.remoteOverruns := rfl
@[simp] theorem count_objLog (i j n d : Nat) : (s.count i j n d).objLog = s.objLog := rfl
@[simp] theorem count_timeouts (i j n d : Nat) : (s.count i j n d).timeouts = s.timeouts := rfl
@[simp] theorem count_manual (i j n d : Nat) : (s.count i j n d).manual = s.manual := rfl
@[simp] theorem count_eventSeq (i j n d : Nat) : (s.count i j n d).eventSeq = s.eventSeq := rfl
@[simp] theorem count_events (i j n d : Nat) : (s.count i j n d).events = s.events := rfl
@[simp] theorem count_unacked (i j n d : Nat) : (s.count i j n d).unacked = s.unacked := rfl
@[simp] theorem count_faults (i j n d : Nat) : (s.count i j n d).faults = s.faults := rfl
@[simp] theorem count_faultNext (i j n d : Nat) : (s.count i j n d).faultNext = s.faultNext := rfl
@[simp] theorem count_refusals (i j n d : Nat) : (s.count i j n d).refusals = s.refusals := rfl
@[simp] theorem count_refusalEvent (i j n d : Nat) : (s.count i j n d).refusalEvent = s.refusalEvent := rfl
@[simp] theorem count_streams (i j n d : Nat) : (s.count i j n d).streams = s.streams := rfl
@[simp] theorem count_items (i j n d : Nat) : (s.count i j n d).items = s.items := rfl
@[simp] theorem count_intake (i j n d : Nat) : (s.count i j n d).intake = s.intake := rfl
@[simp] theorem count_jobs (i j n d : Nat) : (s.count i j n d).jobs = s.jobs := rfl
@[simp] theorem count_sessions (i j n d : Nat) : (s.count i j n d).sessions = s.sessions := rfl
@[simp] theorem count_swap (i j n d : Nat) : (s.count i j n d).swap = s.swap := rfl
@[simp] theorem count_reformatting (i j n d : Nat) : (s.count i j n d).reformatting = s.reformatting := rfl
@[simp] theorem count_leftOut (i j n d : Nat) : (s.count i j n d).leftOut = s.leftOut := rfl
@[simp] theorem count_survivors (i j n d : Nat) : (s.count i j n d).survivors = s.survivors := rfl
@[simp] theorem count_rowLog (i j n d : Nat) : (s.count i j n d).rowLog = s.rowLog := rfl
@[simp] theorem count_retired (i j n d : Nat) : (s.count i j n d).retired = s.retired := rfl
@[simp] theorem count_repair (i j n d : Nat) : (s.count i j n d).repair = s.repair := rfl
@[simp] theorem count_ops (i j n d : Nat) : (s.count i j n d).ops = s.ops := rfl
@[simp] theorem count_replays (i j n d : Nat) : (s.count i j n d).replays = s.replays := rfl
@[simp] theorem count_conns (i j n d : Nat) : (s.count i j n d).conns = s.conns := rfl
@[simp] theorem count_ports (i j n d : Nat) : (s.count i j n d).ports = s.ports := rfl
@[simp] theorem count_mgmt (i j n d : Nat) : (s.count i j n d).mgmt = s.mgmt := rfl
@[simp] theorem count_hubs (i j n d : Nat) : (s.count i j n d).hubs = s.hubs := rfl
@[simp] theorem count_hubResets (i j n d : Nat) : (s.count i j n d).hubResets = s.hubResets := rfl
@[simp] theorem count_txns (i j n d : Nat) : (s.count i j n d).txns = s.txns := rfl
@[simp] theorem count_txnNext (i j n d : Nat) : (s.count i j n d).txnNext = s.txnNext := rfl
@[simp] theorem count_changes (i j n d : Nat) : (s.count i j n d).changes = s.changes := rfl
@[simp] theorem count_lockWrite (i j n d : Nat) : (s.count i j n d).lockWrite = s.lockWrite := rfl
@[simp] theorem count_links (i j n d : Nat) : (s.count i j n d).links = s.links := rfl
@[simp] theorem count_arrived (i j n d : Nat) : (s.count i j n d).arrived = s.arrived := rfl
@[simp] theorem count_requests (i j n d : Nat) : (s.count i j n d).requests = s.requests := rfl
@[simp] theorem count_channels (i j n d : Nat) : (s.count i j n d).channels = s.channels := rfl
@[simp] theorem count_tiles (i j n d : Nat) : (s.count i j n d).tiles = s.tiles := rfl
@[simp] theorem count_power (i j n d : Nat) : (s.count i j n d).power = s.power := rfl
@[simp] theorem count_clocks (i j n d : Nat) : (s.count i j n d).clocks = s.clocks := rfl
@[simp] theorem count_wear (i j n d : Nat) : (s.count i j n d).wear = s.wear := rfl
@[simp] theorem count_wearFlash (i j n d : Nat) : (s.count i j n d).wearFlash = s.wearFlash := rfl
@[simp] theorem count_xcvrs (i j n d : Nat) : (s.count i j n d).xcvrs = s.xcvrs := rfl
@[simp] theorem count_security (i j n d : Nat) : (s.count i j n d).security = s.security := rfl
@[simp] theorem count_monitors (i j n d : Nat) : (s.count i j n d).monitors = s.monitors := rfl
@[simp] theorem count_snapshotAt (i j n d : Nat) : (s.count i j n d).snapshotAt = s.snapshotAt := rfl
@[simp] theorem count_resetting (i j n d : Nat) : (s.count i j n d).resetting = s.resetting := rfl
@[simp] theorem count_tests (i j n d : Nat) : (s.count i j n d).tests = s.tests := rfl
@[simp] theorem count_lostFields (i j n d : Nat) : (s.count i j n d).lostFields = s.lostFields := rfl
@[simp] theorem count_unmanaged (i j n d : Nat) : (s.count i j n d).unmanaged = s.unmanaged := rfl
@[simp] theorem count_romMode (i j n d : Nat) : (s.count i j n d).romMode = s.romMode := rfl
@[simp] theorem count_entering (i j n d : Nat) : (s.count i j n d).entering = s.entering := rfl

@[simp] theorem bump_pending (i j : Nat) : (s.bump i j).pending = s.pending := rfl
@[simp] theorem bump_now (i j : Nat) : (s.bump i j).now = s.now := rfl
@[simp] theorem bump_fresh (i j : Nat) : (s.bump i j).fresh = s.fresh := rfl
@[simp] theorem bump_out (i j : Nat) : (s.bump i j).out = s.out := rfl
@[simp] theorem bump_maq (i j : Nat) : (s.bump i j).maq = s.maq := rfl
@[simp] theorem bump_rewritten (i j : Nat) : (s.bump i j).rewritten = s.rewritten := rfl
@[simp] theorem bump_mem (i j : Nat) : (s.bump i j).mem = s.mem := rfl
@[simp] theorem bump_poison (i j : Nat) : (s.bump i j).poison = s.poison := rfl
@[simp] theorem bump_sync (i j : Nat) : (s.bump i j).sync = s.sync := rfl
@[simp] theorem bump_cores (i j : Nat) : (s.bump i j).cores = s.cores := rfl
@[simp] theorem bump_waits (i j : Nat) : (s.bump i j).waits = s.waits := rfl
@[simp] theorem bump_wakes (i j : Nat) : (s.bump i j).wakes = s.wakes := rfl
@[simp] theorem bump_signals (i j : Nat) : (s.bump i j).signals = s.signals := rfl
@[simp] theorem bump_remoteOverruns (i j : Nat) : (s.bump i j).remoteOverruns = s.remoteOverruns := rfl
@[simp] theorem bump_objLog (i j : Nat) : (s.bump i j).objLog = s.objLog := rfl
@[simp] theorem bump_timeouts (i j : Nat) : (s.bump i j).timeouts = s.timeouts := rfl
@[simp] theorem bump_manual (i j : Nat) : (s.bump i j).manual = s.manual := rfl
@[simp] theorem bump_eventSeq (i j : Nat) : (s.bump i j).eventSeq = s.eventSeq := rfl
@[simp] theorem bump_events (i j : Nat) : (s.bump i j).events = s.events := rfl
@[simp] theorem bump_unacked (i j : Nat) : (s.bump i j).unacked = s.unacked := rfl
@[simp] theorem bump_faults (i j : Nat) : (s.bump i j).faults = s.faults := rfl
@[simp] theorem bump_faultNext (i j : Nat) : (s.bump i j).faultNext = s.faultNext := rfl
@[simp] theorem bump_refusals (i j : Nat) : (s.bump i j).refusals = s.refusals := rfl
@[simp] theorem bump_refusalEvent (i j : Nat) : (s.bump i j).refusalEvent = s.refusalEvent := rfl
@[simp] theorem bump_streams (i j : Nat) : (s.bump i j).streams = s.streams := rfl
@[simp] theorem bump_items (i j : Nat) : (s.bump i j).items = s.items := rfl
@[simp] theorem bump_intake (i j : Nat) : (s.bump i j).intake = s.intake := rfl
@[simp] theorem bump_jobs (i j : Nat) : (s.bump i j).jobs = s.jobs := rfl
@[simp] theorem bump_sessions (i j : Nat) : (s.bump i j).sessions = s.sessions := rfl
@[simp] theorem bump_swap (i j : Nat) : (s.bump i j).swap = s.swap := rfl
@[simp] theorem bump_reformatting (i j : Nat) : (s.bump i j).reformatting = s.reformatting := rfl
@[simp] theorem bump_leftOut (i j : Nat) : (s.bump i j).leftOut = s.leftOut := rfl
@[simp] theorem bump_survivors (i j : Nat) : (s.bump i j).survivors = s.survivors := rfl
@[simp] theorem bump_rowLog (i j : Nat) : (s.bump i j).rowLog = s.rowLog := rfl
@[simp] theorem bump_retired (i j : Nat) : (s.bump i j).retired = s.retired := rfl
@[simp] theorem bump_repair (i j : Nat) : (s.bump i j).repair = s.repair := rfl
@[simp] theorem bump_ops (i j : Nat) : (s.bump i j).ops = s.ops := rfl
@[simp] theorem bump_replays (i j : Nat) : (s.bump i j).replays = s.replays := rfl
@[simp] theorem bump_conns (i j : Nat) : (s.bump i j).conns = s.conns := rfl
@[simp] theorem bump_ports (i j : Nat) : (s.bump i j).ports = s.ports := rfl
@[simp] theorem bump_mgmt (i j : Nat) : (s.bump i j).mgmt = s.mgmt := rfl
@[simp] theorem bump_hubs (i j : Nat) : (s.bump i j).hubs = s.hubs := rfl
@[simp] theorem bump_hubResets (i j : Nat) : (s.bump i j).hubResets = s.hubResets := rfl
@[simp] theorem bump_txns (i j : Nat) : (s.bump i j).txns = s.txns := rfl
@[simp] theorem bump_txnNext (i j : Nat) : (s.bump i j).txnNext = s.txnNext := rfl
@[simp] theorem bump_changes (i j : Nat) : (s.bump i j).changes = s.changes := rfl
@[simp] theorem bump_lockWrite (i j : Nat) : (s.bump i j).lockWrite = s.lockWrite := rfl
@[simp] theorem bump_links (i j : Nat) : (s.bump i j).links = s.links := rfl
@[simp] theorem bump_arrived (i j : Nat) : (s.bump i j).arrived = s.arrived := rfl
@[simp] theorem bump_requests (i j : Nat) : (s.bump i j).requests = s.requests := rfl
@[simp] theorem bump_channels (i j : Nat) : (s.bump i j).channels = s.channels := rfl
@[simp] theorem bump_tiles (i j : Nat) : (s.bump i j).tiles = s.tiles := rfl
@[simp] theorem bump_power (i j : Nat) : (s.bump i j).power = s.power := rfl
@[simp] theorem bump_clocks (i j : Nat) : (s.bump i j).clocks = s.clocks := rfl
@[simp] theorem bump_wear (i j : Nat) : (s.bump i j).wear = s.wear := rfl
@[simp] theorem bump_wearFlash (i j : Nat) : (s.bump i j).wearFlash = s.wearFlash := rfl
@[simp] theorem bump_xcvrs (i j : Nat) : (s.bump i j).xcvrs = s.xcvrs := rfl
@[simp] theorem bump_security (i j : Nat) : (s.bump i j).security = s.security := rfl
@[simp] theorem bump_monitors (i j : Nat) : (s.bump i j).monitors = s.monitors := rfl
@[simp] theorem bump_snapshotAt (i j : Nat) : (s.bump i j).snapshotAt = s.snapshotAt := rfl
@[simp] theorem bump_resetting (i j : Nat) : (s.bump i j).resetting = s.resetting := rfl
@[simp] theorem bump_tests (i j : Nat) : (s.bump i j).tests = s.tests := rfl
@[simp] theorem bump_lostFields (i j : Nat) : (s.bump i j).lostFields = s.lostFields := rfl
@[simp] theorem bump_unmanaged (i j : Nat) : (s.bump i j).unmanaged = s.unmanaged := rfl
@[simp] theorem bump_romMode (i j : Nat) : (s.bump i j).romMode = s.romMode := rfl
@[simp] theorem bump_entering (i j : Nat) : (s.bump i j).entering = s.entering := rfl

@[simp] theorem setConn_pending (n : Nat) (c : Conn) : (s.setConn n c).pending = s.pending := rfl
@[simp] theorem setConn_now (n : Nat) (c : Conn) : (s.setConn n c).now = s.now := rfl
@[simp] theorem setConn_fresh (n : Nat) (c : Conn) : (s.setConn n c).fresh = s.fresh := rfl
@[simp] theorem setConn_out (n : Nat) (c : Conn) : (s.setConn n c).out = s.out := rfl
@[simp] theorem setConn_obj (n : Nat) (c : Conn) : (s.setConn n c).obj = s.obj := rfl
@[simp] theorem setConn_maq (n : Nat) (c : Conn) : (s.setConn n c).maq = s.maq := rfl
@[simp] theorem setConn_rewritten (n : Nat) (c : Conn) : (s.setConn n c).rewritten = s.rewritten := rfl
@[simp] theorem setConn_mem (n : Nat) (c : Conn) : (s.setConn n c).mem = s.mem := rfl
@[simp] theorem setConn_poison (n : Nat) (c : Conn) : (s.setConn n c).poison = s.poison := rfl
@[simp] theorem setConn_sync (n : Nat) (c : Conn) : (s.setConn n c).sync = s.sync := rfl
@[simp] theorem setConn_cores (n : Nat) (c : Conn) : (s.setConn n c).cores = s.cores := rfl
@[simp] theorem setConn_waits (n : Nat) (c : Conn) : (s.setConn n c).waits = s.waits := rfl
@[simp] theorem setConn_wakes (n : Nat) (c : Conn) : (s.setConn n c).wakes = s.wakes := rfl
@[simp] theorem setConn_signals (n : Nat) (c : Conn) : (s.setConn n c).signals = s.signals := rfl
@[simp] theorem setConn_remoteOverruns (n : Nat) (c : Conn) : (s.setConn n c).remoteOverruns = s.remoteOverruns := rfl
@[simp] theorem setConn_objLog (n : Nat) (c : Conn) : (s.setConn n c).objLog = s.objLog := rfl
@[simp] theorem setConn_timeouts (n : Nat) (c : Conn) : (s.setConn n c).timeouts = s.timeouts := rfl
@[simp] theorem setConn_manual (n : Nat) (c : Conn) : (s.setConn n c).manual = s.manual := rfl
@[simp] theorem setConn_eventSeq (n : Nat) (c : Conn) : (s.setConn n c).eventSeq = s.eventSeq := rfl
@[simp] theorem setConn_events (n : Nat) (c : Conn) : (s.setConn n c).events = s.events := rfl
@[simp] theorem setConn_unacked (n : Nat) (c : Conn) : (s.setConn n c).unacked = s.unacked := rfl
@[simp] theorem setConn_faults (n : Nat) (c : Conn) : (s.setConn n c).faults = s.faults := rfl
@[simp] theorem setConn_faultNext (n : Nat) (c : Conn) : (s.setConn n c).faultNext = s.faultNext := rfl
@[simp] theorem setConn_refusals (n : Nat) (c : Conn) : (s.setConn n c).refusals = s.refusals := rfl
@[simp] theorem setConn_refusalEvent (n : Nat) (c : Conn) : (s.setConn n c).refusalEvent = s.refusalEvent := rfl
@[simp] theorem setConn_streams (n : Nat) (c : Conn) : (s.setConn n c).streams = s.streams := rfl
@[simp] theorem setConn_items (n : Nat) (c : Conn) : (s.setConn n c).items = s.items := rfl
@[simp] theorem setConn_intake (n : Nat) (c : Conn) : (s.setConn n c).intake = s.intake := rfl
@[simp] theorem setConn_jobs (n : Nat) (c : Conn) : (s.setConn n c).jobs = s.jobs := rfl
@[simp] theorem setConn_sessions (n : Nat) (c : Conn) : (s.setConn n c).sessions = s.sessions := rfl
@[simp] theorem setConn_swap (n : Nat) (c : Conn) : (s.setConn n c).swap = s.swap := rfl
@[simp] theorem setConn_reformatting (n : Nat) (c : Conn) : (s.setConn n c).reformatting = s.reformatting := rfl
@[simp] theorem setConn_leftOut (n : Nat) (c : Conn) : (s.setConn n c).leftOut = s.leftOut := rfl
@[simp] theorem setConn_survivors (n : Nat) (c : Conn) : (s.setConn n c).survivors = s.survivors := rfl
@[simp] theorem setConn_rowLog (n : Nat) (c : Conn) : (s.setConn n c).rowLog = s.rowLog := rfl
@[simp] theorem setConn_retired (n : Nat) (c : Conn) : (s.setConn n c).retired = s.retired := rfl
@[simp] theorem setConn_repair (n : Nat) (c : Conn) : (s.setConn n c).repair = s.repair := rfl
@[simp] theorem setConn_ops (n : Nat) (c : Conn) : (s.setConn n c).ops = s.ops := rfl
@[simp] theorem setConn_replays (n : Nat) (c : Conn) : (s.setConn n c).replays = s.replays := rfl
@[simp] theorem setConn_ports (n : Nat) (c : Conn) : (s.setConn n c).ports = s.ports := rfl
@[simp] theorem setConn_mgmt (n : Nat) (c : Conn) : (s.setConn n c).mgmt = s.mgmt := rfl
@[simp] theorem setConn_hubs (n : Nat) (c : Conn) : (s.setConn n c).hubs = s.hubs := rfl
@[simp] theorem setConn_hubResets (n : Nat) (c : Conn) : (s.setConn n c).hubResets = s.hubResets := rfl
@[simp] theorem setConn_txns (n : Nat) (c : Conn) : (s.setConn n c).txns = s.txns := rfl
@[simp] theorem setConn_txnNext (n : Nat) (c : Conn) : (s.setConn n c).txnNext = s.txnNext := rfl
@[simp] theorem setConn_changes (n : Nat) (c : Conn) : (s.setConn n c).changes = s.changes := rfl
@[simp] theorem setConn_lockWrite (n : Nat) (c : Conn) : (s.setConn n c).lockWrite = s.lockWrite := rfl
@[simp] theorem setConn_links (n : Nat) (c : Conn) : (s.setConn n c).links = s.links := rfl
@[simp] theorem setConn_arrived (n : Nat) (c : Conn) : (s.setConn n c).arrived = s.arrived := rfl
@[simp] theorem setConn_requests (n : Nat) (c : Conn) : (s.setConn n c).requests = s.requests := rfl
@[simp] theorem setConn_channels (n : Nat) (c : Conn) : (s.setConn n c).channels = s.channels := rfl
@[simp] theorem setConn_tiles (n : Nat) (c : Conn) : (s.setConn n c).tiles = s.tiles := rfl
@[simp] theorem setConn_power (n : Nat) (c : Conn) : (s.setConn n c).power = s.power := rfl
@[simp] theorem setConn_clocks (n : Nat) (c : Conn) : (s.setConn n c).clocks = s.clocks := rfl
@[simp] theorem setConn_wear (n : Nat) (c : Conn) : (s.setConn n c).wear = s.wear := rfl
@[simp] theorem setConn_wearFlash (n : Nat) (c : Conn) : (s.setConn n c).wearFlash = s.wearFlash := rfl
@[simp] theorem setConn_xcvrs (n : Nat) (c : Conn) : (s.setConn n c).xcvrs = s.xcvrs := rfl
@[simp] theorem setConn_security (n : Nat) (c : Conn) : (s.setConn n c).security = s.security := rfl
@[simp] theorem setConn_monitors (n : Nat) (c : Conn) : (s.setConn n c).monitors = s.monitors := rfl
@[simp] theorem setConn_snapshotAt (n : Nat) (c : Conn) : (s.setConn n c).snapshotAt = s.snapshotAt := rfl
@[simp] theorem setConn_resetting (n : Nat) (c : Conn) : (s.setConn n c).resetting = s.resetting := rfl
@[simp] theorem setConn_tests (n : Nat) (c : Conn) : (s.setConn n c).tests = s.tests := rfl
@[simp] theorem setConn_lostFields (n : Nat) (c : Conn) : (s.setConn n c).lostFields = s.lostFields := rfl
@[simp] theorem setConn_unmanaged (n : Nat) (c : Conn) : (s.setConn n c).unmanaged = s.unmanaged := rfl
@[simp] theorem setConn_romMode (n : Nat) (c : Conn) : (s.setConn n c).romMode = s.romMode := rfl
@[simp] theorem setConn_entering (n : Nat) (c : Conn) : (s.setConn n c).entering = s.entering := rfl

@[simp] theorem updPort_pending (p : Nat) (f : Port → Port) : (s.updPort p f).pending = s.pending := rfl
@[simp] theorem updPort_now (p : Nat) (f : Port → Port) : (s.updPort p f).now = s.now := rfl
@[simp] theorem updPort_fresh (p : Nat) (f : Port → Port) : (s.updPort p f).fresh = s.fresh := rfl
@[simp] theorem updPort_out (p : Nat) (f : Port → Port) : (s.updPort p f).out = s.out := rfl
@[simp] theorem updPort_obj (p : Nat) (f : Port → Port) : (s.updPort p f).obj = s.obj := rfl
@[simp] theorem updPort_maq (p : Nat) (f : Port → Port) : (s.updPort p f).maq = s.maq := rfl
@[simp] theorem updPort_rewritten (p : Nat) (f : Port → Port) : (s.updPort p f).rewritten = s.rewritten := rfl
@[simp] theorem updPort_mem (p : Nat) (f : Port → Port) : (s.updPort p f).mem = s.mem := rfl
@[simp] theorem updPort_poison (p : Nat) (f : Port → Port) : (s.updPort p f).poison = s.poison := rfl
@[simp] theorem updPort_sync (p : Nat) (f : Port → Port) : (s.updPort p f).sync = s.sync := rfl
@[simp] theorem updPort_cores (p : Nat) (f : Port → Port) : (s.updPort p f).cores = s.cores := rfl
@[simp] theorem updPort_waits (p : Nat) (f : Port → Port) : (s.updPort p f).waits = s.waits := rfl
@[simp] theorem updPort_wakes (p : Nat) (f : Port → Port) : (s.updPort p f).wakes = s.wakes := rfl
@[simp] theorem updPort_signals (p : Nat) (f : Port → Port) : (s.updPort p f).signals = s.signals := rfl
@[simp] theorem updPort_remoteOverruns (p : Nat) (f : Port → Port) : (s.updPort p f).remoteOverruns = s.remoteOverruns := rfl
@[simp] theorem updPort_objLog (p : Nat) (f : Port → Port) : (s.updPort p f).objLog = s.objLog := rfl
@[simp] theorem updPort_timeouts (p : Nat) (f : Port → Port) : (s.updPort p f).timeouts = s.timeouts := rfl
@[simp] theorem updPort_manual (p : Nat) (f : Port → Port) : (s.updPort p f).manual = s.manual := rfl
@[simp] theorem updPort_eventSeq (p : Nat) (f : Port → Port) : (s.updPort p f).eventSeq = s.eventSeq := rfl
@[simp] theorem updPort_events (p : Nat) (f : Port → Port) : (s.updPort p f).events = s.events := rfl
@[simp] theorem updPort_unacked (p : Nat) (f : Port → Port) : (s.updPort p f).unacked = s.unacked := rfl
@[simp] theorem updPort_faults (p : Nat) (f : Port → Port) : (s.updPort p f).faults = s.faults := rfl
@[simp] theorem updPort_faultNext (p : Nat) (f : Port → Port) : (s.updPort p f).faultNext = s.faultNext := rfl
@[simp] theorem updPort_refusals (p : Nat) (f : Port → Port) : (s.updPort p f).refusals = s.refusals := rfl
@[simp] theorem updPort_refusalEvent (p : Nat) (f : Port → Port) : (s.updPort p f).refusalEvent = s.refusalEvent := rfl
@[simp] theorem updPort_streams (p : Nat) (f : Port → Port) : (s.updPort p f).streams = s.streams := rfl
@[simp] theorem updPort_items (p : Nat) (f : Port → Port) : (s.updPort p f).items = s.items := rfl
@[simp] theorem updPort_intake (p : Nat) (f : Port → Port) : (s.updPort p f).intake = s.intake := rfl
@[simp] theorem updPort_jobs (p : Nat) (f : Port → Port) : (s.updPort p f).jobs = s.jobs := rfl
@[simp] theorem updPort_sessions (p : Nat) (f : Port → Port) : (s.updPort p f).sessions = s.sessions := rfl
@[simp] theorem updPort_swap (p : Nat) (f : Port → Port) : (s.updPort p f).swap = s.swap := rfl
@[simp] theorem updPort_reformatting (p : Nat) (f : Port → Port) : (s.updPort p f).reformatting = s.reformatting := rfl
@[simp] theorem updPort_leftOut (p : Nat) (f : Port → Port) : (s.updPort p f).leftOut = s.leftOut := rfl
@[simp] theorem updPort_survivors (p : Nat) (f : Port → Port) : (s.updPort p f).survivors = s.survivors := rfl
@[simp] theorem updPort_rowLog (p : Nat) (f : Port → Port) : (s.updPort p f).rowLog = s.rowLog := rfl
@[simp] theorem updPort_retired (p : Nat) (f : Port → Port) : (s.updPort p f).retired = s.retired := rfl
@[simp] theorem updPort_repair (p : Nat) (f : Port → Port) : (s.updPort p f).repair = s.repair := rfl
@[simp] theorem updPort_ops (p : Nat) (f : Port → Port) : (s.updPort p f).ops = s.ops := rfl
@[simp] theorem updPort_replays (p : Nat) (f : Port → Port) : (s.updPort p f).replays = s.replays := rfl
@[simp] theorem updPort_conns (p : Nat) (f : Port → Port) : (s.updPort p f).conns = s.conns := rfl
@[simp] theorem updPort_mgmt (p : Nat) (f : Port → Port) : (s.updPort p f).mgmt = s.mgmt := rfl
@[simp] theorem updPort_hubs (p : Nat) (f : Port → Port) : (s.updPort p f).hubs = s.hubs := rfl
@[simp] theorem updPort_hubResets (p : Nat) (f : Port → Port) : (s.updPort p f).hubResets = s.hubResets := rfl
@[simp] theorem updPort_txns (p : Nat) (f : Port → Port) : (s.updPort p f).txns = s.txns := rfl
@[simp] theorem updPort_txnNext (p : Nat) (f : Port → Port) : (s.updPort p f).txnNext = s.txnNext := rfl
@[simp] theorem updPort_changes (p : Nat) (f : Port → Port) : (s.updPort p f).changes = s.changes := rfl
@[simp] theorem updPort_lockWrite (p : Nat) (f : Port → Port) : (s.updPort p f).lockWrite = s.lockWrite := rfl
@[simp] theorem updPort_links (p : Nat) (f : Port → Port) : (s.updPort p f).links = s.links := rfl
@[simp] theorem updPort_arrived (p : Nat) (f : Port → Port) : (s.updPort p f).arrived = s.arrived := rfl
@[simp] theorem updPort_requests (p : Nat) (f : Port → Port) : (s.updPort p f).requests = s.requests := rfl
@[simp] theorem updPort_channels (p : Nat) (f : Port → Port) : (s.updPort p f).channels = s.channels := rfl
@[simp] theorem updPort_tiles (p : Nat) (f : Port → Port) : (s.updPort p f).tiles = s.tiles := rfl
@[simp] theorem updPort_power (p : Nat) (f : Port → Port) : (s.updPort p f).power = s.power := rfl
@[simp] theorem updPort_clocks (p : Nat) (f : Port → Port) : (s.updPort p f).clocks = s.clocks := rfl
@[simp] theorem updPort_wear (p : Nat) (f : Port → Port) : (s.updPort p f).wear = s.wear := rfl
@[simp] theorem updPort_wearFlash (p : Nat) (f : Port → Port) : (s.updPort p f).wearFlash = s.wearFlash := rfl
@[simp] theorem updPort_xcvrs (p : Nat) (f : Port → Port) : (s.updPort p f).xcvrs = s.xcvrs := rfl
@[simp] theorem updPort_security (p : Nat) (f : Port → Port) : (s.updPort p f).security = s.security := rfl
@[simp] theorem updPort_monitors (p : Nat) (f : Port → Port) : (s.updPort p f).monitors = s.monitors := rfl
@[simp] theorem updPort_snapshotAt (p : Nat) (f : Port → Port) : (s.updPort p f).snapshotAt = s.snapshotAt := rfl
@[simp] theorem updPort_resetting (p : Nat) (f : Port → Port) : (s.updPort p f).resetting = s.resetting := rfl
@[simp] theorem updPort_tests (p : Nat) (f : Port → Port) : (s.updPort p f).tests = s.tests := rfl
@[simp] theorem updPort_lostFields (p : Nat) (f : Port → Port) : (s.updPort p f).lostFields = s.lostFields := rfl
@[simp] theorem updPort_unmanaged (p : Nat) (f : Port → Port) : (s.updPort p f).unmanaged = s.unmanaged := rfl
@[simp] theorem updPort_romMode (p : Nat) (f : Port → Port) : (s.updPort p f).romMode = s.romMode := rfl
@[simp] theorem updPort_entering (p : Nat) (f : Port → Port) : (s.updPort p f).entering = s.entering := rfl

@[simp] theorem updItem_pending (st q : Nat) (f : Item → Item) : (s.updItem st q f).pending = s.pending := rfl
@[simp] theorem updItem_now (st q : Nat) (f : Item → Item) : (s.updItem st q f).now = s.now := rfl
@[simp] theorem updItem_fresh (st q : Nat) (f : Item → Item) : (s.updItem st q f).fresh = s.fresh := rfl
@[simp] theorem updItem_out (st q : Nat) (f : Item → Item) : (s.updItem st q f).out = s.out := rfl
@[simp] theorem updItem_obj (st q : Nat) (f : Item → Item) : (s.updItem st q f).obj = s.obj := rfl
@[simp] theorem updItem_maq (st q : Nat) (f : Item → Item) : (s.updItem st q f).maq = s.maq := rfl
@[simp] theorem updItem_rewritten (st q : Nat) (f : Item → Item) : (s.updItem st q f).rewritten = s.rewritten := rfl
@[simp] theorem updItem_mem (st q : Nat) (f : Item → Item) : (s.updItem st q f).mem = s.mem := rfl
@[simp] theorem updItem_poison (st q : Nat) (f : Item → Item) : (s.updItem st q f).poison = s.poison := rfl
@[simp] theorem updItem_sync (st q : Nat) (f : Item → Item) : (s.updItem st q f).sync = s.sync := rfl
@[simp] theorem updItem_cores (st q : Nat) (f : Item → Item) : (s.updItem st q f).cores = s.cores := rfl
@[simp] theorem updItem_waits (st q : Nat) (f : Item → Item) : (s.updItem st q f).waits = s.waits := rfl
@[simp] theorem updItem_wakes (st q : Nat) (f : Item → Item) : (s.updItem st q f).wakes = s.wakes := rfl
@[simp] theorem updItem_signals (st q : Nat) (f : Item → Item) : (s.updItem st q f).signals = s.signals := rfl
@[simp] theorem updItem_remoteOverruns (st q : Nat) (f : Item → Item) : (s.updItem st q f).remoteOverruns = s.remoteOverruns := rfl
@[simp] theorem updItem_objLog (st q : Nat) (f : Item → Item) : (s.updItem st q f).objLog = s.objLog := rfl
@[simp] theorem updItem_timeouts (st q : Nat) (f : Item → Item) : (s.updItem st q f).timeouts = s.timeouts := rfl
@[simp] theorem updItem_manual (st q : Nat) (f : Item → Item) : (s.updItem st q f).manual = s.manual := rfl
@[simp] theorem updItem_eventSeq (st q : Nat) (f : Item → Item) : (s.updItem st q f).eventSeq = s.eventSeq := rfl
@[simp] theorem updItem_events (st q : Nat) (f : Item → Item) : (s.updItem st q f).events = s.events := rfl
@[simp] theorem updItem_unacked (st q : Nat) (f : Item → Item) : (s.updItem st q f).unacked = s.unacked := rfl
@[simp] theorem updItem_faults (st q : Nat) (f : Item → Item) : (s.updItem st q f).faults = s.faults := rfl
@[simp] theorem updItem_faultNext (st q : Nat) (f : Item → Item) : (s.updItem st q f).faultNext = s.faultNext := rfl
@[simp] theorem updItem_refusals (st q : Nat) (f : Item → Item) : (s.updItem st q f).refusals = s.refusals := rfl
@[simp] theorem updItem_refusalEvent (st q : Nat) (f : Item → Item) : (s.updItem st q f).refusalEvent = s.refusalEvent := rfl
@[simp] theorem updItem_streams (st q : Nat) (f : Item → Item) : (s.updItem st q f).streams = s.streams := rfl
@[simp] theorem updItem_intake (st q : Nat) (f : Item → Item) : (s.updItem st q f).intake = s.intake := rfl
@[simp] theorem updItem_jobs (st q : Nat) (f : Item → Item) : (s.updItem st q f).jobs = s.jobs := rfl
@[simp] theorem updItem_sessions (st q : Nat) (f : Item → Item) : (s.updItem st q f).sessions = s.sessions := rfl
@[simp] theorem updItem_swap (st q : Nat) (f : Item → Item) : (s.updItem st q f).swap = s.swap := rfl
@[simp] theorem updItem_reformatting (st q : Nat) (f : Item → Item) : (s.updItem st q f).reformatting = s.reformatting := rfl
@[simp] theorem updItem_leftOut (st q : Nat) (f : Item → Item) : (s.updItem st q f).leftOut = s.leftOut := rfl
@[simp] theorem updItem_survivors (st q : Nat) (f : Item → Item) : (s.updItem st q f).survivors = s.survivors := rfl
@[simp] theorem updItem_rowLog (st q : Nat) (f : Item → Item) : (s.updItem st q f).rowLog = s.rowLog := rfl
@[simp] theorem updItem_retired (st q : Nat) (f : Item → Item) : (s.updItem st q f).retired = s.retired := rfl
@[simp] theorem updItem_repair (st q : Nat) (f : Item → Item) : (s.updItem st q f).repair = s.repair := rfl
@[simp] theorem updItem_ops (st q : Nat) (f : Item → Item) : (s.updItem st q f).ops = s.ops := rfl
@[simp] theorem updItem_replays (st q : Nat) (f : Item → Item) : (s.updItem st q f).replays = s.replays := rfl
@[simp] theorem updItem_conns (st q : Nat) (f : Item → Item) : (s.updItem st q f).conns = s.conns := rfl
@[simp] theorem updItem_ports (st q : Nat) (f : Item → Item) : (s.updItem st q f).ports = s.ports := rfl
@[simp] theorem updItem_mgmt (st q : Nat) (f : Item → Item) : (s.updItem st q f).mgmt = s.mgmt := rfl
@[simp] theorem updItem_hubs (st q : Nat) (f : Item → Item) : (s.updItem st q f).hubs = s.hubs := rfl
@[simp] theorem updItem_hubResets (st q : Nat) (f : Item → Item) : (s.updItem st q f).hubResets = s.hubResets := rfl
@[simp] theorem updItem_txns (st q : Nat) (f : Item → Item) : (s.updItem st q f).txns = s.txns := rfl
@[simp] theorem updItem_txnNext (st q : Nat) (f : Item → Item) : (s.updItem st q f).txnNext = s.txnNext := rfl
@[simp] theorem updItem_changes (st q : Nat) (f : Item → Item) : (s.updItem st q f).changes = s.changes := rfl
@[simp] theorem updItem_lockWrite (st q : Nat) (f : Item → Item) : (s.updItem st q f).lockWrite = s.lockWrite := rfl
@[simp] theorem updItem_links (st q : Nat) (f : Item → Item) : (s.updItem st q f).links = s.links := rfl
@[simp] theorem updItem_arrived (st q : Nat) (f : Item → Item) : (s.updItem st q f).arrived = s.arrived := rfl
@[simp] theorem updItem_requests (st q : Nat) (f : Item → Item) : (s.updItem st q f).requests = s.requests := rfl
@[simp] theorem updItem_channels (st q : Nat) (f : Item → Item) : (s.updItem st q f).channels = s.channels := rfl
@[simp] theorem updItem_tiles (st q : Nat) (f : Item → Item) : (s.updItem st q f).tiles = s.tiles := rfl
@[simp] theorem updItem_power (st q : Nat) (f : Item → Item) : (s.updItem st q f).power = s.power := rfl
@[simp] theorem updItem_clocks (st q : Nat) (f : Item → Item) : (s.updItem st q f).clocks = s.clocks := rfl
@[simp] theorem updItem_wear (st q : Nat) (f : Item → Item) : (s.updItem st q f).wear = s.wear := rfl
@[simp] theorem updItem_wearFlash (st q : Nat) (f : Item → Item) : (s.updItem st q f).wearFlash = s.wearFlash := rfl
@[simp] theorem updItem_xcvrs (st q : Nat) (f : Item → Item) : (s.updItem st q f).xcvrs = s.xcvrs := rfl
@[simp] theorem updItem_security (st q : Nat) (f : Item → Item) : (s.updItem st q f).security = s.security := rfl
@[simp] theorem updItem_monitors (st q : Nat) (f : Item → Item) : (s.updItem st q f).monitors = s.monitors := rfl
@[simp] theorem updItem_snapshotAt (st q : Nat) (f : Item → Item) : (s.updItem st q f).snapshotAt = s.snapshotAt := rfl
@[simp] theorem updItem_resetting (st q : Nat) (f : Item → Item) : (s.updItem st q f).resetting = s.resetting := rfl
@[simp] theorem updItem_tests (st q : Nat) (f : Item → Item) : (s.updItem st q f).tests = s.tests := rfl
@[simp] theorem updItem_lostFields (st q : Nat) (f : Item → Item) : (s.updItem st q f).lostFields = s.lostFields := rfl
@[simp] theorem updItem_unmanaged (st q : Nat) (f : Item → Item) : (s.updItem st q f).unmanaged = s.unmanaged := rfl
@[simp] theorem updItem_romMode (st q : Nat) (f : Item → Item) : (s.updItem st q f).romMode = s.romMode := rfl
@[simp] theorem updItem_entering (st q : Nat) (f : Item → Item) : (s.updItem st q f).entering = s.entering := rfl

@[simp] theorem updStream_pending (n : Nat) (f : Stream → Stream) : (s.updStream n f).pending = s.pending := rfl
@[simp] theorem updStream_now (n : Nat) (f : Stream → Stream) : (s.updStream n f).now = s.now := rfl
@[simp] theorem updStream_fresh (n : Nat) (f : Stream → Stream) : (s.updStream n f).fresh = s.fresh := rfl
@[simp] theorem updStream_out (n : Nat) (f : Stream → Stream) : (s.updStream n f).out = s.out := rfl
@[simp] theorem updStream_obj (n : Nat) (f : Stream → Stream) : (s.updStream n f).obj = s.obj := rfl
@[simp] theorem updStream_maq (n : Nat) (f : Stream → Stream) : (s.updStream n f).maq = s.maq := rfl
@[simp] theorem updStream_rewritten (n : Nat) (f : Stream → Stream) : (s.updStream n f).rewritten = s.rewritten := rfl
@[simp] theorem updStream_mem (n : Nat) (f : Stream → Stream) : (s.updStream n f).mem = s.mem := rfl
@[simp] theorem updStream_poison (n : Nat) (f : Stream → Stream) : (s.updStream n f).poison = s.poison := rfl
@[simp] theorem updStream_sync (n : Nat) (f : Stream → Stream) : (s.updStream n f).sync = s.sync := rfl
@[simp] theorem updStream_cores (n : Nat) (f : Stream → Stream) : (s.updStream n f).cores = s.cores := rfl
@[simp] theorem updStream_waits (n : Nat) (f : Stream → Stream) : (s.updStream n f).waits = s.waits := rfl
@[simp] theorem updStream_wakes (n : Nat) (f : Stream → Stream) : (s.updStream n f).wakes = s.wakes := rfl
@[simp] theorem updStream_signals (n : Nat) (f : Stream → Stream) : (s.updStream n f).signals = s.signals := rfl
@[simp] theorem updStream_remoteOverruns (n : Nat) (f : Stream → Stream) : (s.updStream n f).remoteOverruns = s.remoteOverruns := rfl
@[simp] theorem updStream_objLog (n : Nat) (f : Stream → Stream) : (s.updStream n f).objLog = s.objLog := rfl
@[simp] theorem updStream_timeouts (n : Nat) (f : Stream → Stream) : (s.updStream n f).timeouts = s.timeouts := rfl
@[simp] theorem updStream_manual (n : Nat) (f : Stream → Stream) : (s.updStream n f).manual = s.manual := rfl
@[simp] theorem updStream_eventSeq (n : Nat) (f : Stream → Stream) : (s.updStream n f).eventSeq = s.eventSeq := rfl
@[simp] theorem updStream_events (n : Nat) (f : Stream → Stream) : (s.updStream n f).events = s.events := rfl
@[simp] theorem updStream_unacked (n : Nat) (f : Stream → Stream) : (s.updStream n f).unacked = s.unacked := rfl
@[simp] theorem updStream_faults (n : Nat) (f : Stream → Stream) : (s.updStream n f).faults = s.faults := rfl
@[simp] theorem updStream_faultNext (n : Nat) (f : Stream → Stream) : (s.updStream n f).faultNext = s.faultNext := rfl
@[simp] theorem updStream_refusals (n : Nat) (f : Stream → Stream) : (s.updStream n f).refusals = s.refusals := rfl
@[simp] theorem updStream_refusalEvent (n : Nat) (f : Stream → Stream) : (s.updStream n f).refusalEvent = s.refusalEvent := rfl
@[simp] theorem updStream_items (n : Nat) (f : Stream → Stream) : (s.updStream n f).items = s.items := rfl
@[simp] theorem updStream_intake (n : Nat) (f : Stream → Stream) : (s.updStream n f).intake = s.intake := rfl
@[simp] theorem updStream_jobs (n : Nat) (f : Stream → Stream) : (s.updStream n f).jobs = s.jobs := rfl
@[simp] theorem updStream_sessions (n : Nat) (f : Stream → Stream) : (s.updStream n f).sessions = s.sessions := rfl
@[simp] theorem updStream_swap (n : Nat) (f : Stream → Stream) : (s.updStream n f).swap = s.swap := rfl
@[simp] theorem updStream_reformatting (n : Nat) (f : Stream → Stream) : (s.updStream n f).reformatting = s.reformatting := rfl
@[simp] theorem updStream_leftOut (n : Nat) (f : Stream → Stream) : (s.updStream n f).leftOut = s.leftOut := rfl
@[simp] theorem updStream_survivors (n : Nat) (f : Stream → Stream) : (s.updStream n f).survivors = s.survivors := rfl
@[simp] theorem updStream_rowLog (n : Nat) (f : Stream → Stream) : (s.updStream n f).rowLog = s.rowLog := rfl
@[simp] theorem updStream_retired (n : Nat) (f : Stream → Stream) : (s.updStream n f).retired = s.retired := rfl
@[simp] theorem updStream_repair (n : Nat) (f : Stream → Stream) : (s.updStream n f).repair = s.repair := rfl
@[simp] theorem updStream_ops (n : Nat) (f : Stream → Stream) : (s.updStream n f).ops = s.ops := rfl
@[simp] theorem updStream_replays (n : Nat) (f : Stream → Stream) : (s.updStream n f).replays = s.replays := rfl
@[simp] theorem updStream_conns (n : Nat) (f : Stream → Stream) : (s.updStream n f).conns = s.conns := rfl
@[simp] theorem updStream_ports (n : Nat) (f : Stream → Stream) : (s.updStream n f).ports = s.ports := rfl
@[simp] theorem updStream_mgmt (n : Nat) (f : Stream → Stream) : (s.updStream n f).mgmt = s.mgmt := rfl
@[simp] theorem updStream_hubs (n : Nat) (f : Stream → Stream) : (s.updStream n f).hubs = s.hubs := rfl
@[simp] theorem updStream_hubResets (n : Nat) (f : Stream → Stream) : (s.updStream n f).hubResets = s.hubResets := rfl
@[simp] theorem updStream_txns (n : Nat) (f : Stream → Stream) : (s.updStream n f).txns = s.txns := rfl
@[simp] theorem updStream_txnNext (n : Nat) (f : Stream → Stream) : (s.updStream n f).txnNext = s.txnNext := rfl
@[simp] theorem updStream_changes (n : Nat) (f : Stream → Stream) : (s.updStream n f).changes = s.changes := rfl
@[simp] theorem updStream_lockWrite (n : Nat) (f : Stream → Stream) : (s.updStream n f).lockWrite = s.lockWrite := rfl
@[simp] theorem updStream_links (n : Nat) (f : Stream → Stream) : (s.updStream n f).links = s.links := rfl
@[simp] theorem updStream_arrived (n : Nat) (f : Stream → Stream) : (s.updStream n f).arrived = s.arrived := rfl
@[simp] theorem updStream_requests (n : Nat) (f : Stream → Stream) : (s.updStream n f).requests = s.requests := rfl
@[simp] theorem updStream_channels (n : Nat) (f : Stream → Stream) : (s.updStream n f).channels = s.channels := rfl
@[simp] theorem updStream_tiles (n : Nat) (f : Stream → Stream) : (s.updStream n f).tiles = s.tiles := rfl
@[simp] theorem updStream_power (n : Nat) (f : Stream → Stream) : (s.updStream n f).power = s.power := rfl
@[simp] theorem updStream_clocks (n : Nat) (f : Stream → Stream) : (s.updStream n f).clocks = s.clocks := rfl
@[simp] theorem updStream_wear (n : Nat) (f : Stream → Stream) : (s.updStream n f).wear = s.wear := rfl
@[simp] theorem updStream_wearFlash (n : Nat) (f : Stream → Stream) : (s.updStream n f).wearFlash = s.wearFlash := rfl
@[simp] theorem updStream_xcvrs (n : Nat) (f : Stream → Stream) : (s.updStream n f).xcvrs = s.xcvrs := rfl
@[simp] theorem updStream_security (n : Nat) (f : Stream → Stream) : (s.updStream n f).security = s.security := rfl
@[simp] theorem updStream_monitors (n : Nat) (f : Stream → Stream) : (s.updStream n f).monitors = s.monitors := rfl
@[simp] theorem updStream_snapshotAt (n : Nat) (f : Stream → Stream) : (s.updStream n f).snapshotAt = s.snapshotAt := rfl
@[simp] theorem updStream_resetting (n : Nat) (f : Stream → Stream) : (s.updStream n f).resetting = s.resetting := rfl
@[simp] theorem updStream_tests (n : Nat) (f : Stream → Stream) : (s.updStream n f).tests = s.tests := rfl
@[simp] theorem updStream_lostFields (n : Nat) (f : Stream → Stream) : (s.updStream n f).lostFields = s.lostFields := rfl
@[simp] theorem updStream_unmanaged (n : Nat) (f : Stream → Stream) : (s.updStream n f).unmanaged = s.unmanaged := rfl
@[simp] theorem updStream_romMode (n : Nat) (f : Stream → Stream) : (s.updStream n f).romMode = s.romMode := rfl
@[simp] theorem updStream_entering (n : Nat) (f : Stream → Stream) : (s.updStream n f).entering = s.entering := rfl

@[simp] theorem updLink_pending (l d : Nat) (f : LinkSide → LinkSide) : (s.updLink l d f).pending = s.pending := rfl
@[simp] theorem updLink_now (l d : Nat) (f : LinkSide → LinkSide) : (s.updLink l d f).now = s.now := rfl
@[simp] theorem updLink_fresh (l d : Nat) (f : LinkSide → LinkSide) : (s.updLink l d f).fresh = s.fresh := rfl
@[simp] theorem updLink_out (l d : Nat) (f : LinkSide → LinkSide) : (s.updLink l d f).out = s.out := rfl
@[simp] theorem updLink_obj (l d : Nat) (f : LinkSide → LinkSide) : (s.updLink l d f).obj = s.obj := rfl
@[simp] theorem updLink_maq (l d : Nat) (f : LinkSide → LinkSide) : (s.updLink l d f).maq = s.maq := rfl
@[simp] theorem updLink_rewritten (l d : Nat) (f : LinkSide → LinkSide) : (s.updLink l d f).rewritten = s.rewritten := rfl
@[simp] theorem updLink_mem (l d : Nat) (f : LinkSide → LinkSide) : (s.updLink l d f).mem = s.mem := rfl
@[simp] theorem updLink_poison (l d : Nat) (f : LinkSide → LinkSide) : (s.updLink l d f).poison = s.poison := rfl
@[simp] theorem updLink_sync (l d : Nat) (f : LinkSide → LinkSide) : (s.updLink l d f).sync = s.sync := rfl
@[simp] theorem updLink_cores (l d : Nat) (f : LinkSide → LinkSide) : (s.updLink l d f).cores = s.cores := rfl
@[simp] theorem updLink_waits (l d : Nat) (f : LinkSide → LinkSide) : (s.updLink l d f).waits = s.waits := rfl
@[simp] theorem updLink_wakes (l d : Nat) (f : LinkSide → LinkSide) : (s.updLink l d f).wakes = s.wakes := rfl
@[simp] theorem updLink_signals (l d : Nat) (f : LinkSide → LinkSide) : (s.updLink l d f).signals = s.signals := rfl
@[simp] theorem updLink_remoteOverruns (l d : Nat) (f : LinkSide → LinkSide) : (s.updLink l d f).remoteOverruns = s.remoteOverruns := rfl
@[simp] theorem updLink_objLog (l d : Nat) (f : LinkSide → LinkSide) : (s.updLink l d f).objLog = s.objLog := rfl
@[simp] theorem updLink_timeouts (l d : Nat) (f : LinkSide → LinkSide) : (s.updLink l d f).timeouts = s.timeouts := rfl
@[simp] theorem updLink_manual (l d : Nat) (f : LinkSide → LinkSide) : (s.updLink l d f).manual = s.manual := rfl
@[simp] theorem updLink_eventSeq (l d : Nat) (f : LinkSide → LinkSide) : (s.updLink l d f).eventSeq = s.eventSeq := rfl
@[simp] theorem updLink_events (l d : Nat) (f : LinkSide → LinkSide) : (s.updLink l d f).events = s.events := rfl
@[simp] theorem updLink_unacked (l d : Nat) (f : LinkSide → LinkSide) : (s.updLink l d f).unacked = s.unacked := rfl
@[simp] theorem updLink_faults (l d : Nat) (f : LinkSide → LinkSide) : (s.updLink l d f).faults = s.faults := rfl
@[simp] theorem updLink_faultNext (l d : Nat) (f : LinkSide → LinkSide) : (s.updLink l d f).faultNext = s.faultNext := rfl
@[simp] theorem updLink_refusals (l d : Nat) (f : LinkSide → LinkSide) : (s.updLink l d f).refusals = s.refusals := rfl
@[simp] theorem updLink_refusalEvent (l d : Nat) (f : LinkSide → LinkSide) : (s.updLink l d f).refusalEvent = s.refusalEvent := rfl
@[simp] theorem updLink_streams (l d : Nat) (f : LinkSide → LinkSide) : (s.updLink l d f).streams = s.streams := rfl
@[simp] theorem updLink_items (l d : Nat) (f : LinkSide → LinkSide) : (s.updLink l d f).items = s.items := rfl
@[simp] theorem updLink_intake (l d : Nat) (f : LinkSide → LinkSide) : (s.updLink l d f).intake = s.intake := rfl
@[simp] theorem updLink_jobs (l d : Nat) (f : LinkSide → LinkSide) : (s.updLink l d f).jobs = s.jobs := rfl
@[simp] theorem updLink_sessions (l d : Nat) (f : LinkSide → LinkSide) : (s.updLink l d f).sessions = s.sessions := rfl
@[simp] theorem updLink_swap (l d : Nat) (f : LinkSide → LinkSide) : (s.updLink l d f).swap = s.swap := rfl
@[simp] theorem updLink_reformatting (l d : Nat) (f : LinkSide → LinkSide) : (s.updLink l d f).reformatting = s.reformatting := rfl
@[simp] theorem updLink_leftOut (l d : Nat) (f : LinkSide → LinkSide) : (s.updLink l d f).leftOut = s.leftOut := rfl
@[simp] theorem updLink_survivors (l d : Nat) (f : LinkSide → LinkSide) : (s.updLink l d f).survivors = s.survivors := rfl
@[simp] theorem updLink_rowLog (l d : Nat) (f : LinkSide → LinkSide) : (s.updLink l d f).rowLog = s.rowLog := rfl
@[simp] theorem updLink_retired (l d : Nat) (f : LinkSide → LinkSide) : (s.updLink l d f).retired = s.retired := rfl
@[simp] theorem updLink_repair (l d : Nat) (f : LinkSide → LinkSide) : (s.updLink l d f).repair = s.repair := rfl
@[simp] theorem updLink_ops (l d : Nat) (f : LinkSide → LinkSide) : (s.updLink l d f).ops = s.ops := rfl
@[simp] theorem updLink_replays (l d : Nat) (f : LinkSide → LinkSide) : (s.updLink l d f).replays = s.replays := rfl
@[simp] theorem updLink_conns (l d : Nat) (f : LinkSide → LinkSide) : (s.updLink l d f).conns = s.conns := rfl
@[simp] theorem updLink_ports (l d : Nat) (f : LinkSide → LinkSide) : (s.updLink l d f).ports = s.ports := rfl
@[simp] theorem updLink_mgmt (l d : Nat) (f : LinkSide → LinkSide) : (s.updLink l d f).mgmt = s.mgmt := rfl
@[simp] theorem updLink_hubs (l d : Nat) (f : LinkSide → LinkSide) : (s.updLink l d f).hubs = s.hubs := rfl
@[simp] theorem updLink_hubResets (l d : Nat) (f : LinkSide → LinkSide) : (s.updLink l d f).hubResets = s.hubResets := rfl
@[simp] theorem updLink_txns (l d : Nat) (f : LinkSide → LinkSide) : (s.updLink l d f).txns = s.txns := rfl
@[simp] theorem updLink_txnNext (l d : Nat) (f : LinkSide → LinkSide) : (s.updLink l d f).txnNext = s.txnNext := rfl
@[simp] theorem updLink_changes (l d : Nat) (f : LinkSide → LinkSide) : (s.updLink l d f).changes = s.changes := rfl
@[simp] theorem updLink_lockWrite (l d : Nat) (f : LinkSide → LinkSide) : (s.updLink l d f).lockWrite = s.lockWrite := rfl
@[simp] theorem updLink_arrived (l d : Nat) (f : LinkSide → LinkSide) : (s.updLink l d f).arrived = s.arrived := rfl
@[simp] theorem updLink_requests (l d : Nat) (f : LinkSide → LinkSide) : (s.updLink l d f).requests = s.requests := rfl
@[simp] theorem updLink_channels (l d : Nat) (f : LinkSide → LinkSide) : (s.updLink l d f).channels = s.channels := rfl
@[simp] theorem updLink_tiles (l d : Nat) (f : LinkSide → LinkSide) : (s.updLink l d f).tiles = s.tiles := rfl
@[simp] theorem updLink_power (l d : Nat) (f : LinkSide → LinkSide) : (s.updLink l d f).power = s.power := rfl
@[simp] theorem updLink_clocks (l d : Nat) (f : LinkSide → LinkSide) : (s.updLink l d f).clocks = s.clocks := rfl
@[simp] theorem updLink_wear (l d : Nat) (f : LinkSide → LinkSide) : (s.updLink l d f).wear = s.wear := rfl
@[simp] theorem updLink_wearFlash (l d : Nat) (f : LinkSide → LinkSide) : (s.updLink l d f).wearFlash = s.wearFlash := rfl
@[simp] theorem updLink_xcvrs (l d : Nat) (f : LinkSide → LinkSide) : (s.updLink l d f).xcvrs = s.xcvrs := rfl
@[simp] theorem updLink_security (l d : Nat) (f : LinkSide → LinkSide) : (s.updLink l d f).security = s.security := rfl
@[simp] theorem updLink_monitors (l d : Nat) (f : LinkSide → LinkSide) : (s.updLink l d f).monitors = s.monitors := rfl
@[simp] theorem updLink_snapshotAt (l d : Nat) (f : LinkSide → LinkSide) : (s.updLink l d f).snapshotAt = s.snapshotAt := rfl
@[simp] theorem updLink_resetting (l d : Nat) (f : LinkSide → LinkSide) : (s.updLink l d f).resetting = s.resetting := rfl
@[simp] theorem updLink_tests (l d : Nat) (f : LinkSide → LinkSide) : (s.updLink l d f).tests = s.tests := rfl
@[simp] theorem updLink_lostFields (l d : Nat) (f : LinkSide → LinkSide) : (s.updLink l d f).lostFields = s.lostFields := rfl
@[simp] theorem updLink_unmanaged (l d : Nat) (f : LinkSide → LinkSide) : (s.updLink l d f).unmanaged = s.unmanaged := rfl
@[simp] theorem updLink_romMode (l d : Nat) (f : LinkSide → LinkSide) : (s.updLink l d f).romMode = s.romMode := rfl
@[simp] theorem updLink_entering (l d : Nat) (f : LinkSide → LinkSide) : (s.updLink l d f).entering = s.entering := rfl

@[simp] theorem setTxn_pending (r : Nat) (t : Option Txn) : (s.setTxn r t).pending = s.pending := rfl
@[simp] theorem setTxn_now (r : Nat) (t : Option Txn) : (s.setTxn r t).now = s.now := rfl
@[simp] theorem setTxn_fresh (r : Nat) (t : Option Txn) : (s.setTxn r t).fresh = s.fresh := rfl
@[simp] theorem setTxn_out (r : Nat) (t : Option Txn) : (s.setTxn r t).out = s.out := rfl
@[simp] theorem setTxn_obj (r : Nat) (t : Option Txn) : (s.setTxn r t).obj = s.obj := rfl
@[simp] theorem setTxn_maq (r : Nat) (t : Option Txn) : (s.setTxn r t).maq = s.maq := rfl
@[simp] theorem setTxn_rewritten (r : Nat) (t : Option Txn) : (s.setTxn r t).rewritten = s.rewritten := rfl
@[simp] theorem setTxn_mem (r : Nat) (t : Option Txn) : (s.setTxn r t).mem = s.mem := rfl
@[simp] theorem setTxn_poison (r : Nat) (t : Option Txn) : (s.setTxn r t).poison = s.poison := rfl
@[simp] theorem setTxn_sync (r : Nat) (t : Option Txn) : (s.setTxn r t).sync = s.sync := rfl
@[simp] theorem setTxn_cores (r : Nat) (t : Option Txn) : (s.setTxn r t).cores = s.cores := rfl
@[simp] theorem setTxn_waits (r : Nat) (t : Option Txn) : (s.setTxn r t).waits = s.waits := rfl
@[simp] theorem setTxn_wakes (r : Nat) (t : Option Txn) : (s.setTxn r t).wakes = s.wakes := rfl
@[simp] theorem setTxn_signals (r : Nat) (t : Option Txn) : (s.setTxn r t).signals = s.signals := rfl
@[simp] theorem setTxn_remoteOverruns (r : Nat) (t : Option Txn) : (s.setTxn r t).remoteOverruns = s.remoteOverruns := rfl
@[simp] theorem setTxn_objLog (r : Nat) (t : Option Txn) : (s.setTxn r t).objLog = s.objLog := rfl
@[simp] theorem setTxn_timeouts (r : Nat) (t : Option Txn) : (s.setTxn r t).timeouts = s.timeouts := rfl
@[simp] theorem setTxn_manual (r : Nat) (t : Option Txn) : (s.setTxn r t).manual = s.manual := rfl
@[simp] theorem setTxn_eventSeq (r : Nat) (t : Option Txn) : (s.setTxn r t).eventSeq = s.eventSeq := rfl
@[simp] theorem setTxn_events (r : Nat) (t : Option Txn) : (s.setTxn r t).events = s.events := rfl
@[simp] theorem setTxn_unacked (r : Nat) (t : Option Txn) : (s.setTxn r t).unacked = s.unacked := rfl
@[simp] theorem setTxn_faults (r : Nat) (t : Option Txn) : (s.setTxn r t).faults = s.faults := rfl
@[simp] theorem setTxn_faultNext (r : Nat) (t : Option Txn) : (s.setTxn r t).faultNext = s.faultNext := rfl
@[simp] theorem setTxn_refusals (r : Nat) (t : Option Txn) : (s.setTxn r t).refusals = s.refusals := rfl
@[simp] theorem setTxn_refusalEvent (r : Nat) (t : Option Txn) : (s.setTxn r t).refusalEvent = s.refusalEvent := rfl
@[simp] theorem setTxn_streams (r : Nat) (t : Option Txn) : (s.setTxn r t).streams = s.streams := rfl
@[simp] theorem setTxn_items (r : Nat) (t : Option Txn) : (s.setTxn r t).items = s.items := rfl
@[simp] theorem setTxn_intake (r : Nat) (t : Option Txn) : (s.setTxn r t).intake = s.intake := rfl
@[simp] theorem setTxn_jobs (r : Nat) (t : Option Txn) : (s.setTxn r t).jobs = s.jobs := rfl
@[simp] theorem setTxn_sessions (r : Nat) (t : Option Txn) : (s.setTxn r t).sessions = s.sessions := rfl
@[simp] theorem setTxn_swap (r : Nat) (t : Option Txn) : (s.setTxn r t).swap = s.swap := rfl
@[simp] theorem setTxn_reformatting (r : Nat) (t : Option Txn) : (s.setTxn r t).reformatting = s.reformatting := rfl
@[simp] theorem setTxn_leftOut (r : Nat) (t : Option Txn) : (s.setTxn r t).leftOut = s.leftOut := rfl
@[simp] theorem setTxn_survivors (r : Nat) (t : Option Txn) : (s.setTxn r t).survivors = s.survivors := rfl
@[simp] theorem setTxn_rowLog (r : Nat) (t : Option Txn) : (s.setTxn r t).rowLog = s.rowLog := rfl
@[simp] theorem setTxn_retired (r : Nat) (t : Option Txn) : (s.setTxn r t).retired = s.retired := rfl
@[simp] theorem setTxn_repair (r : Nat) (t : Option Txn) : (s.setTxn r t).repair = s.repair := rfl
@[simp] theorem setTxn_ops (r : Nat) (t : Option Txn) : (s.setTxn r t).ops = s.ops := rfl
@[simp] theorem setTxn_replays (r : Nat) (t : Option Txn) : (s.setTxn r t).replays = s.replays := rfl
@[simp] theorem setTxn_conns (r : Nat) (t : Option Txn) : (s.setTxn r t).conns = s.conns := rfl
@[simp] theorem setTxn_ports (r : Nat) (t : Option Txn) : (s.setTxn r t).ports = s.ports := rfl
@[simp] theorem setTxn_mgmt (r : Nat) (t : Option Txn) : (s.setTxn r t).mgmt = s.mgmt := rfl
@[simp] theorem setTxn_hubs (r : Nat) (t : Option Txn) : (s.setTxn r t).hubs = s.hubs := rfl
@[simp] theorem setTxn_hubResets (r : Nat) (t : Option Txn) : (s.setTxn r t).hubResets = s.hubResets := rfl
@[simp] theorem setTxn_txnNext (r : Nat) (t : Option Txn) : (s.setTxn r t).txnNext = s.txnNext := rfl
@[simp] theorem setTxn_changes (r : Nat) (t : Option Txn) : (s.setTxn r t).changes = s.changes := rfl
@[simp] theorem setTxn_lockWrite (r : Nat) (t : Option Txn) : (s.setTxn r t).lockWrite = s.lockWrite := rfl
@[simp] theorem setTxn_links (r : Nat) (t : Option Txn) : (s.setTxn r t).links = s.links := rfl
@[simp] theorem setTxn_arrived (r : Nat) (t : Option Txn) : (s.setTxn r t).arrived = s.arrived := rfl
@[simp] theorem setTxn_requests (r : Nat) (t : Option Txn) : (s.setTxn r t).requests = s.requests := rfl
@[simp] theorem setTxn_channels (r : Nat) (t : Option Txn) : (s.setTxn r t).channels = s.channels := rfl
@[simp] theorem setTxn_tiles (r : Nat) (t : Option Txn) : (s.setTxn r t).tiles = s.tiles := rfl
@[simp] theorem setTxn_power (r : Nat) (t : Option Txn) : (s.setTxn r t).power = s.power := rfl
@[simp] theorem setTxn_clocks (r : Nat) (t : Option Txn) : (s.setTxn r t).clocks = s.clocks := rfl
@[simp] theorem setTxn_wear (r : Nat) (t : Option Txn) : (s.setTxn r t).wear = s.wear := rfl
@[simp] theorem setTxn_wearFlash (r : Nat) (t : Option Txn) : (s.setTxn r t).wearFlash = s.wearFlash := rfl
@[simp] theorem setTxn_xcvrs (r : Nat) (t : Option Txn) : (s.setTxn r t).xcvrs = s.xcvrs := rfl
@[simp] theorem setTxn_security (r : Nat) (t : Option Txn) : (s.setTxn r t).security = s.security := rfl
@[simp] theorem setTxn_monitors (r : Nat) (t : Option Txn) : (s.setTxn r t).monitors = s.monitors := rfl
@[simp] theorem setTxn_snapshotAt (r : Nat) (t : Option Txn) : (s.setTxn r t).snapshotAt = s.snapshotAt := rfl
@[simp] theorem setTxn_resetting (r : Nat) (t : Option Txn) : (s.setTxn r t).resetting = s.resetting := rfl
@[simp] theorem setTxn_tests (r : Nat) (t : Option Txn) : (s.setTxn r t).tests = s.tests := rfl
@[simp] theorem setTxn_lostFields (r : Nat) (t : Option Txn) : (s.setTxn r t).lostFields = s.lostFields := rfl
@[simp] theorem setTxn_unmanaged (r : Nat) (t : Option Txn) : (s.setTxn r t).unmanaged = s.unmanaged := rfl
@[simp] theorem setTxn_romMode (r : Nat) (t : Option Txn) : (s.setTxn r t).romMode = s.romMode := rfl
@[simp] theorem setTxn_entering (r : Nat) (t : Option Txn) : (s.setTxn r t).entering = s.entering := rfl

end Sys2Proof.Machine
end

