-- ==== Sys2Proof/Laws/Tab.lean ====
section
/-! SUPPORT. The laws of sparse tables: every operation keeps the canonical form, a read after a write gives what was written, and a write
leaves every other key alone. -/

namespace Sys2Proof.Machine

variable {α : Type} {d : α}

theorem Tab.wfFrom_mono [DecidableEq α] {m n : Nat} {t : Tab α} (h : Tab.wfFrom d n t = true) (hm : m ≤ n) : Tab.wfFrom d m t = true := by
  cases t with
  | nil => rfl
  | cons e r =>
    simp only [Tab.wfFrom, Bool.and_eq_true, decide_eq_true_eq] at h ⊢
    exact ⟨⟨by omega, h.1.2⟩, h.2⟩

/-- A key below every key of a table reads as the default. -/
theorem Tab.get_below {m k : Nat} {t : Tab α} (h : Tab.risingFrom m t = true) (hk : k < m) : Tab.get d t k = d := by
  cases t with
  | nil => rfl
  | cons e r =>
    simp only [Tab.risingFrom, Bool.and_eq_true, decide_eq_true_eq] at h
    have h1 : e.1 ≠ k := by omega
    have h2 : k < e.1 := by omega
    simp [Tab.get, h1, h2]

theorem Tab.risingFrom_of_wfFrom [DecidableEq α] {m : Nat} {t : Tab α} (h : Tab.wfFrom d m t = true) : Tab.risingFrom m t = true := by
  induction t generalizing m with
  | nil => rfl
  | cons e r ih =>
    simp only [Tab.wfFrom, Tab.risingFrom, Bool.and_eq_true, decide_eq_true_eq] at h ⊢
    exact ⟨h.1.1, ih h.2⟩

theorem Tab.risingFrom_mono {m n : Nat} {t : Tab α} (h : Tab.risingFrom n t = true) (hm : m ≤ n) : Tab.risingFrom m t = true := by
  cases t with
  | nil => rfl
  | cons e r =>
    simp only [Tab.risingFrom, Bool.and_eq_true, decide_eq_true_eq] at h ⊢
    exact ⟨by omega, h.2⟩

theorem Tab.put_risingFrom {m k : Nat} {v : α} (hk : m ≤ k) {t : Tab α} (h : Tab.risingFrom m t = true) :
    Tab.risingFrom m (Tab.put k v t) = true := by
  induction t generalizing m with
  | nil => simp [Tab.put, Tab.risingFrom, hk]
  | cons e r ih =>
    simp only [Tab.risingFrom, Bool.and_eq_true, decide_eq_true_eq] at h
    simp only [Tab.put]
    split
    · simp [Tab.risingFrom, hk, h.2]; omega
    · split
      · rename_i hj; subst hj; simp [Tab.risingFrom, h.1, h.2]
      · simp only [Tab.risingFrom, Bool.and_eq_true, decide_eq_true_eq]
        exact ⟨h.1, ih (by omega) h.2⟩

theorem Tab.del_risingFrom {m k : Nat} {t : Tab α} (h : Tab.risingFrom m t = true) : Tab.risingFrom m (Tab.del k t) = true := by
  induction t generalizing m with
  | nil => rfl
  | cons e r ih =>
    have h' := h
    simp only [Tab.risingFrom, Bool.and_eq_true, decide_eq_true_eq] at h'
    simp only [Tab.del]
    split
    · exact h
    · split
      · exact Tab.risingFrom_mono h'.2 (by omega)
      · simp only [Tab.risingFrom, Bool.and_eq_true, decide_eq_true_eq]
        exact ⟨h'.1, ih h'.2⟩

theorem Tab.set_rising [DecidableEq α] {t : Tab α} {k : Nat} {v : α} (h : Tab.rising t = true) : Tab.rising (Tab.set d t k v) = true := by
  unfold Tab.set
  split
  · exact Tab.del_risingFrom h
  · exact Tab.put_risingFrom (Nat.zero_le k) h

theorem Tab.filter_risingFrom {m : Nat} {t : Tab α} (p : Nat × α → Bool) (h : Tab.risingFrom m t = true) :
    Tab.risingFrom m (t.filter p) = true := by
  induction t generalizing m with
  | nil => rfl
  | cons e r ih =>
    simp only [Tab.risingFrom, Bool.and_eq_true, decide_eq_true_eq] at h
    simp only [List.filter_cons]
    split
    · simp only [Tab.risingFrom, Bool.and_eq_true, decide_eq_true_eq]; exact ⟨h.1, ih h.2⟩
    · exact Tab.risingFrom_mono (ih h.2) (by omega)

theorem Tab.put_wfFrom [DecidableEq α] {m k : Nat} {v : α} (hv : v ≠ d) (hk : m ≤ k) {t : Tab α} (h : Tab.wfFrom d m t = true) :
    Tab.wfFrom d m (Tab.put k v t) = true := by
  induction t generalizing m with
  | nil => simp [Tab.put, Tab.wfFrom, hk, hv]
  | cons e r ih =>
    simp only [Tab.wfFrom, Bool.and_eq_true, decide_eq_true_eq] at h
    obtain ⟨⟨h1, h2⟩, h3⟩ := h
    simp only [Tab.put]
    split
    · simp [Tab.wfFrom, hk, hv, h2, h3]; omega
    · split
      · rename_i hj; subst hj; simp [Tab.wfFrom, hv, h1, h3]
      · simp only [Tab.wfFrom, Bool.and_eq_true, decide_eq_true_eq]
        exact ⟨⟨h1, h2⟩, ih (by omega) h3⟩

theorem Tab.del_wfFrom [DecidableEq α] {m k : Nat} {t : Tab α} (h : Tab.wfFrom d m t = true) : Tab.wfFrom d m (Tab.del k t) = true := by
  induction t generalizing m with
  | nil => rfl
  | cons e r ih =>
    have h' := h
    simp only [Tab.wfFrom, Bool.and_eq_true, decide_eq_true_eq] at h'
    simp only [Tab.del]
    split
    · exact h
    · split
      · exact Tab.wfFrom_mono h'.2 (by omega)
      · simp only [Tab.wfFrom, Bool.and_eq_true, decide_eq_true_eq]
        exact ⟨h'.1, ih h'.2⟩

theorem Tab.set_wf [DecidableEq α] {t : Tab α} {k : Nat} {v : α} (h : Tab.wf d t = true) : Tab.wf d (Tab.set d t k v) = true := by
  unfold Tab.set
  split
  · exact Tab.del_wfFrom h
  · rename_i hv; exact Tab.put_wfFrom hv (Nat.zero_le k) h

theorem Tab.upd_wf [DecidableEq α] {t : Tab α} {k : Nat} {f : α → α} (h : Tab.wf d t = true) : Tab.wf d (Tab.upd d t k f) = true :=
  Tab.set_wf h

theorem Tab.filter_wfFrom [DecidableEq α] {m : Nat} {t : Tab α} (p : Nat × α → Bool) (h : Tab.wfFrom d m t = true) :
    Tab.wfFrom d m (t.filter p) = true := by
  induction t generalizing m with
  | nil => rfl
  | cons e r ih =>
    simp only [Tab.wfFrom, Bool.and_eq_true, decide_eq_true_eq] at h
    simp only [List.filter_cons]
    split
    · simp only [Tab.wfFrom, Bool.and_eq_true, decide_eq_true_eq]; exact ⟨h.1, ih h.2⟩
    · exact Tab.wfFrom_mono (ih h.2) (by omega)

theorem Tab.clearRange_wf [DecidableEq α] {t : Tab α} {lo n : Nat} (h : Tab.wf d t = true) : Tab.wf d (Tab.clearRange t lo n) = true :=
  Tab.filter_wfFrom _ h

/-- Writing a list of entries one after another keeps the canonical form. -/
theorem Tab.foldl_set_wf [DecidableEq α] {β : Type} (k : β → Nat) (v : β → α) (l : List β) {t : Tab α} (h : Tab.wf d t = true) :
    Tab.wf d (l.foldl (fun acc e => Tab.set d acc (k e) (v e)) t) = true := by
  induction l generalizing t with
  | nil => exact h
  | cons e r ih => exact ih (Tab.set_wf h)

theorem Tab.copyInto_wf [DecidableEq α] {t u : Tab α} {src dst n : Nat} (h : Tab.wf d u = true) : Tab.wf d (Tab.copyInto d t u src dst n) = true :=
  Tab.foldl_set_wf (fun e : Nat × α => e.1 - src + dst) (fun e => e.2) _ (Tab.clearRange_wf h)

theorem Tab.copyRange_wf [DecidableEq α] {t : Tab α} {src dst n : Nat} (h : Tab.wf d t = true) : Tab.wf d (Tab.copyRange d t src dst n) = true :=
  Tab.copyInto_wf h

theorem Tab.get_put_same {t : Tab α} {k : Nat} {v : α} : Tab.get d (Tab.put k v t) k = v := by
  induction t with
  | nil => simp [Tab.put, Tab.get]
  | cons e r ih =>
    simp only [Tab.put]
    split
    · simp [Tab.get]
    · split
      · simp [Tab.get]
      · rename_i h1 h2
        have h3 : ¬ k < e.1 := h1
        simp [Tab.get, h2, h3, ih]

theorem Tab.get_put_other {t : Tab α} {k m : Nat} {v : α} (hm : m ≠ k) : Tab.get d (Tab.put k v t) m = Tab.get d t m := by
  have hm' : k ≠ m := fun h => hm h.symm
  induction t with
  | nil => simp [Tab.put, Tab.get, hm']
  | cons e r ih =>
    simp only [Tab.put]
    split
    · rename_i h1
      simp only [Tab.get, hm', if_false]
      by_cases h2 : m < k
      · have h3 : e.1 ≠ m := by omega
        have h4 : m < e.1 := by omega
        simp [h2, h3, h4]
      · simp [h2]
    · split
      · rename_i h1 h2; simp [Tab.get, h2, hm']
      · simp [Tab.get, ih]

theorem Tab.get_del_same {m k : Nat} {t : Tab α} (h : Tab.risingFrom m t = true) : Tab.get d (Tab.del k t) k = d := by
  induction t generalizing m with
  | nil => rfl
  | cons e r ih =>
    simp only [Tab.risingFrom, Bool.and_eq_true, decide_eq_true_eq] at h
    simp only [Tab.del]
    split
    · rename_i h1
      have h2 : e.1 ≠ k := by omega
      have h3 : k < e.1 := h1
      simp [Tab.get, h2, h3]
    · split
      · rename_i h2; exact Tab.get_below h.2 (by omega)
      · rename_i h1 h2
        have h3 : ¬ k < e.1 := h1
        simp [Tab.get, h2, h3, ih h.2]

theorem Tab.get_del_other {m k j : Nat} {t : Tab α} (h : Tab.risingFrom m t = true) (hj : j ≠ k) :
    Tab.get d (Tab.del k t) j = Tab.get d t j := by
  induction t generalizing m with
  | nil => rfl
  | cons e r ih =>
    simp only [Tab.risingFrom, Bool.and_eq_true, decide_eq_true_eq] at h
    simp only [Tab.del]
    split
    · rfl
    · split
      · rename_i h2
        have h3 : e.1 ≠ j := by omega
        simp only [Tab.get, h3, if_false]
        split
        · rename_i h4; exact Tab.get_below h.2 (by have := h4; omega)
        · rfl
      · simp [Tab.get, ih h.2]

/-- A read after a write to the same key gives what was written. -/
theorem Tab.get_set_same [DecidableEq α] {t : Tab α} {k : Nat} {v : α} (h : Tab.rising t = true) : Tab.get d (Tab.set d t k v) k = v := by
  unfold Tab.set
  split
  · rename_i hv; rw [Tab.get_del_same h, hv]
  · exact Tab.get_put_same

/-- A write leaves every other key alone. -/
theorem Tab.get_set_other [DecidableEq α] {t : Tab α} {k j : Nat} {v : α} (h : Tab.rising t = true) (hj : j ≠ k) :
    Tab.get d (Tab.set d t k v) j = Tab.get d t j := by
  unfold Tab.set
  split
  · exact Tab.get_del_other h hj
  · exact Tab.get_put_other hj

/-- A write of anything but the default is read back from any table. -/
theorem Tab.get_set_new [DecidableEq α] {t : Tab α} {k : Nat} {v : α} (hv : v ≠ d) : Tab.get d (Tab.set d t k v) k = v := by
  simp only [Tab.set, hv, if_false]; exact Tab.get_put_same

end Sys2Proof.Machine
end

