-- ==== Sys2Proof/Laws/Ops.lean ====
section
/-! SUPPORT. What the shared operations can do, said once: which fields an event, a change, a fault entry or a core update can touch, and
what is read after a write of an object value. -/

namespace Sys2Proof.Machine

open Sys2Proof

/-! ### Events, changes and fault entries -/

theorem eventTo_eq (e : Event) (s : State) (k : Nat) :
    s.eventTo e k = { s with out := (s.eventTo e k).out, unacked := (s.eventTo e k).unacked } := by
  unfold State.eventTo; split <;> rfl

theorem eventTo_foldl_eq (e : Event) (l : List Nat) (s : State) :
    l.foldl (State.eventTo e) s
      = { s with out := (l.foldl (State.eventTo e) s).out, unacked := (l.foldl (State.eventTo e) s).unacked } := by
  induction l generalizing s with
  | nil => rfl
  | cons k r ih => rw [List.foldl_cons, ih, eventTo_eq]

/-- An event touches the event log, its numbering, the subscribers' lists and what leaves the device; nothing else. -/
theorem event_eq (s : State) (i j v : Nat) :
    s.event i j v = { s with eventSeq := (s.event i j v).eventSeq, events := (s.event i j v).events
                             out := (s.event i j v).out, unacked := (s.event i j v).unacked } := by
  simp only [State.event]
  split
  · rfl
  · rw [eventTo_foldl_eq]

/-- A change of an object touches beside it only what its event touches. -/
theorem change_eq (s : State) (i j v : Nat) :
    s.change i j v = { s with obj := (s.change i j v).obj, eventSeq := (s.change i j v).eventSeq, events := (s.change i j v).events
                              out := (s.change i j v).out, unacked := (s.change i j v).unacked } := by
  unfold State.change
  split
  · rfl
  · split
    · rw [event_eq]; rfl
    · rfl

/-- A fault entry touches the fault log, its numbering and what its event touches. -/
theorem fault_eq (s : State) (f : FaultInfo) :
    s.fault f = { s with faults := (s.fault f).faults, faultNext := (s.fault f).faultNext, eventSeq := (s.fault f).eventSeq
                         events := (s.fault f).events, out := (s.fault f).out, unacked := (s.fault f).unacked } := by
  unfold State.fault
  split
  · rfl
  · rw [event_eq]

/-- A change of core_state touches that core and what its event touches. -/
theorem setCoreState_eq (s : State) (c v : Nat) :
    s.setCoreState c v = { s with cores := (s.setCoreState c v).cores, eventSeq := (s.setCoreState c v).eventSeq
                                  events := (s.setCoreState c v).events, out := (s.setCoreState c v).out
                                  unacked := (s.setCoreState c v).unacked } := by
  unfold State.setCoreState
  split
  · rfl
  · rw [event_eq]; rfl

/-! ### Object values -/

/-- What an object reads after it was written. -/
theorem get_put_same (s : State) (i j v : Nat) (h : Tab.rising s.obj = true) (hi : i ≠ 0x4101) :
    (s.put i j v).get i j = v := by
  simp only [State.get, State.put, if_neg hi]
  exact Tab.get_set_same h

/-- Raising a change leaves the object at its new value. -/
theorem change_obj_other (s : State) (i j v : Nat) (h : s.get i j = v) : s.change i j v = s := by
  simp [State.change, h]

/-! ### Cores -/

/-- A core reads as it was changed. -/
theorem core_updCore_same (s : State) (c : Nat) (f : Core → Core) (h : Tab.rising s.cores = true) :
    (s.updCore c f).core c = f (s.core c) := by
  simp only [State.updCore, State.setCore, State.core]; exact Tab.get_set_same h

/-- The other cores keep their values. -/
theorem core_updCore_other (s : State) (c d : Nat) (f : Core → Core) (h : Tab.rising s.cores = true) (hd : d ≠ c) :
    (s.updCore c f).core d = s.core d := by
  simp only [State.updCore, State.setCore, State.core]; exact Tab.get_set_other h hd

theorem updCore_rising (s : State) (c : Nat) (f : Core → Core) (h : Tab.rising s.cores = true) :
    Tab.rising (s.updCore c f).cores = true := by
  simp only [State.updCore, State.setCore]; exact Tab.set_rising h

/-- Replacing the started commands of an engine changes nothing else of a core. -/
theorem core_setStarted_same (s : State) (c e : Nat) (l : List Active) (h : Tab.rising s.cores = true) :
    (s.setStarted c e l).core c = { s.core c with active := Tab.set [] (s.core c).active e l } :=
  core_updCore_same s c _ h

theorem core_setStarted_other (s : State) (c d e : Nat) (l : List Active) (h : Tab.rising s.cores = true) (hd : d ≠ c) :
    (s.setStarted c e l).core d = s.core d :=
  core_updCore_other s c d _ h hd

/-- The started commands read as they were set, where there are any. -/
theorem started_setStarted (s : State) (c e : Nat) (l : List Active) (h : Tab.rising s.cores = true) (hl : l ≠ []) :
    ((s.setStarted c e l).core c).started e = l := by
  rw [core_setStarted_same s c e l h]; exact Tab.get_set_new hl

end Sys2Proof.Machine
end

