-- ==== Sys2Proof/Laws/Memory.lean ====
section
/-! SUPPORT. The laws of memory: what a store leaves at each address, that it keeps the canonical form, and what it leaves alone. -/

namespace Sys2Proof.Machine

open Sys2Proof

/-- The fold that writes bytes one after another. -/
theorem setBytes_mem (s : State) (a : Nat) (bs : Bytes) :
    (s.setBytes a bs).mem = (bs.foldl (fun (st : Nat × List Host.Cell) b => (st.1 + 1, Tab.set 0 st.2 st.1 b)) (a, s.mem)).2 := rfl

theorem foldl_bytes_wf (bs : Bytes) (a : Nat) (m : List Host.Cell) (h : Tab.wf 0 m = true) :
    Tab.wf 0 (bs.foldl (fun (st : Nat × List Host.Cell) b => (st.1 + 1, Tab.set 0 st.2 st.1 b)) (a, m)).2 = true := by
  induction bs generalizing a m with
  | nil => exact h
  | cons b r ih => exact ih (a + 1) _ (Tab.set_wf h)

theorem foldl_bytes_get (bs : Bytes) (a : Nat) (m : List Host.Cell) (h : Tab.wf 0 m = true) (k : Nat) :
    Tab.get 0 (bs.foldl (fun (st : Nat × List Host.Cell) b => (st.1 + 1, Tab.set 0 st.2 st.1 b)) (a, m)).2 k
      = if a ≤ k ∧ k < a + bs.length then bs.getD (k - a) 0 else Tab.get 0 m k := by
  induction bs generalizing a m with
  | nil => simp <;> omega
  | cons b r ih =>
    rw [List.foldl_cons, ih _ _ (Tab.set_wf h)]
    by_cases hk : k = a
    · subst hk
      have h1 : ¬ (k + 1 ≤ k ∧ k < k + 1 + r.length) := by omega
      have h2 : k ≤ k ∧ k < k + (b :: r).length := by simp
      rw [if_neg h1, if_pos h2, Tab.get_set_same (Tab.risingFrom_of_wfFrom h)]; simp
    · rw [Tab.get_set_other (Tab.risingFrom_of_wfFrom h) hk]
      by_cases h1 : a + 1 ≤ k ∧ k < a + 1 + r.length
      · have h2 : a ≤ k ∧ k < a + (b :: r).length := by simp; omega
        rw [if_pos h1, if_pos h2]
        have h3 : k - a = (k - (a + 1)) + 1 := by omega
        rw [h3, List.getD_cons_succ]
      · have h2 : ¬ (a ≤ k ∧ k < a + (b :: r).length) := by simp; omega
        rw [if_neg h1, if_neg h2]

/-- What memory holds after bytes are put into it: the bytes, and everything else as before. -/
theorem setBytes_get (s : State) (a : Nat) (bs : Bytes) (h : Memory.wf s.mem = true) (k : Nat) :
    Tab.get 0 (s.setBytes a bs).mem k = if a ≤ k ∧ k < a + bs.length then bs.getD (k - a) 0 else Tab.get 0 s.mem k :=
  foldl_bytes_get bs a s.mem h k

theorem setBytes_wf (s : State) (a : Nat) (bs : Bytes) (h : Memory.wf s.mem = true) : Memory.wf (s.setBytes a bs).mem = true :=
  foldl_bytes_wf bs a s.mem h

/-! ### Poison -/

/-- Counting a poison bit touches counters only. -/
theorem countPoison_eq (s : State) (g n : Nat) : s.countPoison g n = { s with obj := (s.countPoison g n).obj } := by
  unfold State.countPoison; split
  · rfl
  · split <;> rfl

/-- Storing a poison bit touches the poison table and the counters of poison. -/
theorem setPoison_eq (s : State) (g : Nat) (b : Bool) :
    s.setPoison g b = { s with poison := Tab.set false s.poison (g / 64) b, obj := (s.setPoison g b).obj } := by
  simp only [State.setPoison]
  split
  · rw [countPoison_eq]
  · rfl

theorem setPoison_clear (s : State) (g : Nat) : s.setPoison g false = { s with poison := Tab.set false s.poison (g / 64) false } := by
  simp [State.setPoison]

theorem mergePoison_eq (s : State) (a n : Nat) (p : Bool) (g : Nat) :
    s.mergePoison a n p g = { s with poison := (s.mergePoison a n p g).poison, obj := (s.mergePoison a n p g).obj } := by
  unfold State.mergePoison
  split
  · rw [setPoison_eq]
  · split
    · rw [setPoison_eq]
    · rfl

theorem mergePoison_foldl_eq (a n : Nat) (p : Bool) (l : List Nat) (s : State) :
    l.foldl (fun s g => s.mergePoison a n p g) s
      = { s with poison := (l.foldl (fun s g => s.mergePoison a n p g) s).poison
                 obj := (l.foldl (fun s g => s.mergePoison a n p g) s).obj } := by
  induction l generalizing s with
  | nil => rfl
  | cons g r ih => rw [List.foldl_cons, ih, mergePoison_eq]

/-- A store touches memory, poison and the counters of poison; the bytes are put where it says. -/
theorem storeAt_eq (s : State) (a : Nat) (bs : Bytes) (p : Bool) :
    s.storeAt a bs p = { s with mem := (s.setBytes a bs).mem, poison := (s.storeAt a bs p).poison, obj := (s.storeAt a bs p).obj } := by
  simp only [State.storeAt]
  split
  · rfl
  · rw [mergePoison_foldl_eq]; rfl

@[simp] theorem storeAt_mem (s : State) (a : Nat) (bs : Bytes) (p : Bool) : (s.storeAt a bs p).mem = (s.setBytes a bs).mem := by
  rw [storeAt_eq]

/-- A store of clean bytes counts nothing. -/
theorem mergePoison_clean (s : State) (a n g : Nat) : (s.mergePoison a n false g).obj = s.obj := by
  unfold State.mergePoison
  split
  · rw [setPoison_clear]
  · rfl

theorem storeAt_clean_obj (s : State) (a : Nat) (bs : Bytes) : (s.storeAt a bs false).obj = s.obj := by
  simp only [State.storeAt]
  split
  · rfl
  · generalize granules a bs.length = l
    have : ∀ (l : List Nat) (u : State), (l.foldl (fun s g => s.mergePoison a bs.length false g) u).obj = u.obj := by
      intro l
      induction l with
      | nil => intro u; rfl
      | cons g r ih => intro u; rw [List.foldl_cons, ih, mergePoison_clean]
    rw [this]; rfl

/-! ### Pieces -/

/-- A run of bytes that lies in one n-byte unit is one piece. -/
theorem pieces_one (n a : Nat) (bs : Bytes) (h : bs ≠ []) (hn : a % n + bs.length ≤ n) : pieces n a bs = [(a, bs)] := by
  cases bs with
  | nil => exact absurd rfl h
  | cons b r =>
    have h1 : (b :: r).length ≤ n - a % n := by omega
    have h2 : List.drop (n - a % n) (b :: r) = [] := List.drop_eq_nil_of_le h1
    have h3 : List.take (n - a % n) (b :: r) = b :: r := List.take_of_length_le h1
    unfold pieces
    rw [List.length_cons]
    simp only [piecesGo, List.isEmpty_cons, h2, h3, Bool.false_eq_true, if_false]
    cases r.length <;> simp [piecesGo]

/-! ### Reads -/

theorem toLE_length (n v : Nat) : (toLE n v).length = n := by
  induction n generalizing v with
  | zero => rfl
  | succ n ih => simp [toLE, ih]

/-- Where an address is served depends on the dictionary, the mirrors' survivors and the layers left out only. -/
theorem served_congr (s t : State) (h1 : t.obj = s.obj) (h2 : t.survivors = s.survivors) (h3 : t.leftOut = s.leftOut) (b : Nat) :
    t.served b = s.served b := by
  simp only [State.served, State.mirrorOf, State.mirrors, State.locationLost, State.stackLost, State.layerLost, State.layerOf,
    State.twoLayer, State.mirrorState, State.mirrorSurvivor, State.get, h1, h2, h3]
  rfl

/-- A scratchpad or object address is served where it is. -/
theorem served_self (s : State) (a : Nat) (h : spaceOf a ≠ 0) : s.served a = some a := by
  unfold State.served; rw [if_pos h]

end Sys2Proof.Machine
end

