-- ==== Sys2Proof/Laws/Sync.lean ====
section
/-! SUPPORT. The laws of synchronisation objects: what a signal at its object unit changes, and what it leaves alone. -/

namespace Sys2Proof.Machine

open Sys2Proof

/-- The object log touches jobs, logs and counters, no object and no wait. -/
theorem logSignal_frame (s : State) (c i k v : Nat) (g : Option Nat) (t : Option (Nat × Nat)) (o : Nat) :
    (s.logSignal c i k v g t o).sync = s.sync ∧ (s.logSignal c i k v g t o).signals = s.signals
      ∧ (s.logSignal c i k v g t o).waits = s.waits := by
  simp only [State.logSignal]
  split
  · exact ⟨rfl, rfl, rfl⟩
  · split <;> exact ⟨rfl, rfl, rfl⟩

theorem applyAt_waits (s : State) (c i k v : Nat) (g : Option Nat) (t : Option (Nat × Nat)) :
    (s.applyAt c i k v g t).1.waits = s.waits := by
  simp only [State.applyAt]; split <;> simp [logSignal_frame]

theorem applyAt_signals (s : State) (c i k v : Nat) (g : Option Nat) (t : Option (Nat × Nat)) :
    (s.applyAt c i k v g t).1.signals = s.signals := by
  simp only [State.applyAt]; split <;> simp [logSignal_frame]

/-- A signal changes no object but its own. -/
theorem applyAt_other (s : State) (c i k v : Nat) (g : Option Nat) (t : Option (Nat × Nat)) (h : Tab.wf 0 s.sync = true) (x : Nat)
    (hx : x ≠ syncKey c i) : Tab.get 0 (s.applyAt c i k v g t).1.sync x = Tab.get 0 s.sync x := by
  simp only [State.applyAt]
  split
  · simp only [bump_sync, logSignal_frame]
    exact Tab.get_set_other (Tab.risingFrom_of_wfFrom h) hx
  · rfl
  · rfl
  · rfl

/-- A signal that its object takes leaves the image that the object's rule gives. -/
theorem applyAt_ok (s : State) (c i k v w : Nat) (g : Option Nat) (t : Option (Nat × Nat)) (h : Tab.wf 0 s.sync = true)
    (ha : applySignal (s.syncGet c i) k v g = (w, .ok)) : (s.applyAt c i k v g t).1.syncGet c i = w := by
  simp only [State.applyAt, ha]
  simp only [State.syncGet, bump_sync, logSignal_frame]
  exact Tab.get_set_same (Tab.risingFrom_of_wfFrom h)

/-- A signal that its object refuses changes no object. -/
theorem applyAt_refused (s : State) (c i k v : Nat) (g : Option Nat) (t : Option (Nat × Nat))
    (ha : (applySignal (s.syncGet c i) k v g).2 ≠ .ok) : (s.applyAt c i k v g t).1.sync = s.sync := by
  simp only [State.applyAt]
  split
  · rename_i h; exact absurd h ha
  · rfl
  · rfl
  · rfl

/-- A core on whose objects nobody waits: evaluating its waits changes nothing. -/
theorem evalWaits_none (s : State) (c : Nat) (l : List Nat) (h : ∀ w ∈ s.waits, syncCore w.object ≠ c) : s.evalWaits c l = s := by
  unfold State.evalWaits
  generalize hw : s.waits = ws at h
  clear hw
  induction ws generalizing s with
  | nil => rfl
  | cons w r ih =>
    rw [List.foldl_cons, if_neg (by intro hh; exact h w (by simp) hh.1)]
    exact ih s (fun w hw => h w (by simp [hw]))

end Sys2Proof.Machine
end

