-- ==== Sys2Proof/Laws/Frame.lean ====
section
/-! SUPPORT. Frames of the shared operations on memory: a state that differs from another in memory, poison and counters only. -/

namespace Sys2Proof.Machine

open Sys2Proof

/-- t differs from s in memory, poison and object values at most. -/
def MemOnly (s t : State) : Prop := t = { s with mem := t.mem, poison := t.poison, obj := t.obj }

theorem MemOnly.refl (s : State) : MemOnly s s := rfl

theorem MemOnly.trans {s t u : State} (h : MemOnly s t) (k : MemOnly t u) : MemOnly s u := by
  unfold MemOnly at *; rw [k, h]

/-- A fold of operations that each touch memory only touches memory only. -/
theorem MemOnly.foldl {α : Type} (f : State → α → State) (hf : ∀ s x, MemOnly s (f s x)) (l : List α) (s : State) :
    MemOnly s (l.foldl f s) := by
  induction l generalizing s with
  | nil => exact .refl s
  | cons x r ih => exact (hf s x).trans (ih _)

theorem memOnly_storeAt (s : State) (a : Nat) (bs : Bytes) (p : Bool) : MemOnly s (s.storeAt a bs p) := by
  unfold MemOnly; rw [storeAt_eq]

theorem memOnly_countPoison (s : State) (g n : Nat) : MemOnly s (s.countPoison g n) := by
  unfold MemOnly; rw [countPoison_eq]

theorem memOnly_countNewPoison (old s : State) (a n : Nat) : MemOnly s (s.countNewPoison old a n) := by
  unfold State.countNewPoison
  repeat' first | exact .refl s | exact memOnly_countPoison s _ _ | split

theorem memOnly_count (s : State) (i j n d : Nat) : MemOnly s (s.count i j n d) := rfl

theorem memOnly_countWritten (s : State) (a n : Nat) : MemOnly s (s.countWritten a n) := by
  unfold State.countWritten; split
  · exact memOnly_count s _ _ _ _
  · exact .refl s

theorem memOnly_countRead (s : State) (a n : Nat) : MemOnly s (s.countRead a n) := by
  unfold State.countRead
  repeat' first | exact .refl s | exact memOnly_count s _ _ _ _ | split

theorem memOnly_mem (s : State) (m : List Host.Cell) (p : Tab Bool) : MemOnly s { s with mem := m, poison := p } := rfl

theorem memOnly_copyMem (s : State) (a b n : Nat) : MemOnly s (s.copyMem a b n) :=
  (memOnly_mem s _ _).trans (memOnly_countNewPoison _ _ _ _)

theorem memOnly_zeroMem (s : State) (a n : Nat) : MemOnly s (s.zeroMem a n) := rfl

theorem memOnly_putImage (s : State) (a : Nat) (i : PageImage) : MemOnly s (s.putImage a i) :=
  (memOnly_mem s _ _).trans (memOnly_countNewPoison _ _ _ _)

theorem memOnly_restorePage (s : State) (a : Nat) (i : PageImage) : MemOnly s (s.restorePage a i) := by
  unfold State.restorePage
  exact .foldl _ (fun s w => (memOnly_putImage s w i).trans (memOnly_countWritten _ _ _)) _ s

/-- A store at some places touches memory only. -/
theorem memOnly_storePlaces (s : State) (ws : List Nat) (bs : Bytes) (p : Bool) : MemOnly s (s.storePlaces ws bs p) := by
  unfold State.storePlaces
  split
  · exact .refl s
  · exact ((memOnly_storeAt s _ bs p).trans (memOnly_countWritten _ _ _)).trans
      (.foldl _ (fun s v => (memOnly_copyMem s _ _ _).trans (memOnly_countWritten _ _ _)) _ _)

theorem memOnly_put (s : State) (i j v : Nat) : MemOnly s (s.put i j v) := rfl

theorem memOnly_bump (s : State) (i j : Nat) : MemOnly s (s.bump i j) := rfl

theorem memOnly_writePiece (s : State) (a : Nat) (bs : Bytes) (p : Bool) : MemOnly s (s.writePiece a bs p).1 := by
  unfold State.writePiece
  split
  · exact .refl s
  · exact memOnly_storePlaces s _ bs p

theorem memOnly_writeBytes (s : State) (a : Nat) (bs : Bytes) (p : Bool) : MemOnly s (s.writeBytes a bs p).1 := by
  unfold State.writeBytes
  generalize pieces 4096 a bs = l
  have : ∀ (l : List (Nat × Bytes)) (st : State × Bool), MemOnly st.1
      (l.foldl (fun st pc => let r := st.1.writePiece pc.1 pc.2 p; (r.1, st.2 || r.2)) st).1 := by
    intro l
    induction l with
    | nil => intro st; exact .refl _
    | cons x r ih => intro st; exact (memOnly_writePiece st.1 x.1 x.2 p).trans (ih _)
  exact this l (s, false)

theorem memOnly_putPlain (s : State) (a : Nat) (bs : Bytes) : MemOnly s (s.putPlain a bs) := memOnly_writeBytes s a bs false

theorem memOnly_copyPages (s : State) (a b n : Nat) : MemOnly s (s.copyPages a b n) := by
  unfold State.copyPages
  refine .foldl _ (fun s i => ?_) _ s
  split
  · exact (memOnly_countRead s _ _).trans (.foldl _ (fun s w => (memOnly_copyMem s _ w 4096).trans (memOnly_countWritten _ _ _)) _ _)
  · exact .refl s

theorem memOnly_saveObjects (s : State) (c b : Nat) : MemOnly s (s.saveObjects c b) := by
  unfold State.saveObjects
  exact (MemOnly.foldl _ (fun s i => memOnly_putPlain s _ _) _ s).trans (.foldl _ (fun s e => memOnly_putPlain s _ _) _ _)

theorem memOnly_writeImage (s : State) (j c b m p : Nat) (r : ResumePoint) : MemOnly s (s.writeImage j c b m p r) := by
  unfold State.writeImage
  exact (((memOnly_saveObjects s c b).trans (.foldl _ (fun s g => memOnly_copyPages s _ _ _) _ _)).trans (memOnly_putPlain _ _ _)).trans
    (memOnly_putPlain _ _ _)

theorem MemOnly.cores {s t : State} (h : MemOnly s t) : t.cores = s.cores := by rw [h]
theorem MemOnly.sync {s t : State} (h : MemOnly s t) : t.sync = s.sync := by rw [h]
theorem MemOnly.waits {s t : State} (h : MemOnly s t) : t.waits = s.waits := by rw [h]
theorem MemOnly.items {s t : State} (h : MemOnly s t) : t.items = s.items := by rw [h]
theorem MemOnly.now {s t : State} (h : MemOnly s t) : t.now = s.now := by rw [h]
theorem MemOnly.pending {s t : State} (h : MemOnly s t) : t.pending = s.pending := by rw [h]

end Sys2Proof.Machine
end

