-- ==== Sys2Proof/Laws/Keeps0.lean ====
section
/-! SUPPORT.  What keeps the canonical form (Canonical of Safety), part 0: an update of the fields that
Canonical does not speak of, the folds, and the tables' own operations.  The parts that follow say once
for each shared operation that it keeps the form, lowest operation first, so that a proof over a command
or a step cites them and unfolds nothing but the command's own meaning. -/
namespace Sys2Proof.Machine
open Sys2Proof

theorem Tab.upd_rising {α : Type} {d : α} [DecidableEq α] {t : Tab α} {k : Nat} {f : α → α} (h : Tab.rising t =
    true) : Tab.rising (Tab.upd d t k f) = true :=
  Tab.set_rising h
theorem Tab.filter_rising {α : Type} {t : Tab α} {p : Nat × α → Bool} (h : Tab.rising t = true) : Tab.rising
    (t.filter p) = true :=
  Tab.filter_risingFrom p h

theorem keeps_ite {c : Prop} [Decidable c] {s t : State} (hs : Canonical s) (ht : Canonical t) : Canonical (if c then
    s else t) := by
  split
  · exact hs
  · exact ht
theorem keeps_elim {α : Type} {o : Option α} {s : State} {f : α → State} (h : Canonical s) (hf : ∀ a, Canonical (f a))
    : Canonical (o.elim s f) := by
  cases o with
  | none => exact h
  | some a => exact hf a
theorem keeps_foldl {α : Type} {f : State → α → State} {l : List α} {s : State} (h : Canonical s) (hf : ∀ s x,
    Canonical s → Canonical (f s x)) :
    Canonical (l.foldl f s) := by
  induction l generalizing s with
  | nil => exact h
  | cons x r ih => exact ih (hf s x h)
theorem keeps_foldl_fst {α β : Type} {f : State × β → α → State × β} {l : List α} {s : State × β} (h : Canonical s.1)
    (hf : ∀ s x, Canonical s.1 → Canonical (f s x).1) : Canonical (l.foldl f s).1 := by
  induction l generalizing s with
  | nil => exact h
  | cons x r ih => exact ih (hf s x h)

theorem canonical_update {E : State} {z_pending : List Instr} {z_now : Nat} {z_fresh : Nat} {z_out : List Emit}
    {z_rewritten : List Nat} {z_waits : List Wait} {z_wakes : List Wake} {z_signals : List Signal} {z_timeouts : List
    Nat} {z_manual : List Nat} {z_eventSeq : Nat} {z_events : List Event} {z_unacked : List Unacked} {z_faults : List
    Nat} {z_faultNext : Nat} {z_refusals : List Nat} {z_items : List Item} {z_intake : Intake} {z_swap : Swap}
    {z_reformatting : List Nat} {z_retired : List Nat} {z_repair : Repair} {z_ops : List GroupOp} {z_replays : List
    Replay} {z_mgmt : List (Source × TchUnit)} {z_txnNext : Nat} {z_changes : List Change} {z_lockWrite : Nat}
    {z_power : Power} {z_clocks : Clocks} {z_wear : List Wear} {z_wearFlash : List Wear} {z_security : Security}
    {z_snapshotAt : Option (Nat × Bool)} {z_resetting : Reset} {z_tests : List Assign} {z_lostFields : Nat}
    {z_unmanaged : Bool} {z_romMode : Bool} {z_entering : Option Nat} :
    Canonical ⟨z_pending, z_now, z_fresh, z_out, E.obj, E.maq, z_rewritten, E.mem, E.poison, E.sync, E.cores, z_waits,
      z_wakes, z_signals, E.remoteOverruns, E.objLog, z_timeouts, z_manual, z_eventSeq, z_events, z_unacked, z_faults,
      z_faultNext, z_refusals, E.refusalEvent, E.streams, z_items, z_intake, E.jobs, E.sessions, z_swap,
      z_reformatting, E.leftOut, E.survivors, E.rowLog, z_retired, z_repair, z_ops, z_replays, E.conns, E.ports,
      z_mgmt, E.hubs, E.hubResets, E.txns, z_txnNext, z_changes, z_lockWrite, E.links, E.arrived, E.requests,
      E.channels, E.tiles, z_power, z_clocks, z_wear, z_wearFlash, E.xcvrs, z_security, E.monitors, z_snapshotAt,
      z_resetting, z_tests, z_lostFields, z_unmanaged, z_romMode, z_entering⟩ = Canonical E :=
  propext ⟨fun h => ⟨h.mem, h.poison, h.sync, h.obj, h.maq, h.cores, h.objLog, h.refusalEvent, h.streams, h.jobs,
    h.sessions, h.leftOut, h.survivors, h.rowLog, h.conns, h.ports, h.hubs, h.hubResets, h.txns, h.links, h.arrived,
    h.channels, h.tiles, h.xcvrs, h.monitors, h.requests, h.remoteOverruns⟩, fun h => ⟨h.mem, h.poison, h.sync, h.obj,
    h.maq, h.cores, h.objLog, h.refusalEvent, h.streams, h.jobs, h.sessions, h.leftOut, h.survivors, h.rowLog,
    h.conns, h.ports, h.hubs, h.hubResets, h.txns, h.links, h.arrived, h.channels, h.tiles, h.xcvrs, h.monitors,
    h.requests, h.remoteOverruns⟩⟩

theorem canonical_all {z_pending : List Instr} {z_now : Nat} {z_fresh : Nat} {z_out : List Emit} {z_obj : Tab Nat}
    {z_maq : Tab Nat} {z_rewritten : List Nat} {z_mem : List Host.Cell} {z_poison : Tab Bool} {z_sync : Tab Nat}
    {z_cores : Tab Core} {z_waits : List Wait} {z_wakes : List Wake} {z_signals : List Signal} {z_remoteOverruns : Tab
    Nat} {z_objLog : Tab ObjectLog} {z_timeouts : List Nat} {z_manual : List Nat} {z_eventSeq : Nat} {z_events : List
    Event} {z_unacked : List Unacked} {z_faults : List Nat} {z_faultNext : Nat} {z_refusals : List Nat}
    {z_refusalEvent : Tab Nat} {z_streams : Tab Stream} {z_items : List Item} {z_intake : Intake} {z_jobs : Tab Job}
    {z_sessions : Tab (Option Session)} {z_swap : Swap} {z_reformatting : List Nat} {z_leftOut : Tab Nat} {z_survivors
    : Tab Bool} {z_rowLog : Tab (List Nat)} {z_retired : List Nat} {z_repair : Repair} {z_ops : List GroupOp}
    {z_replays : List Replay} {z_conns : Tab (Option Conn)} {z_ports : Tab Port} {z_mgmt : List (Source × TchUnit)}
    {z_hubs : Tab Nat} {z_hubResets : Tab Nat} {z_txns : Tab (Option Txn)} {z_txnNext : Nat} {z_changes : List Change}
    {z_lockWrite : Nat} {z_links : Tab LinkSide} {z_arrived : Tab (List Flit)} {z_requests : Tab (List Nat)}
    {z_channels : Tab Channel} {z_tiles : Tab Tile} {z_power : Power} {z_clocks : Clocks} {z_wear : List Wear}
    {z_wearFlash : List Wear} {z_xcvrs : Tab Xcvr} {z_security : Security} {z_monitors : Tab Monitor} {z_snapshotAt :
    Option (Nat × Bool)} {z_resetting : Reset} {z_tests : List Assign} {z_lostFields : Nat} {z_unmanaged : Bool}
    {z_romMode : Bool} {z_entering : Option Nat} :
    Canonical ⟨z_pending, z_now, z_fresh, z_out, z_obj, z_maq, z_rewritten, z_mem, z_poison, z_sync, z_cores, z_waits,
      z_wakes, z_signals, z_remoteOverruns, z_objLog, z_timeouts, z_manual, z_eventSeq, z_events, z_unacked, z_faults,
      z_faultNext, z_refusals, z_refusalEvent, z_streams, z_items, z_intake, z_jobs, z_sessions, z_swap,
      z_reformatting, z_leftOut, z_survivors, z_rowLog, z_retired, z_repair, z_ops, z_replays, z_conns, z_ports,
      z_mgmt, z_hubs, z_hubResets, z_txns, z_txnNext, z_changes, z_lockWrite, z_links, z_arrived, z_requests,
      z_channels, z_tiles, z_power, z_clocks, z_wear, z_wearFlash, z_xcvrs, z_security, z_monitors, z_snapshotAt,
      z_resetting, z_tests, z_lostFields, z_unmanaged, z_romMode, z_entering⟩ = (Memory.wf z_mem = true ∧ Tab.wf false
      z_poison = true ∧ Tab.wf 0 z_sync = true ∧ Tab.rising z_obj = true ∧ Tab.rising z_maq = true ∧ Tab.rising
      z_cores = true ∧ Tab.rising z_objLog = true ∧ Tab.rising z_refusalEvent = true ∧ Tab.rising z_streams = true ∧
      Tab.rising z_jobs = true ∧ Tab.rising z_sessions = true ∧ Tab.rising z_leftOut = true ∧ Tab.rising z_survivors =
      true ∧ Tab.rising z_rowLog = true ∧ Tab.rising z_conns = true ∧ Tab.rising z_ports = true ∧ Tab.rising z_hubs =
      true ∧ Tab.rising z_hubResets = true ∧ Tab.rising z_txns = true ∧ Tab.rising z_links = true ∧ Tab.rising
      z_arrived = true ∧ Tab.rising z_channels = true ∧ Tab.rising z_tiles = true ∧ Tab.rising z_xcvrs = true ∧
      Tab.rising z_monitors = true ∧ Tab.rising z_requests = true ∧ Tab.rising z_remoteOverruns = true) :=
  propext ⟨fun h => ⟨h.mem, h.poison, h.sync, h.obj, h.maq, h.cores, h.objLog, h.refusalEvent, h.streams, h.jobs,
    h.sessions, h.leftOut, h.survivors, h.rowLog, h.conns, h.ports, h.hubs, h.hubResets, h.txns, h.links, h.arrived,
    h.channels, h.tiles, h.xcvrs, h.monitors, h.requests, h.remoteOverruns⟩, fun ⟨h_mem, h_poison, h_sync, h_obj,
    h_maq, h_cores, h_objLog, h_refusalEvent, h_streams, h_jobs, h_sessions, h_leftOut, h_survivors, h_rowLog,
    h_conns, h_ports, h_hubs, h_hubResets, h_txns, h_links, h_arrived, h_channels, h_tiles, h_xcvrs, h_monitors,
    h_requests, h_remoteOverruns⟩ => ⟨h_mem, h_poison, h_sync, h_obj, h_maq, h_cores, h_objLog, h_refusalEvent,
    h_streams, h_jobs, h_sessions, h_leftOut, h_survivors, h_rowLog, h_conns, h_ports, h_hubs, h_hubResets, h_txns,
    h_links, h_arrived, h_channels, h_tiles, h_xcvrs, h_monitors, h_requests, h_remoteOverruns⟩⟩

theorem keeps_eachUntil {α : Type} {f : State → α → State × Option AccErr} {l : List α} {s : State} (hf : ∀ s x,
    Canonical s → Canonical (f s x).1)
    (h : Canonical s) : Canonical (eachUntil f l s).1 := by
  induction l generalizing s with
  | nil => exact h
  | cons x r ih =>
    have := hf s x h
    unfold eachUntil
    split
    · rename_i h2; rw [h2] at this; exact ih this
    · rename_i h2; rw [h2] at this; exact this

theorem rising_nil {α : Type} : Tab.rising ([] : Tab α) = true := rfl
theorem wf_nil {α : Type} [DecidableEq α] {d : α} : Tab.wf d ([] : Tab α) = true := rfl
theorem mem_nil : Memory.wf [] = true := rfl
theorem wf_copyRange {t : List Host.Cell} {a b n : Nat} (h : Memory.wf t = true) : Memory.wf (Tab.copyRange 0 t a b
    n) = true := Tab.copyRange_wf h
theorem wf_clearRange {t : List Host.Cell} {a n : Nat} (h : Memory.wf t = true) : Memory.wf (Tab.clearRange t a n) =
    true := Tab.clearRange_wf h
theorem keeps_of_eq {β : Type} {p : State × β} {x : State} {y : β} (h : p = (x, y)) (hp : Canonical p.1) : Canonical
    x := by rw [h] at hp; exact hp
theorem rising_map_from {α : Type} {t : Tab α} {m : Nat} {g : Nat × α → α} (h : Tab.risingFrom m t = true) :
    Tab.risingFrom m (t.map fun e => (e.1, g e)) = true := by
  induction t generalizing m with
  | nil => rfl
  | cons e r ih =>
    simp only [List.map_cons, Tab.risingFrom, Bool.and_eq_true] at h ⊢
    exact ⟨h.1, ih h.2⟩
theorem rising_map {α : Type} {t : Tab α} {g : Nat × α → α} (h : Tab.rising t = true) : Tab.rising (t.map fun e =>
    (e.1, g e)) = true :=
  rising_map_from h
theorem rising_fold {α β : Type} {f : Tab α → β → Tab α} {l : List β} {t : Tab α} (h : Tab.rising t = true)
    (hf : ∀ t x, Tab.rising t = true → Tab.rising (f t x) = true) : Tab.rising (l.foldl f t) = true := by
  induction l generalizing t with
  | nil => exact h
  | cons x r ih => exact ih (hf t x h)
theorem wf_copyInto {t u : List Host.Cell} {a b n : Nat} (h : Memory.wf u = true) : Memory.wf (Tab.copyInto 0 t u a
    b n) = true := Tab.copyInto_wf h
theorem wf_set {t : List Host.Cell} {k : Nat} {v : Byte} (h : Memory.wf t = true) : Memory.wf (Tab.set 0 t k v) =
    true := Tab.set_wf h
theorem wf_fold {bs : Bytes} {a : Nat} {t : List Host.Cell} (h : Memory.wf t = true) :
    Memory.wf (bs.foldl (fun (st : Nat × List Host.Cell) b => (st.1 + 1, Tab.set 0 st.2 st.1 b)) (a, t)).2 = true :=
      by
  induction bs generalizing a t with
  | nil => exact h
  | cons b r ih => exact ih (wf_set h)
theorem keeps_foldl_fst2 {α β γ : Type} {f : (State × β) × γ → α → (State × β) × γ} {l : List α} {s : (State × β) ×
    γ} (h : Canonical s.1.1)
    (hf : ∀ s x, Canonical s.1.1 → Canonical (f s x).1.1) : Canonical (l.foldl f s).1.1 := by
  induction l generalizing s with
  | nil => exact h
  | cons x r ih => exact ih (hf s x h)

end Sys2Proof.Machine
end

