-- ==== Sys2Proof/Laws/Keeps1.lean ====
section
/-! SUPPORT.  What keeps the canonical form, part 1: one lemma per shared operation, from
emit to stopOthers (of a pair: its state). -/
namespace Sys2Proof.Machine
open Sys2Proof

theorem keeps_emit {x0 : State} {x1 : Emit} (h0 : Canonical x0) : Canonical (State.emit x0 x1) := by
  unfold State.emit; try dsimp only
  repeat'
    with_reducible
      first
      | assumption | simp only [canonical_update] | apply keeps_elim | apply keeps_foldl | apply keeps_foldl_fst
          | apply keeps_foldl_fst2 | intro _ | apply keeps_ite | split | refine keeps_of_eq (by assumption) ?_

theorem keeps_eventTo {x0 : Event} {x1 : State} {x2 : Nat} (h1 : Canonical x1)
    : Canonical (State.eventTo x0 x1 x2) := by
  unfold State.eventTo; try dsimp only
  repeat'
    with_reducible
      first
      | assumption | apply keeps_emit | simp only [canonical_update] | apply keeps_elim | apply keeps_foldl
          | apply keeps_foldl_fst | apply keeps_foldl_fst2 | intro _ | apply keeps_ite | split
          | refine keeps_of_eq (by assumption) ?_

theorem keeps_event {x0 : State} {x1 : Nat} {x2 : Nat} {x3 : Nat} (h0 : Canonical x0)
    : Canonical (State.event x0 x1 x2 x3) := by
  unfold State.event; try dsimp only
  repeat'
    with_reducible
      first
      | assumption | apply keeps_eventTo | simp only [canonical_update] | apply keeps_elim | apply keeps_foldl
          | apply keeps_foldl_fst | apply keeps_foldl_fst2 | intro _ | apply keeps_ite | split
          | refine keeps_of_eq (by assumption) ?_

theorem keeps_put {x0 : State} {x1 : Nat} {x2 : Nat} {x3 : Nat} (h0 : Canonical x0)
    : Canonical (State.put x0 x1 x2 x3) := by
  unfold State.put; try dsimp only
  repeat'
    with_reducible
      first
      | assumption | simp only [canonical_update] | apply keeps_elim | apply keeps_foldl | apply keeps_foldl_fst
          | apply keeps_foldl_fst2 | intro _ | apply keeps_ite | split | refine keeps_of_eq (by assumption) ?_
          | (simp only [canonical_all]; refine ⟨?_, ?_, ?_, ?_, ?_, ?_, ?_, ?_, ?_, ?_, ?_, ?_, ?_, ?_, ?_, ?_, ?_, ?_, ?_, ?_, ?_, ?_, ?_, ?_, ?_, ?_, ?_⟩)
          | apply rising_map | apply wf_copyInto | apply wf_fold | apply Tab.copyInto_wf | apply rising_fold
          | exact rising_nil | exact wf_nil | exact mem_nil | apply wf_copyRange | apply Tab.copyRange_wf
          | apply wf_clearRange | apply Tab.set_rising | apply Tab.upd_rising | apply Tab.filter_rising
          | apply Tab.set_wf | apply Tab.clearRange_wf | apply Canonical.mem | apply Canonical.poison
          | apply Canonical.sync | apply Canonical.obj | apply Canonical.maq | apply Canonical.cores
          | apply Canonical.objLog | apply Canonical.refusalEvent | apply Canonical.streams | apply Canonical.jobs
          | apply Canonical.sessions | apply Canonical.leftOut | apply Canonical.survivors | apply Canonical.rowLog
          | apply Canonical.conns | apply Canonical.ports | apply Canonical.hubs | apply Canonical.hubResets
          | apply Canonical.txns | apply Canonical.links | apply Canonical.arrived | apply Canonical.channels
          | apply Canonical.tiles | apply Canonical.xcvrs | apply Canonical.monitors | apply Canonical.requests
          | apply Canonical.remoteOverruns

theorem keeps_change {x0 : State} {x1 : Nat} {x2 : Nat} {x3 : Nat} (h0 : Canonical x0)
    : Canonical (State.change x0 x1 x2 x3) := by
  unfold State.change; try dsimp only
  repeat'
    with_reducible
      first
      | assumption | apply keeps_put | apply keeps_event | apply keeps_elim | apply keeps_foldl
          | apply keeps_foldl_fst | apply keeps_foldl_fst2 | intro _ | apply keeps_ite | split
          | refine keeps_of_eq (by assumption) ?_

theorem keeps_count {x0 : State} {x1 : Nat} {x2 : Nat} {x3 : Nat} {x4 : Nat} (h0 : Canonical x0)
    : Canonical (State.count x0 x1 x2 x3 x4) := by
  unfold State.count; try dsimp only
  repeat'
    with_reducible
      first
      | assumption | apply keeps_put | apply keeps_elim | apply keeps_foldl | apply keeps_foldl_fst
          | apply keeps_foldl_fst2 | intro _ | apply keeps_ite | split | refine keeps_of_eq (by assumption) ?_

theorem keeps_updLink {x0 : State} {x1 : Nat} {x2 : Nat} {x3 : LinkSide → LinkSide} (h0 : Canonical x0)
    : Canonical (State.updLink x0 x1 x2 x3) := by
  unfold State.updLink; try dsimp only
  repeat'
    with_reducible
      first
      | assumption | simp only [canonical_update] | apply keeps_elim | apply keeps_foldl | apply keeps_foldl_fst
          | apply keeps_foldl_fst2 | intro _ | apply keeps_ite | split | refine keeps_of_eq (by assumption) ?_
          | (simp only [canonical_all]; refine ⟨?_, ?_, ?_, ?_, ?_, ?_, ?_, ?_, ?_, ?_, ?_, ?_, ?_, ?_, ?_, ?_, ?_, ?_, ?_, ?_, ?_, ?_, ?_, ?_, ?_, ?_, ?_⟩)
          | apply rising_map | apply wf_copyInto | apply wf_fold | apply Tab.copyInto_wf | apply rising_fold
          | exact rising_nil | exact wf_nil | exact mem_nil | apply wf_copyRange | apply Tab.copyRange_wf
          | apply wf_clearRange | apply Tab.set_rising | apply Tab.upd_rising | apply Tab.filter_rising
          | apply Tab.set_wf | apply Tab.clearRange_wf | apply Canonical.mem | apply Canonical.poison
          | apply Canonical.sync | apply Canonical.obj | apply Canonical.maq | apply Canonical.cores
          | apply Canonical.objLog | apply Canonical.refusalEvent | apply Canonical.streams | apply Canonical.jobs
          | apply Canonical.sessions | apply Canonical.leftOut | apply Canonical.survivors | apply Canonical.rowLog
          | apply Canonical.conns | apply Canonical.ports | apply Canonical.hubs | apply Canonical.hubResets
          | apply Canonical.txns | apply Canonical.links | apply Canonical.arrived | apply Canonical.channels
          | apply Canonical.tiles | apply Canonical.xcvrs | apply Canonical.monitors | apply Canonical.requests
          | apply Canonical.remoteOverruns

theorem keeps_freeEntry {x0 : State} {x1 : Nat} {x2 : Nat} {x3 : Sys2Proof.Flit} (h0 : Canonical x0)
    : Canonical (State.freeEntry x0 x1 x2 x3) := by
  unfold State.freeEntry; try dsimp only
  repeat'
    with_reducible
      first
      | assumption | apply keeps_updLink | apply keeps_elim | apply keeps_foldl | apply keeps_foldl_fst
          | apply keeps_foldl_fst2 | intro _ | apply keeps_ite | split | refine keeps_of_eq (by assumption) ?_

theorem keeps_sendFlit {x0 : State} {x1 : Nat} {x2 : Nat} {x3 : Nat} {x4 : Sys2Proof.Flit} (h0 : Canonical x0)
    : Canonical (State.sendFlit x0 x1 x2 x3 x4) := by
  unfold State.sendFlit; try dsimp only
  repeat'
    with_reducible
      first
      | assumption | apply keeps_updLink | apply keeps_elim | apply keeps_foldl | apply keeps_foldl_fst
          | apply keeps_foldl_fst2 | intro _ | apply keeps_ite | split | refine keeps_of_eq (by assumption) ?_

theorem keeps_drainSide {x0 : Nat} {x1 : Nat} {x2 : Nat} {x3 : State} (h3 : Canonical x3)
    : Canonical (State.drainSide x0 x1 x2 x3) := by
  induction x2 generalizing x3 with
  | zero => unfold State.drainSide; assumption
  | succ _ ih =>
    unfold State.drainSide; try dsimp only
    repeat'
      with_reducible
        first
        | assumption | apply ih | apply keeps_sendFlit | apply keeps_freeEntry | apply keeps_updLink
        | simp only [canonical_update] | apply keeps_foldl | apply keeps_foldl_fst | apply keeps_foldl_fst2 | intro _ | split | refine keeps_of_eq (by assumption) ?_

theorem keeps_drain {x0 : State} {x1 : Nat} {x2 : Nat} (h0 : Canonical x0) : Canonical (State.drain x0 x1 x2) := by
  unfold State.drain; try dsimp only
  repeat'
    with_reducible
      first
      | assumption | apply keeps_drainSide | apply keeps_elim | apply keeps_foldl | apply keeps_foldl_fst
          | apply keeps_foldl_fst2 | intro _ | apply keeps_ite | split | refine keeps_of_eq (by assumption) ?_

theorem keeps_fault {x0 : State} {x1 : FaultInfo} (h0 : Canonical x0) : Canonical (State.fault x0 x1) := by
  unfold State.fault; try dsimp only
  repeat'
    with_reducible
      first
      | assumption | apply keeps_event | simp only [canonical_update] | apply keeps_elim | apply keeps_foldl
          | apply keeps_foldl_fst | apply keeps_foldl_fst2 | intro _ | apply keeps_ite | split
          | refine keeps_of_eq (by assumption) ?_

theorem keeps_laneRetry {x0 : Nat} {x1 : Nat} {x2 : List Nat} {x3 : State} (h3 : Canonical x3)
    : Canonical (laneRetry x0 x1 x2 x3) := by
  unfold laneRetry; try dsimp only
  repeat'
    with_reducible
      first
      | assumption | apply keeps_updLink | apply keeps_count | apply keeps_fault | apply keeps_change
          | apply keeps_drain | apply keeps_elim | apply keeps_foldl | apply keeps_foldl_fst | apply keeps_foldl_fst2
          | intro _ | apply keeps_ite | split | refine keeps_of_eq (by assumption) ?_

theorem keeps_setTxn {x0 : State} {x1 : Nat} {x2 : Option Txn} (h0 : Canonical x0)
    : Canonical (State.setTxn x0 x1 x2) := by
  unfold State.setTxn; try dsimp only
  repeat'
    with_reducible
      first
      | assumption | simp only [canonical_update] | apply keeps_elim | apply keeps_foldl | apply keeps_foldl_fst
          | apply keeps_foldl_fst2 | intro _ | apply keeps_ite | split | refine keeps_of_eq (by assumption) ?_
          | (simp only [canonical_all]; refine ⟨?_, ?_, ?_, ?_, ?_, ?_, ?_, ?_, ?_, ?_, ?_, ?_, ?_, ?_, ?_, ?_, ?_, ?_, ?_, ?_, ?_, ?_, ?_, ?_, ?_, ?_, ?_⟩)
          | apply rising_map | apply wf_copyInto | apply wf_fold | apply Tab.copyInto_wf | apply rising_fold
          | exact rising_nil | exact wf_nil | exact mem_nil | apply wf_copyRange | apply Tab.copyRange_wf
          | apply wf_clearRange | apply Tab.set_rising | apply Tab.upd_rising | apply Tab.filter_rising
          | apply Tab.set_wf | apply Tab.clearRange_wf | apply Canonical.mem | apply Canonical.poison
          | apply Canonical.sync | apply Canonical.obj | apply Canonical.maq | apply Canonical.cores
          | apply Canonical.objLog | apply Canonical.refusalEvent | apply Canonical.streams | apply Canonical.jobs
          | apply Canonical.sessions | apply Canonical.leftOut | apply Canonical.survivors | apply Canonical.rowLog
          | apply Canonical.conns | apply Canonical.ports | apply Canonical.hubs | apply Canonical.hubResets
          | apply Canonical.txns | apply Canonical.links | apply Canonical.arrived | apply Canonical.channels
          | apply Canonical.tiles | apply Canonical.xcvrs | apply Canonical.monitors | apply Canonical.requests
          | apply Canonical.remoteOverruns

theorem keeps_dropOp {x0 : State} {x1 : GroupOp} (h0 : Canonical x0) : Canonical (State.dropOp x0 x1) := by
  unfold State.dropOp; try dsimp only
  repeat'
    with_reducible
      first
      | assumption | simp only [canonical_update] | apply keeps_elim | apply keeps_foldl | apply keeps_foldl_fst
          | apply keeps_foldl_fst2 | intro _ | apply keeps_ite | split | refine keeps_of_eq (by assumption) ?_

theorem keeps_setCore {x0 : State} {x1 : Nat} {x2 : Core} (h0 : Canonical x0)
    : Canonical (State.setCore x0 x1 x2) := by
  unfold State.setCore; try dsimp only
  repeat'
    with_reducible
      first
      | assumption | simp only [canonical_update] | apply keeps_elim | apply keeps_foldl | apply keeps_foldl_fst
          | apply keeps_foldl_fst2 | intro _ | apply keeps_ite | split | refine keeps_of_eq (by assumption) ?_
          | (simp only [canonical_all]; refine ⟨?_, ?_, ?_, ?_, ?_, ?_, ?_, ?_, ?_, ?_, ?_, ?_, ?_, ?_, ?_, ?_, ?_, ?_, ?_, ?_, ?_, ?_, ?_, ?_, ?_, ?_, ?_⟩)
          | apply rising_map | apply wf_copyInto | apply wf_fold | apply Tab.copyInto_wf | apply rising_fold
          | exact rising_nil | exact wf_nil | exact mem_nil | apply wf_copyRange | apply Tab.copyRange_wf
          | apply wf_clearRange | apply Tab.set_rising | apply Tab.upd_rising | apply Tab.filter_rising
          | apply Tab.set_wf | apply Tab.clearRange_wf | apply Canonical.mem | apply Canonical.poison
          | apply Canonical.sync | apply Canonical.obj | apply Canonical.maq | apply Canonical.cores
          | apply Canonical.objLog | apply Canonical.refusalEvent | apply Canonical.streams | apply Canonical.jobs
          | apply Canonical.sessions | apply Canonical.leftOut | apply Canonical.survivors | apply Canonical.rowLog
          | apply Canonical.conns | apply Canonical.ports | apply Canonical.hubs | apply Canonical.hubResets
          | apply Canonical.txns | apply Canonical.links | apply Canonical.arrived | apply Canonical.channels
          | apply Canonical.tiles | apply Canonical.xcvrs | apply Canonical.monitors | apply Canonical.requests
          | apply Canonical.remoteOverruns

theorem keeps_updCore {x0 : State} {x1 : Nat} {x2 : Core → Core} (h0 : Canonical x0)
    : Canonical (State.updCore x0 x1 x2) := by
  unfold State.updCore; try dsimp only
  repeat'
    with_reducible
      first
      | assumption | apply keeps_setCore | apply keeps_elim | apply keeps_foldl | apply keeps_foldl_fst
          | apply keeps_foldl_fst2 | intro _ | apply keeps_ite | split | refine keeps_of_eq (by assumption) ?_

theorem keeps_setStarted {x0 : State} {x1 : Nat} {x2 : Nat} {x3 : List Active} (h0 : Canonical x0)
    : Canonical (State.setStarted x0 x1 x2 x3) := by
  unfold State.setStarted; try dsimp only
  repeat'
    with_reducible
      first
      | assumption | apply keeps_updCore | apply keeps_elim | apply keeps_foldl | apply keeps_foldl_fst
          | apply keeps_foldl_fst2 | intro _ | apply keeps_ite | split | refine keeps_of_eq (by assumption) ?_

theorem keeps_putActive {x0 : State} {x1 : Nat} {x2 : Nat} {x3 : Nat} {x4 : Active} (h0 : Canonical x0)
    : Canonical (State.putActive x0 x1 x2 x3 x4) := by
  unfold State.putActive; try dsimp only
  repeat'
    with_reducible
      first
      | assumption | apply keeps_setStarted | apply keeps_elim | apply keeps_foldl | apply keeps_foldl_fst
          | apply keeps_foldl_fst2 | intro _ | apply keeps_ite | split | refine keeps_of_eq (by assumption) ?_

theorem keeps_endMcast {x0 : State} {x1 : GroupOp} (h0 : Canonical x0) : Canonical (State.endMcast x0 x1) := by
  unfold State.endMcast; try dsimp only
  repeat'
    with_reducible
      first
      | assumption | apply keeps_dropOp | apply keeps_putActive | apply keeps_elim | apply keeps_foldl
          | apply keeps_foldl_fst | apply keeps_foldl_fst2 | intro _ | apply keeps_ite | split
          | refine keeps_of_eq (by assumption) ?_

theorem keeps_escapeSent {x0 : State} {x1 : Nat} {x2 : Nat} (h0 : Canonical x0)
    : Canonical (State.escapeSent x0 x1 x2) := by
  unfold State.escapeSent; try dsimp only
  repeat'
    with_reducible
      first
      | assumption | apply keeps_count | simp only [canonical_update] | apply keeps_elim | apply keeps_foldl
          | apply keeps_foldl_fst | apply keeps_foldl_fst2 | intro _ | apply keeps_ite | split
          | refine keeps_of_eq (by assumption) ?_

theorem keeps_markForeign {x0 : State} {x1 : Nat} {x2 : Nat} (h0 : Canonical x0)
    : Canonical (State.markForeign x0 x1 x2) := by
  unfold State.markForeign; try dsimp only
  repeat'
    with_reducible
      first
      | assumption | apply keeps_updCore | apply keeps_elim | apply keeps_foldl | apply keeps_foldl_fst
          | apply keeps_foldl_fst2 | intro _ | apply keeps_ite | split | refine keeps_of_eq (by assumption) ?_

theorem keeps_putOp {x0 : State} {x1 : GroupOp} (h0 : Canonical x0) : Canonical (State.putOp x0 x1) := by
  unfold State.putOp; try dsimp only
  repeat'
    with_reducible
      first
      | assumption | simp only [canonical_update] | apply keeps_elim | apply keeps_foldl | apply keeps_foldl_fst
          | apply keeps_foldl_fst2 | intro _ | apply keeps_ite | split | refine keeps_of_eq (by assumption) ?_

theorem keeps_bump {x0 : State} {x1 : Nat} {x2 : Nat} (h0 : Canonical x0) : Canonical (State.bump x0 x1 x2) := by
  unfold State.bump; try dsimp only
  repeat'
    with_reducible
      first
      | assumption | apply keeps_count | apply keeps_elim | apply keeps_foldl | apply keeps_foldl_fst
          | apply keeps_foldl_fst2 | intro _ | apply keeps_ite | split | refine keeps_of_eq (by assumption) ?_

theorem keeps_countClosed {x0 : State} {x1 : Nat} {x2 : Status} (h0 : Canonical x0)
    : Canonical (State.countClosed x0 x1 x2) := by
  unfold State.countClosed; try dsimp only
  repeat'
    with_reducible
      first
      | assumption | apply keeps_bump | apply keeps_elim | apply keeps_foldl | apply keeps_foldl_fst
          | apply keeps_foldl_fst2 | intro _ | apply keeps_ite | split | refine keeps_of_eq (by assumption) ?_

theorem keeps_notePoison {x0 : State} {x1 : Nat} {x2 : Nat} {x3 : Nat} (h0 : Canonical x0)
    : Canonical (State.notePoison x0 x1 x2 x3) := by
  unfold State.notePoison; try dsimp only
  repeat'
    with_reducible
      first
      | assumption | apply keeps_updCore | apply keeps_elim | apply keeps_foldl | apply keeps_foldl_fst
          | apply keeps_foldl_fst2 | intro _ | apply keeps_ite | split | refine keeps_of_eq (by assumption) ?_

theorem keeps_countPoison {x0 : State} {x1 : Nat} {x2 : Nat} (h0 : Canonical x0)
    : Canonical (State.countPoison x0 x1 x2) := by
  unfold State.countPoison; try dsimp only
  repeat'
    with_reducible
      first
      | assumption | apply keeps_count | apply keeps_elim | apply keeps_foldl | apply keeps_foldl_fst
          | apply keeps_foldl_fst2 | intro _ | apply keeps_ite | split | refine keeps_of_eq (by assumption) ?_

theorem keeps_countNewPoison {x0 : State} {x1 : State} {x2 : Nat} {x3 : Nat} (h0 : Canonical x0) (h1 : Canonical x1)
    : Canonical (State.countNewPoison x0 x1 x2 x3) := by
  unfold State.countNewPoison; try dsimp only
  repeat'
    with_reducible
      first
      | assumption | apply keeps_countPoison | apply keeps_elim | apply keeps_foldl | apply keeps_foldl_fst
          | apply keeps_foldl_fst2 | intro _ | apply keeps_ite | split | refine keeps_of_eq (by assumption) ?_

theorem keeps_copyMem {x0 : State} {x1 : Nat} {x2 : Nat} {x3 : Nat} (h0 : Canonical x0)
    : Canonical (State.copyMem x0 x1 x2 x3) := by
  unfold State.copyMem; try dsimp only
  repeat'
    with_reducible
      first
      | assumption | apply keeps_countNewPoison | simp only [canonical_update] | apply keeps_elim | apply keeps_foldl
          | apply keeps_foldl_fst | apply keeps_foldl_fst2 | intro _ | apply keeps_ite | split
          | refine keeps_of_eq (by assumption) ?_
          | (simp only [canonical_all]; refine ⟨?_, ?_, ?_, ?_, ?_, ?_, ?_, ?_, ?_, ?_, ?_, ?_, ?_, ?_, ?_, ?_, ?_, ?_, ?_, ?_, ?_, ?_, ?_, ?_, ?_, ?_, ?_⟩)
          | apply rising_map | apply wf_copyInto | apply wf_fold | apply Tab.copyInto_wf | apply rising_fold
          | exact rising_nil | exact wf_nil | exact mem_nil | apply wf_copyRange | apply Tab.copyRange_wf
          | apply wf_clearRange | apply Tab.set_rising | apply Tab.upd_rising | apply Tab.filter_rising
          | apply Tab.set_wf | apply Tab.clearRange_wf | apply Canonical.mem | apply Canonical.poison
          | apply Canonical.sync | apply Canonical.obj | apply Canonical.maq | apply Canonical.cores
          | apply Canonical.objLog | apply Canonical.refusalEvent | apply Canonical.streams | apply Canonical.jobs
          | apply Canonical.sessions | apply Canonical.leftOut | apply Canonical.survivors | apply Canonical.rowLog
          | apply Canonical.conns | apply Canonical.ports | apply Canonical.hubs | apply Canonical.hubResets
          | apply Canonical.txns | apply Canonical.links | apply Canonical.arrived | apply Canonical.channels
          | apply Canonical.tiles | apply Canonical.xcvrs | apply Canonical.monitors | apply Canonical.requests
          | apply Canonical.remoteOverruns

theorem keeps_countWritten {x0 : State} {x1 : Nat} {x2 : Nat} (h0 : Canonical x0)
    : Canonical (State.countWritten x0 x1 x2) := by
  unfold State.countWritten; try dsimp only
  repeat'
    with_reducible
      first
      | assumption | apply keeps_count | apply keeps_elim | apply keeps_foldl | apply keeps_foldl_fst
          | apply keeps_foldl_fst2 | intro _ | apply keeps_ite | split | refine keeps_of_eq (by assumption) ?_

theorem keeps_setPoison {x0 : State} {x1 : Nat} {x2 : Bool} (h0 : Canonical x0)
    : Canonical (State.setPoison x0 x1 x2) := by
  unfold State.setPoison; try dsimp only
  repeat'
    with_reducible
      first
      | assumption | apply keeps_countPoison | simp only [canonical_update] | apply keeps_elim | apply keeps_foldl
          | apply keeps_foldl_fst | apply keeps_foldl_fst2 | intro _ | apply keeps_ite | split
          | refine keeps_of_eq (by assumption) ?_
          | (simp only [canonical_all]; refine ⟨?_, ?_, ?_, ?_, ?_, ?_, ?_, ?_, ?_, ?_, ?_, ?_, ?_, ?_, ?_, ?_, ?_, ?_, ?_, ?_, ?_, ?_, ?_, ?_, ?_, ?_, ?_⟩)
          | apply rising_map | apply wf_copyInto | apply wf_fold | apply Tab.copyInto_wf | apply rising_fold
          | exact rising_nil | exact wf_nil | exact mem_nil | apply wf_copyRange | apply Tab.copyRange_wf
          | apply wf_clearRange | apply Tab.set_rising | apply Tab.upd_rising | apply Tab.filter_rising
          | apply Tab.set_wf | apply Tab.clearRange_wf | apply Canonical.mem | apply Canonical.poison
          | apply Canonical.sync | apply Canonical.obj | apply Canonical.maq | apply Canonical.cores
          | apply Canonical.objLog | apply Canonical.refusalEvent | apply Canonical.streams | apply Canonical.jobs
          | apply Canonical.sessions | apply Canonical.leftOut | apply Canonical.survivors | apply Canonical.rowLog
          | apply Canonical.conns | apply Canonical.ports | apply Canonical.hubs | apply Canonical.hubResets
          | apply Canonical.txns | apply Canonical.links | apply Canonical.arrived | apply Canonical.channels
          | apply Canonical.tiles | apply Canonical.xcvrs | apply Canonical.monitors | apply Canonical.requests
          | apply Canonical.remoteOverruns

theorem keeps_mergePoison {x0 : State} {x1 : Nat} {x2 : Nat} {x3 : Bool} {x4 : Nat} (h0 : Canonical x0)
    : Canonical (State.mergePoison x0 x1 x2 x3 x4) := by
  unfold State.mergePoison; try dsimp only
  repeat'
    with_reducible
      first
      | assumption | apply keeps_setPoison | apply keeps_elim | apply keeps_foldl | apply keeps_foldl_fst
          | apply keeps_foldl_fst2 | intro _ | apply keeps_ite | split | refine keeps_of_eq (by assumption) ?_

theorem keeps_setBytes {x0 : State} {x1 : Nat} {x2 : Sys2Proof.Bytes} (h0 : Canonical x0)
    : Canonical (State.setBytes x0 x1 x2) := by
  unfold State.setBytes; try dsimp only
  repeat'
    with_reducible
      first
      | assumption | simp only [canonical_update] | apply keeps_elim | apply keeps_foldl | apply keeps_foldl_fst
          | apply keeps_foldl_fst2 | intro _ | apply keeps_ite | split | refine keeps_of_eq (by assumption) ?_
          | (simp only [canonical_all]; refine ⟨?_, ?_, ?_, ?_, ?_, ?_, ?_, ?_, ?_, ?_, ?_, ?_, ?_, ?_, ?_, ?_, ?_, ?_, ?_, ?_, ?_, ?_, ?_, ?_, ?_, ?_, ?_⟩)
          | apply rising_map | apply wf_copyInto | apply wf_fold | apply Tab.copyInto_wf | apply rising_fold
          | exact rising_nil | exact wf_nil | exact mem_nil | apply wf_copyRange | apply Tab.copyRange_wf
          | apply wf_clearRange | apply Tab.set_rising | apply Tab.upd_rising | apply Tab.filter_rising
          | apply Tab.set_wf | apply Tab.clearRange_wf | apply Canonical.mem | apply Canonical.poison
          | apply Canonical.sync | apply Canonical.obj | apply Canonical.maq | apply Canonical.cores
          | apply Canonical.objLog | apply Canonical.refusalEvent | apply Canonical.streams | apply Canonical.jobs
          | apply Canonical.sessions | apply Canonical.leftOut | apply Canonical.survivors | apply Canonical.rowLog
          | apply Canonical.conns | apply Canonical.ports | apply Canonical.hubs | apply Canonical.hubResets
          | apply Canonical.txns | apply Canonical.links | apply Canonical.arrived | apply Canonical.channels
          | apply Canonical.tiles | apply Canonical.xcvrs | apply Canonical.monitors | apply Canonical.requests
          | apply Canonical.remoteOverruns

theorem keeps_storeAt {x0 : State} {x1 : Nat} {x2 : Sys2Proof.Bytes} {x3 : Bool} (h0 : Canonical x0)
    : Canonical (State.storeAt x0 x1 x2 x3) := by
  unfold State.storeAt; try dsimp only
  repeat'
    with_reducible
      first
      | assumption | apply keeps_setBytes | apply keeps_mergePoison | apply keeps_elim | apply keeps_foldl
          | apply keeps_foldl_fst | apply keeps_foldl_fst2 | intro _ | apply keeps_ite | split
          | refine keeps_of_eq (by assumption) ?_

theorem keeps_storePlaces {x0 : State} {x1 : List Nat} {x2 : Sys2Proof.Bytes} {x3 : Bool} (h0 : Canonical x0)
    : Canonical (State.storePlaces x0 x1 x2 x3) := by
  unfold State.storePlaces; try dsimp only
  repeat'
    with_reducible
      first
      | assumption | apply keeps_countWritten | apply keeps_copyMem | apply keeps_storeAt | apply keeps_elim
          | apply keeps_foldl | apply keeps_foldl_fst | apply keeps_foldl_fst2 | intro _ | apply keeps_ite | split
          | refine keeps_of_eq (by assumption) ?_

theorem keeps_imagePage {s t : State} {c p : Nat} (h : s.imagePage c p = some t) (hs : Canonical s) : Canonical t := by
  unfold State.imagePage at h
  dsimp only at h
  repeat' split at h
  all_goals first
    | (injection h with h; subst h; with_reducible assumption)
    | (injection h with h; subst h; exact keeps_updCore hs)
    | contradiction

theorem keeps_putPiece {x0 : State} {x1 : Nat} {x2 : Nat} {x3 : Nat} {x4 : Sys2Proof.Bytes} {x5 : Bool}
    (h0 : Canonical x0) : Canonical (State.putPiece x0 x1 x2 x3 x4 x5).1 := by
  unfold State.putPiece; try dsimp only
  repeat'
    with_reducible
      first
      | assumption | refine keeps_imagePage (by assumption) ?_ | apply keeps_countClosed | apply keeps_bump
          | apply keeps_notePoison | apply keeps_storePlaces | apply keeps_elim | apply keeps_foldl
          | apply keeps_foldl_fst | apply keeps_foldl_fst2 | intro _ | apply keeps_ite | split
          | refine keeps_of_eq (by assumption) ?_

theorem keeps_putEach {c e : Nat} {g : Nat → Nat} {l : List (Nat × Bytes × Bool)} {s : State} (h : Canonical s) :
    Canonical (eachUntil (fun s (x : Nat × Bytes × Bool) => s.putPiece c e (g x.1) x.2.1 x.2.2) l s).1 :=
  keeps_eachUntil (fun _ _ h => keeps_putPiece h) h

theorem keeps_writeMember {x0 : State} {x1 : GroupOp} {x2 : Nat} (h0 : Canonical x0)
    : Canonical (State.writeMember x0 x1 x2) := by
  unfold State.writeMember
  exact keeps_putOp (keeps_putEach (g := fun a => setBits a 26 5 x2) (keeps_escapeSent (keeps_markForeign h0)))

theorem keeps_advanceMcast {x0 : State} {x1 : Nat} {x2 : Nat} (h0 : Canonical x0)
    : Canonical (State.advanceMcast x0 x1 x2) := by
  unfold State.advanceMcast; try dsimp only
  repeat'
    with_reducible
      first
      | assumption | apply keeps_writeMember | apply keeps_endMcast | apply keeps_elim | apply keeps_foldl
          | apply keeps_foldl_fst | apply keeps_foldl_fst2 | intro _ | apply keeps_ite | split
          | refine keeps_of_eq (by assumption) ?_

theorem keeps_endMismatch {x0 : State} {x1 : GroupOp} (h0 : Canonical x0) : Canonical (State.endMismatch x0 x1) := by
  unfold State.endMismatch; try dsimp only
  repeat'
    with_reducible
      first
      | assumption | apply keeps_putActive | apply keeps_dropOp | apply keeps_elim | apply keeps_foldl
          | apply keeps_foldl_fst | apply keeps_foldl_fst2 | intro _ | apply keeps_ite | split
          | refine keeps_of_eq (by assumption) ?_

theorem keeps_addTxn {x0 : State} {x1 : Txn} (h0 : Canonical x0) : Canonical (State.addTxn x0 x1) := by
  unfold State.addTxn; try dsimp only
  repeat'
    with_reducible
      first
      | assumption | simp only [canonical_update] | apply keeps_elim | apply keeps_foldl | apply keeps_foldl_fst
          | apply keeps_foldl_fst2 | intro _ | apply keeps_ite | split | refine keeps_of_eq (by assumption) ?_
          | (simp only [canonical_all]; refine ⟨?_, ?_, ?_, ?_, ?_, ?_, ?_, ?_, ?_, ?_, ?_, ?_, ?_, ?_, ?_, ?_, ?_, ?_, ?_, ?_, ?_, ?_, ?_, ?_, ?_, ?_, ?_⟩)
          | apply rising_map | apply wf_copyInto | apply wf_fold | apply Tab.copyInto_wf | apply rising_fold
          | exact rising_nil | exact wf_nil | exact mem_nil | apply wf_copyRange | apply Tab.copyRange_wf
          | apply wf_clearRange | apply Tab.set_rising | apply Tab.upd_rising | apply Tab.filter_rising
          | apply Tab.set_wf | apply Tab.clearRange_wf | apply Canonical.mem | apply Canonical.poison
          | apply Canonical.sync | apply Canonical.obj | apply Canonical.maq | apply Canonical.cores
          | apply Canonical.objLog | apply Canonical.refusalEvent | apply Canonical.streams | apply Canonical.jobs
          | apply Canonical.sessions | apply Canonical.leftOut | apply Canonical.survivors | apply Canonical.rowLog
          | apply Canonical.conns | apply Canonical.ports | apply Canonical.hubs | apply Canonical.hubResets
          | apply Canonical.txns | apply Canonical.links | apply Canonical.arrived | apply Canonical.channels
          | apply Canonical.tiles | apply Canonical.xcvrs | apply Canonical.monitors | apply Canonical.requests
          | apply Canonical.remoteOverruns

theorem keeps_awaitParent {x0 : State} {x1 : GroupOp} {x2 : Nat} (h0 : Canonical x0)
    : Canonical (State.awaitParent x0 x1 x2) := by
  unfold State.awaitParent; try dsimp only
  repeat'
    with_reducible
      first
      | assumption | apply keeps_addTxn | apply keeps_elim | apply keeps_foldl | apply keeps_foldl_fst
          | apply keeps_foldl_fst2 | intro _ | apply keeps_ite | split | refine keeps_of_eq (by assumption) ?_

theorem keeps_pruneTxns {x0 : State} {x1 : Nat} (h0 : Canonical x0) : Canonical (State.pruneTxns x0 x1) := by
  unfold State.pruneTxns; try dsimp only
  repeat'
    with_reducible
      first
      | assumption | simp only [canonical_update] | apply keeps_elim | apply keeps_foldl | apply keeps_foldl_fst
          | apply keeps_foldl_fst2 | intro _ | apply keeps_ite | split | refine keeps_of_eq (by assumption) ?_
          | (simp only [canonical_all]; refine ⟨?_, ?_, ?_, ?_, ?_, ?_, ?_, ?_, ?_, ?_, ?_, ?_, ?_, ?_, ?_, ?_, ?_, ?_, ?_, ?_, ?_, ?_, ?_, ?_, ?_, ?_, ?_⟩)
          | apply rising_map | apply wf_copyInto | apply wf_fold | apply Tab.copyInto_wf | apply rising_fold
          | exact rising_nil | exact wf_nil | exact mem_nil | apply wf_copyRange | apply Tab.copyRange_wf
          | apply wf_clearRange | apply Tab.set_rising | apply Tab.upd_rising | apply Tab.filter_rising
          | apply Tab.set_wf | apply Tab.clearRange_wf | apply Canonical.mem | apply Canonical.poison
          | apply Canonical.sync | apply Canonical.obj | apply Canonical.maq | apply Canonical.cores
          | apply Canonical.objLog | apply Canonical.refusalEvent | apply Canonical.streams | apply Canonical.jobs
          | apply Canonical.sessions | apply Canonical.leftOut | apply Canonical.survivors | apply Canonical.rowLog
          | apply Canonical.conns | apply Canonical.ports | apply Canonical.hubs | apply Canonical.hubResets
          | apply Canonical.txns | apply Canonical.links | apply Canonical.arrived | apply Canonical.channels
          | apply Canonical.tiles | apply Canonical.xcvrs | apply Canonical.monitors | apply Canonical.requests
          | apply Canonical.remoteOverruns

theorem keeps_closeTxn {x0 : State} {x1 : Nat} {x2 : Nat} (h0 : Canonical x0)
    : Canonical (State.closeTxn x0 x1 x2) := by
  unfold State.closeTxn; try dsimp only
  repeat'
    with_reducible
      first
      | assumption | apply keeps_pruneTxns | simp only [canonical_update] | apply keeps_elim | apply keeps_foldl
          | apply keeps_foldl_fst | apply keeps_foldl_fst2 | intro _ | apply keeps_ite | split
          | refine keeps_of_eq (by assumption) ?_
          | (simp only [canonical_all]; refine ⟨?_, ?_, ?_, ?_, ?_, ?_, ?_, ?_, ?_, ?_, ?_, ?_, ?_, ?_, ?_, ?_, ?_, ?_, ?_, ?_, ?_, ?_, ?_, ?_, ?_, ?_, ?_⟩)
          | apply rising_map | apply wf_copyInto | apply wf_fold | apply Tab.copyInto_wf | apply rising_fold
          | exact rising_nil | exact wf_nil | exact mem_nil | apply wf_copyRange | apply Tab.copyRange_wf
          | apply wf_clearRange | apply Tab.set_rising | apply Tab.upd_rising | apply Tab.filter_rising
          | apply Tab.set_wf | apply Tab.clearRange_wf | apply Canonical.mem | apply Canonical.poison
          | apply Canonical.sync | apply Canonical.obj | apply Canonical.maq | apply Canonical.cores
          | apply Canonical.objLog | apply Canonical.refusalEvent | apply Canonical.streams | apply Canonical.jobs
          | apply Canonical.sessions | apply Canonical.leftOut | apply Canonical.survivors | apply Canonical.rowLog
          | apply Canonical.conns | apply Canonical.ports | apply Canonical.hubs | apply Canonical.hubResets
          | apply Canonical.txns | apply Canonical.links | apply Canonical.arrived | apply Canonical.channels
          | apply Canonical.tiles | apply Canonical.xcvrs | apply Canonical.monitors | apply Canonical.requests
          | apply Canonical.remoteOverruns

theorem keeps_takePartial {x0 : State} {x1 : Nat} {x2 : Nat} {x3 : Nat} (h0 : Canonical x0)
    : Canonical (State.takePartial x0 x1 x2 x3) := by
  unfold State.takePartial; try dsimp only
  repeat'
    with_reducible
      first
      | assumption | apply keeps_awaitParent | apply keeps_putOp | apply keeps_escapeSent | apply keeps_closeTxn
          | apply keeps_putActive | apply keeps_elim | apply keeps_foldl | apply keeps_foldl_fst
          | apply keeps_foldl_fst2 | intro _ | apply keeps_ite | split | refine keeps_of_eq (by assumption) ?_

theorem keeps_countRetry {x0 : State} {x1 : Nat} (h0 : Canonical x0) : Canonical (State.countRetry x0 x1) := by
  unfold State.countRetry; try dsimp only
  repeat'
    with_reducible
      first
      | assumption | apply keeps_count | apply keeps_elim | apply keeps_foldl | apply keeps_foldl_fst
          | apply keeps_foldl_fst2 | intro _ | apply keeps_ite | split | refine keeps_of_eq (by assumption) ?_

theorem keeps_setJobState {x0 : State} {x1 : Nat} {x2 : Nat} (h0 : Canonical x0)
    : Canonical (State.setJobState x0 x1 x2) := by
  unfold State.setJobState; try dsimp only
  repeat'
    with_reducible
      first
      | assumption | apply keeps_change | apply keeps_elim | apply keeps_foldl | apply keeps_foldl_fst
          | apply keeps_foldl_fst2 | intro _ | apply keeps_ite | split | refine keeps_of_eq (by assumption) ?_

theorem keeps_zeroMem {x0 : State} {x1 : Nat} {x2 : Nat} (h0 : Canonical x0)
    : Canonical (State.zeroMem x0 x1 x2) := by
  unfold State.zeroMem; try dsimp only
  repeat'
    with_reducible
      first
      | assumption | simp only [canonical_update] | apply keeps_elim | apply keeps_foldl | apply keeps_foldl_fst
          | apply keeps_foldl_fst2 | intro _ | apply keeps_ite | split | refine keeps_of_eq (by assumption) ?_
          | (simp only [canonical_all]; refine ⟨?_, ?_, ?_, ?_, ?_, ?_, ?_, ?_, ?_, ?_, ?_, ?_, ?_, ?_, ?_, ?_, ?_, ?_, ?_, ?_, ?_, ?_, ?_, ?_, ?_, ?_, ?_⟩)
          | apply rising_map | apply wf_copyInto | apply wf_fold | apply Tab.copyInto_wf | apply rising_fold
          | exact rising_nil | exact wf_nil | exact mem_nil | apply wf_copyRange | apply Tab.copyRange_wf
          | apply wf_clearRange | apply Tab.set_rising | apply Tab.upd_rising | apply Tab.filter_rising
          | apply Tab.set_wf | apply Tab.clearRange_wf | apply Canonical.mem | apply Canonical.poison
          | apply Canonical.sync | apply Canonical.obj | apply Canonical.maq | apply Canonical.cores
          | apply Canonical.objLog | apply Canonical.refusalEvent | apply Canonical.streams | apply Canonical.jobs
          | apply Canonical.sessions | apply Canonical.leftOut | apply Canonical.survivors | apply Canonical.rowLog
          | apply Canonical.conns | apply Canonical.ports | apply Canonical.hubs | apply Canonical.hubResets
          | apply Canonical.txns | apply Canonical.links | apply Canonical.arrived | apply Canonical.channels
          | apply Canonical.tiles | apply Canonical.xcvrs | apply Canonical.monitors | apply Canonical.requests
          | apply Canonical.remoteOverruns

theorem keeps_zeroGroup {x0 : State} {x1 : Nat} {x2 : Nat} (h0 : Canonical x0)
    : Canonical (State.zeroGroup x0 x1 x2) := by
  unfold State.zeroGroup; try dsimp only
  repeat'
    with_reducible
      first
      | assumption | apply keeps_zeroMem | apply keeps_elim | apply keeps_foldl | apply keeps_foldl_fst
          | apply keeps_foldl_fst2 | intro _ | apply keeps_ite | split | refine keeps_of_eq (by assumption) ?_

theorem keeps_applyLayout {x0 : State} {x1 : Nat} (h0 : Canonical x0) : Canonical (State.applyLayout x0 x1) := by
  unfold State.applyLayout; try dsimp only
  repeat'
    with_reducible
      first
      | assumption | apply keeps_zeroGroup | apply keeps_put | apply keeps_elim | apply keeps_foldl
          | apply keeps_foldl_fst | apply keeps_foldl_fst2 | intro _ | apply keeps_ite | split
          | refine keeps_of_eq (by assumption) ?_

theorem keeps_applyHeld {x0 : State} {x1 : Nat} (h0 : Canonical x0) : Canonical (State.applyHeld x0 x1) := by
  unfold State.applyHeld; try dsimp only
  repeat'
    with_reducible
      first
      | assumption | apply keeps_applyLayout | apply keeps_elim | apply keeps_foldl | apply keeps_foldl_fst
          | apply keeps_foldl_fst2 | intro _ | apply keeps_ite | split | refine keeps_of_eq (by assumption) ?_

theorem keeps_clearObjects {x0 : State} {x1 : Nat} (h0 : Canonical x0) : Canonical (State.clearObjects x0 x1) := by
  unfold State.clearObjects; try dsimp only
  repeat'
    with_reducible
      first
      | assumption | simp only [canonical_update] | apply keeps_elim | apply keeps_foldl | apply keeps_foldl_fst
          | apply keeps_foldl_fst2 | intro _ | apply keeps_ite | split | refine keeps_of_eq (by assumption) ?_
          | (simp only [canonical_all]; refine ⟨?_, ?_, ?_, ?_, ?_, ?_, ?_, ?_, ?_, ?_, ?_, ?_, ?_, ?_, ?_, ?_, ?_, ?_, ?_, ?_, ?_, ?_, ?_, ?_, ?_, ?_, ?_⟩)
          | apply rising_map | apply wf_copyInto | apply wf_fold | apply Tab.copyInto_wf | apply rising_fold
          | exact rising_nil | exact wf_nil | exact mem_nil | apply wf_copyRange | apply Tab.copyRange_wf
          | apply wf_clearRange | apply Tab.set_rising | apply Tab.upd_rising | apply Tab.filter_rising
          | apply Tab.set_wf | apply Tab.clearRange_wf | apply Canonical.mem | apply Canonical.poison
          | apply Canonical.sync | apply Canonical.obj | apply Canonical.maq | apply Canonical.cores
          | apply Canonical.objLog | apply Canonical.refusalEvent | apply Canonical.streams | apply Canonical.jobs
          | apply Canonical.sessions | apply Canonical.leftOut | apply Canonical.survivors | apply Canonical.rowLog
          | apply Canonical.conns | apply Canonical.ports | apply Canonical.hubs | apply Canonical.hubResets
          | apply Canonical.txns | apply Canonical.links | apply Canonical.arrived | apply Canonical.channels
          | apply Canonical.tiles | apply Canonical.xcvrs | apply Canonical.monitors | apply Canonical.requests
          | apply Canonical.remoteOverruns

theorem keeps_syncSet {x0 : State} {x1 : Nat} {x2 : Nat} {x3 : Nat} (h0 : Canonical x0)
    : Canonical (State.syncSet x0 x1 x2 x3) := by
  unfold State.syncSet; try dsimp only
  repeat'
    with_reducible
      first
      | assumption | simp only [canonical_update] | apply keeps_elim | apply keeps_foldl | apply keeps_foldl_fst
          | apply keeps_foldl_fst2 | intro _ | apply keeps_ite | split | refine keeps_of_eq (by assumption) ?_
          | (simp only [canonical_all]; refine ⟨?_, ?_, ?_, ?_, ?_, ?_, ?_, ?_, ?_, ?_, ?_, ?_, ?_, ?_, ?_, ?_, ?_, ?_, ?_, ?_, ?_, ?_, ?_, ?_, ?_, ?_, ?_⟩)
          | apply rising_map | apply wf_copyInto | apply wf_fold | apply Tab.copyInto_wf | apply rising_fold
          | exact rising_nil | exact wf_nil | exact mem_nil | apply wf_copyRange | apply Tab.copyRange_wf
          | apply wf_clearRange | apply Tab.set_rising | apply Tab.upd_rising | apply Tab.filter_rising
          | apply Tab.set_wf | apply Tab.clearRange_wf | apply Canonical.mem | apply Canonical.poison
          | apply Canonical.sync | apply Canonical.obj | apply Canonical.maq | apply Canonical.cores
          | apply Canonical.objLog | apply Canonical.refusalEvent | apply Canonical.streams | apply Canonical.jobs
          | apply Canonical.sessions | apply Canonical.leftOut | apply Canonical.survivors | apply Canonical.rowLog
          | apply Canonical.conns | apply Canonical.ports | apply Canonical.hubs | apply Canonical.hubResets
          | apply Canonical.txns | apply Canonical.links | apply Canonical.arrived | apply Canonical.channels
          | apply Canonical.tiles | apply Canonical.xcvrs | apply Canonical.monitors | apply Canonical.requests
          | apply Canonical.remoteOverruns

theorem keeps_initObjects {x0 : State} {x1 : Nat} (h0 : Canonical x0) : Canonical (State.initObjects x0 x1).1 := by
  unfold State.initObjects; try dsimp only
  repeat'
    with_reducible
      first
      | assumption | apply keeps_clearObjects | apply keeps_syncSet | apply keeps_elim | apply keeps_foldl
          | apply keeps_foldl_fst | apply keeps_foldl_fst2 | intro _ | apply keeps_ite | split
          | refine keeps_of_eq (by assumption) ?_

theorem keeps_setCoreState {x0 : State} {x1 : Nat} {x2 : Nat} (h0 : Canonical x0)
    : Canonical (State.setCoreState x0 x1 x2) := by
  unfold State.setCoreState; try dsimp only
  repeat'
    with_reducible
      first
      | assumption | apply keeps_event | apply keeps_updCore | apply keeps_elim | apply keeps_foldl
          | apply keeps_foldl_fst | apply keeps_foldl_fst2 | intro _ | apply keeps_ite | split
          | refine keeps_of_eq (by assumption) ?_

theorem keeps_runFrom {x0 : State} {x1 : Nat} {x2 : Nat} (h0 : Canonical x0)
    : Canonical (State.runFrom x0 x1 x2) := by
  unfold State.runFrom; try dsimp only
  repeat'
    with_reducible
      first
      | assumption | apply keeps_setCoreState | apply keeps_updCore | apply keeps_elim | apply keeps_foldl
          | apply keeps_foldl_fst | apply keeps_foldl_fst2 | intro _ | apply keeps_ite | split
          | refine keeps_of_eq (by assumption) ?_

theorem keeps_countRead {x0 : State} {x1 : Nat} {x2 : Nat} (h0 : Canonical x0)
    : Canonical (State.countRead x0 x1 x2) := by
  unfold State.countRead; try dsimp only
  repeat'
    with_reducible
      first
      | assumption | apply keeps_count | apply keeps_elim | apply keeps_foldl | apply keeps_foldl_fst
          | apply keeps_foldl_fst2 | intro _ | apply keeps_ite | split | refine keeps_of_eq (by assumption) ?_

theorem keeps_copyPages {x0 : State} {x1 : Nat} {x2 : Nat} {x3 : Nat} (h0 : Canonical x0)
    : Canonical (State.copyPages x0 x1 x2 x3) := by
  unfold State.copyPages; try dsimp only
  repeat'
    with_reducible
      first
      | assumption | apply keeps_countWritten | apply keeps_copyMem | apply keeps_countRead | apply keeps_elim
          | apply keeps_foldl | apply keeps_foldl_fst | apply keeps_foldl_fst2 | intro _ | apply keeps_ite | split
          | refine keeps_of_eq (by assumption) ?_

theorem keeps_writePiece {x0 : State} {x1 : Nat} {x2 : Sys2Proof.Bytes} {x3 : Bool} (h0 : Canonical x0)
    : Canonical (State.writePiece x0 x1 x2 x3).1 := by
  unfold State.writePiece; try dsimp only
  repeat'
    with_reducible
      first
      | assumption | apply keeps_storePlaces | apply keeps_elim | apply keeps_foldl | apply keeps_foldl_fst
          | apply keeps_foldl_fst2 | intro _ | apply keeps_ite | split | refine keeps_of_eq (by assumption) ?_

theorem keeps_writeBytes {x0 : State} {x1 : Nat} {x2 : Sys2Proof.Bytes} {x3 : Bool} (h0 : Canonical x0)
    : Canonical (State.writeBytes x0 x1 x2 x3).1 := by
  unfold State.writeBytes; try dsimp only
  repeat'
    with_reducible
      first
      | assumption | apply keeps_writePiece | apply keeps_elim | apply keeps_foldl | apply keeps_foldl_fst
          | apply keeps_foldl_fst2 | intro _ | apply keeps_ite | split | refine keeps_of_eq (by assumption) ?_

theorem keeps_putPlain {x0 : State} {x1 : Nat} {x2 : Sys2Proof.Bytes} (h0 : Canonical x0)
    : Canonical (State.putPlain x0 x1 x2) := by
  unfold State.putPlain; try dsimp only
  repeat'
    with_reducible
      first
      | assumption | apply keeps_writeBytes | apply keeps_elim | apply keeps_foldl | apply keeps_foldl_fst
          | apply keeps_foldl_fst2 | intro _ | apply keeps_ite | split | refine keeps_of_eq (by assumption) ?_

theorem keeps_saveObjects {x0 : State} {x1 : Nat} {x2 : Nat} (h0 : Canonical x0)
    : Canonical (State.saveObjects x0 x1 x2) := by
  unfold State.saveObjects; try dsimp only
  repeat'
    with_reducible
      first
      | assumption | apply keeps_putPlain | apply keeps_elim | apply keeps_foldl | apply keeps_foldl_fst
          | apply keeps_foldl_fst2 | intro _ | apply keeps_ite | split | refine keeps_of_eq (by assumption) ?_

theorem keeps_writeImage {x0 : State} {x1 : Nat} {x2 : Nat} {x3 : Nat} {x4 : Nat} {x5 : Nat} {x6 : ResumePoint}
    (h0 : Canonical x0) : Canonical (State.writeImage x0 x1 x2 x3 x4 x5 x6) := by
  unfold State.writeImage; try dsimp only
  repeat'
    with_reducible
      first
      | assumption | apply keeps_saveObjects | apply keeps_copyPages | apply keeps_putPlain | apply keeps_elim
          | apply keeps_foldl | apply keeps_foldl_fst | apply keeps_foldl_fst2 | intro _ | apply keeps_ite | split
          | refine keeps_of_eq (by assumption) ?_

theorem keeps_startMirror {x0 : State} {x1 : Nat} {x2 : Nat} (h0 : Canonical x0)
    : Canonical (State.startMirror x0 x1 x2) := by
  unfold State.startMirror; try dsimp only
  repeat'
    with_reducible
      first
      | assumption | apply keeps_change | apply keeps_writeImage | apply keeps_elim | apply keeps_foldl
          | apply keeps_foldl_fst | apply keeps_foldl_fst2 | intro _ | apply keeps_ite | split
          | refine keeps_of_eq (by assumption) ?_

theorem keeps_startCore {x0 : State} {x1 : Nat} {x2 : Nat} (h0 : Canonical x0)
    : Canonical (State.startCore x0 x1 x2) := by
  unfold State.startCore; try dsimp only
  repeat'
    with_reducible
      first
      | assumption | apply keeps_setCore | apply keeps_setCoreState | apply keeps_runFrom | apply keeps_startMirror
          | apply keeps_elim | apply keeps_foldl | apply keeps_foldl_fst | apply keeps_foldl_fst2 | intro _
          | apply keeps_ite | split | refine keeps_of_eq (by assumption) ?_

theorem keeps_startFresh {x0 : State} {x1 : Nat} (h0 : Canonical x0) : Canonical (State.startFresh x0 x1).1 := by
  unfold State.startFresh; try dsimp only
  repeat'
    with_reducible
      first
      | assumption | apply keeps_initObjects | apply keeps_applyHeld | apply keeps_startCore
          | simp only [canonical_update] | apply keeps_elim | apply keeps_foldl | apply keeps_foldl_fst
          | apply keeps_foldl_fst2 | intro _ | apply keeps_ite | split | refine keeps_of_eq (by assumption) ?_

theorem keeps_updJob {x0 : State} {x1 : Nat} {x2 : Job → Job} (h0 : Canonical x0)
    : Canonical (State.updJob x0 x1 x2) := by
  unfold State.updJob; try dsimp only
  repeat'
    with_reducible
      first
      | assumption | simp only [canonical_update] | apply keeps_elim | apply keeps_foldl | apply keeps_foldl_fst
          | apply keeps_foldl_fst2 | intro _ | apply keeps_ite | split | refine keeps_of_eq (by assumption) ?_
          | (simp only [canonical_all]; refine ⟨?_, ?_, ?_, ?_, ?_, ?_, ?_, ?_, ?_, ?_, ?_, ?_, ?_, ?_, ?_, ?_, ?_, ?_, ?_, ?_, ?_, ?_, ?_, ?_, ?_, ?_, ?_⟩)
          | apply rising_map | apply wf_copyInto | apply wf_fold | apply Tab.copyInto_wf | apply rising_fold
          | exact rising_nil | exact wf_nil | exact mem_nil | apply wf_copyRange | apply Tab.copyRange_wf
          | apply wf_clearRange | apply Tab.set_rising | apply Tab.upd_rising | apply Tab.filter_rising
          | apply Tab.set_wf | apply Tab.clearRange_wf | apply Canonical.mem | apply Canonical.poison
          | apply Canonical.sync | apply Canonical.obj | apply Canonical.maq | apply Canonical.cores
          | apply Canonical.objLog | apply Canonical.refusalEvent | apply Canonical.streams | apply Canonical.jobs
          | apply Canonical.sessions | apply Canonical.leftOut | apply Canonical.survivors | apply Canonical.rowLog
          | apply Canonical.conns | apply Canonical.ports | apply Canonical.hubs | apply Canonical.hubResets
          | apply Canonical.txns | apply Canonical.links | apply Canonical.arrived | apply Canonical.channels
          | apply Canonical.tiles | apply Canonical.xcvrs | apply Canonical.monitors | apply Canonical.requests
          | apply Canonical.remoteOverruns

theorem keeps_startOver {x0 : State} {x1 : Nat} (h0 : Canonical x0) : Canonical (State.startOver x0 x1) := by
  unfold State.startOver; try dsimp only
  repeat'
    with_reducible
      first
      | assumption | apply keeps_startFresh | apply keeps_updJob | apply keeps_setJobState | apply keeps_elim
          | apply keeps_foldl | apply keeps_foldl_fst | apply keeps_foldl_fst2 | intro _ | apply keeps_ite | split
          | refine keeps_of_eq (by assumption) ?_

theorem keeps_settleStop {x0 : State} {x1 : Nat} (h0 : Canonical x0) : Canonical (State.settleStop x0 x1) := by
  unfold State.settleStop; try dsimp only
  repeat'
    with_reducible
      first
      | assumption | apply keeps_startOver | apply keeps_elim | apply keeps_foldl | apply keeps_foldl_fst
          | apply keeps_foldl_fst2 | intro _ | apply keeps_ite | split | refine keeps_of_eq (by assumption) ?_

theorem keeps_afterError {x0 : State} {x1 : Nat} {x2 : Bool} (h0 : Canonical x0)
    : Canonical (State.afterError x0 x1 x2) := by
  unfold State.afterError; try dsimp only
  repeat'
    with_reducible
      first
      | assumption | apply keeps_setJobState | apply keeps_settleStop | apply keeps_updJob | apply keeps_elim
          | apply keeps_foldl | apply keeps_foldl_fst | apply keeps_foldl_fst2 | intro _ | apply keeps_ite | split
          | refine keeps_of_eq (by assumption) ?_

theorem keeps_journal {x0 : State} {x1 : Nat} {x2 : Nat} {x3 : Nat} (h0 : Canonical x0)
    : Canonical (State.journal x0 x1 x2 x3) := by
  unfold State.journal; try dsimp only
  repeat'
    with_reducible
      first
      | assumption | apply keeps_countWritten | apply keeps_elim | apply keeps_foldl | apply keeps_foldl_fst
          | apply keeps_foldl_fst2 | intro _ | apply keeps_ite | split | refine keeps_of_eq (by assumption) ?_

theorem keeps_updItem {x0 : State} {x1 : Nat} {x2 : Nat} {x3 : Item → Item} (h0 : Canonical x0)
    : Canonical (State.updItem x0 x1 x2 x3) := by
  unfold State.updItem; try dsimp only
  repeat'
    with_reducible
      first
      | assumption | simp only [canonical_update] | apply keeps_elim | apply keeps_foldl | apply keeps_foldl_fst
          | apply keeps_foldl_fst2 | intro _ | apply keeps_ite | split | refine keeps_of_eq (by assumption) ?_

theorem keeps_itemDone {x0 : State} {x1 : Nat} {x2 : Nat} {x3 : Sys2Proof.Bytes} (h0 : Canonical x0)
    : Canonical (State.itemDone x0 x1 x2 x3) := by
  unfold State.itemDone; try dsimp only
  repeat'
    with_reducible
      first
      | assumption | apply keeps_updItem | apply keeps_journal | apply keeps_elim | apply keeps_foldl
          | apply keeps_foldl_fst | apply keeps_foldl_fst2 | intro _ | apply keeps_ite | split
          | refine keeps_of_eq (by assumption) ?_

theorem keeps_finishItem {x0 : State} {x1 : Nat} {x2 : Nat} {x3 : Nat} {x4 : Nat} {x5 : Nat} (h0 : Canonical x0)
    : Canonical (State.finishItem x0 x1 x2 x3 x4 x5) := by
  unfold State.finishItem; try dsimp only
  repeat'
    with_reducible
      first
      | assumption | apply keeps_itemDone | simp only [canonical_update] | apply keeps_elim | apply keeps_foldl
          | apply keeps_foldl_fst | apply keeps_foldl_fst2 | intro _ | apply keeps_ite | split
          | refine keeps_of_eq (by assumption) ?_

theorem keeps_endStarted {x0 : State} {x1 : Nat} {x2 : Nat} {x3 : Nat} (h0 : Canonical x0)
    : Canonical (State.endStarted x0 x1 x2 x3) := by
  unfold State.endStarted; try dsimp only
  repeat'
    with_reducible
      first
      | assumption | apply keeps_finishItem | apply keeps_elim | apply keeps_foldl | apply keeps_foldl_fst
          | apply keeps_foldl_fst2 | intro _ | apply keeps_ite | split | refine keeps_of_eq (by assumption) ?_

theorem keeps_haltCore {x0 : State} {x1 : Nat} {x2 : Nat} (h0 : Canonical x0)
    : Canonical (State.haltCore x0 x1 x2) := by
  unfold State.haltCore; try dsimp only
  repeat'
    with_reducible
      first
      | assumption | apply keeps_setCoreState | apply keeps_updCore | simp only [canonical_update] | apply keeps_elim
          | apply keeps_foldl | apply keeps_foldl_fst | apply keeps_foldl_fst2 | intro _ | apply keeps_ite | split
          | refine keeps_of_eq (by assumption) ?_

theorem keeps_writeError {x0 : State} {x1 : Nat} {x2 : ErrInfo} (h0 : Canonical x0)
    : Canonical (State.writeError x0 x1 x2) := by
  unfold State.writeError; try dsimp only
  repeat'
    with_reducible
      first
      | assumption | apply keeps_put | apply keeps_elim | apply keeps_foldl | apply keeps_foldl_fst
          | apply keeps_foldl_fst2 | intro _ | apply keeps_ite | split | refine keeps_of_eq (by assumption) ?_

theorem keeps_stopCore {x0 : State} {x1 : Nat} {x2 : ErrInfo} (h0 : Canonical x0)
    : Canonical (State.stopCore x0 x1 x2) := by
  unfold State.stopCore; try dsimp only
  repeat'
    with_reducible
      first
      | assumption | apply keeps_haltCore | apply keeps_writeError | apply keeps_elim | apply keeps_foldl
          | apply keeps_foldl_fst | apply keeps_foldl_fst2 | intro _ | apply keeps_ite | split
          | refine keeps_of_eq (by assumption) ?_

theorem keeps_stopOthers {x0 : State} {x1 : Nat} {x2 : Nat} (h0 : Canonical x0)
    : Canonical (State.stopOthers x0 x1 x2) := by
  unfold State.stopOthers; try dsimp only
  repeat'
    with_reducible
      first
      | assumption | apply keeps_stopCore | apply keeps_elim | apply keeps_foldl | apply keeps_foldl_fst
          | apply keeps_foldl_fst2 | intro _ | apply keeps_ite | split | refine keeps_of_eq (by assumption) ?_

end Sys2Proof.Machine
end

