-- ==== Sys2Proof/Laws/Keeps2.lean ====
section
/-! SUPPORT.  What keeps the canonical form, part 2: one lemma per shared operation, from
coreError to logRefusal (of a pair: its state). -/
namespace Sys2Proof.Machine
open Sys2Proof

theorem keeps_coreError {x0 : State} {x1 : Nat} {x2 : ErrInfo} {x3 : Bool} (h0 : Canonical x0)
    : Canonical (State.coreError x0 x1 x2 x3) := by
  unfold State.coreError; try dsimp only
  repeat'
    with_reducible
      first
      | assumption | apply keeps_stopCore | apply keeps_afterError | apply keeps_endStarted | apply keeps_stopOthers
          | simp only [canonical_update] | apply keeps_elim | apply keeps_foldl | apply keeps_foldl_fst
          | apply keeps_foldl_fst2 | intro _ | apply keeps_ite | split | refine keeps_of_eq (by assumption) ?_

theorem keeps_stopAtHeader {x0 : State} {x1 : Nat} {x2 : Cmd} {x3 : Nat} {x4 : Nat} (h0 : Canonical x0)
    : Canonical (State.stopAtHeader x0 x1 x2 x3 x4) := by
  unfold State.stopAtHeader; try dsimp only
  repeat'
    with_reducible
      first
      | assumption | apply keeps_coreError | apply keeps_elim | apply keeps_foldl | apply keeps_foldl_fst
          | apply keeps_foldl_fst2 | intro _ | apply keeps_ite | split | refine keeps_of_eq (by assumption) ?_

theorem keeps_prefetched {x0 : State} {x1 : Nat} {x2 : Cmd} (h0 : Canonical x0)
    : Canonical (State.prefetched x0 x1 x2) := by
  unfold State.prefetched; try dsimp only
  repeat'
    with_reducible
      first
      | assumption | apply keeps_stopAtHeader | apply keeps_updCore | apply keeps_elim | apply keeps_foldl
          | apply keeps_foldl_fst | apply keeps_foldl_fst2 | intro _ | apply keeps_ite | split
          | refine keeps_of_eq (by assumption) ?_

theorem keeps_failWaiting {x0 : State} {x1 : Txn} {x2 : Status} (h0 : Canonical x0)
    : Canonical (State.failWaiting x0 x1 x2) := by
  unfold State.failWaiting; try dsimp only
  repeat'
    with_reducible
      first
      | assumption | apply keeps_prefetched | apply keeps_putActive | apply keeps_elim | apply keeps_foldl
          | apply keeps_foldl_fst | apply keeps_foldl_fst2 | intro _ | apply keeps_ite | split
          | refine keeps_of_eq (by assumption) ?_

theorem keeps_awaitHub {x0 : State} {x1 : Nat} {x2 : Txn} {x3 : Place} (h0 : Canonical x0)
    : Canonical (State.awaitHub x0 x1 x2 x3) := by
  unfold State.awaitHub; try dsimp only
  repeat'
    with_reducible
      first
      | assumption | apply keeps_failWaiting | apply keeps_countRetry | simp only [canonical_update]
          | apply keeps_elim | apply keeps_foldl | apply keeps_foldl_fst | apply keeps_foldl_fst2 | intro _
          | apply keeps_ite | split | refine keeps_of_eq (by assumption) ?_
          | (simp only [canonical_all]; refine ⟨?_, ?_, ?_, ?_, ?_, ?_, ?_, ?_, ?_, ?_, ?_, ?_, ?_, ?_, ?_, ?_, ?_, ?_, ?_, ?_, ?_, ?_, ?_, ?_, ?_, ?_, ?_⟩)
          | apply rising_map | apply wf_copyInto | apply wf_fold | apply Tab.copyInto_wf | apply rising_fold
          | exact rising_nil | exact wf_nil | exact mem_nil | apply wf_copyRange | apply Tab.copyRange_wf
          | apply wf_clearRange | apply Tab.set_rising | apply Tab.upd_rising | apply Tab.filter_rising
          | apply Tab.set_wf | apply Tab.clearRange_wf | apply Canonical.mem | apply Canonical.poison
          | apply Canonical.sync | apply Canonical.obj | apply Canonical.maq | apply Canonical.cores
          | apply Canonical.objLog | apply Canonical.refusalEvent | apply Canonical.streams | apply Canonical.jobs
          | apply Canonical.sessions | apply Canonical.leftOut | apply Canonical.survivors | apply Canonical.rowLog
          | apply Canonical.conns | apply Canonical.ports | apply Canonical.hubs | apply Canonical.hubResets
          | apply Canonical.txns | apply Canonical.links | apply Canonical.arrived | apply Canonical.channels
          | apply Canonical.tiles | apply Canonical.xcvrs | apply Canonical.monitors | apply Canonical.requests
          | apply Canonical.remoteOverruns

theorem keeps_requestDone {x0 : State} {x1 : Nat} {x2 : Nat} {x3 : List Place} (h0 : Canonical x0)
    : Canonical (State.requestDone x0 x1 x2 x3) := by
  unfold State.requestDone; try dsimp only
  repeat'
    with_reducible
      first
      | assumption | apply keeps_closeTxn | apply keeps_pruneTxns | apply keeps_addTxn | apply keeps_escapeSent
          | apply keeps_elim | apply keeps_foldl | apply keeps_foldl_fst | apply keeps_foldl_fst2 | intro _
          | apply keeps_ite | split | refine keeps_of_eq (by assumption) ?_

theorem keeps_viaHubs {x0 : State} {x1 : Nat} {x2 : Nat} {x3 : List Nat} {x4 : List Nat} {x5 : State → State}
    (h0 : Canonical x0) (h5_0 : ∀ y0, Canonical y0 → Canonical (x5 y0))
    : Canonical (State.viaHubs x0 x1 x2 x3 x4 x5) := by
  unfold State.viaHubs; try dsimp only
  repeat'
    with_reducible
      first
      | assumption | apply h5_0 | apply keeps_requestDone | apply keeps_awaitHub | apply keeps_addTxn
          | apply keeps_elim | apply keeps_foldl | apply keeps_foldl_fst | apply keeps_foldl_fst2 | intro _
          | apply keeps_ite | split | refine keeps_of_eq (by assumption) ?_

theorem keeps_putBytes {x0 : State} {x1 : Nat} {x2 : Nat} {x3 : Nat} {x4 : Sys2Proof.Bytes} {x5 : Bool}
    (h0 : Canonical x0) : Canonical (State.putBytes x0 x1 x2 x3 x4 x5).1 := by
  unfold State.putBytes; try dsimp only
  repeat'
    with_reducible
      first
      | assumption | apply keeps_putPiece | apply keeps_elim | apply keeps_foldl | apply keeps_foldl_fst
          | apply keeps_foldl_fst2 | intro _ | apply keeps_ite | split | refine keeps_of_eq (by assumption) ?_

theorem keeps_putPacked {x0 : State} {x1 : Nat} {x2 : Nat} {x3 : Nat} {x4 : Nat} {x5 : Sys2Proof.Bytes}
    {x6 : List Bool} (h0 : Canonical x0) : Canonical (State.putPacked x0 x1 x2 x3 x4 x5 x6).1 := by
  unfold State.putPacked; try dsimp only
  repeat'
    with_reducible
      first
      | assumption | apply keeps_putPiece | apply keeps_eachUntil | apply keeps_elim | apply keeps_foldl
          | apply keeps_foldl_fst | apply keeps_foldl_fst2 | intro _ | apply keeps_ite | split
          | refine keeps_of_eq (by assumption) ?_

theorem keeps_putBlock {x0 : State} {x1 : Nat} {x2 : Nat} {x3 : Tensor} {x4 : Rounding} {x5 : Idx}
    {x6 : List OutElem} (h0 : Canonical x0) : Canonical (State.putBlock x0 x1 x2 x3 x4 x5 x6).1 := by
  unfold State.putBlock; try dsimp only
  repeat'
    with_reducible
      first
      | assumption | apply keeps_putPacked | apply keeps_putBytes | apply keeps_elim | apply keeps_foldl
          | apply keeps_foldl_fst | apply keeps_foldl_fst2 | intro _ | apply keeps_ite | split
          | refine keeps_of_eq (by assumption) ?_

theorem keeps_putPlainRun {x0 : State} {x1 : Nat} {x2 : Nat} {x3 : Tensor} {x4 : Rounding} {x5 : Bool} {x6 : Idx}
    {x7 : List OutElem} (h0 : Canonical x0) : Canonical (State.putPlainRun x0 x1 x2 x3 x4 x5 x6 x7).1 := by
  unfold State.putPlainRun; try dsimp only
  repeat'
    with_reducible
      first
      | assumption | apply keeps_putPacked | apply keeps_elim | apply keeps_foldl | apply keeps_foldl_fst
          | apply keeps_foldl_fst2 | intro _ | apply keeps_ite | split | refine keeps_of_eq (by assumption) ?_

theorem keeps_putRun {x0 : State} {x1 : Nat} {x2 : Nat} {x3 : Tensor} {x4 : Rounding} {x5 : Bool} {x6 : Idx}
    {x7 : List OutElem} (h0 : Canonical x0) : Canonical (State.putRun x0 x1 x2 x3 x4 x5 x6 x7).1 := by
  unfold State.putRun; try dsimp only
  repeat'
    with_reducible
      first
      | assumption | apply keeps_putBlock | apply keeps_putPlainRun | apply keeps_elim | apply keeps_foldl
          | apply keeps_foldl_fst | apply keeps_foldl_fst2 | intro _ | apply keeps_ite | split
          | refine keeps_of_eq (by assumption) ?_

theorem keeps_endMove {x0 : Nat} {x1 : Nat} {x2 : Nat} {x3 : Active} {x4 : State × Option AccErr} {x5 : ArithFlags}
    (h4_0 : Canonical x4.1) : Canonical (endMove x0 x1 x2 x3 x4 x5) := by
  unfold endMove; try dsimp only
  repeat'
    with_reducible
      first
      | assumption | apply keeps_putActive | apply keeps_elim | apply keeps_foldl | apply keeps_foldl_fst
          | apply keeps_foldl_fst2 | intro _ | apply keeps_ite | split | refine keeps_of_eq (by assumption) ?_

theorem keeps_writeResult {x0 : State} {x1 : GroupOp} {x2 : Nat} {x3 : Active} (h0 : Canonical x0)
    : Canonical (State.writeResult x0 x1 x2 x3) := by
  unfold State.writeResult; try dsimp only
  repeat'
    with_reducible
      first
      | assumption | apply keeps_putRun | apply keeps_markForeign | apply keeps_updCore | apply keeps_endMove
          | apply keeps_elim | apply keeps_foldl | apply keeps_foldl_fst | apply keeps_foldl_fst2 | intro _
          | apply keeps_ite | split | refine keeps_of_eq (by assumption) ?_

theorem keeps_advanceOp {x0 : State} {x1 : Nat} {x2 : Nat} (h0 : Canonical x0)
    : Canonical (State.advanceOp x0 x1 x2) := by
  unfold State.advanceOp; try dsimp only
  repeat'
    with_reducible
      first
      | assumption | apply keeps_endMismatch | apply keeps_takePartial | apply keeps_viaHubs | apply keeps_dropOp
          | apply keeps_writeResult | apply keeps_elim | apply keeps_foldl | apply keeps_foldl_fst
          | apply keeps_foldl_fst2 | intro _ | apply keeps_ite | split | refine keeps_of_eq (by assumption) ?_

theorem keeps_advanceGroups {x0 : State} (h0 : Canonical x0) : Canonical (State.advanceGroups x0) := by
  unfold State.advanceGroups; try dsimp only
  repeat'
    with_reducible
      first
      | assumption | apply keeps_advanceMcast | apply keeps_advanceOp | apply keeps_elim | apply keeps_foldl
          | apply keeps_foldl_fst | apply keeps_foldl_fst2 | intro _ | apply keeps_ite | split
          | refine keeps_of_eq (by assumption) ?_

theorem keeps_copyRun {x0 : State} {x1 : Nat} {x2 : Nat} {x3 : Option (List Nat)} {x4 : Bool} {x5 : Nat} {x6 : Nat}
    {x7 : Nat} (h0 : Canonical x0) : Canonical (State.copyRun x0 x1 x2 x3 x4 x5 x6 x7).1 := by
  unfold State.copyRun; try dsimp only
  repeat'
    with_reducible
      first
      | assumption | apply keeps_countClosed | apply keeps_putPiece | apply keeps_countRead | apply keeps_elim
          | apply keeps_foldl | apply keeps_foldl_fst | apply keeps_foldl_fst2 | intro _ | apply keeps_ite | split
          | refine keeps_of_eq (by assumption) ?_

theorem keeps_moveRun {x0 : State} {x1 : Nat} {x2 : Nat} {x3 : Option (List Nat)} {x4 : Bool} {x5 : Tensor}
    {x6 : Tensor} {x7 : Idx} {x8 : Idx} (h0 : Canonical x0)
    : Canonical (State.moveRun x0 x1 x2 x3 x4 x5 x6 x7 x8).1 := by
  unfold State.moveRun; try dsimp only
  repeat'
    with_reducible
      first
      | assumption | apply keeps_copyRun | apply keeps_elim | apply keeps_foldl | apply keeps_foldl_fst
          | apply keeps_foldl_fst2 | intro _ | apply keeps_ite | split | refine keeps_of_eq (by assumption) ?_

theorem keeps_refuseRead {x0 : State} {x1 : Nat} {x2 : Nat} {x3 : Nat} {x4 : Active} {x5 : AccErr}
    (h0 : Canonical x0) : Canonical (State.refuseRead x0 x1 x2 x3 x4 x5) := by
  unfold State.refuseRead; try dsimp only
  repeat'
    with_reducible
      first
      | assumption | apply keeps_putActive | apply keeps_countClosed | apply keeps_elim | apply keeps_foldl
          | apply keeps_foldl_fst | apply keeps_foldl_fst2 | intro _ | apply keeps_ite | split
          | refine keeps_of_eq (by assumption) ?_

theorem keeps_appendSegment {x0 : State} {x1 : List Sys2Proof.Bytes} (h0 : Canonical x0)
    : Canonical (State.appendSegment x0 x1) := by
  unfold State.appendSegment; try dsimp only
  repeat'
    with_reducible
      first
      | assumption | simp only [canonical_update] | apply keeps_elim | apply keeps_foldl | apply keeps_foldl_fst
          | apply keeps_foldl_fst2 | intro _ | apply keeps_ite | split | refine keeps_of_eq (by assumption) ?_

theorem keeps_appendRepair {x0 : State} {x1 : Nat} {x2 : Nat} {x3 : Sys2Proof.Bytes} (h0 : Canonical x0)
    : Canonical (State.appendRepair x0 x1 x2 x3) := by
  unfold State.appendRepair; try dsimp only
  repeat'
    with_reducible
      first
      | assumption | apply keeps_appendSegment | apply keeps_elim | apply keeps_foldl | apply keeps_foldl_fst
          | apply keeps_foldl_fst2 | intro _ | apply keeps_ite | split | refine keeps_of_eq (by assumption) ?_

theorem keeps_losePartition {x0 : State} {x1 : Nat} (h0 : Canonical x0) : Canonical (State.losePartition x0 x1) := by
  unfold State.losePartition; try dsimp only
  repeat'
    with_reducible
      first
      | assumption | simp only [canonical_update] | apply keeps_elim | apply keeps_foldl | apply keeps_foldl_fst
          | apply keeps_foldl_fst2 | intro _ | apply keeps_ite | split | refine keeps_of_eq (by assumption) ?_

theorem keeps_setLayerField {x0 : State} {x1 : Nat} {x2 : Nat} {x3 : Nat} {x4 : Nat} {x5 : Nat} (h0 : Canonical x0)
    : Canonical (State.setLayerField x0 x1 x2 x3 x4 x5) := by
  unfold State.setLayerField; try dsimp only
  repeat'
    with_reducible
      first
      | assumption | apply keeps_change | apply keeps_elim | apply keeps_foldl | apply keeps_foldl_fst
          | apply keeps_foldl_fst2 | intro _ | apply keeps_ite | split | refine keeps_of_eq (by assumption) ?_

theorem keeps_layerGone {x0 : State} {x1 : Nat} {x2 : Nat} (h0 : Canonical x0)
    : Canonical (State.layerGone x0 x1 x2) := by
  unfold State.layerGone; try dsimp only
  repeat'
    with_reducible
      first
      | assumption | apply keeps_setLayerField | apply keeps_put | apply keeps_losePartition | apply keeps_elim
          | apply keeps_foldl | apply keeps_foldl_fst | apply keeps_foldl_fst2 | intro _ | apply keeps_ite | split
          | refine keeps_of_eq (by assumption) ?_

theorem keeps_setMirror {x0 : State} {x1 : Nat} {x2 : Nat} {x3 : Bool} (h0 : Canonical x0)
    : Canonical (State.setMirror x0 x1 x2 x3) := by
  unfold State.setMirror; try dsimp only
  repeat'
    with_reducible
      first
      | assumption | apply keeps_change | simp only [canonical_update] | apply keeps_elim | apply keeps_foldl
          | apply keeps_foldl_fst | apply keeps_foldl_fst2 | intro _ | apply keeps_ite | split
          | refine keeps_of_eq (by assumption) ?_
          | (simp only [canonical_all]; refine ⟨?_, ?_, ?_, ?_, ?_, ?_, ?_, ?_, ?_, ?_, ?_, ?_, ?_, ?_, ?_, ?_, ?_, ?_, ?_, ?_, ?_, ?_, ?_, ?_, ?_, ?_, ?_⟩)
          | apply rising_map | apply wf_copyInto | apply wf_fold | apply Tab.copyInto_wf | apply rising_fold
          | exact rising_nil | exact wf_nil | exact mem_nil | apply wf_copyRange | apply Tab.copyRange_wf
          | apply wf_clearRange | apply Tab.set_rising | apply Tab.upd_rising | apply Tab.filter_rising
          | apply Tab.set_wf | apply Tab.clearRange_wf | apply Canonical.mem | apply Canonical.poison
          | apply Canonical.sync | apply Canonical.obj | apply Canonical.maq | apply Canonical.cores
          | apply Canonical.objLog | apply Canonical.refusalEvent | apply Canonical.streams | apply Canonical.jobs
          | apply Canonical.sessions | apply Canonical.leftOut | apply Canonical.survivors | apply Canonical.rowLog
          | apply Canonical.conns | apply Canonical.ports | apply Canonical.hubs | apply Canonical.hubResets
          | apply Canonical.txns | apply Canonical.links | apply Canonical.arrived | apply Canonical.channels
          | apply Canonical.tiles | apply Canonical.xcvrs | apply Canonical.monitors | apply Canonical.requests
          | apply Canonical.remoteOverruns

theorem keeps_mirrorAfterLoss {x0 : State} {x1 : Nat} {x2 : Nat} {x3 : Nat} (h0 : Canonical x0)
    : Canonical (State.mirrorAfterLoss x0 x1 x2 x3) := by
  unfold State.mirrorAfterLoss; try dsimp only
  repeat'
    with_reducible
      first
      | assumption | apply keeps_setMirror | apply keeps_elim | apply keeps_foldl | apply keeps_foldl_fst
          | apply keeps_foldl_fst2 | intro _ | apply keeps_ite | split | refine keeps_of_eq (by assumption) ?_

theorem keeps_mirrorsAfterLoss {x0 : State} (h0 : Canonical x0) : Canonical (State.mirrorsAfterLoss x0) := by
  unfold State.mirrorsAfterLoss; try dsimp only
  repeat'
    with_reducible
      first
      | assumption | apply keeps_mirrorAfterLoss | apply keeps_elim | apply keeps_foldl | apply keeps_foldl_fst
          | apply keeps_foldl_fst2 | intro _ | apply keeps_ite | split | refine keeps_of_eq (by assumption) ?_

theorem keeps_showStack {x0 : State} {x1 : Nat} (h0 : Canonical x0) : Canonical (State.showStack x0 x1) := by
  unfold State.showStack; try dsimp only
  repeat'
    with_reducible
      first
      | assumption | apply keeps_change | apply keeps_elim | apply keeps_foldl | apply keeps_foldl_fst
          | apply keeps_foldl_fst2 | intro _ | apply keeps_ite | split | refine keeps_of_eq (by assumption) ?_

theorem keeps_watch {x0 : State} (h0 : Canonical x0) : Canonical (State.watch x0) := by
  unfold State.watch; try dsimp only
  repeat'
    with_reducible
      first
      | assumption | simp only [canonical_update] | apply keeps_elim | apply keeps_foldl | apply keeps_foldl_fst
          | apply keeps_foldl_fst2 | intro _ | apply keeps_ite | split | refine keeps_of_eq (by assumption) ?_
          | (simp only [canonical_all]; refine ⟨?_, ?_, ?_, ?_, ?_, ?_, ?_, ?_, ?_, ?_, ?_, ?_, ?_, ?_, ?_, ?_, ?_, ?_, ?_, ?_, ?_, ?_, ?_, ?_, ?_, ?_, ?_⟩)
          | apply rising_map | apply wf_copyInto | apply wf_fold | apply Tab.copyInto_wf | apply rising_fold
          | exact rising_nil | exact wf_nil | exact mem_nil | apply wf_copyRange | apply Tab.copyRange_wf
          | apply wf_clearRange | apply Tab.set_rising | apply Tab.upd_rising | apply Tab.filter_rising
          | apply Tab.set_wf | apply Tab.clearRange_wf | apply Canonical.mem | apply Canonical.poison
          | apply Canonical.sync | apply Canonical.obj | apply Canonical.maq | apply Canonical.cores
          | apply Canonical.objLog | apply Canonical.refusalEvent | apply Canonical.streams | apply Canonical.jobs
          | apply Canonical.sessions | apply Canonical.leftOut | apply Canonical.survivors | apply Canonical.rowLog
          | apply Canonical.conns | apply Canonical.ports | apply Canonical.hubs | apply Canonical.hubResets
          | apply Canonical.txns | apply Canonical.links | apply Canonical.arrived | apply Canonical.channels
          | apply Canonical.tiles | apply Canonical.xcvrs | apply Canonical.monitors | apply Canonical.requests
          | apply Canonical.remoteOverruns

theorem keeps_loseStack {x0 : State} {x1 : Nat} {x2 : Sys2Proof.Byte} {x3 : optParam Nat 4294967295}
    (h0 : Canonical x0) : Canonical (State.loseStack x0 x1 x2 x3) := by
  unfold State.loseStack; try dsimp only
  repeat'
    with_reducible
      first
      | assumption | apply keeps_fault | apply keeps_put | apply keeps_watch | apply keeps_losePartition
          | apply keeps_mirrorsAfterLoss | apply keeps_showStack | apply keeps_elim | apply keeps_foldl
          | apply keeps_foldl_fst | apply keeps_foldl_fst2 | intro _ | apply keeps_ite | split
          | refine keeps_of_eq (by assumption) ?_

theorem keeps_loseLayer {x0 : State} {x1 : Nat} {x2 : Nat} {x3 : Nat} {x4 : optParam Nat 4294967295}
    (h0 : Canonical x0) : Canonical (State.loseLayer x0 x1 x2 x3 x4) := by
  unfold State.loseLayer; try dsimp only
  repeat'
    with_reducible
      first
      | assumption | apply keeps_fault | apply keeps_appendRepair | apply keeps_layerGone
          | apply keeps_mirrorsAfterLoss | apply keeps_showStack | apply keeps_loseStack | apply keeps_elim
          | apply keeps_foldl | apply keeps_foldl_fst | apply keeps_foldl_fst2 | intro _ | apply keeps_ite | split
          | refine keeps_of_eq (by assumption) ?_

theorem keeps_showChannel {x0 : State} {x1 : Nat} {x2 : Nat} {x3 : Nat} (h0 : Canonical x0)
    : Canonical (State.showChannel x0 x1 x2 x3) := by
  unfold State.showChannel; try dsimp only
  repeat'
    with_reducible
      first
      | assumption | apply keeps_put | apply keeps_setLayerField | apply keeps_elim | apply keeps_foldl
          | apply keeps_foldl_fst | apply keeps_foldl_fst2 | intro _ | apply keeps_ite | split
          | refine keeps_of_eq (by assumption) ?_

theorem keeps_updChannel {x0 : State} {x1 : Nat} {x2 : Nat} {x3 : Nat} {x4 : Channel → Channel} (h0 : Canonical x0)
    : Canonical (State.updChannel x0 x1 x2 x3 x4) := by
  unfold State.updChannel; try dsimp only
  repeat'
    with_reducible
      first
      | assumption | simp only [canonical_update] | apply keeps_elim | apply keeps_foldl | apply keeps_foldl_fst
          | apply keeps_foldl_fst2 | intro _ | apply keeps_ite | split | refine keeps_of_eq (by assumption) ?_
          | (simp only [canonical_all]; refine ⟨?_, ?_, ?_, ?_, ?_, ?_, ?_, ?_, ?_, ?_, ?_, ?_, ?_, ?_, ?_, ?_, ?_, ?_, ?_, ?_, ?_, ?_, ?_, ?_, ?_, ?_, ?_⟩)
          | apply rising_map | apply wf_copyInto | apply wf_fold | apply Tab.copyInto_wf | apply rising_fold
          | exact rising_nil | exact wf_nil | exact mem_nil | apply wf_copyRange | apply Tab.copyRange_wf
          | apply wf_clearRange | apply Tab.set_rising | apply Tab.upd_rising | apply Tab.filter_rising
          | apply Tab.set_wf | apply Tab.clearRange_wf | apply Canonical.mem | apply Canonical.poison
          | apply Canonical.sync | apply Canonical.obj | apply Canonical.maq | apply Canonical.cores
          | apply Canonical.objLog | apply Canonical.refusalEvent | apply Canonical.streams | apply Canonical.jobs
          | apply Canonical.sessions | apply Canonical.leftOut | apply Canonical.survivors | apply Canonical.rowLog
          | apply Canonical.conns | apply Canonical.ports | apply Canonical.hubs | apply Canonical.hubResets
          | apply Canonical.txns | apply Canonical.links | apply Canonical.arrived | apply Canonical.channels
          | apply Canonical.tiles | apply Canonical.xcvrs | apply Canonical.monitors | apply Canonical.requests
          | apply Canonical.remoteOverruns

theorem keeps_setChannel {x0 : State} {x1 : Nat} {x2 : Nat} {x3 : Nat} {x4 : Channel} (h0 : Canonical x0)
    : Canonical (State.setChannel x0 x1 x2 x3 x4) := by
  unfold State.setChannel; try dsimp only
  repeat'
    with_reducible
      first
      | assumption | apply keeps_showStack | apply keeps_showChannel | apply keeps_updChannel | apply keeps_elim
          | apply keeps_foldl | apply keeps_foldl_fst | apply keeps_foldl_fst2 | intro _ | apply keeps_ite | split
          | refine keeps_of_eq (by assumption) ?_

theorem keeps_linkFail {x0 : State} {x1 : Nat} {x2 : Nat} {x3 : Nat} {x4 : Nat} (h0 : Canonical x0)
    : Canonical (State.linkFail x0 x1 x2 x3 x4) := by
  unfold State.linkFail; try dsimp only
  repeat'
    with_reducible
      first
      | assumption | apply keeps_fault | apply keeps_loseLayer | apply keeps_updChannel | apply keeps_setChannel
          | apply keeps_elim | apply keeps_foldl | apply keeps_foldl_fst | apply keeps_foldl_fst2 | intro _
          | apply keeps_ite | split | refine keeps_of_eq (by assumption) ?_

theorem keeps_logGranule {x0 : State} {x1 : Nat} {x2 : Bool} (h0 : Canonical x0)
    : Canonical (State.logGranule x0 x1 x2) := by
  unfold State.logGranule; try dsimp only
  repeat'
    with_reducible
      first
      | assumption | apply keeps_fault | apply keeps_elim | apply keeps_foldl | apply keeps_foldl_fst
          | apply keeps_foldl_fst2 | intro _ | apply keeps_ite | split | refine keeps_of_eq (by assumption) ?_

theorem keeps_flipData {x0 : State} {x1 : Nat} {x2 : Nat} (h0 : Canonical x0)
    : Canonical (State.flipData x0 x1 x2) := by
  unfold State.flipData; try dsimp only
  repeat'
    with_reducible
      first
      | assumption | apply keeps_setBytes | apply keeps_elim | apply keeps_foldl | apply keeps_foldl_fst
          | apply keeps_foldl_fst2 | intro _ | apply keeps_ite | split | refine keeps_of_eq (by assumption) ?_

theorem keeps_badGranule {x0 : State} {x1 : Nat} {x2 : Nat} (h0 : Canonical x0)
    : Canonical (State.badGranule x0 x1 x2) := by
  unfold State.badGranule; try dsimp only
  repeat'
    with_reducible
      first
      | assumption | apply keeps_storeAt | apply keeps_setPoison | apply keeps_flipData | apply keeps_elim
          | apply keeps_foldl | apply keeps_foldl_fst | apply keeps_foldl_fst2 | intro _ | apply keeps_ite | split
          | refine keeps_of_eq (by assumption) ?_

theorem keeps_lostGranule {x0 : State} {x1 : Nat} {x2 : Nat} {x3 : Bool} (h0 : Canonical x0)
    : Canonical (State.lostGranule x0 x1 x2 x3) := by
  unfold State.lostGranule; try dsimp only
  repeat'
    with_reducible
      first
      | assumption | apply keeps_logGranule | apply keeps_bump | apply keeps_badGranule | apply keeps_elim
          | apply keeps_foldl | apply keeps_foldl_fst | apply keeps_foldl_fst2 | intro _ | apply keeps_ite | split
          | refine keeps_of_eq (by assumption) ?_

theorem keeps_markCorrected {x0 : State} {x1 : Nat} (h0 : Canonical x0) : Canonical (State.markCorrected x0 x1) := by
  unfold State.markCorrected; try dsimp only
  repeat'
    with_reducible
      first
      | assumption | apply keeps_updCore | apply keeps_elim | apply keeps_foldl | apply keeps_foldl_fst
          | apply keeps_foldl_fst2 | intro _ | apply keeps_ite | split | refine keeps_of_eq (by assumption) ?_

theorem keeps_markReader {x0 : State} {x1 : Option Nat} (h0 : Canonical x0)
    : Canonical (State.markReader x0 x1) := by
  unfold State.markReader; try dsimp only
  repeat'
    with_reducible
      first
      | assumption | apply keeps_markCorrected | apply keeps_elim | apply keeps_foldl | apply keeps_foldl_fst
          | apply keeps_foldl_fst2 | intro _ | apply keeps_ite | split | refine keeps_of_eq (by assumption) ?_

theorem keeps_scratchError {x0 : State} {x1 : Option Nat} {x2 : Nat} {x3 : Nat} (h0 : Canonical x0)
    : Canonical (State.scratchError x0 x1 x2 x3) := by
  unfold State.scratchError; try dsimp only
  repeat'
    with_reducible
      first
      | assumption | apply keeps_markReader | apply keeps_count | apply keeps_fault | apply keeps_bump
          | apply keeps_setPoison | apply keeps_flipData | apply keeps_elim | apply keeps_foldl
          | apply keeps_foldl_fst | apply keeps_foldl_fst2 | intro _ | apply keeps_ite | split
          | refine keeps_of_eq (by assumption) ?_

theorem keeps_rowOccasion {x0 : State} {x1 : Nat} (h0 : Canonical x0) : Canonical (State.rowOccasion x0 x1) := by
  unfold State.rowOccasion; try dsimp only
  repeat'
    with_reducible
      first
      | assumption | apply keeps_appendRepair | apply keeps_count | apply keeps_fault | simp only [canonical_update]
          | apply keeps_elim | apply keeps_foldl | apply keeps_foldl_fst | apply keeps_foldl_fst2 | intro _
          | apply keeps_ite | split | refine keeps_of_eq (by assumption) ?_
          | (simp only [canonical_all]; refine ⟨?_, ?_, ?_, ?_, ?_, ?_, ?_, ?_, ?_, ?_, ?_, ?_, ?_, ?_, ?_, ?_, ?_, ?_, ?_, ?_, ?_, ?_, ?_, ?_, ?_, ?_, ?_⟩)
          | apply rising_map | apply wf_copyInto | apply wf_fold | apply Tab.copyInto_wf | apply rising_fold
          | exact rising_nil | exact wf_nil | exact mem_nil | apply wf_copyRange | apply Tab.copyRange_wf
          | apply wf_clearRange | apply Tab.set_rising | apply Tab.upd_rising | apply Tab.filter_rising
          | apply Tab.set_wf | apply Tab.clearRange_wf | apply Canonical.mem | apply Canonical.poison
          | apply Canonical.sync | apply Canonical.obj | apply Canonical.maq | apply Canonical.cores
          | apply Canonical.objLog | apply Canonical.refusalEvent | apply Canonical.streams | apply Canonical.jobs
          | apply Canonical.sessions | apply Canonical.leftOut | apply Canonical.survivors | apply Canonical.rowLog
          | apply Canonical.conns | apply Canonical.ports | apply Canonical.hubs | apply Canonical.hubResets
          | apply Canonical.txns | apply Canonical.links | apply Canonical.arrived | apply Canonical.channels
          | apply Canonical.tiles | apply Canonical.xcvrs | apply Canonical.monitors | apply Canonical.requests
          | apply Canonical.remoteOverruns

theorem keeps_storedError {x0 : State} {x1 : Option Nat} {x2 : Nat} {x3 : Nat} (h0 : Canonical x0)
    : Canonical (State.storedError x0 x1 x2 x3) := by
  unfold State.storedError; try dsimp only
  repeat'
    with_reducible
      first
      | assumption | apply keeps_rowOccasion | apply keeps_markReader | apply keeps_bump | apply keeps_flipData
          | apply keeps_lostGranule | apply keeps_elim | apply keeps_foldl | apply keeps_foldl_fst
          | apply keeps_foldl_fst2 | intro _ | apply keeps_ite | split | refine keeps_of_eq (by assumption) ?_

theorem keeps_chargePosition {x0 : State} {x1 : Nat} {x2 : Nat} {x3 : Nat} {x4 : Nat} (h0 : Canonical x0)
    : Canonical (State.chargePosition x0 x1 x2 x3 x4) := by
  unfold State.chargePosition; try dsimp only
  repeat'
    with_reducible
      first
      | assumption | apply keeps_linkFail | apply keeps_updChannel | apply keeps_elim | apply keeps_foldl
          | apply keeps_foldl_fst | apply keeps_foldl_fst2 | intro _ | apply keeps_ite | split
          | refine keeps_of_eq (by assumption) ?_

theorem keeps_transit {x0 : State} {x1 : Nat} {x2 : Nat} {x3 : Nat} {x4 : Nat} {x5 : Nat} {x6 : List (BitVec 576)}
    (h0 : Canonical x0) : Canonical (State.transit x0 x1 x2 x3 x4 x5 x6).1 := by
  induction x5 generalizing x0 x6 with
  | zero => unfold State.transit; assumption
  | succ _ ih =>
    unfold State.transit; try dsimp only
    repeat'
      with_reducible
        first
        | assumption | apply ih | apply keeps_chargePosition | apply keeps_bump
        | simp only [canonical_update] | apply keeps_foldl | apply keeps_foldl_fst | apply keeps_foldl_fst2 | intro _ | split | refine keeps_of_eq (by assumption) ?_

theorem keeps_takeUpset {x0 : State} {x1 : Option Nat} {x2 : Sys2Proof.Upset} (h0 : Canonical x0)
    : Canonical (State.takeUpset x0 x1 x2) := by
  unfold State.takeUpset; try dsimp only
  repeat'
    with_reducible
      first
      | assumption | apply keeps_scratchError | apply keeps_storedError | apply keeps_transit
          | apply keeps_lostGranule | apply keeps_linkFail | apply keeps_logGranule | apply keeps_setPoison
          | apply keeps_elim | apply keeps_foldl | apply keeps_foldl_fst | apply keeps_foldl_fst2 | intro _
          | apply keeps_ite | split | refine keeps_of_eq (by assumption) ?_

theorem keeps_findUpsets {x0 : State} {x1 : Option Nat} {x2 : List (Nat × Nat)} {x3 : List Sys2Proof.Upset}
    (h0 : Canonical x0) : Canonical (State.findUpsets x0 x1 x2 x3) := by
  unfold State.findUpsets; try dsimp only
  repeat'
    with_reducible
      first
      | assumption | apply keeps_takeUpset | apply keeps_elim | apply keeps_foldl | apply keeps_foldl_fst
          | apply keeps_foldl_fst2 | intro _ | apply keeps_ite | split | refine keeps_of_eq (by assumption) ?_

theorem keeps_takeUpsets {x0 : State} {x1 : Nat} {x2 : List (Nat × Nat)} {x3 : List Sys2Proof.Upset}
    (h0 : Canonical x0) : Canonical (State.takeUpsets x0 x1 x2 x3) := by
  unfold State.takeUpsets; try dsimp only
  repeat'
    with_reducible
      first
      | assumption | apply keeps_findUpsets | apply keeps_elim | apply keeps_foldl | apply keeps_foldl_fst
          | apply keeps_foldl_fst2 | intro _ | apply keeps_ite | split | refine keeps_of_eq (by assumption) ?_

theorem keeps_useKey {x0 : State} {x1 : Option (List Nat)} (h0 : Canonical x0) : Canonical (State.useKey x0 x1) := by
  unfold State.useKey; try dsimp only
  repeat'
    with_reducible
      first
      | assumption | simp only [canonical_update] | apply keeps_elim | apply keeps_foldl | apply keeps_foldl_fst
          | apply keeps_foldl_fst2 | intro _ | apply keeps_ite | split | refine keeps_of_eq (by assumption) ?_

theorem keeps_writeUpsets {x0 : State} {x1 : List (Nat × Nat)} {x2 : List Sys2Proof.Upset} (h0 : Canonical x0)
    : Canonical (State.writeUpsets x0 x1 x2) := by
  unfold State.writeUpsets; try dsimp only
  repeat'
    with_reducible
      first
      | assumption | apply keeps_takeUpset | apply keeps_elim | apply keeps_foldl | apply keeps_foldl_fst
          | apply keeps_foldl_fst2 | intro _ | apply keeps_ite | split | refine keeps_of_eq (by assumption) ?_

theorem keeps_accessGather {x0 : Nat} {x1 : List Sys2Proof.Upset} {x2 : State} (h2 : Canonical x2)
    : Canonical (accessGather x0 x1 x2) := by
  unfold accessGather; try dsimp only
  repeat'
    with_reducible
      first
      | assumption | apply keeps_viaHubs | apply keeps_refuseRead | apply keeps_takeUpsets | apply keeps_countRead
          | apply keeps_moveRun | apply keeps_writeUpsets | apply keeps_useKey | apply keeps_putActive
          | apply keeps_endMove | apply keeps_eachUntil | apply keeps_elim | apply keeps_foldl
          | apply keeps_foldl_fst | apply keeps_foldl_fst2 | intro _ | apply keeps_ite | split
          | refine keeps_of_eq (by assumption) ?_

theorem keeps_moveTensor {x0 : State} {x1 : Nat} {x2 : Nat} {x3 : Queued} {x4 : Tensor} {x5 : Tensor}
    (h0 : Canonical x0) : Canonical (State.moveTensor x0 x1 x2 x3 x4 x5).1 := by
  unfold State.moveTensor; try dsimp only
  repeat'
    with_reducible
      first
      | assumption | apply keeps_moveRun | apply keeps_useKey | apply keeps_elim | apply keeps_foldl
          | apply keeps_foldl_fst | apply keeps_foldl_fst2 | intro _ | apply keeps_ite | split
          | refine keeps_of_eq (by assumption) ?_

theorem keeps_accessMove {x0 : Nat} {x1 : Nat} {x2 : List Sys2Proof.Upset} {x3 : State} (h3 : Canonical x3)
    : Canonical (accessMove x0 x1 x2 x3) := by
  unfold accessMove; try dsimp only
  repeat'
    with_reducible
      first
      | assumption | apply keeps_viaHubs | apply keeps_takeUpsets | apply keeps_moveTensor | apply keeps_endMove
          | apply keeps_writeUpsets | apply keeps_elim | apply keeps_foldl | apply keeps_foldl_fst
          | apply keeps_foldl_fst2 | intro _ | apply keeps_ite | split | refine keeps_of_eq (by assumption) ?_

theorem keeps_commandFetch {x0 : Nat} {x1 : List Sys2Proof.Upset} {x2 : State} (h2 : Canonical x2)
    : Canonical (commandFetch x0 x1 x2) := by
  unfold commandFetch; try dsimp only
  repeat'
    with_reducible
      first
      | assumption | apply keeps_viaHubs | apply keeps_takeUpsets | apply keeps_countRead | apply keeps_prefetched
          | apply keeps_elim | apply keeps_foldl | apply keeps_foldl_fst | apply keeps_foldl_fst2 | intro _
          | apply keeps_ite | split | refine keeps_of_eq (by assumption) ?_

theorem keeps_noteMessage {x0 : State} {x1 : Nat} {x2 : Queued} {x3 : Sys2Proof.Bytes} {x4 : optParam Nat 0}
    (h0 : Canonical x0) : Canonical (State.noteMessage x0 x1 x2 x3 x4) := by
  unfold State.noteMessage; try dsimp only
  repeat'
    with_reducible
      first
      | assumption | apply keeps_updCore | apply keeps_elim | apply keeps_foldl | apply keeps_foldl_fst
          | apply keeps_foldl_fst2 | intro _ | apply keeps_ite | split | refine keeps_of_eq (by assumption) ?_

theorem keeps_readRanges {x0 : State} {x1 : Nat} {x2 : List (Nat × Nat)} {x3 : List Sys2Proof.Upset}
    (h0 : Canonical x0) : Canonical (State.readRanges x0 x1 x2 x3) := by
  unfold State.readRanges; try dsimp only
  repeat'
    with_reducible
      first
      | assumption | apply keeps_takeUpsets | apply keeps_countRead | apply keeps_elim | apply keeps_foldl
          | apply keeps_foldl_fst | apply keeps_foldl_fst2 | intro _ | apply keeps_ite | split
          | refine keeps_of_eq (by assumption) ?_

theorem keeps_executeMcast {x0 : Nat} {x1 : List Sys2Proof.Upset} {x2 : State} (h2 : Canonical x2)
    : Canonical (executeMcast x0 x1 x2) := by
  unfold executeMcast; try dsimp only
  repeat'
    with_reducible
      first
      | assumption | apply keeps_viaHubs | apply keeps_refuseRead | apply keeps_readRanges | apply keeps_updCore
          | apply keeps_noteMessage | apply keeps_useKey | apply keeps_advanceMcast | apply keeps_putActive
          | simp only [canonical_update] | apply keeps_elim | apply keeps_foldl | apply keeps_foldl_fst
          | apply keeps_foldl_fst2 | intro _ | apply keeps_ite | split | refine keeps_of_eq (by assumption) ?_

theorem keeps_streamPass {x0 : State} {x1 : Nat} {x2 : Nat} {x3 : Active} {x4 : Nat}
    {x5 : List (Part × Lines × List (List Nat) × Bool)} {x6 : PairKind} {x7 : Format} {x8 : Format}
    (h0 : Canonical x0) : Canonical (State.streamPass x0 x1 x2 x3 x4 x5 x6 x7 x8) := by
  unfold State.streamPass; try dsimp only
  repeat'
    with_reducible
      first
      | assumption | apply keeps_refuseRead | apply keeps_putActive | apply keeps_updCore | apply keeps_elim
          | apply keeps_foldl | apply keeps_foldl_fst | apply keeps_foldl_fst2 | intro _ | apply keeps_ite | split
          | refine keeps_of_eq (by assumption) ?_

theorem keeps_executeMm {x0 : Nat} {x1 : List Sys2Proof.Upset} {x2 : State} (h2 : Canonical x2)
    : Canonical (executeMm x0 x1 x2) := by
  unfold executeMm; try dsimp only
  repeat'
    with_reducible
      first
      | assumption | apply keeps_viaHubs | apply keeps_readRanges | apply keeps_streamPass | apply keeps_elim
          | apply keeps_foldl | apply keeps_foldl_fst | apply keeps_foldl_fst2 | intro _ | apply keeps_ite | split
          | refine keeps_of_eq (by assumption) ?_

theorem keeps_f64Tiles {x0 : State} {x1 : State} {x2 : Nat} {x3 : Nat} {x4 : Tensor} {x5 : Tensor} {x6 : Tensor}
    {x7 : List (List Num)} {x8 : Bool} (h0 : Canonical x0) (h1 : Canonical x1)
    : Canonical (State.f64Tiles x0 x1 x2 x3 x4 x5 x6 x7 x8).1 := by
  unfold State.f64Tiles; try dsimp only
  repeat'
    with_reducible
      first
      | assumption | apply keeps_putBytes | apply keeps_elim | apply keeps_foldl | apply keeps_foldl_fst
          | apply keeps_foldl_fst2 | intro _ | apply keeps_ite | split | refine keeps_of_eq (by assumption) ?_

theorem keeps_fillWork {x0 : State} {x1 : Nat} {x2 : List Nat} {x3 : Nat} {x4 : Nat} (h0 : Canonical x0)
    : Canonical (State.fillWork x0 x1 x2 x3 x4).1 := by
  unfold State.fillWork; try dsimp only
  repeat'
    with_reducible
      first
      | assumption | apply keeps_putBytes | simp only [canonical_update] | apply keeps_elim | apply keeps_foldl
          | apply keeps_foldl_fst | apply keeps_foldl_fst2 | intro _ | apply keeps_ite | split
          | refine keeps_of_eq (by assumption) ?_

theorem keeps_takeMismatches {x0 : State} {x1 : Nat} {x2 : Nat} {x3 : Active} {x4 : Nat}
    {x5 : List Sys2Proof.Mismatch} (h0 : Canonical x0) : Canonical (State.takeMismatches x0 x1 x2 x3 x4 x5).1 := by
  unfold State.takeMismatches; try dsimp only
  repeat'
    with_reducible
      first
      | assumption | apply keeps_fault | apply keeps_bump | apply keeps_updCore | apply keeps_putActive
          | apply keeps_elim | apply keeps_foldl | apply keeps_foldl_fst | apply keeps_foldl_fst2 | intro _
          | apply keeps_ite | split | refine keeps_of_eq (by assumption) ?_

theorem keeps_viaHubsWith {x0 : State} {x1 : Nat} {x2 : Nat} {x3 : Active} {x4 : List Sys2Proof.Mismatch}
    {x5 : List Nat} {x6 : List Nat} {x7 : State → State} (h0 : Canonical x0)
    (h7_0 : ∀ y0, Canonical y0 → Canonical (x7 y0)) : Canonical (State.viaHubsWith x0 x1 x2 x3 x4 x5 x6 x7) := by
  unfold State.viaHubsWith; try dsimp only
  repeat'
    with_reducible
      first
      | assumption | apply h7_0 | apply keeps_viaHubs | apply keeps_putActive | apply keeps_elim | apply keeps_foldl
          | apply keeps_foldl_fst | apply keeps_foldl_fst2 | intro _ | apply keeps_ite | split
          | refine keeps_of_eq (by assumption) ?_

theorem keeps_executeMmF64 {x0 : Nat} {x1 : List Sys2Proof.Mismatch} {x2 : List Sys2Proof.Upset} {x3 : State}
    (h3 : Canonical x3) : Canonical (executeMmF64 x0 x1 x2 x3) := by
  unfold executeMmF64; try dsimp only
  repeat'
    with_reducible
      first
      | assumption | apply keeps_viaHubsWith | apply keeps_readRanges | apply keeps_refuseRead
          | apply keeps_takeMismatches | apply keeps_fillWork | apply keeps_putActive | apply keeps_f64Tiles
          | apply keeps_endMove | apply keeps_updCore | apply keeps_writeUpsets | apply keeps_elim
          | apply keeps_foldl | apply keeps_foldl_fst | apply keeps_foldl_fst2 | intro _ | apply keeps_ite | split
          | refine keeps_of_eq (by assumption) ?_

theorem keeps_executeMmSeg {x0 : Nat} {x1 : List Sys2Proof.Upset} {x2 : State} (h2 : Canonical x2)
    : Canonical (executeMmSeg x0 x1 x2) := by
  unfold executeMmSeg; try dsimp only
  repeat'
    with_reducible
      first
      | assumption | apply keeps_putActive | apply keeps_viaHubs | apply keeps_readRanges | apply keeps_streamPass
          | apply keeps_elim | apply keeps_foldl | apply keeps_foldl_fst | apply keeps_foldl_fst2 | intro _
          | apply keeps_ite | split | refine keeps_of_eq (by assumption) ?_

theorem keeps_mmwWrite {x0 : State} {x1 : Nat} {x2 : Tensor} {x3 : Fusion} {x4 : Bool} {x5 : Bool}
    {x6 : List (List (Nat × ArithFlags))} {x7 : Nat} {x8 : Nat} {x9 : ArithFlags} (h0 : Canonical x0)
    : Canonical (State.mmwWrite x0 x1 x2 x3 x4 x5 x6 x7 x8 x9).1 := by
  unfold State.mmwWrite; try dsimp only
  repeat'
    with_reducible
      first
      | assumption | apply keeps_putRun | apply keeps_elim | apply keeps_foldl | apply keeps_foldl_fst
          | apply keeps_foldl_fst2 | intro _ | apply keeps_ite | split | refine keeps_of_eq (by assumption) ?_

theorem keeps_executeMmW {x0 : Nat} {x1 : List Sys2Proof.Mismatch} {x2 : List Sys2Proof.Upset} {x3 : State}
    (h3 : Canonical x3) : Canonical (executeMmW x0 x1 x2 x3) := by
  unfold executeMmW; try dsimp only
  repeat'
    with_reducible
      first
      | assumption | apply keeps_viaHubsWith | apply keeps_readRanges | apply keeps_refuseRead
          | apply keeps_takeMismatches | apply keeps_mmwWrite | apply keeps_endMove | apply keeps_writeUpsets
          | apply keeps_elim | apply keeps_foldl | apply keeps_foldl_fst | apply keeps_foldl_fst2 | intro _
          | apply keeps_ite | split | refine keeps_of_eq (by assumption) ?_

theorem keeps_openOp {x0 : State} {x1 : Nat} {x2 : Nat} {x3 : Nat} {x4 : Nat} (h0 : Canonical x0)
    : Canonical (State.openOp x0 x1 x2 x3 x4) := by
  unfold State.openOp; try dsimp only
  repeat'
    with_reducible
      first
      | assumption | simp only [canonical_update] | apply keeps_elim | apply keeps_foldl | apply keeps_foldl_fst
          | apply keeps_foldl_fst2 | intro _ | apply keeps_ite | split | refine keeps_of_eq (by assumption) ?_

theorem keeps_executeReduce {x0 : Nat} {x1 : List Sys2Proof.Upset} {x2 : State} (h2 : Canonical x2)
    : Canonical (executeReduce x0 x1 x2) := by
  unfold executeReduce; try dsimp only
  repeat'
    with_reducible
      first
      | assumption | apply keeps_viaHubs | apply keeps_refuseRead | apply keeps_readRanges | apply keeps_updCore
          | apply keeps_noteMessage | apply keeps_openOp | apply keeps_putActive | apply keeps_advanceOp
          | apply keeps_putOp | apply keeps_elim | apply keeps_foldl | apply keeps_foldl_fst | apply keeps_foldl_fst2
          | intro _ | apply keeps_ite | split | refine keeps_of_eq (by assumption) ?_

theorem keeps_setConn {x0 : State} {x1 : Nat} {x2 : Conn} (h0 : Canonical x0)
    : Canonical (State.setConn x0 x1 x2) := by
  unfold State.setConn; try dsimp only
  repeat'
    with_reducible
      first
      | assumption | simp only [canonical_update] | apply keeps_elim | apply keeps_foldl | apply keeps_foldl_fst
          | apply keeps_foldl_fst2 | intro _ | apply keeps_ite | split | refine keeps_of_eq (by assumption) ?_
          | (simp only [canonical_all]; refine ⟨?_, ?_, ?_, ?_, ?_, ?_, ?_, ?_, ?_, ?_, ?_, ?_, ?_, ?_, ?_, ?_, ?_, ?_, ?_, ?_, ?_, ?_, ?_, ?_, ?_, ?_, ?_⟩)
          | apply rising_map | apply wf_copyInto | apply wf_fold | apply Tab.copyInto_wf | apply rising_fold
          | exact rising_nil | exact wf_nil | exact mem_nil | apply wf_copyRange | apply Tab.copyRange_wf
          | apply wf_clearRange | apply Tab.set_rising | apply Tab.upd_rising | apply Tab.filter_rising
          | apply Tab.set_wf | apply Tab.clearRange_wf | apply Canonical.mem | apply Canonical.poison
          | apply Canonical.sync | apply Canonical.obj | apply Canonical.maq | apply Canonical.cores
          | apply Canonical.objLog | apply Canonical.refusalEvent | apply Canonical.streams | apply Canonical.jobs
          | apply Canonical.sessions | apply Canonical.leftOut | apply Canonical.survivors | apply Canonical.rowLog
          | apply Canonical.conns | apply Canonical.ports | apply Canonical.hubs | apply Canonical.hubResets
          | apply Canonical.txns | apply Canonical.links | apply Canonical.arrived | apply Canonical.channels
          | apply Canonical.tiles | apply Canonical.xcvrs | apply Canonical.monitors | apply Canonical.requests
          | apply Canonical.remoteOverruns

theorem keeps_drawCredit {x0 : State} {x1 : Nat} (h0 : Canonical x0) : Canonical (State.drawCredit x0 x1) := by
  unfold State.drawCredit; try dsimp only
  repeat'
    with_reducible
      first
      | assumption | apply keeps_setConn | simp only [canonical_update] | apply keeps_elim | apply keeps_foldl
          | apply keeps_foldl_fst | apply keeps_foldl_fst2 | intro _ | apply keeps_ite | split
          | refine keeps_of_eq (by assumption) ?_

theorem keeps_updConn {x0 : State} {x1 : Nat} {x2 : Conn → Conn} (h0 : Canonical x0)
    : Canonical (State.updConn x0 x1 x2) := by
  unfold State.updConn; try dsimp only
  repeat'
    with_reducible
      first
      | assumption | apply keeps_setConn | apply keeps_elim | apply keeps_foldl | apply keeps_foldl_fst
          | apply keeps_foldl_fst2 | intro _ | apply keeps_ite | split | refine keeps_of_eq (by assumption) ?_

theorem keeps_beginConn {x0 : State} {x1 : Nat} {x2 : Nat} {x3 : Nat} (h0 : Canonical x0)
    : Canonical (State.beginConn x0 x1 x2 x3) := by
  unfold State.beginConn; try dsimp only
  repeat'
    with_reducible
      first
      | assumption | apply keeps_drawCredit | apply keeps_setConn | apply keeps_updConn
          | simp only [canonical_update] | apply keeps_elim | apply keeps_foldl | apply keeps_foldl_fst
          | apply keeps_foldl_fst2 | intro _ | apply keeps_ite | split | refine keeps_of_eq (by assumption) ?_

theorem keeps_updPort {x0 : State} {x1 : Nat} {x2 : Port → Port} (h0 : Canonical x0)
    : Canonical (State.updPort x0 x1 x2) := by
  unfold State.updPort; try dsimp only
  repeat'
    with_reducible
      first
      | assumption | simp only [canonical_update] | apply keeps_elim | apply keeps_foldl | apply keeps_foldl_fst
          | apply keeps_foldl_fst2 | intro _ | apply keeps_ite | split | refine keeps_of_eq (by assumption) ?_
          | (simp only [canonical_all]; refine ⟨?_, ?_, ?_, ?_, ?_, ?_, ?_, ?_, ?_, ?_, ?_, ?_, ?_, ?_, ?_, ?_, ?_, ?_, ?_, ?_, ?_, ?_, ?_, ?_, ?_, ?_, ?_⟩)
          | apply rising_map | apply wf_copyInto | apply wf_fold | apply Tab.copyInto_wf | apply rising_fold
          | exact rising_nil | exact wf_nil | exact mem_nil | apply wf_copyRange | apply Tab.copyRange_wf
          | apply wf_clearRange | apply Tab.set_rising | apply Tab.upd_rising | apply Tab.filter_rising
          | apply Tab.set_wf | apply Tab.clearRange_wf | apply Canonical.mem | apply Canonical.poison
          | apply Canonical.sync | apply Canonical.obj | apply Canonical.maq | apply Canonical.cores
          | apply Canonical.objLog | apply Canonical.refusalEvent | apply Canonical.streams | apply Canonical.jobs
          | apply Canonical.sessions | apply Canonical.leftOut | apply Canonical.survivors | apply Canonical.rowLog
          | apply Canonical.conns | apply Canonical.ports | apply Canonical.hubs | apply Canonical.hubResets
          | apply Canonical.txns | apply Canonical.links | apply Canonical.arrived | apply Canonical.channels
          | apply Canonical.tiles | apply Canonical.xcvrs | apply Canonical.monitors | apply Canonical.requests
          | apply Canonical.remoteOverruns

theorem keeps_transmit {x0 : State} {x1 : Nat} {x2 : Sys2Proof.CtpPacket} (h0 : Canonical x0)
    : Canonical (State.transmit x0 x1 x2) := by
  unfold State.transmit; try dsimp only
  repeat'
    with_reducible
      first
      | assumption | apply keeps_updPort | apply keeps_emit | apply keeps_elim | apply keeps_foldl
          | apply keeps_foldl_fst | apply keeps_foldl_fst2 | intro _ | apply keeps_ite | split
          | refine keeps_of_eq (by assumption) ?_

theorem keeps_sendPacket {x0 : State} {x1 : Nat} {x2 : Nat} {x3 : Nat} {x4 : Nat} {x5 : Nat} {x6 : Nat}
    {x7 : Sys2Proof.Bytes} (h0 : Canonical x0) : Canonical (State.sendPacket x0 x1 x2 x3 x4 x5 x6 x7) := by
  unfold State.sendPacket; try dsimp only
  repeat'
    with_reducible
      first
      | assumption | apply keeps_updConn | apply keeps_transmit | apply keeps_elim | apply keeps_foldl
          | apply keeps_foldl_fst | apply keeps_foldl_fst2 | intro _ | apply keeps_ite | split
          | refine keeps_of_eq (by assumption) ?_

theorem keeps_connTo {x0 : State} {x1 : Nat} (h0 : Canonical x0) : Canonical (State.connTo x0 x1).1 := by
  unfold State.connTo; try dsimp only
  repeat'
    with_reducible
      first
      | assumption | apply keeps_beginConn | apply keeps_sendPacket | apply keeps_elim | apply keeps_foldl
          | apply keeps_foldl_fst | apply keeps_foldl_fst2 | intro _ | apply keeps_ite | split
          | refine keeps_of_eq (by assumption) ?_

theorem keeps_sendOne {x0 : State} {x1 : Nat} {x2 : Message} (h0 : Canonical x0)
    : Canonical (State.sendOne x0 x1 x2) := by
  unfold State.sendOne; try dsimp only
  repeat'
    with_reducible
      first
      | assumption | apply keeps_updConn | apply keeps_sendPacket | apply keeps_elim | apply keeps_foldl
          | apply keeps_foldl_fst | apply keeps_foldl_fst2 | intro _ | apply keeps_ite | split
          | refine keeps_of_eq (by assumption) ?_

theorem keeps_pump {x0 : State} {x1 : Nat} (h0 : Canonical x0) : Canonical (State.pump x0 x1) := by
  unfold State.pump; try dsimp only
  repeat'
    with_reducible
      first
      | assumption | apply keeps_setConn | apply keeps_sendOne | apply keeps_elim | apply keeps_foldl
          | apply keeps_foldl_fst | apply keeps_foldl_fst2 | intro _ | apply keeps_ite | split
          | refine keeps_of_eq (by assumption) ?_

theorem keeps_queueMessage {x0 : State} {x1 : Nat} {x2 : Nat} {x3 : Nat} {x4 : Nat} {x5 : Sys2Proof.Bytes}
    (h0 : Canonical x0) : Canonical (State.queueMessage x0 x1 x2 x3 x4 x5).1 := by
  unfold State.queueMessage; try dsimp only
  repeat'
    with_reducible
      first
      | assumption | apply keeps_pump | apply keeps_setConn | apply keeps_elim | apply keeps_foldl
          | apply keeps_foldl_fst | apply keeps_foldl_fst2 | intro _ | apply keeps_ite | split
          | refine keeps_of_eq (by assumption) ?_

theorem keeps_queueAll {x0 : State} {x1 : Nat} {x2 : Nat} {x3 : Nat} {x4 : Nat}
    {x5 : List (Nat × Nat × Sys2Proof.Bytes)} (h0 : Canonical x0)
    : Canonical (State.queueAll x0 x1 x2 x3 x4 x5).1 := by
  unfold State.queueAll; try dsimp only
  repeat'
    with_reducible
      first
      | assumption | apply keeps_queueMessage | apply keeps_elim | apply keeps_foldl | apply keeps_foldl_fst
          | apply keeps_foldl_fst2 | intro _ | apply keeps_ite | split | refine keeps_of_eq (by assumption) ?_

theorem keeps_scatter {x0 : State} {x1 : Nat} {x2 : Tensor} {x3 : Nat} {x4 : Sys2Proof.Bytes} (h0 : Canonical x0)
    : Canonical (State.scatter x0 x1 x2 x3 x4).1 := by
  unfold State.scatter; try dsimp only
  repeat'
    with_reducible
      first
      | assumption | apply keeps_putBytes | apply keeps_elim | apply keeps_foldl | apply keeps_foldl_fst
          | apply keeps_foldl_fst2 | intro _ | apply keeps_ite | split | refine keeps_of_eq (by assumption) ?_

theorem keeps_winStore {x0 : State} {x1 : Nat} {x2 : Nat} {x3 : Sys2Proof.Bytes} (h0 : Canonical x0)
    : Canonical (State.winStore x0 x1 x2 x3) := by
  unfold State.winStore; try dsimp only
  repeat'
    with_reducible
      first
      | assumption | apply keeps_storePlaces | apply keeps_elim | apply keeps_foldl | apply keeps_foldl_fst
          | apply keeps_foldl_fst2 | intro _ | apply keeps_ite | split | refine keeps_of_eq (by assumption) ?_

theorem keeps_logPoisonEnding {x0 : State} {x1 : Nat} {x2 : Nat} {x3 : Nat} (h0 : Canonical x0)
    : Canonical (State.logPoisonEnding x0 x1 x2 x3) := by
  unfold State.logPoisonEnding; try dsimp only
  repeat'
    with_reducible
      first
      | assumption | apply keeps_fault | apply keeps_elim | apply keeps_foldl | apply keeps_foldl_fst
          | apply keeps_foldl_fst2 | intro _ | apply keeps_ite | split | refine keeps_of_eq (by assumption) ?_

theorem keeps_egressByAccess {x0 : State} {x1 : Nat} {x2 : Nat} {x3 : Nat} (h0 : Canonical x0)
    : Canonical (State.egressByAccess x0 x1 x2 x3) := by
  unfold State.egressByAccess; try dsimp only
  repeat'
    with_reducible
      first
      | assumption | apply keeps_bump | apply keeps_logPoisonEnding | apply keeps_coreError | apply keeps_setJobState
          | apply keeps_elim | apply keeps_foldl | apply keeps_foldl_fst | apply keeps_foldl_fst2 | intro _
          | apply keeps_ite | split | refine keeps_of_eq (by assumption) ?_

theorem keeps_logRefusal {x0 : State} {x1 : WinAccess} {x2 : Nat} {x3 : Nat} (h0 : Canonical x0)
    : Canonical (State.logRefusal x0 x1 x2 x3) := by
  unfold State.logRefusal; try dsimp only
  repeat'
    with_reducible
      first
      | assumption | apply keeps_bump | apply keeps_event | simp only [canonical_update] | apply keeps_elim
          | apply keeps_foldl | apply keeps_foldl_fst | apply keeps_foldl_fst2 | intro _ | apply keeps_ite | split
          | refine keeps_of_eq (by assumption) ?_
          | (simp only [canonical_all]; refine ⟨?_, ?_, ?_, ?_, ?_, ?_, ?_, ?_, ?_, ?_, ?_, ?_, ?_, ?_, ?_, ?_, ?_, ?_, ?_, ?_, ?_, ?_, ?_, ?_, ?_, ?_, ?_⟩)
          | apply rising_map | apply wf_copyInto | apply wf_fold | apply Tab.copyInto_wf | apply rising_fold
          | exact rising_nil | exact wf_nil | exact mem_nil | apply wf_copyRange | apply Tab.copyRange_wf
          | apply wf_clearRange | apply Tab.set_rising | apply Tab.upd_rising | apply Tab.filter_rising
          | apply Tab.set_wf | apply Tab.clearRange_wf | apply Canonical.mem | apply Canonical.poison
          | apply Canonical.sync | apply Canonical.obj | apply Canonical.maq | apply Canonical.cores
          | apply Canonical.objLog | apply Canonical.refusalEvent | apply Canonical.streams | apply Canonical.jobs
          | apply Canonical.sessions | apply Canonical.leftOut | apply Canonical.survivors | apply Canonical.rowLog
          | apply Canonical.conns | apply Canonical.ports | apply Canonical.hubs | apply Canonical.hubResets
          | apply Canonical.txns | apply Canonical.links | apply Canonical.arrived | apply Canonical.channels
          | apply Canonical.tiles | apply Canonical.xcvrs | apply Canonical.monitors | apply Canonical.requests
          | apply Canonical.remoteOverruns

end Sys2Proof.Machine
end

