-- ==== Sys2Proof/Laws/Keeps3.lean ====
section
/-! SUPPORT.  What keeps the canonical form, part 3: one lemma per shared operation, from
windowAdmit to trainIn (of a pair: its state). -/
namespace Sys2Proof.Machine
open Sys2Proof

theorem keeps_windowAdmit {x0 : State} {x1 : WinAccess} (h0 : Canonical x0)
    : Canonical (State.windowAdmit x0 x1).1 := by
  unfold State.windowAdmit; try dsimp only
  repeat'
    with_reducible
      first
      | assumption | apply keeps_logRefusal | apply keeps_bump | apply keeps_egressByAccess | apply keeps_elim
          | apply keeps_foldl | apply keeps_foldl_fst | apply keeps_foldl_fst2 | intro _ | apply keeps_ite | split
          | refine keeps_of_eq (by assumption) ?_

theorem keeps_windowPacket {x0 : State} {x1 : WinAccess} {x2 : Sys2Proof.Bytes} {x3 : Option Nat}
    {x4 : List Sys2Proof.Upset} (h0 : Canonical x0) : Canonical (State.windowPacket x0 x1 x2 x3 x4).1 := by
  unfold State.windowPacket; try dsimp only
  repeat'
    with_reducible
      first
      | assumption | apply keeps_findUpsets | apply keeps_windowAdmit | apply keeps_countRead
          | apply keeps_writeUpsets | apply keeps_winStore | apply keeps_elim | apply keeps_foldl
          | apply keeps_foldl_fst | apply keeps_foldl_fst2 | intro _ | apply keeps_ite | split
          | refine keeps_of_eq (by assumption) ?_

theorem keeps_windowAccess {x0 : State} {x1 : WinAccess} {x2 : Sys2Proof.Bytes} {x3 : Option Nat}
    {x4 : List Sys2Proof.Upset} (h0 : Canonical x0) : Canonical (State.windowAccess x0 x1 x2 x3 x4).1 := by
  unfold State.windowAccess; try dsimp only
  repeat'
    with_reducible
      first
      | assumption | apply keeps_windowPacket | apply keeps_elim | apply keeps_foldl | apply keeps_foldl_fst
          | apply keeps_foldl_fst2 | intro _ | apply keeps_ite | split | refine keeps_of_eq (by assumption) ?_

theorem keeps_readOwn {x0 : State} {x1 : Nat} {x2 : Nat} {x3 : Tensor} {x4 : Nat} {x5 : List Sys2Proof.Upset}
    {x6 : List (Nat × Nat)} (h0 : Canonical x0) : Canonical (State.readOwn x0 x1 x2 x3 x4 x5 x6).1 := by
  induction x6 generalizing x0 with
  | nil => unfold State.readOwn; assumption
  | cons _ _ ih =>
    unfold State.readOwn; try dsimp only
    repeat'
      with_reducible
        first
        | assumption | apply ih | apply keeps_windowAccess | apply keeps_scatter
        | simp only [canonical_update] | apply keeps_foldl | apply keeps_foldl_fst | apply keeps_foldl_fst2 | intro _ | split | refine keeps_of_eq (by assumption) ?_

theorem keeps_executeRread {x0 : Nat} {x1 : List Sys2Proof.Upset} {x2 : State} (h2 : Canonical x2)
    : Canonical (executeRread x0 x1 x2) := by
  unfold executeRread; try dsimp only
  repeat'
    with_reducible
      first
      | assumption | apply keeps_viaHubs | apply keeps_connTo | apply keeps_noteMessage | apply keeps_readOwn
          | apply keeps_putActive | apply keeps_queueAll | apply keeps_elim | apply keeps_foldl
          | apply keeps_foldl_fst | apply keeps_foldl_fst2 | intro _ | apply keeps_ite | split
          | refine keeps_of_eq (by assumption) ?_

theorem keeps_writeOwn {x0 : State} {x1 : Nat} {x2 : Nat} {x3 : Nat} {x4 : Option Nat} {x5 : List Sys2Proof.Upset}
    {x6 : List (Nat × Sys2Proof.Bytes)} (h0 : Canonical x0) : Canonical (State.writeOwn x0 x1 x2 x3 x4 x5 x6).1 := by
  induction x6 generalizing x0 with
  | nil => unfold State.writeOwn; assumption
  | cons _ _ ih =>
    unfold State.writeOwn; try dsimp only
    repeat'
      with_reducible
        first
        | assumption | apply ih | apply keeps_windowAccess
        | simp only [canonical_update] | apply keeps_foldl | apply keeps_foldl_fst | apply keeps_foldl_fst2 | intro _ | split | refine keeps_of_eq (by assumption) ?_

theorem keeps_executeRwrite {x0 : Nat} {x1 : List Sys2Proof.Upset} {x2 : State} (h2 : Canonical x2)
    : Canonical (executeRwrite x0 x1 x2) := by
  unfold executeRwrite; try dsimp only
  repeat'
    with_reducible
      first
      | assumption | apply keeps_viaHubs | apply keeps_refuseRead | apply keeps_readRanges | apply keeps_connTo
          | apply keeps_noteMessage | apply keeps_writeOwn | apply keeps_putActive | apply keeps_queueAll
          | apply keeps_elim | apply keeps_foldl | apply keeps_foldl_fst | apply keeps_foldl_fst2 | intro _
          | apply keeps_ite | split | refine keeps_of_eq (by assumption) ?_

theorem keeps_executeSend {x0 : Nat} {x1 : List Sys2Proof.Upset} {x2 : State} (h2 : Canonical x2)
    : Canonical (executeSend x0 x1 x2) := by
  unfold executeSend; try dsimp only
  repeat'
    with_reducible
      first
      | assumption | apply keeps_viaHubs | apply keeps_takeUpsets | apply keeps_moveTensor | apply keeps_markForeign
          | apply keeps_noteMessage | apply keeps_endMove | apply keeps_writeUpsets | apply keeps_elim
          | apply keeps_foldl | apply keeps_foldl_fst | apply keeps_foldl_fst2 | intro _ | apply keeps_ite | split
          | refine keeps_of_eq (by assumption) ?_

theorem keeps_executeWload {x0 : Nat} {x1 : List Sys2Proof.Upset} {x2 : State} (h2 : Canonical x2)
    : Canonical (executeWload x0 x1 x2) := by
  unfold executeWload; try dsimp only
  repeat'
    with_reducible
      first
      | assumption | apply keeps_viaHubs | apply keeps_readRanges | apply keeps_refuseRead | apply keeps_putActive
          | apply keeps_updCore | apply keeps_elim | apply keeps_foldl | apply keeps_foldl_fst
          | apply keeps_foldl_fst2 | intro _ | apply keeps_ite | split | refine keeps_of_eq (by assumption) ?_

theorem keeps_putFreeRun {x0 : State} {x1 : Nat} {x2 : Nat} {x3 : List Nat} {x4 : Tensor} {x5 : Idx} {x6 : Bool}
    (h0 : Canonical x0) : Canonical (State.putFreeRun x0 x1 x2 x3 x4 x5 x6).1 := by
  unfold State.putFreeRun; try dsimp only
  repeat'
    with_reducible
      first
      | assumption | apply keeps_putBytes | apply keeps_elim | apply keeps_foldl | apply keeps_foldl_fst
          | apply keeps_foldl_fst2 | intro _ | apply keeps_ite | split | refine keeps_of_eq (by assumption) ?_

theorem keeps_putComputed {x0 : State} {x1 : Nat} {x2 : Nat} {x3 : Tensor} {x4 : Rounding} {x5 : Bool}
    {x6 : Option (List Nat)} {x7 : Idx → List (Nat × Nat)} {x8 : State → Idx → List Computed} (h0 : Canonical x0)
    : Canonical (State.putComputed x0 x1 x2 x3 x4 x5 x6 x7 x8).1 := by
  unfold State.putComputed; try dsimp only
  repeat'
    with_reducible
      first
      | assumption | apply keeps_countClosed | apply keeps_putFreeRun | apply keeps_putRun | apply keeps_useKey
          | apply keeps_elim | apply keeps_foldl | apply keeps_foldl_fst | apply keeps_foldl_fst2 | intro _
          | apply keeps_ite | split | refine keeps_of_eq (by assumption) ?_

theorem keeps_fuseOut {x0 : Nat} {x1 : List Sys2Proof.Upset} {x2 : State} (h2 : Canonical x2)
    : Canonical (fuseOut x0 x1 x2) := by
  unfold fuseOut; try dsimp only
  repeat'
    with_reducible
      first
      | assumption | apply keeps_viaHubs | apply keeps_readRanges | apply keeps_refuseRead | apply keeps_putComputed
          | apply keeps_endMove | apply keeps_writeUpsets | apply keeps_elim | apply keeps_foldl
          | apply keeps_foldl_fst | apply keeps_foldl_fst2 | intro _ | apply keeps_ite | split
          | refine keeps_of_eq (by assumption) ?_

theorem keeps_dropPass {x0 : State} {x1 : Nat} {x2 : Nat} (h0 : Canonical x0)
    : Canonical (State.dropPass x0 x1 x2) := by
  unfold State.dropPass; try dsimp only
  repeat'
    with_reducible
      first
      | assumption | apply keeps_settleStop | apply keeps_updCore | apply keeps_elim | apply keeps_foldl
          | apply keeps_foldl_fst | apply keeps_foldl_fst2 | intro _ | apply keeps_ite | split
          | refine keeps_of_eq (by assumption) ?_

theorem keeps_leaveArea {x0 : State} {x1 : List Nat} {x2 : List (Nat × Nat)} (h0 : Canonical x0)
    : Canonical (State.leaveArea x0 x1 x2) := by
  unfold State.leaveArea; try dsimp only
  repeat'
    with_reducible
      first
      | assumption | apply keeps_setBytes | simp only [canonical_update] | apply keeps_elim | apply keeps_foldl
          | apply keeps_foldl_fst | apply keeps_foldl_fst2 | intro _ | apply keeps_ite | split
          | refine keeps_of_eq (by assumption) ?_

theorem keeps_afterDrain {x0 : State} {x1 : Nat} {x2 : Nat} {x3 : Active} {x4 : Nat} {x5 : Option AccErr}
    {x6 : ArithFlags} {x7 : Tab (Option Nat)} (h0 : Canonical x0)
    : Canonical (State.afterDrain x0 x1 x2 x3 x4 x5 x6 x7) := by
  unfold State.afterDrain; try dsimp only
  repeat'
    with_reducible
      first
      | assumption | apply keeps_updCore | apply keeps_putActive | apply keeps_leaveArea | apply keeps_elim
          | apply keeps_foldl | apply keeps_foldl_fst | apply keeps_foldl_fst2 | intro _ | apply keeps_ite | split
          | refine keeps_of_eq (by assumption) ?_

theorem keeps_putOutputs {x0 : State} {x1 : Nat} {x2 : Tensor} {x3 : OutRec} {x4 : Bool} {x5 : Nat} {x6 : Nat}
    {x7 : Tab (Option Nat)} {x8 : List OutElem} (h0 : Canonical x0)
    : Canonical (State.putOutputs x0 x1 x2 x3 x4 x5 x6 x7 x8).1 := by
  unfold State.putOutputs; try dsimp only
  repeat'
    with_reducible
      first
      | assumption | apply keeps_putPlainRun | apply keeps_putBlock | apply keeps_elim | apply keeps_foldl
          | apply keeps_foldl_fst | apply keeps_foldl_fst2 | intro _ | apply keeps_ite | split
          | refine keeps_of_eq (by assumption) ?_

theorem keeps_drainRow {x0 : State} {x1 : Nat} {x2 : Tensor} {x3 : Fusion} {x4 : List TabEntry} {x5 : Bool}
    {x6 : Part} {x7 : Nat} {x8 : Nat} {x9 : Tab Nat} {x10 : Bool} {x11 : Tab (Option Nat)} (h0 : Canonical x0)
    : Canonical (State.drainRow x0 x1 x2 x3 x4 x5 x6 x7 x8 x9 x10 x11).1 := by
  unfold State.drainRow; try dsimp only
  repeat'
    with_reducible
      first
      | assumption | apply keeps_putOutputs | apply keeps_elim | apply keeps_foldl | apply keeps_foldl_fst
          | apply keeps_foldl_fst2 | intro _ | apply keeps_ite | split | refine keeps_of_eq (by assumption) ?_

theorem keeps_handOver {x0 : State} {x1 : Nat} (h0 : Canonical x0) : Canonical (State.handOver x0 x1) := by
  unfold State.handOver; try dsimp only
  repeat'
    with_reducible
      first
      | assumption | apply keeps_updCore | apply keeps_elim | apply keeps_foldl | apply keeps_foldl_fst
          | apply keeps_foldl_fst2 | intro _ | apply keeps_ite | split | refine keeps_of_eq (by assumption) ?_

theorem keeps_drainOut {x0 : State} {x1 : Nat} {x2 : Nat} {x3 : Active} {x4 : Tensor} {x5 : Fusion} {x6 : Bool}
    {x7 : Nat} {x8 : List Part} {x9 : Part → Nat → Nat} {x10 : List Sys2Proof.Upset} (h0 : Canonical x0)
    : Canonical (State.drainOut x0 x1 x2 x3 x4 x5 x6 x7 x8 x9 x10) := by
  unfold State.drainOut; try dsimp only
  repeat'
    with_reducible
      first
      | assumption | apply keeps_readRanges | apply keeps_handOver | apply keeps_afterDrain | apply keeps_countClosed
          | apply keeps_drainRow | apply keeps_writeUpsets | apply keeps_elim | apply keeps_foldl
          | apply keeps_foldl_fst | apply keeps_foldl_fst2 | intro _ | apply keeps_ite | split
          | refine keeps_of_eq (by assumption) ?_

theorem keeps_drainPsum {x0 : State} {x1 : Nat} {x2 : Nat} {x3 : Nat} {x4 : PairKind} {x5 : Part} {x6 : Nat}
    {x7 : Tab Nat} {x8 : Bool} (h0 : Canonical x0) : Canonical (State.drainPsum x0 x1 x2 x3 x4 x5 x6 x7 x8).1 := by
  unfold State.drainPsum; try dsimp only
  repeat'
    with_reducible
      first
      | assumption | apply keeps_putBytes | apply keeps_elim | apply keeps_foldl | apply keeps_foldl_fst
          | apply keeps_foldl_fst2 | intro _ | apply keeps_ite | split | refine keeps_of_eq (by assumption) ?_

theorem keeps_endMmPass {x0 : State} {x1 : Nat} {x2 : Nat} {x3 : Active} {x4 : List Sys2Proof.Mismatch}
    {x5 : List Sys2Proof.Upset} (h0 : Canonical x0) : Canonical (State.endMmPass x0 x1 x2 x3 x4 x5) := by
  unfold State.endMmPass; try dsimp only
  repeat'
    with_reducible
      first
      | assumption | apply keeps_viaHubsWith | apply keeps_takeMismatches | apply keeps_drainOut
          | apply keeps_handOver | apply keeps_drainPsum | apply keeps_afterDrain | apply keeps_eachUntil
          | apply keeps_elim | apply keeps_foldl | apply keeps_foldl_fst | apply keeps_foldl_fst2 | intro _
          | apply keeps_ite | split | refine keeps_of_eq (by assumption) ?_

theorem keeps_endSegPass {x0 : State} {x1 : Nat} {x2 : Nat} {x3 : Active} {x4 : List Sys2Proof.Mismatch}
    {x5 : List Sys2Proof.Upset} (h0 : Canonical x0) : Canonical (State.endSegPass x0 x1 x2 x3 x4 x5) := by
  unfold State.endSegPass; try dsimp only
  repeat'
    with_reducible
      first
      | assumption | apply keeps_viaHubsWith | apply keeps_takeMismatches | apply keeps_drainOut | apply keeps_elim
          | apply keeps_foldl | apply keeps_foldl_fst | apply keeps_foldl_fst2 | intro _ | apply keeps_ite | split
          | refine keeps_of_eq (by assumption) ?_

theorem keeps_passEnd {x0 : Nat} {x1 : List Sys2Proof.Mismatch} {x2 : List Sys2Proof.Upset} {x3 : State}
    (h3 : Canonical x3) : Canonical (passEnd x0 x1 x2 x3) := by
  unfold passEnd; try dsimp only
  repeat'
    with_reducible
      first
      | assumption | apply keeps_dropPass | apply keeps_endMmPass | apply keeps_endSegPass | apply keeps_elim
          | apply keeps_foldl | apply keeps_foldl_fst | apply keeps_foldl_fst2 | intro _ | apply keeps_ite | split
          | refine keeps_of_eq (by assumption) ?_

theorem keeps_seqDone {x0 : State} {x1 : Nat} {x2 : Active} (h0 : Canonical x0)
    : Canonical (State.seqDone x0 x1 x2) := by
  unfold State.seqDone; try dsimp only
  repeat'
    with_reducible
      first
      | assumption | apply keeps_setStarted | apply keeps_elim | apply keeps_foldl | apply keeps_foldl_fst
          | apply keeps_foldl_fst2 | intro _ | apply keeps_ite | split | refine keeps_of_eq (by assumption) ?_

theorem keeps_withSeq {x0 : State} {x1 : Nat} {x2 : Nat} {x3 : Active → State → State} (h0 : Canonical x0)
    (h3_0 : ∀ y0 y1, Canonical y1 → Canonical (x3 y0 y1)) : Canonical (State.withSeq x0 x1 x2 x3) := by
  unfold State.withSeq; try dsimp only
  repeat'
    with_reducible
      first
      | assumption | apply h3_0 | apply keeps_elim | apply keeps_foldl | apply keeps_foldl_fst
          | apply keeps_foldl_fst2 | intro _ | apply keeps_ite | split | refine keeps_of_eq (by assumption) ?_

theorem keeps_seqTimestamp {x0 : Nat} {x1 : State} (h1 : Canonical x1) : Canonical (seqTimestamp x0 x1) := by
  unfold seqTimestamp; try dsimp only
  repeat'
    with_reducible
      first
      | assumption | apply keeps_withSeq | apply keeps_viaHubs | apply keeps_putBytes | apply keeps_seqDone
          | apply keeps_setStarted | apply keeps_elim | apply keeps_foldl | apply keeps_foldl_fst
          | apply keeps_foldl_fst2 | intro _ | apply keeps_ite | split | refine keeps_of_eq (by assumption) ?_

theorem keeps_vectorVop {x0 : Nat} {x1 : List Sys2Proof.Upset} {x2 : State} (h2 : Canonical x2)
    : Canonical (vectorVop x0 x1 x2) := by
  unfold vectorVop; try dsimp only
  repeat'
    with_reducible
      first
      | assumption | apply keeps_viaHubs | apply keeps_readRanges | apply keeps_putComputed | apply keeps_endMove
          | apply keeps_writeUpsets | apply keeps_elim | apply keeps_foldl | apply keeps_foldl_fst
          | apply keeps_foldl_fst2 | intro _ | apply keeps_ite | split | refine keeps_of_eq (by assumption) ?_

theorem keeps_vectorVred {x0 : Nat} {x1 : List Sys2Proof.Upset} {x2 : State} (h2 : Canonical x2)
    : Canonical (vectorVred x0 x1 x2) := by
  unfold vectorVred; try dsimp only
  repeat'
    with_reducible
      first
      | assumption | apply keeps_viaHubs | apply keeps_readRanges | apply keeps_putComputed | apply keeps_endMove
          | apply keeps_writeUpsets | apply keeps_elim | apply keeps_foldl | apply keeps_foldl_fst
          | apply keeps_foldl_fst2 | intro _ | apply keeps_ite | split | refine keeps_of_eq (by assumption) ?_

theorem keeps_vtabRun {x0 : State} {x1 : Nat} {x2 : Tensor} {x3 : Tensor} {x4 : Tensor} {x5 : Option (List Nat)}
    {x6 : Idx} (h0 : Canonical x0) : Canonical (State.vtabRun x0 x1 x2 x3 x4 x5 x6).1 := by
  unfold State.vtabRun; try dsimp only
  repeat'
    with_reducible
      first
      | assumption | apply keeps_countClosed | apply keeps_putPacked | apply keeps_elim | apply keeps_foldl
          | apply keeps_foldl_fst | apply keeps_foldl_fst2 | intro _ | apply keeps_ite | split
          | refine keeps_of_eq (by assumption) ?_

theorem keeps_vectorVtab {x0 : Nat} {x1 : List Sys2Proof.Upset} {x2 : State} (h2 : Canonical x2)
    : Canonical (vectorVtab x0 x1 x2) := by
  unfold vectorVtab; try dsimp only
  repeat'
    with_reducible
      first
      | assumption | apply keeps_viaHubs | apply keeps_readRanges | apply keeps_vtabRun | apply keeps_writeUpsets
          | apply keeps_useKey | apply keeps_putActive | apply keeps_endMove | apply keeps_elim | apply keeps_foldl
          | apply keeps_foldl_fst | apply keeps_foldl_fst2 | intro _ | apply keeps_ite | split
          | refine keeps_of_eq (by assumption) ?_

theorem keeps_runEngine {x0 : Nat} {x1 : Nat} {x2 : State} (h2 : Canonical x2) : Canonical (runEngine x0 x1 x2) := by
  unfold runEngine; try dsimp only
  repeat'
    with_reducible
      first
      | assumption | apply keeps_commandFetch | apply keeps_seqTimestamp | apply keeps_accessMove
          | apply keeps_accessGather | apply keeps_passEnd | apply keeps_executeMm | apply keeps_executeMmSeg
          | apply keeps_executeWload | apply keeps_executeMmW | apply keeps_executeMmF64 | apply keeps_fuseOut
          | apply keeps_vectorVop | apply keeps_vectorVred | apply keeps_vectorVtab | apply keeps_executeSend
          | apply keeps_executeMcast | apply keeps_advanceGroups | apply keeps_executeReduce
          | apply keeps_executeRwrite | apply keeps_executeRread | apply keeps_elim | apply keeps_foldl
          | apply keeps_foldl_fst | apply keeps_foldl_fst2 | intro _ | apply keeps_ite | split
          | refine keeps_of_eq (by assumption) ?_

theorem keeps_atHub {x0 : State} {x1 : Nat} {x2 : Txn} (h0 : Canonical x0) : Canonical (State.atHub x0 x1 x2) := by
  unfold State.atHub; try dsimp only
  repeat'
    with_reducible
      first
      | assumption | apply keeps_runEngine | apply keeps_setTxn | apply keeps_elim | apply keeps_foldl
          | apply keeps_foldl_fst | apply keeps_foldl_fst2 | intro _ | apply keeps_ite | split
          | refine keeps_of_eq (by assumption) ?_

theorem keeps_retryBackoffExpiry {x0 : Nat} {x1 : State} (h1 : Canonical x1)
    : Canonical (retryBackoffExpiry x0 x1) := by
  unfold retryBackoffExpiry; try dsimp only
  repeat'
    with_reducible
      first
      | assumption | apply keeps_atHub | apply keeps_elim | apply keeps_foldl | apply keeps_foldl_fst
          | apply keeps_foldl_fst2 | intro _ | apply keeps_ite | split | refine keeps_of_eq (by assumption) ?_

theorem keeps_linkRetryTimeout {x0 : Nat} {x1 : Nat} {x2 : State} (h2 : Canonical x2)
    : Canonical (linkRetryTimeout x0 x1 x2) := by
  unfold linkRetryTimeout; try dsimp only
  repeat'
    with_reducible
      first
      | assumption | apply keeps_updLink | apply keeps_bump | apply keeps_elim | apply keeps_foldl
          | apply keeps_foldl_fst | apply keeps_foldl_fst2 | intro _ | apply keeps_ite | split
          | refine keeps_of_eq (by assumption) ?_

theorem keeps_askRoutes {x0 : State} (h0 : Canonical x0) : Canonical (State.askRoutes x0) := by
  unfold State.askRoutes; try dsimp only
  repeat'
    with_reducible
      first
      | assumption | simp only [canonical_update] | apply keeps_elim | apply keeps_foldl | apply keeps_foldl_fst
          | apply keeps_foldl_fst2 | intro _ | apply keeps_ite | split | refine keeps_of_eq (by assumption) ?_

theorem keeps_endLost {x0 : State} (h0 : Canonical x0) : Canonical (State.endLost x0) := by
  unfold State.endLost; try dsimp only
  repeat'
    with_reducible
      first
      | assumption | apply keeps_failWaiting | simp only [canonical_update] | apply keeps_elim | apply keeps_foldl
          | apply keeps_foldl_fst | apply keeps_foldl_fst2 | intro _ | apply keeps_ite | split
          | refine keeps_of_eq (by assumption) ?_
          | (simp only [canonical_all]; refine ⟨?_, ?_, ?_, ?_, ?_, ?_, ?_, ?_, ?_, ?_, ?_, ?_, ?_, ?_, ?_, ?_, ?_, ?_, ?_, ?_, ?_, ?_, ?_, ?_, ?_, ?_, ?_⟩)
          | apply rising_map | apply wf_copyInto | apply wf_fold | apply Tab.copyInto_wf | apply rising_fold
          | exact rising_nil | exact wf_nil | exact mem_nil | apply wf_copyRange | apply Tab.copyRange_wf
          | apply wf_clearRange | apply Tab.set_rising | apply Tab.upd_rising | apply Tab.filter_rising
          | apply Tab.set_wf | apply Tab.clearRange_wf | apply Canonical.mem | apply Canonical.poison
          | apply Canonical.sync | apply Canonical.obj | apply Canonical.maq | apply Canonical.cores
          | apply Canonical.objLog | apply Canonical.refusalEvent | apply Canonical.streams | apply Canonical.jobs
          | apply Canonical.sessions | apply Canonical.leftOut | apply Canonical.survivors | apply Canonical.rowLog
          | apply Canonical.conns | apply Canonical.ports | apply Canonical.hubs | apply Canonical.hubResets
          | apply Canonical.txns | apply Canonical.links | apply Canonical.arrived | apply Canonical.channels
          | apply Canonical.tiles | apply Canonical.xcvrs | apply Canonical.monitors | apply Canonical.requests
          | apply Canonical.remoteOverruns

theorem keeps_loseFlits {x0 : State} {x1 : Nat} (h0 : Canonical x0) : Canonical (State.loseFlits x0 x1) := by
  unfold State.loseFlits; try dsimp only
  repeat'
    with_reducible
      first
      | assumption | apply keeps_updLink | simp only [canonical_update] | apply keeps_elim | apply keeps_foldl
          | apply keeps_foldl_fst | apply keeps_foldl_fst2 | intro _ | apply keeps_ite | split
          | refine keeps_of_eq (by assumption) ?_
          | (simp only [canonical_all]; refine ⟨?_, ?_, ?_, ?_, ?_, ?_, ?_, ?_, ?_, ?_, ?_, ?_, ?_, ?_, ?_, ?_, ?_, ?_, ?_, ?_, ?_, ?_, ?_, ?_, ?_, ?_, ?_⟩)
          | apply rising_map | apply wf_copyInto | apply wf_fold | apply Tab.copyInto_wf | apply rising_fold
          | exact rising_nil | exact wf_nil | exact mem_nil | apply wf_copyRange | apply Tab.copyRange_wf
          | apply wf_clearRange | apply Tab.set_rising | apply Tab.upd_rising | apply Tab.filter_rising
          | apply Tab.set_wf | apply Tab.clearRange_wf | apply Canonical.mem | apply Canonical.poison
          | apply Canonical.sync | apply Canonical.obj | apply Canonical.maq | apply Canonical.cores
          | apply Canonical.objLog | apply Canonical.refusalEvent | apply Canonical.streams | apply Canonical.jobs
          | apply Canonical.sessions | apply Canonical.leftOut | apply Canonical.survivors | apply Canonical.rowLog
          | apply Canonical.conns | apply Canonical.ports | apply Canonical.hubs | apply Canonical.hubResets
          | apply Canonical.txns | apply Canonical.links | apply Canonical.arrived | apply Canonical.channels
          | apply Canonical.tiles | apply Canonical.xcvrs | apply Canonical.monitors | apply Canonical.requests
          | apply Canonical.remoteOverruns

theorem keeps_loseTarget {x0 : State} {x1 : Nat} (h0 : Canonical x0) : Canonical (State.loseTarget x0 x1) := by
  unfold State.loseTarget; try dsimp only
  repeat'
    with_reducible
      first
      | assumption | simp only [canonical_update] | apply keeps_elim | apply keeps_foldl | apply keeps_foldl_fst
          | apply keeps_foldl_fst2 | intro _ | apply keeps_ite | split | refine keeps_of_eq (by assumption) ?_

theorem keeps_hubDead {x0 : State} {x1 : Nat} {x2 : Sys2Proof.Byte} {x3 : optParam Nat 4294967295}
    (h0 : Canonical x0) : Canonical (State.hubDead x0 x1 x2 x3) := by
  unfold State.hubDead; try dsimp only
  repeat'
    with_reducible
      first
      | assumption | apply keeps_watch | apply keeps_endLost | apply keeps_loseStack | apply keeps_loseFlits
          | apply keeps_loseTarget | simp only [canonical_update] | apply keeps_elim | apply keeps_foldl
          | apply keeps_foldl_fst | apply keeps_foldl_fst2 | intro _ | apply keeps_ite | split
          | refine keeps_of_eq (by assumption) ?_
          | (simp only [canonical_all]; refine ⟨?_, ?_, ?_, ?_, ?_, ?_, ?_, ?_, ?_, ?_, ?_, ?_, ?_, ?_, ?_, ?_, ?_, ?_, ?_, ?_, ?_, ?_, ?_, ?_, ?_, ?_, ?_⟩)
          | apply rising_map | apply wf_copyInto | apply wf_fold | apply Tab.copyInto_wf | apply rising_fold
          | exact rising_nil | exact wf_nil | exact mem_nil | apply wf_copyRange | apply Tab.copyRange_wf
          | apply wf_clearRange | apply Tab.set_rising | apply Tab.upd_rising | apply Tab.filter_rising
          | apply Tab.set_wf | apply Tab.clearRange_wf | apply Canonical.mem | apply Canonical.poison
          | apply Canonical.sync | apply Canonical.obj | apply Canonical.maq | apply Canonical.cores
          | apply Canonical.objLog | apply Canonical.refusalEvent | apply Canonical.streams | apply Canonical.jobs
          | apply Canonical.sessions | apply Canonical.leftOut | apply Canonical.survivors | apply Canonical.rowLog
          | apply Canonical.conns | apply Canonical.ports | apply Canonical.hubs | apply Canonical.hubResets
          | apply Canonical.txns | apply Canonical.links | apply Canonical.arrived | apply Canonical.channels
          | apply Canonical.tiles | apply Canonical.xcvrs | apply Canonical.monitors | apply Canonical.requests
          | apply Canonical.remoteOverruns

theorem keeps_hubRefresh {x0 : State} {x1 : Nat} {x2 : Bool} (h0 : Canonical x0)
    : Canonical (State.hubRefresh x0 x1 x2) := by
  unfold State.hubRefresh; try dsimp only
  repeat'
    with_reducible
      first
      | assumption | apply keeps_setLayerField | apply keeps_elim | apply keeps_foldl | apply keeps_foldl_fst
          | apply keeps_foldl_fst2 | intro _ | apply keeps_ite | split | refine keeps_of_eq (by assumption) ?_

theorem keeps_deliver {x0 : State} {x1 : Nat} {x2 : Sys2Proof.Flit} (h0 : Canonical x0)
    : Canonical (State.deliver x0 x1 x2) := by
  unfold State.deliver; try dsimp only
  repeat'
    with_reducible
      first
      | assumption | simp only [canonical_update] | apply keeps_elim | apply keeps_foldl | apply keeps_foldl_fst
          | apply keeps_foldl_fst2 | intro _ | apply keeps_ite | split | refine keeps_of_eq (by assumption) ?_
          | (simp only [canonical_all]; refine ⟨?_, ?_, ?_, ?_, ?_, ?_, ?_, ?_, ?_, ?_, ?_, ?_, ?_, ?_, ?_, ?_, ?_, ?_, ?_, ?_, ?_, ?_, ?_, ?_, ?_, ?_, ?_⟩)
          | apply rising_map | apply wf_copyInto | apply wf_fold | apply Tab.copyInto_wf | apply rising_fold
          | exact rising_nil | exact wf_nil | exact mem_nil | apply wf_copyRange | apply Tab.copyRange_wf
          | apply wf_clearRange | apply Tab.set_rising | apply Tab.upd_rising | apply Tab.filter_rising
          | apply Tab.set_wf | apply Tab.clearRange_wf | apply Canonical.mem | apply Canonical.poison
          | apply Canonical.sync | apply Canonical.obj | apply Canonical.maq | apply Canonical.cores
          | apply Canonical.objLog | apply Canonical.refusalEvent | apply Canonical.streams | apply Canonical.jobs
          | apply Canonical.sessions | apply Canonical.leftOut | apply Canonical.survivors | apply Canonical.rowLog
          | apply Canonical.conns | apply Canonical.ports | apply Canonical.hubs | apply Canonical.hubResets
          | apply Canonical.txns | apply Canonical.links | apply Canonical.arrived | apply Canonical.channels
          | apply Canonical.tiles | apply Canonical.xcvrs | apply Canonical.monitors | apply Canonical.requests
          | apply Canonical.remoteOverruns

theorem keeps_placeFlit {x0 : State} {x1 : Nat} {x2 : Nat} {x3 : Sys2Proof.Flit} (h0 : Canonical x0)
    : Canonical (State.placeFlit x0 x1 x2 x3) := by
  unfold State.placeFlit; try dsimp only
  repeat'
    with_reducible
      first
      | assumption | apply keeps_freeEntry | apply keeps_deliver | apply keeps_drain | apply keeps_updLink
          | apply keeps_elim | apply keeps_foldl | apply keeps_foldl_fst | apply keeps_foldl_fst2 | intro _
          | apply keeps_ite | split | refine keeps_of_eq (by assumption) ?_

theorem keeps_releaseSide {x0 : State} {x1 : Nat} {x2 : Nat} (h0 : Canonical x0)
    : Canonical (State.releaseSide x0 x1 x2) := by
  unfold State.releaseSide; try dsimp only
  repeat'
    with_reducible
      first
      | assumption | apply keeps_drain | apply keeps_updLink | apply keeps_bump | apply keeps_placeFlit
          | apply keeps_elim | apply keeps_foldl | apply keeps_foldl_fst | apply keeps_foldl_fst2 | intro _
          | apply keeps_ite | split | refine keeps_of_eq (by assumption) ?_

theorem keeps_releaseHeld {x0 : State} (h0 : Canonical x0) : Canonical (State.releaseHeld x0) := by
  unfold State.releaseHeld; try dsimp only
  repeat'
    with_reducible
      first
      | assumption | apply keeps_releaseSide | apply keeps_elim | apply keeps_foldl | apply keeps_foldl_fst
          | apply keeps_foldl_fst2 | intro _ | apply keeps_ite | split | refine keeps_of_eq (by assumption) ?_

theorem keeps_resetDone {x0 : State} {x1 : Nat} {x2 : Bool} (h0 : Canonical x0)
    : Canonical (State.resetDone x0 x1 x2) := by
  unfold State.resetDone; try dsimp only
  repeat'
    with_reducible
      first
      | assumption | apply keeps_fault | apply keeps_advanceGroups | apply keeps_releaseHeld | apply keeps_askRoutes
          | apply keeps_hubRefresh | apply keeps_hubDead | simp only [canonical_update] | apply keeps_elim
          | apply keeps_foldl | apply keeps_foldl_fst | apply keeps_foldl_fst2 | intro _ | apply keeps_ite | split
          | refine keeps_of_eq (by assumption) ?_
          | (simp only [canonical_all]; refine ⟨?_, ?_, ?_, ?_, ?_, ?_, ?_, ?_, ?_, ?_, ?_, ?_, ?_, ?_, ?_, ?_, ?_, ?_, ?_, ?_, ?_, ?_, ?_, ?_, ?_, ?_, ?_⟩)
          | apply rising_map | apply wf_copyInto | apply wf_fold | apply Tab.copyInto_wf | apply rising_fold
          | exact rising_nil | exact wf_nil | exact mem_nil | apply wf_copyRange | apply Tab.copyRange_wf
          | apply wf_clearRange | apply Tab.set_rising | apply Tab.upd_rising | apply Tab.filter_rising
          | apply Tab.set_wf | apply Tab.clearRange_wf | apply Canonical.mem | apply Canonical.poison
          | apply Canonical.sync | apply Canonical.obj | apply Canonical.maq | apply Canonical.cores
          | apply Canonical.objLog | apply Canonical.refusalEvent | apply Canonical.streams | apply Canonical.jobs
          | apply Canonical.sessions | apply Canonical.leftOut | apply Canonical.survivors | apply Canonical.rowLog
          | apply Canonical.conns | apply Canonical.ports | apply Canonical.hubs | apply Canonical.hubResets
          | apply Canonical.txns | apply Canonical.links | apply Canonical.arrived | apply Canonical.channels
          | apply Canonical.tiles | apply Canonical.xcvrs | apply Canonical.monitors | apply Canonical.requests
          | apply Canonical.remoteOverruns

theorem keeps_flitIn {x0 : State} {x1 : Nat} {x2 : Nat} {x3 : Sys2Proof.Flit} (h0 : Canonical x0)
    : Canonical (State.flitIn x0 x1 x2 x3) := by
  unfold State.flitIn; try dsimp only
  repeat'
    with_reducible
      first
      | assumption | apply keeps_updLink | apply keeps_drain | apply keeps_placeFlit | apply keeps_elim
          | apply keeps_foldl | apply keeps_foldl_fst | apply keeps_foldl_fst2 | intro _ | apply keeps_ite | split
          | refine keeps_of_eq (by assumption) ?_

theorem keeps_countRare {x0 : State} {x1 : Nat} {x2 : Nat} (h0 : Canonical x0)
    : Canonical (State.countRare x0 x1 x2) := by
  unfold State.countRare; try dsimp only
  repeat'
    with_reducible
      first
      | assumption | apply keeps_put | apply keeps_elim | apply keeps_foldl | apply keeps_foldl_fst
          | apply keeps_foldl_fst2 | intro _ | apply keeps_ite | split | refine keeps_of_eq (by assumption) ?_

theorem keeps_enterReset {x0 : State} {x1 : Nat} (h0 : Canonical x0) : Canonical (State.enterReset x0 x1) := by
  unfold State.enterReset; try dsimp only
  repeat'
    with_reducible
      first
      | assumption | apply keeps_hubRefresh | simp only [canonical_update] | apply keeps_elim | apply keeps_foldl
          | apply keeps_foldl_fst | apply keeps_foldl_fst2 | intro _ | apply keeps_ite | split
          | refine keeps_of_eq (by assumption) ?_
          | (simp only [canonical_all]; refine ⟨?_, ?_, ?_, ?_, ?_, ?_, ?_, ?_, ?_, ?_, ?_, ?_, ?_, ?_, ?_, ?_, ?_, ?_, ?_, ?_, ?_, ?_, ?_, ?_, ?_, ?_, ?_⟩)
          | apply rising_map | apply wf_copyInto | apply wf_fold | apply Tab.copyInto_wf | apply rising_fold
          | exact rising_nil | exact wf_nil | exact mem_nil | apply wf_copyRange | apply Tab.copyRange_wf
          | apply wf_clearRange | apply Tab.set_rising | apply Tab.upd_rising | apply Tab.filter_rising
          | apply Tab.set_wf | apply Tab.clearRange_wf | apply Canonical.mem | apply Canonical.poison
          | apply Canonical.sync | apply Canonical.obj | apply Canonical.maq | apply Canonical.cores
          | apply Canonical.objLog | apply Canonical.refusalEvent | apply Canonical.streams | apply Canonical.jobs
          | apply Canonical.sessions | apply Canonical.leftOut | apply Canonical.survivors | apply Canonical.rowLog
          | apply Canonical.conns | apply Canonical.ports | apply Canonical.hubs | apply Canonical.hubResets
          | apply Canonical.txns | apply Canonical.links | apply Canonical.arrived | apply Canonical.channels
          | apply Canonical.tiles | apply Canonical.xcvrs | apply Canonical.monitors | apply Canonical.requests
          | apply Canonical.remoteOverruns

theorem keeps_routesActive {x0 : State} (h0 : Canonical x0) : Canonical (State.routesActive x0) := by
  unfold State.routesActive; try dsimp only
  repeat'
    with_reducible
      first
      | assumption | apply keeps_advanceGroups | apply keeps_releaseHeld | apply keeps_enterReset
          | apply keeps_countRare | apply keeps_elim | apply keeps_foldl | apply keeps_foldl_fst
          | apply keeps_foldl_fst2 | intro _ | apply keeps_ite | split | refine keeps_of_eq (by assumption) ?_

theorem keeps_transactionArrival {x0 : Nat} {x1 : State} (h1 : Canonical x1)
    : Canonical (transactionArrival x0 x1) := by
  unfold transactionArrival; try dsimp only
  repeat'
    with_reducible
      first
      | assumption | apply keeps_atHub | apply keeps_bump | apply keeps_elim | apply keeps_foldl
          | apply keeps_foldl_fst | apply keeps_foldl_fst2 | intro _ | apply keeps_ite | split
          | refine keeps_of_eq (by assumption) ?_

theorem keeps_askReset {x0 : State} {x1 : Nat} {x2 : Nat} (h0 : Canonical x0)
    : Canonical (State.askReset x0 x1 x2) := by
  unfold State.askReset; try dsimp only
  repeat'
    with_reducible
      first
      | assumption | apply keeps_askRoutes | simp only [canonical_update] | apply keeps_elim | apply keeps_foldl
          | apply keeps_foldl_fst | apply keeps_foldl_fst2 | intro _ | apply keeps_ite | split
          | refine keeps_of_eq (by assumption) ?_
          | (simp only [canonical_all]; refine ⟨?_, ?_, ?_, ?_, ?_, ?_, ?_, ?_, ?_, ?_, ?_, ?_, ?_, ?_, ?_, ?_, ?_, ?_, ?_, ?_, ?_, ?_, ?_, ?_, ?_, ?_, ?_⟩)
          | apply rising_map | apply wf_copyInto | apply wf_fold | apply Tab.copyInto_wf | apply rising_fold
          | exact rising_nil | exact wf_nil | exact mem_nil | apply wf_copyRange | apply Tab.copyRange_wf
          | apply wf_clearRange | apply Tab.set_rising | apply Tab.upd_rising | apply Tab.filter_rising
          | apply Tab.set_wf | apply Tab.clearRange_wf | apply Canonical.mem | apply Canonical.poison
          | apply Canonical.sync | apply Canonical.obj | apply Canonical.maq | apply Canonical.cores
          | apply Canonical.objLog | apply Canonical.refusalEvent | apply Canonical.streams | apply Canonical.jobs
          | apply Canonical.sessions | apply Canonical.leftOut | apply Canonical.survivors | apply Canonical.rowLog
          | apply Canonical.conns | apply Canonical.ports | apply Canonical.hubs | apply Canonical.hubResets
          | apply Canonical.txns | apply Canonical.links | apply Canonical.arrived | apply Canonical.channels
          | apply Canonical.tiles | apply Canonical.xcvrs | apply Canonical.monitors | apply Canonical.requests
          | apply Canonical.remoteOverruns

theorem keeps_reroute {x0 : State} {x1 : Nat} {x2 : optParam Nat 4294967295} (h0 : Canonical x0)
    : Canonical (State.reroute x0 x1 x2) := by
  unfold State.reroute; try dsimp only
  repeat'
    with_reducible
      first
      | assumption | apply keeps_askRoutes | apply keeps_fault | apply keeps_elim | apply keeps_foldl
          | apply keeps_foldl_fst | apply keeps_foldl_fst2 | intro _ | apply keeps_ite | split
          | refine keeps_of_eq (by assumption) ?_

theorem keeps_setRoutes {x0 : State} {x1 : List Nat} (h0 : Canonical x0) : Canonical (State.setRoutes x0 x1) := by
  unfold State.setRoutes; try dsimp only
  repeat'
    with_reducible
      first
      | assumption | apply keeps_change | apply keeps_elim | apply keeps_foldl | apply keeps_foldl_fst
          | apply keeps_foldl_fst2 | intro _ | apply keeps_ite | split | refine keeps_of_eq (by assumption) ?_

theorem keeps_flitReceive {x0 : Nat} {x1 : Nat} {x2 : Sys2Proof.Flit} {x3 : State} (h3 : Canonical x3)
    : Canonical (flitReceive x0 x1 x2 x3) := by
  unfold flitReceive; try dsimp only
  repeat'
    with_reducible
      first
      | assumption | apply keeps_flitIn | apply keeps_bump | apply keeps_sendFlit | simp only [canonical_update]
          | apply keeps_elim | apply keeps_foldl | apply keeps_foldl_fst | apply keeps_foldl_fst2 | intro _
          | apply keeps_ite | split | refine keeps_of_eq (by assumption) ?_
          | (simp only [canonical_all]; refine ⟨?_, ?_, ?_, ?_, ?_, ?_, ?_, ?_, ?_, ?_, ?_, ?_, ?_, ?_, ?_, ?_, ?_, ?_, ?_, ?_, ?_, ?_, ?_, ?_, ?_, ?_, ?_⟩)
          | apply rising_map | apply wf_copyInto | apply wf_fold | apply Tab.copyInto_wf | apply rising_fold
          | exact rising_nil | exact wf_nil | exact mem_nil | apply wf_copyRange | apply Tab.copyRange_wf
          | apply wf_clearRange | apply Tab.set_rising | apply Tab.upd_rising | apply Tab.filter_rising
          | apply Tab.set_wf | apply Tab.clearRange_wf | apply Canonical.mem | apply Canonical.poison
          | apply Canonical.sync | apply Canonical.obj | apply Canonical.maq | apply Canonical.cores
          | apply Canonical.objLog | apply Canonical.refusalEvent | apply Canonical.streams | apply Canonical.jobs
          | apply Canonical.sessions | apply Canonical.leftOut | apply Canonical.survivors | apply Canonical.rowLog
          | apply Canonical.conns | apply Canonical.ports | apply Canonical.hubs | apply Canonical.hubResets
          | apply Canonical.txns | apply Canonical.links | apply Canonical.arrived | apply Canonical.channels
          | apply Canonical.tiles | apply Canonical.xcvrs | apply Canonical.monitors | apply Canonical.requests
          | apply Canonical.remoteOverruns

theorem keeps_armatureResendTimeout {x0 : Nat} {x1 : State} (h1 : Canonical x1)
    : Canonical (armatureResendTimeout x0 x1) := by
  unfold armatureResendTimeout; try dsimp only
  repeat'
    with_reducible
      first
      | assumption | apply keeps_bump | apply keeps_setTxn | apply keeps_failWaiting | apply keeps_elim
          | apply keeps_foldl | apply keeps_foldl_fst | apply keeps_foldl_fst2 | intro _ | apply keeps_ite | split
          | refine keeps_of_eq (by assumption) ?_

theorem keeps_bootControllers {x0 : State} {x1 : Sys2Proof.BringUp} (h0 : Canonical x0)
    : Canonical (State.bootControllers x0 x1) := by
  unfold State.bootControllers; try dsimp only
  repeat'
    with_reducible
      first
      | assumption | apply keeps_change | simp only [canonical_update] | apply keeps_elim | apply keeps_foldl
          | apply keeps_foldl_fst | apply keeps_foldl_fst2 | intro _ | apply keeps_ite | split
          | refine keeps_of_eq (by assumption) ?_

theorem keeps_checkRecord {x0 : State} {x1 : Sys2Proof.BringUp} (h0 : Canonical x0)
    : Canonical (State.checkRecord x0 x1) := by
  unfold State.checkRecord; try dsimp only
  repeat'
    with_reducible
      first
      | assumption | apply keeps_fault | simp only [canonical_update] | apply keeps_elim | apply keeps_foldl
          | apply keeps_foldl_fst | apply keeps_foldl_fst2 | intro _ | apply keeps_ite | split
          | refine keeps_of_eq (by assumption) ?_

theorem keeps_coilWire {x0 : State} {x1 : Nat} {x2 : Nat} {x3 : Nat} {x4 : Nat} (h0 : Canonical x0)
    : Canonical (State.coilWire x0 x1 x2 x3 x4) := by
  unfold State.coilWire; try dsimp only
  repeat'
    with_reducible
      first
      | assumption | apply keeps_showChannel | apply keeps_updChannel | apply keeps_layerGone | apply keeps_elim
          | apply keeps_foldl | apply keeps_foldl_fst | apply keeps_foldl_fst2 | intro _ | apply keeps_ite | split
          | refine keeps_of_eq (by assumption) ?_

theorem keeps_showWires {x0 : State} {x1 : Nat} {x2 : Nat} (h0 : Canonical x0)
    : Canonical (State.showWires x0 x1 x2) := by
  unfold State.showWires; try dsimp only
  repeat'
    with_reducible
      first
      | assumption | apply keeps_put | apply keeps_elim | apply keeps_foldl | apply keeps_foldl_fst
          | apply keeps_foldl_fst2 | intro _ | apply keeps_ite | split | refine keeps_of_eq (by assumption) ?_

theorem keeps_seamWire {x0 : State} {x1 : Nat} {x2 : Nat} {x3 : Nat} (h0 : Canonical x0)
    : Canonical (State.seamWire x0 x1 x2 x3) := by
  unfold State.seamWire; try dsimp only
  repeat'
    with_reducible
      first
      | assumption | apply keeps_showWires | apply keeps_updLink | apply keeps_elim | apply keeps_foldl
          | apply keeps_foldl_fst | apply keeps_foldl_fst2 | intro _ | apply keeps_ite | split
          | refine keeps_of_eq (by assumption) ?_

theorem keeps_updTile {x0 : State} {x1 : Nat} {x2 : Tile → Tile} (h0 : Canonical x0)
    : Canonical (State.updTile x0 x1 x2) := by
  unfold State.updTile; try dsimp only
  repeat'
    with_reducible
      first
      | assumption | simp only [canonical_update] | apply keeps_elim | apply keeps_foldl | apply keeps_foldl_fst
          | apply keeps_foldl_fst2 | intro _ | apply keeps_ite | split | refine keeps_of_eq (by assumption) ?_
          | (simp only [canonical_all]; refine ⟨?_, ?_, ?_, ?_, ?_, ?_, ?_, ?_, ?_, ?_, ?_, ?_, ?_, ?_, ?_, ?_, ?_, ?_, ?_, ?_, ?_, ?_, ?_, ?_, ?_, ?_, ?_⟩)
          | apply rising_map | apply wf_copyInto | apply wf_fold | apply Tab.copyInto_wf | apply rising_fold
          | exact rising_nil | exact wf_nil | exact mem_nil | apply wf_copyRange | apply Tab.copyRange_wf
          | apply wf_clearRange | apply Tab.set_rising | apply Tab.upd_rising | apply Tab.filter_rising
          | apply Tab.set_wf | apply Tab.clearRange_wf | apply Canonical.mem | apply Canonical.poison
          | apply Canonical.sync | apply Canonical.obj | apply Canonical.maq | apply Canonical.cores
          | apply Canonical.objLog | apply Canonical.refusalEvent | apply Canonical.streams | apply Canonical.jobs
          | apply Canonical.sessions | apply Canonical.leftOut | apply Canonical.survivors | apply Canonical.rowLog
          | apply Canonical.conns | apply Canonical.ports | apply Canonical.hubs | apply Canonical.hubResets
          | apply Canonical.txns | apply Canonical.links | apply Canonical.arrived | apply Canonical.channels
          | apply Canonical.tiles | apply Canonical.xcvrs | apply Canonical.monitors | apply Canonical.requests
          | apply Canonical.remoteOverruns

theorem keeps_applyEntry {x0 : State} {x1 : Sys2Proof.Bytes} (h0 : Canonical x0)
    : Canonical (State.applyEntry x0 x1) := by
  unfold State.applyEntry; try dsimp only
  repeat'
    with_reducible
      first
      | assumption | apply keeps_seamWire | apply keeps_coilWire | apply keeps_count | apply keeps_layerGone
          | apply keeps_updTile | apply keeps_put | simp only [canonical_update] | apply keeps_elim
          | apply keeps_foldl | apply keeps_foldl_fst | apply keeps_foldl_fst2 | intro _ | apply keeps_ite | split
          | refine keeps_of_eq (by assumption) ?_

theorem keeps_logUnspared {x0 : State} {x1 : Sys2Proof.BringUp} (h0 : Canonical x0)
    : Canonical (State.logUnspared x0 x1) := by
  unfold State.logUnspared; try dsimp only
  repeat'
    with_reducible
      first
      | assumption | apply keeps_fault | apply keeps_elim | apply keeps_foldl | apply keeps_foldl_fst
          | apply keeps_foldl_fst2 | intro _ | apply keeps_ite | split | refine keeps_of_eq (by assumption) ?_

theorem keeps_wireAll {x0 : State} (h0 : Canonical x0) : Canonical (State.wireAll x0) := by
  unfold State.wireAll; try dsimp only
  repeat'
    with_reducible
      first
      | assumption | apply keeps_showChannel | apply keeps_updChannel | apply keeps_elim | apply keeps_foldl
          | apply keeps_foldl_fst | apply keeps_foldl_fst2 | intro _ | apply keeps_ite | split
          | refine keeps_of_eq (by assumption) ?_

theorem keeps_takeFindings {x0 : State} {x1 : Sys2Proof.BringUp} (h0 : Canonical x0)
    : Canonical (State.takeFindings x0 x1) := by
  unfold State.takeFindings; try dsimp only
  repeat'
    with_reducible
      first
      | assumption | apply keeps_logUnspared | apply keeps_appendSegment | apply keeps_wireAll
          | apply keeps_applyEntry | apply keeps_put | apply keeps_elim | apply keeps_foldl | apply keeps_foldl_fst
          | apply keeps_foldl_fst2 | intro _ | apply keeps_ite | split | refine keeps_of_eq (by assumption) ?_

theorem keeps_closeStep {x0 : State} (h0 : Canonical x0) : Canonical (State.closeStep x0) := by
  unfold State.closeStep; try dsimp only
  repeat'
    with_reducible
      first
      | assumption | simp only [canonical_update] | apply keeps_elim | apply keeps_foldl | apply keeps_foldl_fst
          | apply keeps_foldl_fst2 | intro _ | apply keeps_ite | split | refine keeps_of_eq (by assumption) ?_

theorem keeps_markResumed {x0 : State} {x1 : Nat} (h0 : Canonical x0) : Canonical (State.markResumed x0 x1) := by
  unfold State.markResumed; try dsimp only
  repeat'
    with_reducible
      first
      | assumption | simp only [canonical_update] | apply keeps_elim | apply keeps_foldl | apply keeps_foldl_fst
          | apply keeps_foldl_fst2 | intro _ | apply keeps_ite | split | refine keeps_of_eq (by assumption) ?_

theorem keeps_reclaimItem {x0 : State} {x1 : Nat} (h0 : Canonical x0) : Canonical (State.reclaimItem x0 x1) := by
  unfold State.reclaimItem; try dsimp only
  repeat'
    with_reducible
      first
      | assumption | apply keeps_updCore | apply keeps_updItem | apply keeps_elim | apply keeps_foldl
          | apply keeps_foldl_fst | apply keeps_foldl_fst2 | intro _ | apply keeps_ite | split
          | refine keeps_of_eq (by assumption) ?_

theorem keeps_setGroups {x0 : State} {x1 : Nat} {x2 : Nat → Nat → Nat} (h0 : Canonical x0)
    : Canonical (State.setGroups x0 x1 x2) := by
  unfold State.setGroups; try dsimp only
  repeat'
    with_reducible
      first
      | assumption | apply keeps_change | apply keeps_elim | apply keeps_foldl | apply keeps_foldl_fst
          | apply keeps_foldl_fst2 | intro _ | apply keeps_ite | split | refine keeps_of_eq (by assumption) ?_

theorem keeps_passGroups {x0 : State} {x1 : Nat} {x2 : List Nat} {x3 : List Nat} (h0 : Canonical x0)
    : Canonical (State.passGroups x0 x1 x2 x3) := by
  unfold State.passGroups; try dsimp only
  repeat'
    with_reducible
      first
      | assumption | apply keeps_setGroups | apply keeps_elim | apply keeps_foldl | apply keeps_foldl_fst
          | apply keeps_foldl_fst2 | intro _ | apply keeps_ite | split | refine keeps_of_eq (by assumption) ?_

theorem keeps_withGroups {x0 : State} {x1 : Nat} {x2 : List Nat} {x3 : State → State} (h0 : Canonical x0)
    (h3_0 : ∀ y0, Canonical y0 → Canonical (x3 y0)) : Canonical (State.withGroups x0 x1 x2 x3) := by
  unfold State.withGroups; try dsimp only
  repeat'
    with_reducible
      first
      | assumption | apply h3_0 | apply keeps_passGroups | apply keeps_elim | apply keeps_foldl
          | apply keeps_foldl_fst | apply keeps_foldl_fst2 | intro _ | apply keeps_ite | split
          | refine keeps_of_eq (by assumption) ?_

theorem keeps_restoreMemory {x0 : State} {x1 : Nat} {x2 : Nat} (h0 : Canonical x0)
    : Canonical (State.restoreMemory x0 x1 x2) := by
  unfold State.restoreMemory; try dsimp only
  repeat'
    with_reducible
      first
      | assumption | apply keeps_syncSet | apply keeps_clearObjects | apply keeps_withGroups | apply keeps_copyPages
          | apply keeps_zeroGroup | apply keeps_elim | apply keeps_foldl | apply keeps_foldl_fst
          | apply keeps_foldl_fst2 | intro _ | apply keeps_ite | split | refine keeps_of_eq (by assumption) ?_

theorem keeps_restoreCore {x0 : State} {x1 : Nat} {x2 : Nat} (h0 : Canonical x0)
    : Canonical (State.restoreCore x0 x1 x2) := by
  unfold State.restoreCore; try dsimp only
  repeat'
    with_reducible
      first
      | assumption | apply keeps_restoreMemory | apply keeps_setCore | apply keeps_setCoreState | apply keeps_runFrom
          | apply keeps_startMirror | apply keeps_elim | apply keeps_foldl | apply keeps_foldl_fst
          | apply keeps_foldl_fst2 | intro _ | apply keeps_ite | split | refine keeps_of_eq (by assumption) ?_

theorem keeps_restoreJob {x0 : State} {x1 : Nat} (h0 : Canonical x0) : Canonical (State.restoreJob x0 x1).1 := by
  unfold State.restoreJob; try dsimp only
  repeat'
    with_reducible
      first
      | assumption | apply keeps_restoreCore | apply keeps_setJobState | apply keeps_updJob | apply keeps_reclaimItem
          | apply keeps_elim | apply keeps_foldl | apply keeps_foldl_fst | apply keeps_foldl_fst2 | intro _
          | apply keeps_ite | split | refine keeps_of_eq (by assumption) ?_

theorem keeps_restoreAfter {x0 : State} {x1 : Nat} (h0 : Canonical x0) : Canonical (State.restoreAfter x0 x1) := by
  unfold State.restoreAfter; try dsimp only
  repeat'
    with_reducible
      first
      | assumption | apply keeps_restoreJob | apply keeps_applyHeld | apply keeps_markResumed
          | apply keeps_endStarted | apply keeps_elim | apply keeps_foldl | apply keeps_foldl_fst
          | apply keeps_foldl_fst2 | intro _ | apply keeps_ite | split | refine keeps_of_eq (by assumption) ?_

theorem keeps_setDevice {x0 : State} {x1 : Nat} (h0 : Canonical x0) : Canonical (State.setDevice x0 x1) := by
  unfold State.setDevice; try dsimp only
  repeat'
    with_reducible
      first
      | assumption | apply keeps_change | apply keeps_elim | apply keeps_foldl | apply keeps_foldl_fst
          | apply keeps_foldl_fst2 | intro _ | apply keeps_ite | split | refine keeps_of_eq (by assumption) ?_

theorem keeps_setPowerState {x0 : State} {x1 : Nat} (h0 : Canonical x0) : Canonical (State.setPowerState x0 x1) := by
  unfold State.setPowerState; try dsimp only
  repeat'
    with_reducible
      first
      | assumption | apply keeps_put | apply keeps_change | apply keeps_elim | apply keeps_foldl
          | apply keeps_foldl_fst | apply keeps_foldl_fst2 | intro _ | apply keeps_ite | split
          | refine keeps_of_eq (by assumption) ?_

theorem keeps_ready {x0 : State} (h0 : Canonical x0) : Canonical (State.ready x0) := by
  unfold State.ready; try dsimp only
  repeat'
    with_reducible
      first
      | assumption | apply keeps_restoreAfter | apply keeps_put | apply keeps_closeStep | apply keeps_setDevice
          | apply keeps_setPowerState | simp only [canonical_update] | apply keeps_elim | apply keeps_foldl
          | apply keeps_foldl_fst | apply keeps_foldl_fst2 | intro _ | apply keeps_ite | split
          | refine keeps_of_eq (by assumption) ?_

theorem keeps_awaitPtp {x0 : State} (h0 : Canonical x0) : Canonical (State.awaitPtp x0) := by
  unfold State.awaitPtp; try dsimp only
  repeat'
    with_reducible
      first
      | assumption | apply keeps_ready | simp only [canonical_update] | apply keeps_elim | apply keeps_foldl
          | apply keeps_foldl_fst | apply keeps_foldl_fst2 | intro _ | apply keeps_ite | split
          | refine keeps_of_eq (by assumption) ?_

theorem keeps_resend {x0 : State} {x1 : Nat} {x2 : Message} (h0 : Canonical x0)
    : Canonical (State.resend x0 x1 x2) := by
  unfold State.resend; try dsimp only
  repeat'
    with_reducible
      first
      | assumption | apply keeps_bump | apply keeps_sendOne | apply keeps_elim | apply keeps_foldl
          | apply keeps_foldl_fst | apply keeps_foldl_fst2 | intro _ | apply keeps_ite | split
          | refine keeps_of_eq (by assumption) ?_

theorem keeps_resendAll {x0 : State} {x1 : Nat} (h0 : Canonical x0) : Canonical (State.resendAll x0 x1) := by
  unfold State.resendAll; try dsimp only
  repeat'
    with_reducible
      first
      | assumption | apply keeps_resend | apply keeps_elim | apply keeps_foldl | apply keeps_foldl_fst
          | apply keeps_foldl_fst2 | intro _ | apply keeps_ite | split | refine keeps_of_eq (by assumption) ?_

theorem keeps_moveConns {x0 : State} {x1 : Nat} (h0 : Canonical x0) : Canonical (State.moveConns x0 x1) := by
  unfold State.moveConns; try dsimp only
  repeat'
    with_reducible
      first
      | assumption | apply keeps_pump | apply keeps_resendAll | apply keeps_setConn | apply keeps_elim
          | apply keeps_foldl | apply keeps_foldl_fst | apply keeps_foldl_fst2 | intro _ | apply keeps_ite | split
          | refine keeps_of_eq (by assumption) ?_

theorem keeps_leaveUp {x0 : State} {x1 : Nat} {x2 : Nat} (h0 : Canonical x0)
    : Canonical (State.leaveUp x0 x1 x2) := by
  unfold State.leaveUp; try dsimp only
  repeat'
    with_reducible
      first
      | assumption | apply keeps_updPort | apply keeps_change | apply keeps_moveConns | apply keeps_elim
          | apply keeps_foldl | apply keeps_foldl_fst | apply keeps_foldl_fst2 | intro _ | apply keeps_ite | split
          | refine keeps_of_eq (by assumption) ?_

theorem keeps_trainIn {x0 : State} {x1 : Nat} {x2 : Option (Nat × Bool)} (h0 : Canonical x0)
    : Canonical (State.trainIn x0 x1 x2) := by
  unfold State.trainIn; try dsimp only
  repeat'
    with_reducible
      first
      | assumption | apply keeps_emit | apply keeps_leaveUp | apply keeps_updPort | apply keeps_put
          | apply keeps_elim | apply keeps_foldl | apply keeps_foldl_fst | apply keeps_foldl_fst2 | intro _
          | apply keeps_ite | split | refine keeps_of_eq (by assumption) ?_

end Sys2Proof.Machine
end

