-- ==== Sys2Proof/Laws/Keeps4.lean ====
section
/-! SUPPORT.  What keeps the canonical form, part 4: one lemma per shared operation, from
trainPort to endSwap (of a pair: its state). -/
namespace Sys2Proof.Machine
open Sys2Proof

theorem keeps_trainPort {x0 : State} {x1 : Nat} (h0 : Canonical x0) : Canonical (State.trainPort x0 x1) := by
  unfold State.trainPort; try dsimp only
  repeat'
    with_reducible
      first
      | assumption | apply keeps_trainIn | apply keeps_elim | apply keeps_foldl | apply keeps_foldl_fst
          | apply keeps_foldl_fst2 | intro _ | apply keeps_ite | split | refine keeps_of_eq (by assumption) ?_

theorem keeps_bootPorts {x0 : State} (h0 : Canonical x0) : Canonical (State.bootPorts x0) := by
  unfold State.bootPorts; try dsimp only
  repeat'
    with_reducible
      first
      | assumption | apply keeps_change | apply keeps_setRoutes | apply keeps_trainPort | apply keeps_elim
          | apply keeps_foldl | apply keeps_foldl_fst | apply keeps_foldl_fst2 | intro _ | apply keeps_ite | split
          | refine keeps_of_eq (by assumption) ?_

theorem keeps_clearTile {x0 : State} {x1 : Sys2Proof.BringUp} {x2 : Nat} (h0 : Canonical x0)
    : Canonical (State.clearTile x0 x1 x2) := by
  unfold State.clearTile; try dsimp only
  repeat'
    with_reducible
      first
      | assumption | apply keeps_updTile | apply keeps_change | apply keeps_appendRepair | apply keeps_elim
          | apply keeps_foldl | apply keeps_foldl_fst | apply keeps_foldl_fst2 | intro _ | apply keeps_ite | split
          | refine keeps_of_eq (by assumption) ?_

theorem keeps_placeCore {x0 : Sys2Proof.BringUp} {x1 : List Nat} {x2 : State × List Nat} {x3 : Nat}
    (h2_0 : Canonical x2.1) : Canonical (State.placeCore x0 x1 x2 x3).1 := by
  unfold State.placeCore; try dsimp only
  repeat'
    with_reducible
      first
      | assumption | apply keeps_put | apply keeps_elim | apply keeps_foldl | apply keeps_foldl_fst
          | apply keeps_foldl_fst2 | intro _ | apply keeps_ite | split | refine keeps_of_eq (by assumption) ?_

theorem keeps_recordMap {x0 : State} (h0 : Canonical x0) : Canonical (State.recordMap x0) := by
  unfold State.recordMap; try dsimp only
  repeat'
    with_reducible
      first
      | assumption | apply keeps_appendRepair | apply keeps_elim | apply keeps_foldl | apply keeps_foldl_fst
          | apply keeps_foldl_fst2 | intro _ | apply keeps_ite | split | refine keeps_of_eq (by assumption) ?_

theorem keeps_buildMaps {x0 : State} {x1 : Sys2Proof.BringUp} (h0 : Canonical x0)
    : Canonical (State.buildMaps x0 x1) := by
  unfold State.buildMaps; try dsimp only
  repeat'
    with_reducible
      first
      | assumption | apply keeps_clearTile | apply keeps_placeCore | apply keeps_put | apply keeps_setCoreState
          | apply keeps_recordMap | apply keeps_elim | apply keeps_foldl | apply keeps_foldl_fst
          | apply keeps_foldl_fst2 | intro _ | apply keeps_ite | split | refine keeps_of_eq (by assumption) ?_

theorem keeps_buildPartition {x0 : State} {x1 : Nat} {x2 : Bool} (h0 : Canonical x0)
    : Canonical (State.buildPartition x0 x1 x2) := by
  unfold State.buildPartition; try dsimp only
  repeat'
    with_reducible
      first
      | assumption | apply keeps_losePartition | simp only [canonical_update] | apply keeps_elim | apply keeps_foldl
          | apply keeps_foldl_fst | apply keeps_foldl_fst2 | intro _ | apply keeps_ite | split
          | refine keeps_of_eq (by assumption) ?_

theorem keeps_buildStacks {x0 : State} (h0 : Canonical x0) : Canonical (State.buildStacks x0) := by
  unfold State.buildStacks; try dsimp only
  repeat'
    with_reducible
      first
      | assumption | apply keeps_zeroMem | apply keeps_showStack | apply keeps_buildPartition | apply keeps_put
          | apply keeps_elim | apply keeps_foldl | apply keeps_foldl_fst | apply keeps_foldl_fst2 | intro _
          | apply keeps_ite | split | refine keeps_of_eq (by assumption) ?_

theorem keeps_loseMissing {x0 : State} {x1 : Sys2Proof.BringUp} (h0 : Canonical x0)
    : Canonical (State.loseMissing x0 x1) := by
  unfold State.loseMissing; try dsimp only
  repeat'
    with_reducible
      first
      | assumption | apply keeps_fault | apply keeps_hubDead | apply keeps_buildMaps | apply keeps_change
          | simp only [canonical_update] | apply keeps_elim | apply keeps_foldl | apply keeps_foldl_fst
          | apply keeps_foldl_fst2 | intro _ | apply keeps_ite | split | refine keeps_of_eq (by assumption) ?_

theorem keeps_oneSegment {x0 : State} {x1 : Nat} (h0 : Canonical x0) : Canonical (State.oneSegment x0 x1) := by
  unfold State.oneSegment; try dsimp only
  repeat'
    with_reducible
      first
      | assumption | apply keeps_put | simp only [canonical_update] | apply keeps_elim | apply keeps_foldl
          | apply keeps_foldl_fst | apply keeps_foldl_fst2 | intro _ | apply keeps_ite | split
          | refine keeps_of_eq (by assumption) ?_

theorem keeps_loseLinks {x0 : State} {x1 : Nat} (h0 : Canonical x0) : Canonical (State.loseLinks x0 x1) := by
  unfold State.loseLinks; try dsimp only
  repeat'
    with_reducible
      first
      | assumption | apply keeps_change | apply keeps_elim | apply keeps_foldl | apply keeps_foldl_fst
          | apply keeps_foldl_fst2 | intro _ | apply keeps_ite | split | refine keeps_of_eq (by assumption) ?_

theorem keeps_raiseFields {x0 : State} {x1 : Sys2Proof.BringUp} (h0 : Canonical x0)
    : Canonical (State.raiseFields x0 x1) := by
  unfold State.raiseFields; try dsimp only
  repeat'
    with_reducible
      first
      | assumption | apply keeps_fault | apply keeps_hubDead | apply keeps_loseLinks | simp only [canonical_update]
          | apply keeps_elim | apply keeps_foldl | apply keeps_foldl_fst | apply keeps_foldl_fst2 | intro _
          | apply keeps_ite | split | refine keeps_of_eq (by assumption) ?_

theorem keeps_bumpIf {x0 : State} {x1 : Bool} {x2 : Nat} {x3 : Nat} (h0 : Canonical x0)
    : Canonical (State.bumpIf x0 x1 x2 x3) := by
  unfold State.bumpIf; try dsimp only
  repeat'
    with_reducible
      first
      | assumption | apply keeps_bump | apply keeps_elim | apply keeps_foldl | apply keeps_foldl_fst
          | apply keeps_foldl_fst2 | intro _ | apply keeps_ite | split | refine keeps_of_eq (by assumption) ?_

theorem keeps_updStream {x0 : State} {x1 : Nat} {x2 : Stream → Stream} (h0 : Canonical x0)
    : Canonical (State.updStream x0 x1 x2) := by
  unfold State.updStream; try dsimp only
  repeat'
    with_reducible
      first
      | assumption | simp only [canonical_update] | apply keeps_elim | apply keeps_foldl | apply keeps_foldl_fst
          | apply keeps_foldl_fst2 | intro _ | apply keeps_ite | split | refine keeps_of_eq (by assumption) ?_
          | (simp only [canonical_all]; refine ⟨?_, ?_, ?_, ?_, ?_, ?_, ?_, ?_, ?_, ?_, ?_, ?_, ?_, ?_, ?_, ?_, ?_, ?_, ?_, ?_, ?_, ?_, ?_, ?_, ?_, ?_, ?_⟩)
          | apply rising_map | apply wf_copyInto | apply wf_fold | apply Tab.copyInto_wf | apply rising_fold
          | exact rising_nil | exact wf_nil | exact mem_nil | apply wf_copyRange | apply Tab.copyRange_wf
          | apply wf_clearRange | apply Tab.set_rising | apply Tab.upd_rising | apply Tab.filter_rising
          | apply Tab.set_wf | apply Tab.clearRange_wf | apply Canonical.mem | apply Canonical.poison
          | apply Canonical.sync | apply Canonical.obj | apply Canonical.maq | apply Canonical.cores
          | apply Canonical.objLog | apply Canonical.refusalEvent | apply Canonical.streams | apply Canonical.jobs
          | apply Canonical.sessions | apply Canonical.leftOut | apply Canonical.survivors | apply Canonical.rowLog
          | apply Canonical.conns | apply Canonical.ports | apply Canonical.hubs | apply Canonical.hubResets
          | apply Canonical.txns | apply Canonical.links | apply Canonical.arrived | apply Canonical.channels
          | apply Canonical.tiles | apply Canonical.xcvrs | apply Canonical.monitors | apply Canonical.requests
          | apply Canonical.remoteOverruns

theorem keeps_sendResponse {x0 : State} {x1 : Nat} {x2 : Nat} {x3 : Nat} {x4 : Nat} {x5 : Nat} {x6 : Nat} {x7 : Nat}
    {x8 : Nat} (h0 : Canonical x0) : Canonical (State.sendResponse x0 x1 x2 x3 x4 x5 x6 x7 x8) := by
  unfold State.sendResponse; try dsimp only
  repeat'
    with_reducible
      first
      | assumption | apply keeps_bumpIf | apply keeps_updStream | apply keeps_queueMessage | apply keeps_elim
          | apply keeps_foldl | apply keeps_foldl_fst | apply keeps_foldl_fst2 | intro _ | apply keeps_ite | split
          | refine keeps_of_eq (by assumption) ?_

theorem keeps_flushAnswers {x0 : State} {x1 : Nat} (h0 : Canonical x0) : Canonical (State.flushAnswers x0 x1) := by
  unfold State.flushAnswers; try dsimp only
  repeat'
    with_reducible
      first
      | assumption | apply keeps_updStream | apply keeps_sendResponse | apply keeps_elim | apply keeps_foldl
          | apply keeps_foldl_fst | apply keeps_foldl_fst2 | intro _ | apply keeps_ite | split
          | refine keeps_of_eq (by assumption) ?_

theorem keeps_acceptStored {x0 : State} {x1 : Nat} {x2 : Nat} (h0 : Canonical x0)
    : Canonical (State.acceptStored x0 x1 x2) := by
  induction x2 generalizing x0 with
  | zero => unfold State.acceptStored; assumption
  | succ _ ih =>
    unfold State.acceptStored; try dsimp only
    repeat'
      with_reducible
        first
        | assumption | apply ih | apply keeps_flushAnswers | apply keeps_sendResponse | apply keeps_bump | apply keeps_updItem
        | simp only [canonical_update] | apply keeps_foldl | apply keeps_foldl_fst | apply keeps_foldl_fst2 | intro _ | split | refine keeps_of_eq (by assumption) ?_

theorem keeps_applyFormed {x0 : State} (h0 : Canonical x0) : Canonical (State.applyFormed x0) := by
  unfold State.applyFormed; try dsimp only
  repeat'
    with_reducible
      first
      | assumption | apply keeps_itemDone | simp only [canonical_update] | apply keeps_elim | apply keeps_foldl
          | apply keeps_foldl_fst | apply keeps_foldl_fst2 | intro _ | apply keeps_ite | split
          | refine keeps_of_eq (by assumption) ?_

theorem keeps_dropUnstored {x0 : State} (h0 : Canonical x0) : Canonical (State.dropUnstored x0) := by
  unfold State.dropUnstored; try dsimp only
  repeat'
    with_reducible
      first
      | assumption | apply keeps_updStream | simp only [canonical_update] | apply keeps_elim | apply keeps_foldl
          | apply keeps_foldl_fst | apply keeps_foldl_fst2 | intro _ | apply keeps_ite | split
          | refine keeps_of_eq (by assumption) ?_

theorem keeps_redeliver {x0 : State} (h0 : Canonical x0) : Canonical (State.redeliver x0) := by
  unfold State.redeliver; try dsimp only
  repeat'
    with_reducible
      first
      | assumption | simp only [canonical_update] | apply keeps_elim | apply keeps_foldl | apply keeps_foldl_fst
          | apply keeps_foldl_fst2 | intro _ | apply keeps_ite | split | refine keeps_of_eq (by assumption) ?_

theorem keeps_rebuildIntake {x0 : State} (h0 : Canonical x0) : Canonical (State.rebuildIntake x0) := by
  unfold State.rebuildIntake; try dsimp only
  repeat'
    with_reducible
      first
      | assumption | apply keeps_dropUnstored | apply keeps_acceptStored | apply keeps_applyFormed
          | apply keeps_redeliver | apply keeps_elim | apply keeps_foldl | apply keeps_foldl_fst
          | apply keeps_foldl_fst2 | intro _ | apply keeps_ite | split | refine keeps_of_eq (by assumption) ?_

theorem keeps_selfRefresh {x0 : State} {x1 : Bool} (h0 : Canonical x0) : Canonical (State.selfRefresh x0 x1) := by
  unfold State.selfRefresh; try dsimp only
  repeat'
    with_reducible
      first
      | assumption | apply keeps_setLayerField | apply keeps_elim | apply keeps_foldl | apply keeps_foldl_fst
          | apply keeps_foldl_fst2 | intro _ | apply keeps_ite | split | refine keeps_of_eq (by assumption) ?_

theorem keeps_selfTest {x0 : State} {x1 : Sys2Proof.BringUp} (h0 : Canonical x0)
    : Canonical (State.selfTest x0 x1) := by
  unfold State.selfTest; try dsimp only
  repeat'
    with_reducible
      first
      | assumption | apply keeps_hubDead | apply keeps_fault | apply keeps_takeFindings
          | simp only [canonical_update] | apply keeps_elim | apply keeps_foldl | apply keeps_foldl_fst
          | apply keeps_foldl_fst2 | intro _ | apply keeps_ite | split | refine keeps_of_eq (by assumption) ?_

theorem keeps_showLinks {x0 : State} (h0 : Canonical x0) : Canonical (State.showLinks x0) := by
  unfold State.showLinks; try dsimp only
  repeat'
    with_reducible
      first
      | assumption | apply keeps_showWires | apply keeps_elim | apply keeps_foldl | apply keeps_foldl_fst
          | apply keeps_foldl_fst2 | intro _ | apply keeps_ite | split | refine keeps_of_eq (by assumption) ?_

theorem keeps_showPatina {x0 : State} {x1 : Nat} (h0 : Canonical x0) : Canonical (State.showPatina x0 x1) := by
  unfold State.showPatina; try dsimp only
  repeat'
    with_reducible
      first
      | assumption | apply keeps_fault | apply keeps_change | apply keeps_elim | apply keeps_foldl
          | apply keeps_foldl_fst | apply keeps_foldl_fst2 | intro _ | apply keeps_ite | split
          | refine keeps_of_eq (by assumption) ?_

theorem keeps_showSteps {x0 : State} {x1 : Bool} (h0 : Canonical x0) : Canonical (State.showSteps x0 x1) := by
  unfold State.showSteps; try dsimp only
  repeat'
    with_reducible
      first
      | assumption | apply keeps_put | apply keeps_elim | apply keeps_foldl | apply keeps_foldl_fst
          | apply keeps_foldl_fst2 | intro _ | apply keeps_ite | split | refine keeps_of_eq (by assumption) ?_

theorem keeps_startTakes {x0 : State} {x1 : Nat} (h0 : Canonical x0) : Canonical (State.startTakes x0 x1) := by
  unfold State.startTakes; try dsimp only
  repeat'
    with_reducible
      first
      | assumption | simp only [canonical_update] | apply keeps_elim | apply keeps_foldl | apply keeps_foldl_fst
          | apply keeps_foldl_fst2 | intro _ | apply keeps_ite | split | refine keeps_of_eq (by assumption) ?_

theorem keeps_bootOn {x0 : State} {x1 : Sys2Proof.BringUp} {x2 : Bool} (h0 : Canonical x0)
    : Canonical (State.bootOn x0 x1 x2) := by
  unfold State.bootOn; try dsimp only
  repeat'
    with_reducible
      first
      | assumption | apply keeps_checkRecord | apply keeps_showLinks | apply keeps_applyEntry | apply keeps_setDevice
          | apply keeps_raiseFields | apply keeps_fault | apply keeps_selfTest | apply keeps_oneSegment
          | apply keeps_buildStacks | apply keeps_loseMissing | apply keeps_buildMaps | apply keeps_showPatina
          | apply keeps_awaitPtp | apply keeps_startTakes | apply keeps_rebuildIntake | apply keeps_showSteps
          | apply keeps_bootPorts | apply keeps_selfRefresh | simp only [canonical_update] | apply keeps_elim
          | apply keeps_foldl | apply keeps_foldl_fst | apply keeps_foldl_fst2 | intro _ | apply keeps_ite | split
          | refine keeps_of_eq (by assumption) ?_

theorem keeps_readVariant {x0 : State} {x1 : Bool} (h0 : Canonical x0) : Canonical (State.readVariant x0 x1) := by
  unfold State.readVariant; try dsimp only
  repeat'
    with_reducible
      first
      | assumption | apply keeps_put | apply keeps_elim | apply keeps_foldl | apply keeps_foldl_fst
          | apply keeps_foldl_fst2 | intro _ | apply keeps_ite | split | refine keeps_of_eq (by assumption) ?_

theorem keeps_copiesLost {x0 : State} (h0 : Canonical x0) : Canonical (State.copiesLost x0) := by
  unfold State.copiesLost; try dsimp only
  repeat'
    with_reducible
      first
      | assumption | apply keeps_fault | apply keeps_readVariant | simp only [canonical_update] | apply keeps_elim
          | apply keeps_foldl | apply keeps_foldl_fst | apply keeps_foldl_fst2 | intro _ | apply keeps_ite | split
          | refine keeps_of_eq (by assumption) ?_
          | (simp only [canonical_all]; refine ⟨?_, ?_, ?_, ?_, ?_, ?_, ?_, ?_, ?_, ?_, ?_, ?_, ?_, ?_, ?_, ?_, ?_, ?_, ?_, ?_, ?_, ?_, ?_, ?_, ?_, ?_, ?_⟩)
          | apply rising_map | apply wf_copyInto | apply wf_fold | apply Tab.copyInto_wf | apply rising_fold
          | exact rising_nil | exact wf_nil | exact mem_nil | apply wf_copyRange | apply Tab.copyRange_wf
          | apply wf_clearRange | apply Tab.set_rising | apply Tab.upd_rising | apply Tab.filter_rising
          | apply Tab.set_wf | apply Tab.clearRange_wf | apply Canonical.mem | apply Canonical.poison
          | apply Canonical.sync | apply Canonical.obj | apply Canonical.maq | apply Canonical.cores
          | apply Canonical.objLog | apply Canonical.refusalEvent | apply Canonical.streams | apply Canonical.jobs
          | apply Canonical.sessions | apply Canonical.leftOut | apply Canonical.survivors | apply Canonical.rowLog
          | apply Canonical.conns | apply Canonical.ports | apply Canonical.hubs | apply Canonical.hubResets
          | apply Canonical.txns | apply Canonical.links | apply Canonical.arrived | apply Canonical.channels
          | apply Canonical.tiles | apply Canonical.xcvrs | apply Canonical.monitors | apply Canonical.requests
          | apply Canonical.remoteOverruns

theorem keeps_runSlot {x0 : State} {x1 : Nat} (h0 : Canonical x0) : Canonical (State.runSlot x0 x1) := by
  unfold State.runSlot; try dsimp only
  repeat'
    with_reducible
      first
      | assumption | apply keeps_put | simp only [canonical_update] | apply keeps_elim | apply keeps_foldl
          | apply keeps_foldl_fst | apply keeps_foldl_fst2 | intro _ | apply keeps_ite | split
          | refine keeps_of_eq (by assumption) ?_

theorem keeps_boot {x0 : State} {x1 : Sys2Proof.BringUp} {x2 : Bool} (h0 : Canonical x0)
    : Canonical (State.boot x0 x1 x2) := by
  unfold State.boot; try dsimp only
  repeat'
    with_reducible
      first
      | assumption | apply keeps_bootControllers | apply keeps_setDevice | apply keeps_readVariant
          | apply keeps_runSlot | apply keeps_bootOn | apply keeps_copiesLost | simp only [canonical_update]
          | apply keeps_elim | apply keeps_foldl | apply keeps_foldl_fst | apply keeps_foldl_fst2 | intro _
          | apply keeps_ite | split | refine keeps_of_eq (by assumption) ?_

theorem keeps_abortLoad {x0 : State} (h0 : Canonical x0) : Canonical (State.abortLoad x0) := by
  unfold State.abortLoad; try dsimp only
  repeat'
    with_reducible
      first
      | assumption | apply keeps_change | simp only [canonical_update] | apply keeps_elim | apply keeps_foldl
          | apply keeps_foldl_fst | apply keeps_foldl_fst2 | intro _ | apply keeps_ite | split
          | refine keeps_of_eq (by assumption) ?_

theorem keeps_setSession {x0 : State} {x1 : Nat} {x2 : Option Session} (h0 : Canonical x0)
    : Canonical (State.setSession x0 x1 x2) := by
  unfold State.setSession; try dsimp only
  repeat'
    with_reducible
      first
      | assumption | simp only [canonical_update] | apply keeps_elim | apply keeps_foldl | apply keeps_foldl_fst
          | apply keeps_foldl_fst2 | intro _ | apply keeps_ite | split | refine keeps_of_eq (by assumption) ?_
          | (simp only [canonical_all]; refine ⟨?_, ?_, ?_, ?_, ?_, ?_, ?_, ?_, ?_, ?_, ?_, ?_, ?_, ?_, ?_, ?_, ?_, ?_, ?_, ?_, ?_, ?_, ?_, ?_, ?_, ?_, ?_⟩)
          | apply rising_map | apply wf_copyInto | apply wf_fold | apply Tab.copyInto_wf | apply rising_fold
          | exact rising_nil | exact wf_nil | exact mem_nil | apply wf_copyRange | apply Tab.copyRange_wf
          | apply wf_clearRange | apply Tab.set_rising | apply Tab.upd_rising | apply Tab.filter_rising
          | apply Tab.set_wf | apply Tab.clearRange_wf | apply Canonical.mem | apply Canonical.poison
          | apply Canonical.sync | apply Canonical.obj | apply Canonical.maq | apply Canonical.cores
          | apply Canonical.objLog | apply Canonical.refusalEvent | apply Canonical.streams | apply Canonical.jobs
          | apply Canonical.sessions | apply Canonical.leftOut | apply Canonical.survivors | apply Canonical.rowLog
          | apply Canonical.conns | apply Canonical.ports | apply Canonical.hubs | apply Canonical.hubResets
          | apply Canonical.txns | apply Canonical.links | apply Canonical.arrived | apply Canonical.channels
          | apply Canonical.tiles | apply Canonical.xcvrs | apply Canonical.monitors | apply Canonical.requests
          | apply Canonical.remoteOverruns

theorem keeps_updSession {x0 : State} {x1 : Nat} {x2 : Session → Session} (h0 : Canonical x0)
    : Canonical (State.updSession x0 x1 x2) := by
  unfold State.updSession; try dsimp only
  repeat'
    with_reducible
      first
      | assumption | apply keeps_setSession | apply keeps_elim | apply keeps_foldl | apply keeps_foldl_fst
          | apply keeps_foldl_fst2 | intro _ | apply keeps_ite | split | refine keeps_of_eq (by assumption) ?_

theorem keeps_dropTransfer {x0 : State} {x1 : Nat} {x2 : Nat} (h0 : Canonical x0)
    : Canonical (State.dropTransfer x0 x1 x2) := by
  unfold State.dropTransfer; try dsimp only
  repeat'
    with_reducible
      first
      | assumption | apply keeps_updSession | apply keeps_elim | apply keeps_foldl | apply keeps_foldl_fst
          | apply keeps_foldl_fst2 | intro _ | apply keeps_ite | split | refine keeps_of_eq (by assumption) ?_

theorem keeps_sendUnit {x0 : State} {x1 : Sys2Proof.Source} {x2 : Sys2Proof.TchUnit} (h0 : Canonical x0)
    : Canonical (State.sendUnit x0 x1 x2) := by
  unfold State.sendUnit; try dsimp only
  repeat'
    with_reducible
      first
      | assumption | apply keeps_queueMessage | apply keeps_emit | apply keeps_elim | apply keeps_foldl
          | apply keeps_foldl_fst | apply keeps_foldl_fst2 | intro _ | apply keeps_ite | split
          | refine keeps_of_eq (by assumption) ?_

theorem keeps_abortTransfer {x0 : State} {x1 : Nat} {x2 : Transfer} {x3 : Nat} (h0 : Canonical x0)
    : Canonical (State.abortTransfer x0 x1 x2 x3) := by
  unfold State.abortTransfer; try dsimp only
  repeat'
    with_reducible
      first
      | assumption | apply keeps_sendUnit | apply keeps_dropTransfer | apply keeps_elim | apply keeps_foldl
          | apply keeps_foldl_fst | apply keeps_foldl_fst2 | intro _ | apply keeps_ite | split
          | refine keeps_of_eq (by assumption) ?_

theorem keeps_abortTransfers {x0 : State} {x1 : Nat} {x2 : Nat} (h0 : Canonical x0)
    : Canonical (State.abortTransfers x0 x1 x2) := by
  unfold State.abortTransfers; try dsimp only
  repeat'
    with_reducible
      first
      | assumption | apply keeps_abortTransfer | apply keeps_elim | apply keeps_foldl | apply keeps_foldl_fst
          | apply keeps_foldl_fst2 | intro _ | apply keeps_ite | split | refine keeps_of_eq (by assumption) ?_

theorem keeps_closeSession {x0 : State} {x1 : Nat} (h0 : Canonical x0) : Canonical (State.closeSession x0 x1) := by
  unfold State.closeSession; try dsimp only
  repeat'
    with_reducible
      first
      | assumption | apply keeps_abortTransfers | apply keeps_put | apply keeps_abortLoad | apply keeps_setSession
          | apply keeps_elim | apply keeps_foldl | apply keeps_foldl_fst | apply keeps_foldl_fst2 | intro _
          | apply keeps_ite | split | refine keeps_of_eq (by assumption) ?_

theorem keeps_closeSessions {x0 : State} (h0 : Canonical x0) : Canonical (State.closeSessions x0) := by
  unfold State.closeSessions; try dsimp only
  repeat'
    with_reducible
      first
      | assumption | apply keeps_closeSession | apply keeps_elim | apply keeps_foldl | apply keeps_foldl_fst
          | apply keeps_foldl_fst2 | intro _ | apply keeps_ite | split | refine keeps_of_eq (by assumption) ?_

theorem keeps_relock {x0 : State} (h0 : Canonical x0) : Canonical (State.relock x0) := by
  unfold State.relock; try dsimp only
  repeat'
    with_reducible
      first
      | assumption | apply keeps_put | apply keeps_change | simp only [canonical_update] | apply keeps_elim
          | apply keeps_foldl | apply keeps_foldl_fst | apply keeps_foldl_fst2 | intro _ | apply keeps_ite | split
          | refine keeps_of_eq (by assumption) ?_

theorem keeps_failTransfer {x0 : State} {x1 : Nat × Nat × Nat × Active × Pending} {x2 : Status} {x3 : Nat} {x4 : Nat}
    (h0 : Canonical x0) : Canonical (State.failTransfer x0 x1 x2 x3 x4) := by
  unfold State.failTransfer; try dsimp only
  repeat'
    with_reducible
      first
      | assumption | apply keeps_putActive | apply keeps_elim | apply keeps_foldl | apply keeps_foldl_fst
          | apply keeps_foldl_fst2 | intro _ | apply keeps_ite | split | refine keeps_of_eq (by assumption) ?_

theorem keeps_dropConn {x0 : State} {x1 : Nat} (h0 : Canonical x0) : Canonical (State.dropConn x0 x1) := by
  unfold State.dropConn; try dsimp only
  repeat'
    with_reducible
      first
      | assumption | apply keeps_failTransfer | simp only [canonical_update] | apply keeps_elim | apply keeps_foldl
          | apply keeps_foldl_fst | apply keeps_foldl_fst2 | intro _ | apply keeps_ite | split
          | refine keeps_of_eq (by assumption) ?_
          | (simp only [canonical_all]; refine ⟨?_, ?_, ?_, ?_, ?_, ?_, ?_, ?_, ?_, ?_, ?_, ?_, ?_, ?_, ?_, ?_, ?_, ?_, ?_, ?_, ?_, ?_, ?_, ?_, ?_, ?_, ?_⟩)
          | apply rising_map | apply wf_copyInto | apply wf_fold | apply Tab.copyInto_wf | apply rising_fold
          | exact rising_nil | exact wf_nil | exact mem_nil | apply wf_copyRange | apply Tab.copyRange_wf
          | apply wf_clearRange | apply Tab.set_rising | apply Tab.upd_rising | apply Tab.filter_rising
          | apply Tab.set_wf | apply Tab.clearRange_wf | apply Canonical.mem | apply Canonical.poison
          | apply Canonical.sync | apply Canonical.obj | apply Canonical.maq | apply Canonical.cores
          | apply Canonical.objLog | apply Canonical.refusalEvent | apply Canonical.streams | apply Canonical.jobs
          | apply Canonical.sessions | apply Canonical.leftOut | apply Canonical.survivors | apply Canonical.rowLog
          | apply Canonical.conns | apply Canonical.ports | apply Canonical.hubs | apply Canonical.hubResets
          | apply Canonical.txns | apply Canonical.links | apply Canonical.arrived | apply Canonical.channels
          | apply Canonical.tiles | apply Canonical.xcvrs | apply Canonical.monitors | apply Canonical.requests
          | apply Canonical.remoteOverruns

theorem keeps_closeAll {x0 : State} (h0 : Canonical x0) : Canonical (State.closeAll x0) := by
  unfold State.closeAll; try dsimp only
  repeat'
    with_reducible
      first
      | assumption | apply keeps_dropConn | apply keeps_elim | apply keeps_foldl | apply keeps_foldl_fst
          | apply keeps_foldl_fst2 | intro _ | apply keeps_ite | split | refine keeps_of_eq (by assumption) ?_

theorem keeps_loadRegions {x0 : State} (h0 : Canonical x0) : Canonical (State.loadRegions x0) := by
  unfold State.loadRegions; try dsimp only
  repeat'
    with_reducible
      first
      | assumption | simp only [canonical_update] | apply keeps_elim | apply keeps_foldl | apply keeps_foldl_fst
          | apply keeps_foldl_fst2 | intro _ | apply keeps_ite | split | refine keeps_of_eq (by assumption) ?_

theorem keeps_resetLogic {x0 : State} (h0 : Canonical x0) : Canonical (State.resetLogic x0) := by
  unfold State.resetLogic; try dsimp only
  repeat'
    with_reducible
      first
      | assumption | apply keeps_closeAll | apply keeps_zeroGroup | apply keeps_setGroups | apply keeps_setCoreState
          | apply keeps_updCore | apply keeps_loadRegions | simp only [canonical_update] | apply keeps_elim
          | apply keeps_foldl | apply keeps_foldl_fst | apply keeps_foldl_fst2 | intro _ | apply keeps_ite | split
          | refine keeps_of_eq (by assumption) ?_
          | (simp only [canonical_all]; refine ⟨?_, ?_, ?_, ?_, ?_, ?_, ?_, ?_, ?_, ?_, ?_, ?_, ?_, ?_, ?_, ?_, ?_, ?_, ?_, ?_, ?_, ?_, ?_, ?_, ?_, ?_, ?_⟩)
          | apply rising_map | apply wf_copyInto | apply wf_fold | apply Tab.copyInto_wf | apply rising_fold
          | exact rising_nil | exact wf_nil | exact mem_nil | apply wf_copyRange | apply Tab.copyRange_wf
          | apply wf_clearRange | apply Tab.set_rising | apply Tab.upd_rising | apply Tab.filter_rising
          | apply Tab.set_wf | apply Tab.clearRange_wf | apply Canonical.mem | apply Canonical.poison
          | apply Canonical.sync | apply Canonical.obj | apply Canonical.maq | apply Canonical.cores
          | apply Canonical.objLog | apply Canonical.refusalEvent | apply Canonical.streams | apply Canonical.jobs
          | apply Canonical.sessions | apply Canonical.leftOut | apply Canonical.survivors | apply Canonical.rowLog
          | apply Canonical.conns | apply Canonical.ports | apply Canonical.hubs | apply Canonical.hubResets
          | apply Canonical.txns | apply Canonical.links | apply Canonical.arrived | apply Canonical.channels
          | apply Canonical.tiles | apply Canonical.xcvrs | apply Canonical.monitors | apply Canonical.requests
          | apply Canonical.remoteOverruns

theorem keeps_coldState {x0 : State} (h0 : Canonical x0) : Canonical (State.coldState x0) := by
  unfold State.coldState; try dsimp only
  repeat'
    with_reducible
      first
      | assumption | apply keeps_relock | apply keeps_resetLogic | apply keeps_closeSessions | apply keeps_showLinks
          | simp only [canonical_update] | apply keeps_elim | apply keeps_foldl | apply keeps_foldl_fst
          | apply keeps_foldl_fst2 | intro _ | apply keeps_ite | split | refine keeps_of_eq (by assumption) ?_
          | (simp only [canonical_all]; refine ⟨?_, ?_, ?_, ?_, ?_, ?_, ?_, ?_, ?_, ?_, ?_, ?_, ?_, ?_, ?_, ?_, ?_, ?_, ?_, ?_, ?_, ?_, ?_, ?_, ?_, ?_, ?_⟩)
          | apply rising_map | apply wf_copyInto | apply wf_fold | apply Tab.copyInto_wf | apply rising_fold
          | exact rising_nil | exact wf_nil | exact mem_nil | apply wf_copyRange | apply Tab.copyRange_wf
          | apply wf_clearRange | apply Tab.set_rising | apply Tab.upd_rising | apply Tab.filter_rising
          | apply Tab.set_wf | apply Tab.clearRange_wf | apply Canonical.mem | apply Canonical.poison
          | apply Canonical.sync | apply Canonical.obj | apply Canonical.maq | apply Canonical.cores
          | apply Canonical.objLog | apply Canonical.refusalEvent | apply Canonical.streams | apply Canonical.jobs
          | apply Canonical.sessions | apply Canonical.leftOut | apply Canonical.survivors | apply Canonical.rowLog
          | apply Canonical.conns | apply Canonical.ports | apply Canonical.hubs | apply Canonical.hubResets
          | apply Canonical.txns | apply Canonical.links | apply Canonical.arrived | apply Canonical.channels
          | apply Canonical.tiles | apply Canonical.xcvrs | apply Canonical.monitors | apply Canonical.requests
          | apply Canonical.remoteOverruns

theorem keeps_flushEnergy {x0 : State} (h0 : Canonical x0) : Canonical (State.flushEnergy x0) := by
  unfold State.flushEnergy; try dsimp only
  repeat'
    with_reducible
      first
      | assumption | simp only [canonical_update] | apply keeps_elim | apply keeps_foldl | apply keeps_foldl_fst
          | apply keeps_foldl_fst2 | intro _ | apply keeps_ite | split | refine keeps_of_eq (by assumption) ?_

theorem keeps_flushWear {x0 : State} (h0 : Canonical x0) : Canonical (State.flushWear x0) := by
  unfold State.flushWear; try dsimp only
  repeat'
    with_reducible
      first
      | assumption | simp only [canonical_update] | apply keeps_elim | apply keeps_foldl | apply keeps_foldl_fst
          | apply keeps_foldl_fst2 | intro _ | apply keeps_ite | split | refine keeps_of_eq (by assumption) ?_

theorem keeps_setMonitor {x0 : State} {x1 : Nat} {x2 : Monitor} (h0 : Canonical x0)
    : Canonical (State.setMonitor x0 x1 x2) := by
  unfold State.setMonitor; try dsimp only
  repeat'
    with_reducible
      first
      | assumption | simp only [canonical_update] | apply keeps_elim | apply keeps_foldl | apply keeps_foldl_fst
          | apply keeps_foldl_fst2 | intro _ | apply keeps_ite | split | refine keeps_of_eq (by assumption) ?_
          | (simp only [canonical_all]; refine ⟨?_, ?_, ?_, ?_, ?_, ?_, ?_, ?_, ?_, ?_, ?_, ?_, ?_, ?_, ?_, ?_, ?_, ?_, ?_, ?_, ?_, ?_, ?_, ?_, ?_, ?_, ?_⟩)
          | apply rising_map | apply wf_copyInto | apply wf_fold | apply Tab.copyInto_wf | apply rising_fold
          | exact rising_nil | exact wf_nil | exact mem_nil | apply wf_copyRange | apply Tab.copyRange_wf
          | apply wf_clearRange | apply Tab.set_rising | apply Tab.upd_rising | apply Tab.filter_rising
          | apply Tab.set_wf | apply Tab.clearRange_wf | apply Canonical.mem | apply Canonical.poison
          | apply Canonical.sync | apply Canonical.obj | apply Canonical.maq | apply Canonical.cores
          | apply Canonical.objLog | apply Canonical.refusalEvent | apply Canonical.streams | apply Canonical.jobs
          | apply Canonical.sessions | apply Canonical.leftOut | apply Canonical.survivors | apply Canonical.rowLog
          | apply Canonical.conns | apply Canonical.ports | apply Canonical.hubs | apply Canonical.hubResets
          | apply Canonical.txns | apply Canonical.links | apply Canonical.arrived | apply Canonical.channels
          | apply Canonical.tiles | apply Canonical.xcvrs | apply Canonical.monitors | apply Canonical.requests
          | apply Canonical.remoteOverruns

theorem keeps_clearMonitor {x0 : State} {x1 : Nat} {x2 : Nat} (h0 : Canonical x0)
    : Canonical (State.clearMonitor x0 x1 x2) := by
  unfold State.clearMonitor; try dsimp only
  repeat'
    with_reducible
      first
      | assumption | apply keeps_setMonitor | apply keeps_elim | apply keeps_foldl | apply keeps_foldl_fst
          | apply keeps_foldl_fst2 | intro _ | apply keeps_ite | split | refine keeps_of_eq (by assumption) ?_

theorem keeps_openWindow {x0 : State} {x1 : Nat} {x2 : Nat} (h0 : Canonical x0)
    : Canonical (State.openWindow x0 x1 x2) := by
  unfold State.openWindow; try dsimp only
  repeat'
    with_reducible
      first
      | assumption | apply keeps_setMonitor | apply keeps_elim | apply keeps_foldl | apply keeps_foldl_fst
          | apply keeps_foldl_fst2 | intro _ | apply keeps_ite | split | refine keeps_of_eq (by assumption) ?_

theorem keeps_restartMonitors {x0 : State} (h0 : Canonical x0) : Canonical (State.restartMonitors x0) := by
  unfold State.restartMonitors; try dsimp only
  repeat'
    with_reducible
      first
      | assumption | apply keeps_clearMonitor | apply keeps_openWindow | simp only [canonical_update]
          | apply keeps_elim | apply keeps_foldl | apply keeps_foldl_fst | apply keeps_foldl_fst2 | intro _
          | apply keeps_ite | split | refine keeps_of_eq (by assumption) ?_
          | (simp only [canonical_all]; refine ⟨?_, ?_, ?_, ?_, ?_, ?_, ?_, ?_, ?_, ?_, ?_, ?_, ?_, ?_, ?_, ?_, ?_, ?_, ?_, ?_, ?_, ?_, ?_, ?_, ?_, ?_, ?_⟩)
          | apply rising_map | apply wf_copyInto | apply wf_fold | apply Tab.copyInto_wf | apply rising_fold
          | exact rising_nil | exact wf_nil | exact mem_nil | apply wf_copyRange | apply Tab.copyRange_wf
          | apply wf_clearRange | apply Tab.set_rising | apply Tab.upd_rising | apply Tab.filter_rising
          | apply Tab.set_wf | apply Tab.clearRange_wf | apply Canonical.mem | apply Canonical.poison
          | apply Canonical.sync | apply Canonical.obj | apply Canonical.maq | apply Canonical.cores
          | apply Canonical.objLog | apply Canonical.refusalEvent | apply Canonical.streams | apply Canonical.jobs
          | apply Canonical.sessions | apply Canonical.leftOut | apply Canonical.survivors | apply Canonical.rowLog
          | apply Canonical.conns | apply Canonical.ports | apply Canonical.hubs | apply Canonical.hubResets
          | apply Canonical.txns | apply Canonical.links | apply Canonical.arrived | apply Canonical.channels
          | apply Canonical.tiles | apply Canonical.xcvrs | apply Canonical.monitors | apply Canonical.requests
          | apply Canonical.remoteOverruns

theorem keeps_finishCold {x0 : State} (h0 : Canonical x0) : Canonical (State.finishCold x0) := by
  unfold State.finishCold; try dsimp only
  repeat'
    with_reducible
      first
      | assumption | apply keeps_restartMonitors | apply keeps_coldState | apply keeps_flushEnergy
          | apply keeps_flushWear | apply keeps_boot | apply keeps_elim | apply keeps_foldl | apply keeps_foldl_fst
          | apply keeps_foldl_fst2 | intro _ | apply keeps_ite | split | refine keeps_of_eq (by assumption) ?_

theorem keeps_retestStandby {x0 : State} (h0 : Canonical x0) : Canonical (State.retestStandby x0) := by
  unfold State.retestStandby; try dsimp only
  repeat'
    with_reducible
      first
      | assumption | apply keeps_change | simp only [canonical_update] | apply keeps_elim | apply keeps_foldl
          | apply keeps_foldl_fst | apply keeps_foldl_fst2 | intro _ | apply keeps_ite | split
          | refine keeps_of_eq (by assumption) ?_

theorem keeps_trainDown {x0 : State} (h0 : Canonical x0) : Canonical (State.trainDown x0) := by
  unfold State.trainDown; try dsimp only
  repeat'
    with_reducible
      first
      | assumption | apply keeps_trainPort | apply keeps_elim | apply keeps_foldl | apply keeps_foldl_fst
          | apply keeps_foldl_fst2 | intro _ | apply keeps_ite | split | refine keeps_of_eq (by assumption) ?_

theorem keeps_finishWarm {x0 : State} (h0 : Canonical x0) : Canonical (State.finishWarm x0) := by
  unfold State.finishWarm; try dsimp only
  repeat'
    with_reducible
      first
      | assumption | apply keeps_setPowerState | apply keeps_flushEnergy | apply keeps_flushWear
          | apply keeps_restartMonitors | apply keeps_startTakes | apply keeps_rebuildIntake
          | apply keeps_retestStandby | apply keeps_relock | apply keeps_resetLogic | apply keeps_setRoutes
          | apply keeps_showSteps | apply keeps_selfRefresh | apply keeps_ready | apply keeps_trainDown
          | apply keeps_elim | apply keeps_foldl | apply keeps_foldl_fst | apply keeps_foldl_fst2 | intro _
          | apply keeps_ite | split | refine keeps_of_eq (by assumption) ?_

theorem keeps_endControl {x0 : State} {x1 : Nat} {x2 : Nat} {x3 : Nat} {x4 : Nat} (h0 : Canonical x0)
    : Canonical (State.endControl x0 x1 x2 x3 x4) := by
  unfold State.endControl; try dsimp only
  repeat'
    with_reducible
      first
      | assumption | apply keeps_finishItem | apply keeps_elim | apply keeps_foldl | apply keeps_foldl_fst
          | apply keeps_foldl_fst2 | intro _ | apply keeps_ite | split | refine keeps_of_eq (by assumption) ?_

theorem keeps_controlEnds {x0 : State} {x1 : Item} {x2 : Nat} (h0 : Canonical x0)
    : Canonical (State.controlEnds x0 x1 x2) := by
  unfold State.controlEnds; try dsimp only
  repeat'
    with_reducible
      first
      | assumption | apply keeps_endControl | apply keeps_elim | apply keeps_foldl | apply keeps_foldl_fst
          | apply keeps_foldl_fst2 | intro _ | apply keeps_ite | split | refine keeps_of_eq (by assumption) ?_

theorem keeps_endRunningControl {x0 : State} (h0 : Canonical x0) : Canonical (State.endRunningControl x0) := by
  unfold State.endRunningControl; try dsimp only
  repeat'
    with_reducible
      first
      | assumption | apply keeps_controlEnds | apply keeps_elim | apply keeps_foldl | apply keeps_foldl_fst
          | apply keeps_foldl_fst2 | intro _ | apply keeps_ite | split | refine keeps_of_eq (by assumption) ?_

theorem keeps_saveContext {x0 : State} {x1 : Nat} {x2 : Nat} (h0 : Canonical x0)
    : Canonical (State.saveContext x0 x1 x2) := by
  unfold State.saveContext; try dsimp only
  repeat'
    with_reducible
      first
      | assumption | apply keeps_writeImage | apply keeps_elim | apply keeps_foldl | apply keeps_foldl_fst
          | apply keeps_foldl_fst2 | intro _ | apply keeps_ite | split | refine keeps_of_eq (by assumption) ?_

theorem keeps_saveJob {x0 : State} {x1 : Nat} (h0 : Canonical x0) : Canonical (State.saveJob x0 x1) := by
  unfold State.saveJob; try dsimp only
  repeat'
    with_reducible
      first
      | assumption | apply keeps_saveContext | apply keeps_updJob | apply keeps_elim | apply keeps_foldl
          | apply keeps_foldl_fst | apply keeps_foldl_fst2 | intro _ | apply keeps_ite | split
          | refine keeps_of_eq (by assumption) ?_

theorem keeps_freeCore {x0 : State} {x1 : Nat} (h0 : Canonical x0) : Canonical (State.freeCore x0 x1) := by
  unfold State.freeCore; try dsimp only
  repeat'
    with_reducible
      first
      | assumption | apply keeps_setCoreState | apply keeps_updCore | simp only [canonical_update] | apply keeps_elim
          | apply keeps_foldl | apply keeps_foldl_fst | apply keeps_foldl_fst2 | intro _ | apply keeps_ite | split
          | refine keeps_of_eq (by assumption) ?_

theorem keeps_stopJob {x0 : State} {x1 : Nat} (h0 : Canonical x0) : Canonical (State.stopJob x0 x1) := by
  unfold State.stopJob; try dsimp only
  repeat'
    with_reducible
      first
      | assumption | apply keeps_setJobState | apply keeps_freeCore | simp only [canonical_update] | apply keeps_elim
          | apply keeps_foldl | apply keeps_foldl_fst | apply keeps_foldl_fst2 | intro _ | apply keeps_ite | split
          | refine keeps_of_eq (by assumption) ?_

theorem keeps_stopForReset {x0 : State} {x1 : Nat} (h0 : Canonical x0) : Canonical (State.stopForReset x0 x1) := by
  unfold State.stopForReset; try dsimp only
  repeat'
    with_reducible
      first
      | assumption | apply keeps_updJob | apply keeps_stopJob | apply keeps_saveJob | apply keeps_endStarted
          | simp only [canonical_update] | apply keeps_elim | apply keeps_foldl | apply keeps_foldl_fst
          | apply keeps_foldl_fst2 | intro _ | apply keeps_ite | split | refine keeps_of_eq (by assumption) ?_

theorem keeps_stopJobs {x0 : State} (h0 : Canonical x0) : Canonical (State.stopJobs x0) := by
  unfold State.stopJobs; try dsimp only
  repeat'
    with_reducible
      first
      | assumption | apply keeps_stopForReset | apply keeps_endRunningControl | simp only [canonical_update]
          | apply keeps_elim | apply keeps_foldl | apply keeps_foldl_fst | apply keeps_foldl_fst2 | intro _
          | apply keeps_ite | split | refine keeps_of_eq (by assumption) ?_

theorem keeps_finishReset {x0 : State} (h0 : Canonical x0) : Canonical (State.finishReset x0) := by
  unfold State.finishReset; try dsimp only
  repeat'
    with_reducible
      first
      | assumption | apply keeps_stopJobs | apply keeps_finishWarm | apply keeps_finishCold
          | simp only [canonical_update] | apply keeps_elim | apply keeps_foldl | apply keeps_foldl_fst
          | apply keeps_foldl_fst2 | intro _ | apply keeps_ite | split | refine keeps_of_eq (by assumption) ?_

theorem keeps_releaseQuiesce {x0 : State} {x1 : Nat} (h0 : Canonical x0)
    : Canonical (State.releaseQuiesce x0 x1) := by
  unfold State.releaseQuiesce; try dsimp only
  repeat'
    with_reducible
      first
      | assumption | apply keeps_setCoreState | apply keeps_setJobState | apply keeps_elim | apply keeps_foldl
          | apply keeps_foldl_fst | apply keeps_foldl_fst2 | intro _ | apply keeps_ite | split
          | refine keeps_of_eq (by assumption) ?_

theorem keeps_controlTimeout {x0 : State} (h0 : Canonical x0) : Canonical (State.controlTimeout x0) := by
  unfold State.controlTimeout; try dsimp only
  repeat'
    with_reducible
      first
      | assumption | apply keeps_updJob | apply keeps_controlEnds | apply keeps_releaseQuiesce
          | simp only [canonical_update] | apply keeps_elim | apply keeps_foldl | apply keeps_foldl_fst
          | apply keeps_foldl_fst2 | intro _ | apply keeps_ite | split | refine keeps_of_eq (by assumption) ?_

theorem keeps_controlQuiesceTimeout {x0 : State} (h0 : Canonical x0) : Canonical (controlQuiesceTimeout x0) := by
  unfold controlQuiesceTimeout; try dsimp only
  repeat'
    with_reducible
      first
      | assumption | apply keeps_finishReset | apply keeps_controlTimeout | simp only [canonical_update]
          | apply keeps_elim | apply keeps_foldl | apply keeps_foldl_fst | apply keeps_foldl_fst2 | intro _
          | apply keeps_ite | split | refine keeps_of_eq (by assumption) ?_

theorem keeps_measureDelay {x0 : State} {x1 : Nat} {x2 : Sys2Proof.PtpMsg} (h0 : Canonical x0)
    : Canonical (State.measureDelay x0 x1 x2) := by
  unfold State.measureDelay; try dsimp only
  repeat'
    with_reducible
      first
      | assumption | apply keeps_updPort | apply keeps_elim | apply keeps_foldl | apply keeps_foldl_fst
          | apply keeps_foldl_fst2 | intro _ | apply keeps_ite | split | refine keeps_of_eq (by assumption) ?_

theorem keeps_withEntries {x0 : State} {x1 : List Sys2Proof.Bytes} (h0 : Canonical x0)
    : Canonical (State.withEntries x0 x1) := by
  unfold State.withEntries; try dsimp only
  repeat'
    with_reducible
      first
      | assumption | simp only [canonical_update] | apply keeps_elim | apply keeps_foldl | apply keeps_foldl_fst
          | apply keeps_foldl_fst2 | intro _ | apply keeps_ite | split | refine keeps_of_eq (by assumption) ?_

theorem keeps_powerOnState {x0 : State} (h0 : Canonical x0) : Canonical (State.powerOnState x0) := by
  unfold State.powerOnState; try dsimp only
  repeat'
    with_reducible
      first
      | assumption | simp only [canonical_update] | apply keeps_elim | apply keeps_foldl | apply keeps_foldl_fst
          | apply keeps_foldl_fst2 | intro _ | apply keeps_ite | split | refine keeps_of_eq (by assumption) ?_
          | (simp only [canonical_all]; refine ⟨?_, ?_, ?_, ?_, ?_, ?_, ?_, ?_, ?_, ?_, ?_, ?_, ?_, ?_, ?_, ?_, ?_, ?_, ?_, ?_, ?_, ?_, ?_, ?_, ?_, ?_, ?_⟩)
          | apply rising_map | apply wf_copyInto | apply wf_fold | apply Tab.copyInto_wf | apply rising_fold
          | exact rising_nil | exact wf_nil | exact mem_nil | apply wf_copyRange | apply Tab.copyRange_wf
          | apply wf_clearRange | apply Tab.set_rising | apply Tab.upd_rising | apply Tab.filter_rising
          | apply Tab.set_wf | apply Tab.clearRange_wf | apply Canonical.mem | apply Canonical.poison
          | apply Canonical.sync | apply Canonical.obj | apply Canonical.maq | apply Canonical.cores
          | apply Canonical.objLog | apply Canonical.refusalEvent | apply Canonical.streams | apply Canonical.jobs
          | apply Canonical.sessions | apply Canonical.leftOut | apply Canonical.survivors | apply Canonical.rowLog
          | apply Canonical.conns | apply Canonical.ports | apply Canonical.hubs | apply Canonical.hubResets
          | apply Canonical.txns | apply Canonical.links | apply Canonical.arrived | apply Canonical.channels
          | apply Canonical.tiles | apply Canonical.xcvrs | apply Canonical.monitors | apply Canonical.requests
          | apply Canonical.remoteOverruns

theorem keeps_controlSwapped {x0 : State} {x1 : Nat} {x2 : Nat} (h0 : Canonical x0)
    : Canonical (State.controlSwapped x0 x1 x2) := by
  unfold State.controlSwapped; try dsimp only
  repeat'
    with_reducible
      first
      | assumption | apply keeps_updJob | apply keeps_endControl | apply keeps_elim | apply keeps_foldl
          | apply keeps_foldl_fst | apply keeps_foldl_fst2 | intro _ | apply keeps_ite | split
          | refine keeps_of_eq (by assumption) ?_

theorem keeps_discardEdits {x0 : State} (h0 : Canonical x0) : Canonical (State.discardEdits x0) := by
  unfold State.discardEdits; try dsimp only
  repeat'
    with_reducible
      first
      | assumption | simp only [canonical_update] | apply keeps_elim | apply keeps_foldl | apply keeps_foldl_fst
          | apply keeps_foldl_fst2 | intro _ | apply keeps_ite | split | refine keeps_of_eq (by assumption) ?_
          | (simp only [canonical_all]; refine ⟨?_, ?_, ?_, ?_, ?_, ?_, ?_, ?_, ?_, ?_, ?_, ?_, ?_, ?_, ?_, ?_, ?_, ?_, ?_, ?_, ?_, ?_, ?_, ?_, ?_, ?_, ?_⟩)
          | apply rising_map | apply wf_copyInto | apply wf_fold | apply Tab.copyInto_wf | apply rising_fold
          | exact rising_nil | exact wf_nil | exact mem_nil | apply wf_copyRange | apply Tab.copyRange_wf
          | apply wf_clearRange | apply Tab.set_rising | apply Tab.upd_rising | apply Tab.filter_rising
          | apply Tab.set_wf | apply Tab.clearRange_wf | apply Canonical.mem | apply Canonical.poison
          | apply Canonical.sync | apply Canonical.obj | apply Canonical.maq | apply Canonical.cores
          | apply Canonical.objLog | apply Canonical.refusalEvent | apply Canonical.streams | apply Canonical.jobs
          | apply Canonical.sessions | apply Canonical.leftOut | apply Canonical.survivors | apply Canonical.rowLog
          | apply Canonical.conns | apply Canonical.ports | apply Canonical.hubs | apply Canonical.hubResets
          | apply Canonical.txns | apply Canonical.links | apply Canonical.arrived | apply Canonical.channels
          | apply Canonical.tiles | apply Canonical.xcvrs | apply Canonical.monitors | apply Canonical.requests
          | apply Canonical.remoteOverruns

theorem keeps_recoveryEnd {x0 : State} {x1 : Nat} {x2 : Nat} {x3 : Assign} {x4 : Nat} (h0 : Canonical x0)
    : Canonical (State.recoveryEnd x0 x1 x2 x3 x4) := by
  unfold State.recoveryEnd; try dsimp only
  repeat'
    with_reducible
      first
      | assumption | apply keeps_fault | apply keeps_countRare | apply keeps_put | apply keeps_elim
          | apply keeps_foldl | apply keeps_foldl_fst | apply keeps_foldl_fst2 | intro _ | apply keeps_ite | split
          | refine keeps_of_eq (by assumption) ?_

theorem keeps_nowOut {x0 : State} {x1 : Nat} (h0 : Canonical x0) : Canonical (State.nowOut x0 x1) := by
  unfold State.nowOut; try dsimp only
  repeat'
    with_reducible
      first
      | assumption | apply keeps_freeCore | apply keeps_updJob | apply keeps_stopJob | apply keeps_recoveryEnd
          | simp only [canonical_update] | apply keeps_elim | apply keeps_foldl | apply keeps_foldl_fst
          | apply keeps_foldl_fst2 | intro _ | apply keeps_ite | split | refine keeps_of_eq (by assumption) ?_

theorem keeps_fillTile {x0 : State} {x1 : Assign} (h0 : Canonical x0) : Canonical (State.fillTile x0 x1) := by
  unfold State.fillTile; try dsimp only
  repeat'
    with_reducible
      first
      | assumption | apply keeps_passGroups | apply keeps_zeroGroup | apply keeps_copyPages
          | apply keeps_clearObjects | apply keeps_elim | apply keeps_foldl | apply keeps_foldl_fst
          | apply keeps_foldl_fst2 | intro _ | apply keeps_ite | split | refine keeps_of_eq (by assumption) ?_

theorem keeps_writeMailbox {x0 : State} {x1 : Nat} {x2 : Item} (h0 : Canonical x0)
    : Canonical (State.writeMailbox x0 x1 x2).1 := by
  unfold State.writeMailbox; try dsimp only
  repeat'
    with_reducible
      first
      | assumption | apply keeps_countClosed | apply keeps_bump | apply keeps_writePiece | apply keeps_elim
          | apply keeps_foldl | apply keeps_foldl_fst | apply keeps_foldl_fst2 | intro _ | apply keeps_ite | split
          | refine keeps_of_eq (by assumption) ?_

theorem keeps_giveItem {x0 : State} {x1 : Nat} {x2 : Item} (h0 : Canonical x0)
    : Canonical (State.giveItem x0 x1 x2) := by
  unfold State.giveItem; try dsimp only
  repeat'
    with_reducible
      first
      | assumption | apply keeps_writeMailbox | apply keeps_afterError | apply keeps_finishItem
          | apply keeps_stopOthers | apply keeps_runFrom | apply keeps_updCore | apply keeps_elim | apply keeps_foldl
          | apply keeps_foldl_fst | apply keeps_foldl_fst2 | intro _ | apply keeps_ite | split
          | refine keeps_of_eq (by assumption) ?_

theorem keeps_restartItem {x0 : State} {x1 : Nat} (h0 : Canonical x0) : Canonical (State.restartItem x0 x1) := by
  unfold State.restartItem; try dsimp only
  repeat'
    with_reducible
      first
      | assumption | apply keeps_giveItem | apply keeps_updItem | apply keeps_elim | apply keeps_foldl
          | apply keeps_foldl_fst | apply keeps_foldl_fst2 | intro _ | apply keeps_ite | split
          | refine keeps_of_eq (by assumption) ?_

theorem keeps_mailAgain {x0 : State} {x1 : Nat} {x2 : Assign} (h0 : Canonical x0)
    : Canonical (State.mailAgain x0 x1 x2) := by
  unfold State.mailAgain; try dsimp only
  repeat'
    with_reducible
      first
      | assumption | apply keeps_restartItem | apply keeps_elim | apply keeps_foldl | apply keeps_foldl_fst
          | apply keeps_foldl_fst2 | intro _ | apply keeps_ite | split | refine keeps_of_eq (by assumption) ?_

theorem keeps_resumeCore {x0 : State} {x1 : Nat} {x2 : Nat} (h0 : Canonical x0)
    : Canonical (State.resumeCore x0 x1 x2) := by
  unfold State.resumeCore; try dsimp only
  repeat'
    with_reducible
      first
      | assumption | apply keeps_setCoreState | apply keeps_setCore | apply keeps_elim | apply keeps_foldl
          | apply keeps_foldl_fst | apply keeps_foldl_fst2 | intro _ | apply keeps_ite | split
          | refine keeps_of_eq (by assumption) ?_

theorem keeps_resumeJob {x0 : State} {x1 : Nat} (h0 : Canonical x0) : Canonical (State.resumeJob x0 x1) := by
  unfold State.resumeJob; try dsimp only
  repeat'
    with_reducible
      first
      | assumption | apply keeps_resumeCore | apply keeps_setJobState | apply keeps_markResumed | apply keeps_elim
          | apply keeps_foldl | apply keeps_foldl_fst | apply keeps_foldl_fst2 | intro _ | apply keeps_ite | split
          | refine keeps_of_eq (by assumption) ?_

theorem keeps_substituted {x0 : State} {x1 : Nat} (h0 : Canonical x0) : Canonical (State.substituted x0 x1) := by
  unfold State.substituted; try dsimp only
  repeat'
    with_reducible
      first
      | assumption | apply keeps_fillTile | apply keeps_updJob | apply keeps_startFresh | apply keeps_setJobState
          | apply keeps_recoveryEnd | apply keeps_mailAgain | apply keeps_resumeJob | simp only [canonical_update]
          | apply keeps_elim | apply keeps_foldl | apply keeps_foldl_fst | apply keeps_foldl_fst2 | intro _
          | apply keeps_ite | split | refine keeps_of_eq (by assumption) ?_

theorem keeps_endSwap {x0 : State} {x1 : Bool} (h0 : Canonical x0) : Canonical (State.endSwap x0 x1) := by
  unfold State.endSwap; try dsimp only
  repeat'
    with_reducible
      first
      | assumption | apply keeps_releaseQuiesce | apply keeps_controlSwapped | apply keeps_endControl
          | apply keeps_discardEdits | apply keeps_substituted | apply keeps_nowOut | simp only [canonical_update]
          | apply keeps_elim | apply keeps_foldl | apply keeps_foldl_fst | apply keeps_foldl_fst2 | intro _
          | apply keeps_ite | split | refine keeps_of_eq (by assumption) ?_

end Sys2Proof.Machine
end

