-- ==== Sys2Proof/Laws/Keeps5.lean ====
section
/-! SUPPORT.  What keeps the canonical form, part 5: one lemma per shared operation, from
setSwapState to answerWork (of a pair: its state). -/
namespace Sys2Proof.Machine
open Sys2Proof

theorem keeps_setSwapState {x0 : State} {x1 : Nat} (h0 : Canonical x0) : Canonical (State.setSwapState x0 x1) := by
  unfold State.setSwapState; try dsimp only
  repeat'
    with_reducible
      first
      | assumption | apply keeps_change | apply keeps_elim | apply keeps_foldl | apply keeps_foldl_fst
          | apply keeps_foldl_fst2 | intro _ | apply keeps_ite | split | refine keeps_of_eq (by assumption) ?_

theorem keeps_abortSwap {x0 : State} {x1 : Nat} {x2 : List Nat} (h0 : Canonical x0)
    : Canonical (State.abortSwap x0 x1 x2) := by
  unfold State.abortSwap; try dsimp only
  repeat'
    with_reducible
      first
      | assumption | apply keeps_fault | apply keeps_endSwap | apply keeps_setSwapState | apply keeps_put
          | apply keeps_elim | apply keeps_foldl | apply keeps_foldl_fst | apply keeps_foldl_fst2 | intro _
          | apply keeps_ite | split | refine keeps_of_eq (by assumption) ?_

theorem keeps_askQuiesce {x0 : State} {x1 : Nat} (h0 : Canonical x0) : Canonical (State.askQuiesce x0 x1) := by
  unfold State.askQuiesce; try dsimp only
  repeat'
    with_reducible
      first
      | assumption | apply keeps_setJobState | apply keeps_elim | apply keeps_foldl | apply keeps_foldl_fst
          | apply keeps_foldl_fst2 | intro _ | apply keeps_ite | split | refine keeps_of_eq (by assumption) ?_

theorem keeps_dropLinks {x0 : State} {x1 : List Nat} (h0 : Canonical x0) : Canonical (State.dropLinks x0 x1) := by
  unfold State.dropLinks; try dsimp only
  repeat'
    with_reducible
      first
      | assumption | apply keeps_leaveUp | apply keeps_elim | apply keeps_foldl | apply keeps_foldl_fst
          | apply keeps_foldl_fst2 | intro _ | apply keeps_ite | split | refine keeps_of_eq (by assumption) ?_

theorem keeps_beginReset {x0 : State} (h0 : Canonical x0) : Canonical (State.beginReset x0) := by
  unfold State.beginReset; try dsimp only
  repeat'
    with_reducible
      first
      | assumption | apply keeps_setDevice | apply keeps_closeSessions | apply keeps_dropLinks
          | apply keeps_askQuiesce | apply keeps_updJob | apply keeps_finishReset | simp only [canonical_update]
          | apply keeps_elim | apply keeps_foldl | apply keeps_foldl_fst | apply keeps_foldl_fst2 | intro _
          | apply keeps_ite | split | refine keeps_of_eq (by assumption) ?_

theorem keeps_acceptReset {x0 : State} {x1 : Nat} {x2 : Option Sys2Proof.BringUp} (h0 : Canonical x0)
    : Canonical (State.acceptReset x0 x1 x2).1 := by
  unfold State.acceptReset; try dsimp only
  repeat'
    with_reducible
      first
      | assumption | apply keeps_abortSwap | apply keeps_beginReset | simp only [canonical_update] | apply keeps_elim
          | apply keeps_foldl | apply keeps_foldl_fst | apply keeps_foldl_fst2 | intro _ | apply keeps_ite | split
          | refine keeps_of_eq (by assumption) ?_

theorem keeps_stampPtp {x0 : State} {x1 : Nat} {x2 : Sys2Proof.PtpMsg} (h0 : Canonical x0)
    : Canonical (State.stampPtp x0 x1 x2) := by
  unfold State.stampPtp; try dsimp only
  repeat'
    with_reducible
      first
      | assumption | apply keeps_updPort | apply keeps_emit | apply keeps_elim | apply keeps_foldl
          | apply keeps_foldl_fst | apply keeps_foldl_fst2 | intro _ | apply keeps_ite | split
          | refine keeps_of_eq (by assumption) ?_

theorem keeps_advanceSlew {x0 : State} (h0 : Canonical x0) : Canonical (State.advanceSlew x0) := by
  unfold State.advanceSlew; try dsimp only
  repeat'
    with_reducible
      first
      | assumption | simp only [canonical_update] | apply keeps_elim | apply keeps_foldl | apply keeps_foldl_fst
          | apply keeps_foldl_fst2 | intro _ | apply keeps_ite | split | refine keeps_of_eq (by assumption) ?_

theorem keeps_followSync {x0 : State} {x1 : Nat} {x2 : Sys2Proof.PtpMsg} (h0 : Canonical x0)
    : Canonical (State.followSync x0 x1 x2) := by
  unfold State.followSync; try dsimp only
  repeat'
    with_reducible
      first
      | assumption | apply keeps_put | apply keeps_advanceSlew | apply keeps_closeStep | apply keeps_change
          | apply keeps_ready | simp only [canonical_update] | apply keeps_elim | apply keeps_foldl
          | apply keeps_foldl_fst | apply keeps_foldl_fst2 | intro _ | apply keeps_ite | split
          | refine keeps_of_eq (by assumption) ?_

theorem keeps_ptpMessage {x0 : Nat} {x1 : Sys2Proof.PtpMsg} {x2 : State} (h2 : Canonical x2)
    : Canonical (ptpMessage x0 x1 x2) := by
  unfold ptpMessage; try dsimp only
  repeat'
    with_reducible
      first
      | assumption | apply keeps_measureDelay | apply keeps_stampPtp | apply keeps_followSync | apply keeps_elim
          | apply keeps_foldl | apply keeps_foldl_fst | apply keeps_foldl_fst2 | intro _ | apply keeps_ite | split
          | refine keeps_of_eq (by assumption) ?_

theorem keeps_resetContact {x0 : Nat} {x1 : State} (h1 : Canonical x1) : Canonical (resetContact x0 x1) := by
  unfold resetContact; try dsimp only
  repeat'
    with_reducible
      first
      | assumption | apply keeps_dropLinks | apply keeps_setDevice | apply keeps_stopJob | apply keeps_endStarted
          | apply keeps_endRunningControl | apply keeps_restartMonitors | apply keeps_coldState
          | apply keeps_flushEnergy | apply keeps_flushWear | simp only [canonical_update] | apply keeps_elim
          | apply keeps_foldl | apply keeps_foldl_fst | apply keeps_foldl_fst2 | intro _ | apply keeps_ite | split
          | refine keeps_of_eq (by assumption) ?_

theorem keeps_resetLRelease {x0 : Sys2Proof.BringUp} {x1 : State} (h1 : Canonical x1)
    : Canonical (resetLRelease x0 x1) := by
  unfold resetLRelease; try dsimp only
  repeat'
    with_reducible
      first
      | assumption | apply keeps_boot | simp only [canonical_update] | apply keeps_elim | apply keeps_foldl
          | apply keeps_foldl_fst | apply keeps_foldl_fst2 | intro _ | apply keeps_ite | split
          | refine keeps_of_eq (by assumption) ?_

theorem keeps_powerOn {x0 : Sys2Proof.BringUp} {x1 : State} (h1 : Canonical x1) : Canonical (powerOn x0 x1) := by
  unfold powerOn; try dsimp only
  repeat'
    with_reducible
      first
      | assumption | apply keeps_powerOnState | apply keeps_put | apply keeps_boot | simp only [canonical_update]
          | apply keeps_elim | apply keeps_foldl | apply keeps_foldl_fst | apply keeps_foldl_fst2 | intro _
          | apply keeps_ite | split | refine keeps_of_eq (by assumption) ?_

theorem keeps_continueReset {x0 : State} (h0 : Canonical x0) : Canonical (State.continueReset x0) := by
  unfold State.continueReset; try dsimp only
  repeat'
    with_reducible
      first
      | assumption | apply keeps_beginReset | apply keeps_finishReset | apply keeps_elim | apply keeps_foldl
          | apply keeps_foldl_fst | apply keeps_foldl_fst2 | intro _ | apply keeps_ite | split
          | refine keeps_of_eq (by assumption) ?_

theorem keeps_sendGo {x0 : State} (h0 : Canonical x0) : Canonical (State.sendGo x0) := by
  unfold State.sendGo; try dsimp only
  repeat'
    with_reducible
      first
      | assumption | simp only [canonical_update] | apply keeps_elim | apply keeps_foldl | apply keeps_foldl_fst
          | apply keeps_foldl_fst2 | intro _ | apply keeps_ite | split | refine keeps_of_eq (by assumption) ?_

theorem keeps_finishQuiesced {x0 : State} {x1 : Item} (h0 : Canonical x0)
    : Canonical (State.finishQuiesced x0 x1) := by
  unfold State.finishQuiesced; try dsimp only
  repeat'
    with_reducible
      first
      | assumption | apply keeps_updJob | apply keeps_controlEnds | apply keeps_releaseQuiesce | apply keeps_saveJob
          | apply keeps_stopJob | apply keeps_elim | apply keeps_foldl | apply keeps_foldl_fst
          | apply keeps_foldl_fst2 | intro _ | apply keeps_ite | split | refine keeps_of_eq (by assumption) ?_

theorem keeps_tryQuiesced {x0 : State} (h0 : Canonical x0) : Canonical (State.tryQuiesced x0) := by
  unfold State.tryQuiesced; try dsimp only
  repeat'
    with_reducible
      first
      | assumption | apply keeps_finishQuiesced | apply keeps_elim | apply keeps_foldl | apply keeps_foldl_fst
          | apply keeps_foldl_fst2 | intro _ | apply keeps_ite | split | refine keeps_of_eq (by assumption) ?_

theorem keeps_quiescePointReached {x0 : State} (h0 : Canonical x0) : Canonical (quiescePointReached x0) := by
  unfold quiescePointReached; try dsimp only
  repeat'
    with_reducible
      first
      | assumption | apply keeps_continueReset | apply keeps_tryQuiesced | apply keeps_sendGo | apply keeps_elim
          | apply keeps_foldl | apply keeps_foldl_fst | apply keeps_foldl_fst2 | intro _ | apply keeps_ite | split
          | refine keeps_of_eq (by assumption) ?_

theorem keeps_ptpLockWaitExpiry {x0 : State} (h0 : Canonical x0) : Canonical (ptpLockWaitExpiry x0) := by
  unfold ptpLockWaitExpiry; try dsimp only
  repeat'
    with_reducible
      first
      | assumption | apply keeps_ready | simp only [canonical_update] | apply keeps_elim | apply keeps_foldl
          | apply keeps_foldl_fst | apply keeps_foldl_fst2 | intro _ | apply keeps_ite | split
          | refine keeps_of_eq (by assumption) ?_

theorem keeps_swapSpare {x0 : State} {x1 : Nat} {x2 : Nat} {x3 : Nat} (h0 : Canonical x0)
    : Canonical (State.swapSpare x0 x1 x2 x3) := by
  unfold State.swapSpare; try dsimp only
  repeat'
    with_reducible
      first
      | assumption | apply keeps_updChannel | apply keeps_bump | apply keeps_setChannel | apply keeps_elim
          | apply keeps_foldl | apply keeps_foldl_fst | apply keeps_foldl_fst2 | intro _ | apply keeps_ite | split
          | refine keeps_of_eq (by assumption) ?_

theorem keeps_followRef {x0 : State} {x1 : Nat} (h0 : Canonical x0) : Canonical (State.followRef x0 x1) := by
  unfold State.followRef; try dsimp only
  repeat'
    with_reducible
      first
      | assumption | apply keeps_countRare | apply keeps_change | simp only [canonical_update] | apply keeps_elim
          | apply keeps_foldl | apply keeps_foldl_fst | apply keeps_foldl_fst2 | intro _ | apply keeps_ite | split
          | refine keeps_of_eq (by assumption) ?_

theorem keeps_endHoldover {x0 : State} {x1 : Nat} {x2 : Nat} (h0 : Canonical x0)
    : Canonical (State.endHoldover x0 x1 x2) := by
  unfold State.endHoldover; try dsimp only
  repeat'
    with_reducible
      first
      | assumption | apply keeps_followRef | apply keeps_count | apply keeps_fault | apply keeps_elim
          | apply keeps_foldl | apply keeps_foldl_fst | apply keeps_foldl_fst2 | intro _ | apply keeps_ite | split
          | refine keeps_of_eq (by assumption) ?_

theorem keeps_showHealth {x0 : State} (h0 : Canonical x0) : Canonical (State.showHealth x0) := by
  unfold State.showHealth; try dsimp only
  repeat'
    with_reducible
      first
      | assumption | apply keeps_put | apply keeps_event | apply keeps_elim | apply keeps_foldl
          | apply keeps_foldl_fst | apply keeps_foldl_fst2 | intro _ | apply keeps_ite | split
          | refine keeps_of_eq (by assumption) ?_

theorem keeps_referenceBad {x0 : Nat} {x1 : State} (h1 : Canonical x1) : Canonical (referenceBad x0 x1) := by
  unfold referenceBad; try dsimp only
  repeat'
    with_reducible
      first
      | assumption | apply keeps_change | apply keeps_showHealth | apply keeps_endHoldover
          | simp only [canonical_update] | apply keeps_elim | apply keeps_foldl | apply keeps_foldl_fst
          | apply keeps_foldl_fst2 | intro _ | apply keeps_ite | split | refine keeps_of_eq (by assumption) ?_

theorem keeps_timebaseCorrection {x0 : Nat} {x1 : State} (h1 : Canonical x1)
    : Canonical (timebaseCorrection x0 x1) := by
  unfold timebaseCorrection; try dsimp only
  repeat'
    with_reducible
      first
      | assumption | apply keeps_advanceSlew | apply keeps_change | apply keeps_showHealth
          | simp only [canonical_update] | apply keeps_elim | apply keeps_foldl | apply keeps_foldl_fst
          | apply keeps_foldl_fst2 | intro _ | apply keeps_ite | split | refine keeps_of_eq (by assumption) ?_

theorem keeps_ppsInEdge {x0 : Nat} {x1 : State} (h1 : Canonical x1) : Canonical (ppsInEdge x0 x1) := by
  unfold ppsInEdge; try dsimp only
  repeat'
    with_reducible
      first
      | assumption | apply keeps_put | simp only [canonical_update] | apply keeps_elim | apply keeps_foldl
          | apply keeps_foldl_fst | apply keeps_foldl_fst2 | intro _ | apply keeps_ite | split
          | refine keeps_of_eq (by assumption) ?_

theorem keeps_ppsOut {x0 : State} (h0 : Canonical x0) : Canonical (ppsOut x0) := by
  unfold ppsOut; try dsimp only
  repeat'
    with_reducible
      first
      | assumption | apply keeps_emit | simp only [canonical_update] | apply keeps_elim | apply keeps_foldl
          | apply keeps_foldl_fst | apply keeps_foldl_fst2 | intro _ | apply keeps_ite | split
          | refine keeps_of_eq (by assumption) ?_

theorem keeps_preferRef {x0 : State} (h0 : Canonical x0) : Canonical (State.preferRef x0) := by
  unfold State.preferRef; try dsimp only
  repeat'
    with_reducible
      first
      | assumption | apply keeps_followRef | apply keeps_elim | apply keeps_foldl | apply keeps_foldl_fst
          | apply keeps_foldl_fst2 | intro _ | apply keeps_ite | split | refine keeps_of_eq (by assumption) ?_

theorem keeps_referenceGood {x0 : Nat} {x1 : State} (h1 : Canonical x1) : Canonical (referenceGood x0 x1) := by
  unfold referenceGood; try dsimp only
  repeat'
    with_reducible
      first
      | assumption | apply keeps_change | apply keeps_endHoldover | apply keeps_preferRef | apply keeps_showHealth
          | apply keeps_elim | apply keeps_foldl | apply keeps_foldl_fst | apply keeps_foldl_fst2 | intro _
          | apply keeps_ite | split | refine keeps_of_eq (by assumption) ?_

theorem keeps_portCameUp {x0 : State} {x1 : Nat} (h0 : Canonical x0) : Canonical (State.portCameUp x0 x1) := by
  unfold State.portCameUp; try dsimp only
  repeat'
    with_reducible
      first
      | assumption | apply keeps_pump | apply keeps_resendAll | apply keeps_updConn | apply keeps_elim
          | apply keeps_foldl | apply keeps_foldl_fst | apply keeps_foldl_fst2 | intro _ | apply keeps_ite | split
          | refine keeps_of_eq (by assumption) ?_

theorem keeps_sendAck {x0 : State} {x1 : Nat} {x2 : Bool} (h0 : Canonical x0)
    : Canonical (State.sendAck x0 x1 x2) := by
  unfold State.sendAck; try dsimp only
  repeat'
    with_reducible
      first
      | assumption | apply keeps_drawCredit | apply keeps_updConn | apply keeps_sendPacket | apply keeps_elim
          | apply keeps_foldl | apply keeps_foldl_fst | apply keeps_foldl_fst2 | intro _ | apply keeps_ite | split
          | refine keeps_of_eq (by assumption) ?_

theorem keeps_serveProbes {x0 : State} {x1 : Nat} (h0 : Canonical x0) : Canonical (State.serveProbes x0 x1) := by
  unfold State.serveProbes; try dsimp only
  repeat'
    with_reducible
      first
      | assumption | apply keeps_sendAck | apply keeps_elim | apply keeps_foldl | apply keeps_foldl_fst
          | apply keeps_foldl_fst2 | intro _ | apply keeps_ite | split | refine keeps_of_eq (by assumption) ?_

theorem keeps_answered {x0 : State} {x1 : Nat × Nat × Nat × Active × Pending} (h0 : Canonical x0)
    : Canonical (State.answered x0 x1) := by
  unfold State.answered; try dsimp only
  repeat'
    with_reducible
      first
      | assumption | apply keeps_putActive | apply keeps_elim | apply keeps_foldl | apply keeps_foldl_fst
          | apply keeps_foldl_fst2 | intro _ | apply keeps_ite | split | refine keeps_of_eq (by assumption) ?_

theorem keeps_acknowledged {x0 : State} {x1 : Nat} {x2 : List Message} (h0 : Canonical x0)
    : Canonical (State.acknowledged x0 x1 x2) := by
  unfold State.acknowledged; try dsimp only
  repeat'
    with_reducible
      first
      | assumption | apply keeps_answered | apply keeps_elim | apply keeps_foldl | apply keeps_foldl_fst
          | apply keeps_foldl_fst2 | intro _ | apply keeps_ite | split | refine keeps_of_eq (by assumption) ?_

theorem keeps_retireItems {x0 : State} (h0 : Canonical x0) : Canonical (State.retireItems x0) := by
  unfold State.retireItems; try dsimp only
  repeat'
    with_reducible
      first
      | assumption | simp only [canonical_update] | apply keeps_elim | apply keeps_foldl | apply keeps_foldl_fst
          | apply keeps_foldl_fst2 | intro _ | apply keeps_ite | split | refine keeps_of_eq (by assumption) ?_
          | (simp only [canonical_all]; refine ⟨?_, ?_, ?_, ?_, ?_, ?_, ?_, ?_, ?_, ?_, ?_, ?_, ?_, ?_, ?_, ?_, ?_, ?_, ?_, ?_, ?_, ?_, ?_, ?_, ?_, ?_, ?_⟩)
          | apply rising_map | apply wf_copyInto | apply wf_fold | apply Tab.copyInto_wf | apply rising_fold
          | exact rising_nil | exact wf_nil | exact mem_nil | apply wf_copyRange | apply Tab.copyRange_wf
          | apply wf_clearRange | apply Tab.set_rising | apply Tab.upd_rising | apply Tab.filter_rising
          | apply Tab.set_wf | apply Tab.clearRange_wf | apply Canonical.mem | apply Canonical.poison
          | apply Canonical.sync | apply Canonical.obj | apply Canonical.maq | apply Canonical.cores
          | apply Canonical.objLog | apply Canonical.refusalEvent | apply Canonical.streams | apply Canonical.jobs
          | apply Canonical.sessions | apply Canonical.leftOut | apply Canonical.survivors | apply Canonical.rowLog
          | apply Canonical.conns | apply Canonical.ports | apply Canonical.hubs | apply Canonical.hubResets
          | apply Canonical.txns | apply Canonical.links | apply Canonical.arrived | apply Canonical.channels
          | apply Canonical.tiles | apply Canonical.xcvrs | apply Canonical.monitors | apply Canonical.requests
          | apply Canonical.remoteOverruns

theorem keeps_confirmCompletion {x0 : State} {x1 : Message} (h0 : Canonical x0)
    : Canonical (State.confirmCompletion x0 x1) := by
  unfold State.confirmCompletion; try dsimp only
  repeat'
    with_reducible
      first
      | assumption | apply keeps_retireItems | simp only [canonical_update] | apply keeps_elim | apply keeps_foldl
          | apply keeps_foldl_fst | apply keeps_foldl_fst2 | intro _ | apply keeps_ite | split
          | refine keeps_of_eq (by assumption) ?_

theorem keeps_ackReceived {x0 : State} {x1 : Nat} {x2 : Nat} {x3 : Nat} (h0 : Canonical x0)
    : Canonical (State.ackReceived x0 x1 x2 x3) := by
  unfold State.ackReceived; try dsimp only
  repeat'
    with_reducible
      first
      | assumption | apply keeps_setConn | apply keeps_pump | apply keeps_confirmCompletion
          | apply keeps_acknowledged | apply keeps_elim | apply keeps_foldl | apply keeps_foldl_fst
          | apply keeps_foldl_fst2 | intro _ | apply keeps_ite | split | refine keeps_of_eq (by assumption) ?_

theorem keeps_sendXon {x0 : State} {x1 : Nat} (h0 : Canonical x0) : Canonical (State.sendXon x0 x1) := by
  unfold State.sendXon; try dsimp only
  repeat'
    with_reducible
      first
      | assumption | apply keeps_emit | apply keeps_updPort | apply keeps_elim | apply keeps_foldl
          | apply keeps_foldl_fst | apply keeps_foldl_fst2 | intro _ | apply keeps_ite | split
          | refine keeps_of_eq (by assumption) ?_

theorem keeps_beginClose {x0 : State} {x1 : Nat} (h0 : Canonical x0) : Canonical (State.beginClose x0 x1) := by
  unfold State.beginClose; try dsimp only
  repeat'
    with_reducible
      first
      | assumption | apply keeps_sendPacket | apply keeps_setConn | apply keeps_elim | apply keeps_foldl
          | apply keeps_foldl_fst | apply keeps_foldl_fst2 | intro _ | apply keeps_ite | split
          | refine keeps_of_eq (by assumption) ?_

theorem keeps_closeIfIdle {x0 : State} {x1 : Nat} (h0 : Canonical x0) : Canonical (State.closeIfIdle x0 x1) := by
  unfold State.closeIfIdle; try dsimp only
  repeat'
    with_reducible
      first
      | assumption | apply keeps_dropConn | apply keeps_sendPacket | apply keeps_elim | apply keeps_foldl
          | apply keeps_foldl_fst | apply keeps_foldl_fst2 | intro _ | apply keeps_ite | split
          | refine keeps_of_eq (by assumption) ?_

theorem keeps_noteProbe {x0 : State} {x1 : Nat} (h0 : Canonical x0) : Canonical (State.noteProbe x0 x1) := by
  unfold State.noteProbe; try dsimp only
  repeat'
    with_reducible
      first
      | assumption | apply keeps_updConn | apply keeps_elim | apply keeps_foldl | apply keeps_foldl_fst
          | apply keeps_foldl_fst2 | intro _ | apply keeps_ite | split | refine keeps_of_eq (by assumption) ?_

theorem keeps_updHead {x0 : State} {x1 : Nat} {x2 : Nat} {x3 : Queued → Queued} (h0 : Canonical x0)
    : Canonical (State.updHead x0 x1 x2 x3) := by
  unfold State.updHead; try dsimp only
  repeat'
    with_reducible
      first
      | assumption | apply keeps_updCore | apply keeps_elim | apply keeps_foldl | apply keeps_foldl_fst
          | apply keeps_foldl_fst2 | intro _ | apply keeps_ite | split | refine keeps_of_eq (by assumption) ?_

theorem keeps_queueSignal {x0 : State} {x1 : Signal} (h0 : Canonical x0) : Canonical (State.queueSignal x0 x1) := by
  unfold State.queueSignal; try dsimp only
  repeat'
    with_reducible
      first
      | assumption | simp only [canonical_update] | apply keeps_elim | apply keeps_foldl | apply keeps_foldl_fst
          | apply keeps_foldl_fst2 | intro _ | apply keeps_ite | split | refine keeps_of_eq (by assumption) ?_

theorem keeps_sendSignal {x0 : State} {x1 : Nat} {x2 : Nat} {x3 : Nat} {x4 : Nat} {x5 : Nat} {x6 : Option Nat}
    {x7 : SignalFrom} {x8 : Option (Nat × Nat)} {x9 : Option WinAccess} (h0 : Canonical x0)
    : Canonical (State.sendSignal x0 x1 x2 x3 x4 x5 x6 x7 x8 x9) := by
  unfold State.sendSignal; try dsimp only
  repeat'
    with_reducible
      first
      | assumption | apply keeps_queueSignal | apply keeps_elim | apply keeps_foldl | apply keeps_foldl_fst
          | apply keeps_foldl_fst2 | intro _ | apply keeps_ite | split | refine keeps_of_eq (by assumption) ?_

theorem keeps_headerSignal {x0 : State} {x1 : Nat} {x2 : Nat} {x3 : Cmd} (h0 : Canonical x0)
    : Canonical (State.headerSignal x0 x1 x2 x3) := by
  unfold State.headerSignal; try dsimp only
  repeat'
    with_reducible
      first
      | assumption | apply keeps_sendSignal | apply keeps_elim | apply keeps_foldl | apply keeps_foldl_fst
          | apply keeps_foldl_fst2 | intro _ | apply keeps_ite | split | refine keeps_of_eq (by assumption) ?_

theorem keeps_countCompletion {x0 : State} {x1 : Nat} {x2 : Nat} {x3 : Active} (h0 : Canonical x0)
    : Canonical (State.countCompletion x0 x1 x2 x3) := by
  unfold State.countCompletion; try dsimp only
  repeat'
    with_reducible
      first
      | assumption | apply keeps_bump | apply keeps_updCore | apply keeps_elim | apply keeps_foldl
          | apply keeps_foldl_fst | apply keeps_foldl_fst2 | intro _ | apply keeps_ite | split
          | refine keeps_of_eq (by assumption) ?_

theorem keeps_addStarted {x0 : State} {x1 : Nat} {x2 : Nat} {x3 : Active} (h0 : Canonical x0)
    : Canonical (State.addStarted x0 x1 x2 x3) := by
  unfold State.addStarted; try dsimp only
  repeat'
    with_reducible
      first
      | assumption | apply keeps_setStarted | apply keeps_elim | apply keeps_foldl | apply keeps_foldl_fst
          | apply keeps_foldl_fst2 | intro _ | apply keeps_ite | split | refine keeps_of_eq (by assumption) ?_

theorem keeps_egressByCommand {x0 : State} {x1 : Nat} {x2 : Nat} {x3 : ErrInfo} (h0 : Canonical x0)
    : Canonical (State.egressByCommand x0 x1 x2 x3) := by
  unfold State.egressByCommand; try dsimp only
  repeat'
    with_reducible
      first
      | assumption | apply keeps_coreError | apply keeps_bump | apply keeps_logPoisonEnding | apply keeps_elim
          | apply keeps_foldl | apply keeps_foldl_fst | apply keeps_foldl_fst2 | intro _ | apply keeps_ite | split
          | refine keeps_of_eq (by assumption) ?_

theorem keeps_laterError {x0 : State} {x1 : Nat} (h0 : Canonical x0) : Canonical (State.laterError x0 x1) := by
  unfold State.laterError; try dsimp only
  repeat'
    with_reducible
      first
      | assumption | apply keeps_put | apply keeps_elim | apply keeps_foldl | apply keeps_foldl_fst
          | apply keeps_foldl_fst2 | intro _ | apply keeps_ite | split | refine keeps_of_eq (by assumption) ?_

theorem keeps_commandComplete {x0 : Nat} {x1 : Nat} {x2 : State} (h2 : Canonical x2)
    : Canonical (commandComplete x0 x1 x2) := by
  unfold commandComplete; try dsimp only
  repeat'
    with_reducible
      first
      | assumption | apply keeps_settleStop | apply keeps_headerSignal | apply keeps_countCompletion
          | apply keeps_laterError | apply keeps_updCore | apply keeps_egressByCommand | apply keeps_coreError
          | apply keeps_elim | apply keeps_foldl | apply keeps_foldl_fst | apply keeps_foldl_fst2 | intro _
          | apply keeps_ite | split | refine keeps_of_eq (by assumption) ?_

theorem keeps_leaveIdle {x0 : State} (h0 : Canonical x0) : Canonical (State.leaveIdle x0) := by
  unfold State.leaveIdle; try dsimp only
  repeat'
    with_reducible
      first
      | assumption | apply keeps_put | apply keeps_elim | apply keeps_foldl | apply keeps_foldl_fst
          | apply keeps_foldl_fst2 | intro _ | apply keeps_ite | split | refine keeps_of_eq (by assumption) ?_

theorem keeps_popQueue {x0 : State} {x1 : Nat} {x2 : Nat} (h0 : Canonical x0)
    : Canonical (State.popQueue x0 x1 x2) := by
  unfold State.popQueue; try dsimp only
  repeat'
    with_reducible
      first
      | assumption | apply keeps_updCore | apply keeps_elim | apply keeps_foldl | apply keeps_foldl_fst
          | apply keeps_foldl_fst2 | intro _ | apply keeps_ite | split | refine keeps_of_eq (by assumption) ?_

theorem keeps_startHead {x0 : State} {x1 : Nat} {x2 : Nat} {x3 : Queued} (h0 : Canonical x0)
    : Canonical (State.startHead x0 x1 x2 x3) := by
  unfold State.startHead; try dsimp only
  repeat'
    with_reducible
      first
      | assumption | apply keeps_popQueue | apply keeps_addStarted | apply keeps_countClosed | apply keeps_updCore
          | apply keeps_leaveIdle | apply keeps_elim | apply keeps_foldl | apply keeps_foldl_fst
          | apply keeps_foldl_fst2 | intro _ | apply keeps_ite | split | refine keeps_of_eq (by assumption) ?_

theorem keeps_registerWait {x0 : State} {x1 : Wait} (h0 : Canonical x0)
    : Canonical (State.registerWait x0 x1).1 := by
  unfold State.registerWait; try dsimp only
  repeat'
    with_reducible
      first
      | assumption | apply keeps_bump | simp only [canonical_update] | apply keeps_elim | apply keeps_foldl
          | apply keeps_foldl_fst | apply keeps_foldl_fst2 | intro _ | apply keeps_ite | split
          | refine keeps_of_eq (by assumption) ?_

theorem keeps_testWait {x0 : State} {x1 : Nat} {x2 : Nat} {x3 : Queued} (h0 : Canonical x0)
    : Canonical (State.testWait x0 x1 x2 x3) := by
  unfold State.testWait; try dsimp only
  repeat'
    with_reducible
      first
      | assumption | apply keeps_registerWait | apply keeps_startHead | apply keeps_updHead
          | apply keeps_setCoreState | apply keeps_addStarted | apply keeps_popQueue | apply keeps_elim
          | apply keeps_foldl | apply keeps_foldl_fst | apply keeps_foldl_fst2 | intro _ | apply keeps_ite | split
          | refine keeps_of_eq (by assumption) ?_

theorem keeps_commandStart {x0 : Nat} {x1 : Nat} {x2 : State} (h2 : Canonical x2)
    : Canonical (commandStart x0 x1 x2) := by
  unfold commandStart; try dsimp only
  repeat'
    with_reducible
      first
      | assumption | apply keeps_testWait | apply keeps_startHead | apply keeps_elim | apply keeps_foldl
          | apply keeps_foldl_fst | apply keeps_foldl_fst2 | intro _ | apply keeps_ite | split
          | refine keeps_of_eq (by assumption) ?_

theorem keeps_commandDispatch {x0 : Nat} {x1 : State} (h1 : Canonical x1) : Canonical (commandDispatch x0 x1) := by
  unfold commandDispatch; try dsimp only
  repeat'
    with_reducible
      first
      | assumption | apply keeps_stopAtHeader | apply keeps_bump | apply keeps_updCore | apply keeps_elim
          | apply keeps_foldl | apply keeps_foldl_fst | apply keeps_foldl_fst2 | intro _ | apply keeps_ite | split
          | refine keeps_of_eq (by assumption) ?_

theorem keeps_accDrain {x0 : State} {x1 : Nat} {x2 : Nat} {x3 : Nat} {x4 : Bool} (h0 : Canonical x0)
    : Canonical (State.accDrain x0 x1 x2 x3 x4).1 := by
  unfold State.accDrain; try dsimp only
  repeat'
    with_reducible
      first
      | assumption | apply keeps_putBytes | apply keeps_eachUntil | apply keeps_elim | apply keeps_foldl
          | apply keeps_foldl_fst | apply keeps_foldl_fst2 | intro _ | apply keeps_ite | split
          | refine keeps_of_eq (by assumption) ?_

theorem keeps_executeAccIo {x0 : Nat} {x1 : List Sys2Proof.Upset} {x2 : State} (h2 : Canonical x2)
    : Canonical (executeAccIo x0 x1 x2) := by
  unfold executeAccIo; try dsimp only
  repeat'
    with_reducible
      first
      | assumption | apply keeps_readRanges | apply keeps_refuseRead | apply keeps_accDrain | apply keeps_putActive
          | apply keeps_updCore | apply keeps_elim | apply keeps_foldl | apply keeps_foldl_fst
          | apply keeps_foldl_fst2 | intro _ | apply keeps_ite | split | refine keeps_of_eq (by assumption) ?_

theorem keeps_assignTile {x0 : State} {x1 : Nat} {x2 : Assign} (h0 : Canonical x0)
    : Canonical (State.assignTile x0 x1 x2) := by
  unfold State.assignTile; try dsimp only
  repeat'
    with_reducible
      first
      | assumption | simp only [canonical_update] | apply keeps_elim | apply keeps_foldl | apply keeps_foldl_fst
          | apply keeps_foldl_fst2 | intro _ | apply keeps_ite | split | refine keeps_of_eq (by assumption) ?_

theorem keeps_closeGroups {x0 : State} {x1 : Nat} {x2 : List Nat} {x3 : Nat} (h0 : Canonical x0)
    : Canonical (State.closeGroups x0 x1 x2 x3) := by
  unfold State.closeGroups; try dsimp only
  repeat'
    with_reducible
      first
      | assumption | apply keeps_passGroups | apply keeps_updCore | apply keeps_elim | apply keeps_foldl
          | apply keeps_foldl_fst | apply keeps_foldl_fst2 | intro _ | apply keeps_ite | split
          | refine keeps_of_eq (by assumption) ?_

theorem keeps_rebuildObject {x0 : State} {x1 : Nat} {x2 : Nat} {x3 : Nat} {x4 : List LogEntry} (h0 : Canonical x0)
    : Canonical (State.rebuildObject x0 x1 x2 x3 x4) := by
  unfold State.rebuildObject; try dsimp only
  repeat'
    with_reducible
      first
      | assumption | apply keeps_fault | apply keeps_syncSet | simp only [canonical_update] | apply keeps_elim
          | apply keeps_foldl | apply keeps_foldl_fst | apply keeps_foldl_fst2 | intro _ | apply keeps_ite | split
          | refine keeps_of_eq (by assumption) ?_

theorem keeps_rebuildObjects {x0 : State} {x1 : Nat} (h0 : Canonical x0)
    : Canonical (State.rebuildObjects x0 x1) := by
  unfold State.rebuildObjects; try dsimp only
  repeat'
    with_reducible
      first
      | assumption | apply keeps_rebuildObject | simp only [canonical_update] | apply keeps_elim | apply keeps_foldl
          | apply keeps_foldl_fst | apply keeps_foldl_fst2 | intro _ | apply keeps_ite | split
          | refine keeps_of_eq (by assumption) ?_
          | (simp only [canonical_all]; refine ⟨?_, ?_, ?_, ?_, ?_, ?_, ?_, ?_, ?_, ?_, ?_, ?_, ?_, ?_, ?_, ?_, ?_, ?_, ?_, ?_, ?_, ?_, ?_, ?_, ?_, ?_, ?_⟩)
          | apply rising_map | apply wf_copyInto | apply wf_fold | apply Tab.copyInto_wf | apply rising_fold
          | exact rising_nil | exact wf_nil | exact mem_nil | apply wf_copyRange | apply Tab.copyRange_wf
          | apply wf_clearRange | apply Tab.set_rising | apply Tab.upd_rising | apply Tab.filter_rising
          | apply Tab.set_wf | apply Tab.clearRange_wf | apply Canonical.mem | apply Canonical.poison
          | apply Canonical.sync | apply Canonical.obj | apply Canonical.maq | apply Canonical.cores
          | apply Canonical.objLog | apply Canonical.refusalEvent | apply Canonical.streams | apply Canonical.jobs
          | apply Canonical.sessions | apply Canonical.leftOut | apply Canonical.survivors | apply Canonical.rowLog
          | apply Canonical.conns | apply Canonical.ports | apply Canonical.hubs | apply Canonical.hubResets
          | apply Canonical.txns | apply Canonical.links | apply Canonical.arrived | apply Canonical.channels
          | apply Canonical.tiles | apply Canonical.xcvrs | apply Canonical.monitors | apply Canonical.requests
          | apply Canonical.remoteOverruns

theorem keeps_endLoan {x0 : State} {x1 : Replay} (h0 : Canonical x0) : Canonical (State.endLoan x0 x1) := by
  unfold State.endLoan; try dsimp only
  repeat'
    with_reducible
      first
      | assumption | apply keeps_copyPages | simp only [canonical_update] | apply keeps_elim | apply keeps_foldl
          | apply keeps_foldl_fst | apply keeps_foldl_fst2 | intro _ | apply keeps_ite | split
          | refine keeps_of_eq (by assumption) ?_

theorem keeps_dropReplays {x0 : State} {x1 : List Nat} (h0 : Canonical x0)
    : Canonical (State.dropReplays x0 x1) := by
  unfold State.dropReplays; try dsimp only
  repeat'
    with_reducible
      first
      | assumption | apply keeps_updCore | apply keeps_endLoan | simp only [canonical_update] | apply keeps_elim
          | apply keeps_foldl | apply keeps_foldl_fst | apply keeps_foldl_fst2 | intro _ | apply keeps_ite | split
          | refine keeps_of_eq (by assumption) ?_

theorem keeps_stopForRollback {x0 : State} {x1 : Nat} (h0 : Canonical x0)
    : Canonical (State.stopForRollback x0 x1) := by
  unfold State.stopForRollback; try dsimp only
  repeat'
    with_reducible
      first
      | assumption | apply keeps_dropReplays | apply keeps_updCore | apply keeps_haltCore
          | simp only [canonical_update] | apply keeps_elim | apply keeps_foldl | apply keeps_foldl_fst
          | apply keeps_foldl_fst2 | intro _ | apply keeps_ite | split | refine keeps_of_eq (by assumption) ?_
          | (simp only [canonical_all]; refine ⟨?_, ?_, ?_, ?_, ?_, ?_, ?_, ?_, ?_, ?_, ?_, ?_, ?_, ?_, ?_, ?_, ?_, ?_, ?_, ?_, ?_, ?_, ?_, ?_, ?_, ?_, ?_⟩)
          | apply rising_map | apply wf_copyInto | apply wf_fold | apply Tab.copyInto_wf | apply rising_fold
          | exact rising_nil | exact wf_nil | exact mem_nil | apply wf_copyRange | apply Tab.copyRange_wf
          | apply wf_clearRange | apply Tab.set_rising | apply Tab.upd_rising | apply Tab.filter_rising
          | apply Tab.set_wf | apply Tab.clearRange_wf | apply Canonical.mem | apply Canonical.poison
          | apply Canonical.sync | apply Canonical.obj | apply Canonical.maq | apply Canonical.cores
          | apply Canonical.objLog | apply Canonical.refusalEvent | apply Canonical.streams | apply Canonical.jobs
          | apply Canonical.sessions | apply Canonical.leftOut | apply Canonical.survivors | apply Canonical.rowLog
          | apply Canonical.conns | apply Canonical.ports | apply Canonical.hubs | apply Canonical.hubResets
          | apply Canonical.txns | apply Canonical.links | apply Canonical.arrived | apply Canonical.channels
          | apply Canonical.tiles | apply Canonical.xcvrs | apply Canonical.monitors | apply Canonical.requests
          | apply Canonical.remoteOverruns

theorem keeps_putImage {x0 : State} {x1 : Nat} {x2 : PageImage} (h0 : Canonical x0)
    : Canonical (State.putImage x0 x1 x2) := by
  unfold State.putImage; try dsimp only
  repeat'
    with_reducible
      first
      | assumption | apply keeps_countNewPoison | simp only [canonical_update] | apply keeps_elim | apply keeps_foldl
          | apply keeps_foldl_fst | apply keeps_foldl_fst2 | intro _ | apply keeps_ite | split
          | refine keeps_of_eq (by assumption) ?_
          | (simp only [canonical_all]; refine ⟨?_, ?_, ?_, ?_, ?_, ?_, ?_, ?_, ?_, ?_, ?_, ?_, ?_, ?_, ?_, ?_, ?_, ?_, ?_, ?_, ?_, ?_, ?_, ?_, ?_, ?_, ?_⟩)
          | apply rising_map | apply wf_copyInto | apply wf_fold | apply Tab.copyInto_wf | apply rising_fold
          | exact rising_nil | exact wf_nil | exact mem_nil | apply wf_copyRange | apply Tab.copyRange_wf
          | apply wf_clearRange | apply Tab.set_rising | apply Tab.upd_rising | apply Tab.filter_rising
          | apply Tab.set_wf | apply Tab.clearRange_wf | apply Canonical.mem | apply Canonical.poison
          | apply Canonical.sync | apply Canonical.obj | apply Canonical.maq | apply Canonical.cores
          | apply Canonical.objLog | apply Canonical.refusalEvent | apply Canonical.streams | apply Canonical.jobs
          | apply Canonical.sessions | apply Canonical.leftOut | apply Canonical.survivors | apply Canonical.rowLog
          | apply Canonical.conns | apply Canonical.ports | apply Canonical.hubs | apply Canonical.hubResets
          | apply Canonical.txns | apply Canonical.links | apply Canonical.arrived | apply Canonical.channels
          | apply Canonical.tiles | apply Canonical.xcvrs | apply Canonical.monitors | apply Canonical.requests
          | apply Canonical.remoteOverruns

theorem keeps_restorePage {x0 : State} {x1 : Nat} {x2 : PageImage} (h0 : Canonical x0)
    : Canonical (State.restorePage x0 x1 x2) := by
  unfold State.restorePage; try dsimp only
  repeat'
    with_reducible
      first
      | assumption | apply keeps_countWritten | apply keeps_putImage | apply keeps_elim | apply keeps_foldl
          | apply keeps_foldl_fst | apply keeps_foldl_fst2 | intro _ | apply keeps_ite | split
          | refine keeps_of_eq (by assumption) ?_

theorem keeps_undoPage {x0 : State} {x1 : Nat × Option PageImage} (h0 : Canonical x0)
    : Canonical (State.undoPage x0 x1) := by
  unfold State.undoPage; try dsimp only
  repeat'
    with_reducible
      first
      | assumption | apply keeps_restorePage | apply keeps_elim | apply keeps_foldl | apply keeps_foldl_fst
          | apply keeps_foldl_fst2 | intro _ | apply keeps_ite | split | refine keeps_of_eq (by assumption) ?_

theorem keeps_undoPages {x0 : List (Nat × Option PageImage)} {x1 : List Nat} {x2 : State} (h2 : Canonical x2)
    : Canonical (State.undoPages x0 x1 x2) := by
  induction x1 generalizing x2 with
  | nil => unfold State.undoPages; exact keeps_foldl h2 fun _ _ h => keeps_undoPage h
  | cons _ _ ih => unfold State.undoPages; exact keeps_withGroups h2 fun _ h => ih h

theorem keeps_undoCore {x0 : State} {x1 : Nat} (h0 : Canonical x0) : Canonical (State.undoCore x0 x1) := by
  unfold State.undoCore; try dsimp only
  repeat'
    with_reducible
      first
      | assumption | apply keeps_undoPages | apply keeps_elim | apply keeps_foldl | apply keeps_foldl_fst
          | apply keeps_foldl_fst2 | intro _ | apply keeps_ite | split | refine keeps_of_eq (by assumption) ?_

theorem keeps_rewindJob {x0 : State} {x1 : Nat} (h0 : Canonical x0) : Canonical (State.rewindJob x0 x1) := by
  unfold State.rewindJob; try dsimp only
  repeat'
    with_reducible
      first
      | assumption | apply keeps_stopForRollback | apply keeps_undoCore | apply keeps_rebuildObjects
          | apply keeps_elim | apply keeps_foldl | apply keeps_foldl_fst | apply keeps_foldl_fst2 | intro _
          | apply keeps_ite | split | refine keeps_of_eq (by assumption) ?_

theorem keeps_jobFenced {x0 : State} {x1 : Nat} {x2 : Nat} {x3 : Assign} {x4 : Status} {x5 : Bool}
    (h0 : Canonical x0) : Canonical (State.jobFenced x0 x1 x2 x3 x4 x5).1 := by
  unfold State.jobFenced; try dsimp only
  repeat'
    with_reducible
      first
      | assumption | apply keeps_setJobState | apply keeps_updJob | apply keeps_rewindJob | apply keeps_endStarted
          | apply keeps_stopForRollback | apply keeps_recoveryEnd | apply keeps_elim | apply keeps_foldl
          | apply keeps_foldl_fst | apply keeps_foldl_fst2 | intro _ | apply keeps_ite | split
          | refine keeps_of_eq (by assumption) ?_

theorem keeps_coreFencedOff {x0 : State} {x1 : Nat} {x2 : Nat} {x3 : Assign} {x4 : Status} {x5 : Bool}
    (h0 : Canonical x0) : Canonical (State.coreFencedOff x0 x1 x2 x3 x4 x5) := by
  unfold State.coreFencedOff; try dsimp only
  repeat'
    with_reducible
      first
      | assumption | apply keeps_closeGroups | apply keeps_updCore | apply keeps_haltCore | apply keeps_jobFenced
          | apply keeps_assignTile | apply keeps_elim | apply keeps_foldl | apply keeps_foldl_fst
          | apply keeps_foldl_fst2 | intro _ | apply keeps_ite | split | refine keeps_of_eq (by assumption) ?_

theorem keeps_freeRun {x0 : State} {x1 : Replay} (h0 : Canonical x0) : Canonical (State.freeRun x0 x1) := by
  unfold State.freeRun; try dsimp only
  repeat'
    with_reducible
      first
      | assumption | apply keeps_endLoan | simp only [canonical_update] | apply keeps_elim | apply keeps_foldl
          | apply keeps_foldl_fst | apply keeps_foldl_fst2 | intro _ | apply keeps_ite | split
          | refine keeps_of_eq (by assumption) ?_

theorem keeps_abandonRun {x0 : State} {x1 : Nat} (h0 : Canonical x0) : Canonical (State.abandonRun x0 x1) := by
  unfold State.abandonRun; try dsimp only
  repeat'
    with_reducible
      first
      | assumption | apply keeps_freeRun | simp only [canonical_update] | apply keeps_elim | apply keeps_foldl
          | apply keeps_foldl_fst | apply keeps_foldl_fst2 | intro _ | apply keeps_ite | split
          | refine keeps_of_eq (by assumption) ?_

theorem keeps_takeTile {x0 : State} {x1 : Nat} (h0 : Canonical x0) : Canonical (State.takeTile x0 x1) := by
  unfold State.takeTile; try dsimp only
  repeat'
    with_reducible
      first
      | assumption | apply keeps_put | apply keeps_abandonRun | apply keeps_elim | apply keeps_foldl
          | apply keeps_foldl_fst | apply keeps_foldl_fst2 | intro _ | apply keeps_ite | split
          | refine keeps_of_eq (by assumption) ?_

theorem keeps_fenceBits {x0 : State} {x1 : Nat} (h0 : Canonical x0) : Canonical (State.fenceBits x0 x1) := by
  unfold State.fenceBits; try dsimp only
  repeat'
    with_reducible
      first
      | assumption | apply keeps_put | apply keeps_takeTile | apply keeps_watch | apply keeps_change
          | apply keeps_elim | apply keeps_foldl | apply keeps_foldl_fst | apply keeps_foldl_fst2 | intro _
          | apply keeps_ite | split | refine keeps_of_eq (by assumption) ?_

theorem keeps_fence {x0 : State} {x1 : Nat} {x2 : Nat} {x3 : Nat} {x4 : optParam Nat 4294967295} (h0 : Canonical x0)
    : Canonical (State.fence x0 x1 x2 x3 x4) := by
  unfold State.fence; try dsimp only
  repeat'
    with_reducible
      first
      | assumption | apply keeps_fault | apply keeps_appendRepair | apply keeps_fenceBits | apply keeps_updTile
          | apply keeps_coreFencedOff | apply keeps_elim | apply keeps_foldl | apply keeps_foldl_fst
          | apply keeps_foldl_fst2 | intro _ | apply keeps_ite | split | refine keeps_of_eq (by assumption) ?_

theorem keeps_reassign {x0 : State} {x1 : Nat} (h0 : Canonical x0) : Canonical (State.reassign x0 x1) := by
  unfold State.reassign; try dsimp only
  repeat'
    with_reducible
      first
      | assumption | apply keeps_assignTile | simp only [canonical_update] | apply keeps_elim | apply keeps_foldl
          | apply keeps_foldl_fst | apply keeps_foldl_fst2 | intro _ | apply keeps_ite | split
          | refine keeps_of_eq (by assumption) ?_

theorem keeps_fenceTile {x0 : State} {x1 : Nat} {x2 : Nat} {x3 : Nat} {x4 : optParam Nat 4294967295}
    (h0 : Canonical x0) : Canonical (State.fenceTile x0 x1 x2 x3 x4) := by
  unfold State.fenceTile; try dsimp only
  repeat'
    with_reducible
      first
      | assumption | apply keeps_reassign | apply keeps_fence | apply keeps_elim | apply keeps_foldl
          | apply keeps_foldl_fst | apply keeps_foldl_fst2 | intro _ | apply keeps_ite | split
          | refine keeps_of_eq (by assumption) ?_

theorem keeps_advanceSwap {x0 : State} (h0 : Canonical x0) : Canonical (State.advanceSwap x0) := by
  unfold State.advanceSwap; try dsimp only
  repeat'
    with_reducible
      first
      | assumption | apply keeps_sendGo | apply keeps_setSwapState | apply keeps_endSwap | apply keeps_count
          | apply keeps_elim | apply keeps_foldl | apply keeps_foldl_fst | apply keeps_foldl_fst2 | intro _
          | apply keeps_ite | split | refine keeps_of_eq (by assumption) ?_

theorem keeps_beginSwap {x0 : State} {x1 : Bool} {x2 : Nat} {x3 : SwapFor} (h0 : Canonical x0)
    : Canonical (State.beginSwap x0 x1 x2 x3) := by
  unfold State.beginSwap; try dsimp only
  repeat'
    with_reducible
      first
      | assumption | apply keeps_setSwapState | apply keeps_put | apply keeps_askQuiesce
          | simp only [canonical_update] | apply keeps_elim | apply keeps_foldl | apply keeps_foldl_fst
          | apply keeps_foldl_fst2 | intro _ | apply keeps_ite | split | refine keeps_of_eq (by assumption) ?_

theorem keeps_refuseSwap {x0 : State} {x1 : Nat} (h0 : Canonical x0) : Canonical (State.refuseSwap x0 x1) := by
  unfold State.refuseSwap; try dsimp only
  repeat'
    with_reducible
      first
      | assumption | apply keeps_setSwapState | apply keeps_put | apply keeps_fault | apply keeps_elim
          | apply keeps_foldl | apply keeps_foldl_fst | apply keeps_foldl_fst2 | intro _ | apply keeps_ite | split
          | refine keeps_of_eq (by assumption) ?_

theorem keeps_revokeLock {x0 : State} (h0 : Canonical x0) : Canonical (State.revokeLock x0) := by
  unfold State.revokeLock; try dsimp only
  repeat'
    with_reducible
      first
      | assumption | apply keeps_change | apply keeps_elim | apply keeps_foldl | apply keeps_foldl_fst
          | apply keeps_foldl_fst2 | intro _ | apply keeps_ite | split | refine keeps_of_eq (by assumption) ?_

theorem keeps_maqPut {x0 : State} {x1 : Nat} {x2 : Nat} {x3 : Nat} (h0 : Canonical x0)
    : Canonical (State.maqPut x0 x1 x2 x3) := by
  unfold State.maqPut; try dsimp only
  repeat'
    with_reducible
      first
      | assumption | simp only [canonical_update] | apply keeps_elim | apply keeps_foldl | apply keeps_foldl_fst
          | apply keeps_foldl_fst2 | intro _ | apply keeps_ite | split | refine keeps_of_eq (by assumption) ?_
          | (simp only [canonical_all]; refine ⟨?_, ?_, ?_, ?_, ?_, ?_, ?_, ?_, ?_, ?_, ?_, ?_, ?_, ?_, ?_, ?_, ?_, ?_, ?_, ?_, ?_, ?_, ?_, ?_, ?_, ?_, ?_⟩)
          | apply rising_map | apply wf_copyInto | apply wf_fold | apply Tab.copyInto_wf | apply rising_fold
          | exact rising_nil | exact wf_nil | exact mem_nil | apply wf_copyRange | apply Tab.copyRange_wf
          | apply wf_clearRange | apply Tab.set_rising | apply Tab.upd_rising | apply Tab.filter_rising
          | apply Tab.set_wf | apply Tab.clearRange_wf | apply Canonical.mem | apply Canonical.poison
          | apply Canonical.sync | apply Canonical.obj | apply Canonical.maq | apply Canonical.cores
          | apply Canonical.objLog | apply Canonical.refusalEvent | apply Canonical.streams | apply Canonical.jobs
          | apply Canonical.sessions | apply Canonical.leftOut | apply Canonical.survivors | apply Canonical.rowLog
          | apply Canonical.conns | apply Canonical.ports | apply Canonical.hubs | apply Canonical.hubResets
          | apply Canonical.txns | apply Canonical.links | apply Canonical.arrived | apply Canonical.channels
          | apply Canonical.tiles | apply Canonical.xcvrs | apply Canonical.monitors | apply Canonical.requests
          | apply Canonical.remoteOverruns

theorem keeps_writeEdits {x0 : State} {x1 : List (Nat × Nat)} (h0 : Canonical x0)
    : Canonical (State.writeEdits x0 x1) := by
  unfold State.writeEdits; try dsimp only
  repeat'
    with_reducible
      first
      | assumption | apply keeps_maqPut | apply keeps_elim | apply keeps_foldl | apply keeps_foldl_fst
          | apply keeps_foldl_fst2 | intro _ | apply keeps_ite | split | refine keeps_of_eq (by assumption) ?_

theorem keeps_startChange {x0 : State} {x1 : Change} (h0 : Canonical x0) : Canonical (State.startChange x0 x1) := by
  unfold State.startChange; try dsimp only
  repeat'
    with_reducible
      first
      | assumption | apply keeps_endControl | apply keeps_writeEdits | apply keeps_discardEdits
          | apply keeps_refuseSwap | apply keeps_beginSwap | apply keeps_revokeLock | apply keeps_reassign
          | apply keeps_elim | apply keeps_foldl | apply keeps_foldl_fst | apply keeps_foldl_fst2 | intro _
          | apply keeps_ite | split | refine keeps_of_eq (by assumption) ?_

theorem keeps_startChanges {x0 : State} {x1 : Nat} (h0 : Canonical x0) : Canonical (State.startChanges x0 x1) := by
  induction x1 generalizing x0 with
  | zero => unfold State.startChanges; assumption
  | succ _ ih =>
    unfold State.startChanges; try dsimp only
    repeat'
      with_reducible
        first
        | assumption | apply ih | apply keeps_startChange
        | simp only [canonical_update] | apply keeps_foldl | apply keeps_foldl_fst | apply keeps_foldl_fst2 | intro _ | split | refine keeps_of_eq (by assumption) ?_

theorem keeps_pumpChanges {x0 : State} (h0 : Canonical x0) : Canonical (State.pumpChanges x0) := by
  unfold State.pumpChanges; try dsimp only
  repeat'
    with_reducible
      first
      | assumption | apply keeps_advanceSwap | apply keeps_abortSwap | apply keeps_startChanges | apply keeps_elim
          | apply keeps_foldl | apply keeps_foldl_fst | apply keeps_foldl_fst2 | intro _ | apply keeps_ite | split
          | refine keeps_of_eq (by assumption) ?_

theorem keeps_assignmentTestDone {x0 : Nat} {x1 : Bool} {x2 : State} (h2 : Canonical x2)
    : Canonical (assignmentTestDone x0 x1 x2) := by
  unfold assignmentTestDone; try dsimp only
  repeat'
    with_reducible
      first
      | assumption | apply keeps_pumpChanges | apply keeps_fenceTile | simp only [canonical_update]
          | apply keeps_elim | apply keeps_foldl | apply keeps_foldl_fst | apply keeps_foldl_fst2 | intro _
          | apply keeps_ite | split | refine keeps_of_eq (by assumption) ?_

theorem keeps_seqFail {x0 : State} {x1 : Nat} {x2 : Active} {x3 : CheckErr} (h0 : Canonical x0)
    : Canonical (State.seqFail x0 x1 x2 x3) := by
  unfold State.seqFail; try dsimp only
  repeat'
    with_reducible
      first
      | assumption | apply keeps_setStarted | apply keeps_elim | apply keeps_foldl | apply keeps_foldl_fst
          | apply keeps_foldl_fst2 | intro _ | apply keeps_ite | split | refine keeps_of_eq (by assumption) ?_

theorem keeps_ackBack {x0 : State} {x1 : Nat} {x2 : Bool} (h0 : Canonical x0)
    : Canonical (State.ackBack x0 x1 x2) := by
  unfold State.ackBack; try dsimp only
  repeat'
    with_reducible
      first
      | assumption | apply keeps_serveProbes | apply keeps_sendAck | apply keeps_noteProbe | apply keeps_elim
          | apply keeps_foldl | apply keeps_foldl_fst | apply keeps_foldl_fst2 | intro _ | apply keeps_ite | split
          | refine keeps_of_eq (by assumption) ?_

theorem keeps_actMgmt {x0 : State} {x1 : Nat} {x2 : Nat} {x3 : Sys2Proof.CtpPacket} (h0 : Canonical x0)
    : Canonical (State.actMgmt x0 x1 x2 x3) := by
  unfold State.actMgmt; try dsimp only
  repeat'
    with_reducible
      first
      | assumption | simp only [canonical_update] | apply keeps_elim | apply keeps_foldl | apply keeps_foldl_fst
          | apply keeps_foldl_fst2 | intro _ | apply keeps_ite | split | refine keeps_of_eq (by assumption) ?_

theorem keeps_actReadData {x0 : State} {x1 : Nat} {x2 : Sys2Proof.CtpPacket} {x3 : List Sys2Proof.Upset}
    (h0 : Canonical x0) : Canonical (State.actReadData x0 x1 x2 x3) := by
  unfold State.actReadData; try dsimp only
  repeat'
    with_reducible
      first
      | assumption | apply keeps_scatter | apply keeps_answered | apply keeps_writeUpsets | apply keeps_failTransfer
          | apply keeps_elim | apply keeps_foldl | apply keeps_foldl_fst | apply keeps_foldl_fst2 | intro _
          | apply keeps_ite | split | refine keeps_of_eq (by assumption) ?_

theorem keeps_windowSignal {x0 : State} {x1 : WinAccess} (h0 : Canonical x0)
    : Canonical (State.windowSignal x0 x1).1 := by
  unfold State.windowSignal; try dsimp only
  repeat'
    with_reducible
      first
      | assumption | apply keeps_windowAdmit | apply keeps_elim | apply keeps_foldl | apply keeps_foldl_fst
          | apply keeps_foldl_fst2 | intro _ | apply keeps_ite | split | refine keeps_of_eq (by assumption) ?_

theorem keeps_actSignal {x0 : State} {x1 : Nat} {x2 : Nat} {x3 : Sys2Proof.CtpPacket} (h0 : Canonical x0)
    : Canonical (State.actSignal x0 x1 x2 x3) := by
  unfold State.actSignal; try dsimp only
  repeat'
    with_reducible
      first
      | assumption | apply keeps_windowSignal | apply keeps_queueMessage | apply keeps_queueSignal
          | apply keeps_updConn | apply keeps_elim | apply keeps_foldl | apply keeps_foldl_fst
          | apply keeps_foldl_fst2 | intro _ | apply keeps_ite | split | refine keeps_of_eq (by assumption) ?_

theorem keeps_actStatus {x0 : State} {x1 : Nat} {x2 : Sys2Proof.CtpPacket} (h0 : Canonical x0)
    : Canonical (State.actStatus x0 x1 x2) := by
  unfold State.actStatus; try dsimp only
  repeat'
    with_reducible
      first
      | assumption | apply keeps_failTransfer | apply keeps_elim | apply keeps_foldl | apply keeps_foldl_fst
          | apply keeps_foldl_fst2 | intro _ | apply keeps_ite | split | refine keeps_of_eq (by assumption) ?_

theorem keeps_actWindow {x0 : State} {x1 : Nat} {x2 : Sys2Proof.CtpPacket} {x3 : List Sys2Proof.Upset}
    (h0 : Canonical x0) : Canonical (State.actWindow x0 x1 x2 x3) := by
  unfold State.actWindow; try dsimp only
  repeat'
    with_reducible
      first
      | assumption | apply keeps_windowAccess | apply keeps_queueMessage | apply keeps_elim | apply keeps_foldl
          | apply keeps_foldl_fst | apply keeps_foldl_fst2 | intro _ | apply keeps_ite | split
          | refine keeps_of_eq (by assumption) ?_

theorem keeps_answerWork {x0 : State} {x1 : Nat} {x2 : Nat} {x3 : Nat} {x4 : Nat} {x5 : Nat} {x6 : Nat}
    (h0 : Canonical x0) : Canonical (State.answerWork x0 x1 x2 x3 x4 x5 x6) := by
  unfold State.answerWork; try dsimp only
  repeat'
    with_reducible
      first
      | assumption | apply keeps_flushAnswers | apply keeps_updStream | apply keeps_elim | apply keeps_foldl
          | apply keeps_foldl_fst | apply keeps_foldl_fst2 | intro _ | apply keeps_ite | split
          | refine keeps_of_eq (by assumption) ?_

end Sys2Proof.Machine
end

