-- ==== Sys2Proof/Laws/Keeps6.lean ====
section
/-! SUPPORT.  What keeps the canonical form, part 6: one lemma per shared operation, from
takeWork to enterPower (of a pair: its state). -/
namespace Sys2Proof.Machine
open Sys2Proof

theorem keeps_takeWork {x0 : State} {x1 : Nat} {x2 : Sys2Proof.Bytes} (h0 : Canonical x0)
    : Canonical (State.takeWork x0 x1 x2) := by
  unfold State.takeWork; try dsimp only
  repeat'
    with_reducible
      first
      | assumption | apply keeps_answerWork | apply keeps_updStream | simp only [canonical_update] | apply keeps_elim
          | apply keeps_foldl | apply keeps_foldl_fst | apply keeps_foldl_fst2 | intro _ | apply keeps_ite | split
          | refine keeps_of_eq (by assumption) ?_

theorem keeps_act {x0 : State} {x1 : Nat} {x2 : Nat} {x3 : Sys2Proof.CtpPacket} {x4 : List Sys2Proof.Upset}
    (h0 : Canonical x0) : Canonical (State.act x0 x1 x2 x3 x4) := by
  unfold State.act; try dsimp only
  repeat'
    with_reducible
      first
      | assumption | apply keeps_takeWork | apply keeps_actWindow | apply keeps_actSignal | apply keeps_actReadData
          | apply keeps_actStatus | apply keeps_actMgmt | apply keeps_elim | apply keeps_foldl
          | apply keeps_foldl_fst | apply keeps_foldl_fst2 | intro _ | apply keeps_ite | split
          | refine keeps_of_eq (by assumption) ?_

theorem keeps_actedOn {x0 : State} {x1 : Nat} {x2 : Sys2Proof.CtpPacket} (h0 : Canonical x0)
    : Canonical (State.actedOn x0 x1 x2) := by
  unfold State.actedOn; try dsimp only
  repeat'
    with_reducible
      first
      | assumption | apply keeps_updConn | apply keeps_elim | apply keeps_foldl | apply keeps_foldl_fst
          | apply keeps_foldl_fst2 | intro _ | apply keeps_ite | split | refine keeps_of_eq (by assumption) ?_

theorem keeps_actHeld {x0 : State} {x1 : Nat} {x2 : Nat} {x3 : List Sys2Proof.Upset} {x4 : Nat} (h0 : Canonical x0)
    : Canonical (State.actHeld x0 x1 x2 x3 x4) := by
  induction x4 generalizing x0 with
  | zero => unfold State.actHeld; assumption
  | succ _ ih =>
    unfold State.actHeld; try dsimp only
    repeat'
      with_reducible
        first
        | assumption | apply ih | apply keeps_act | apply keeps_actedOn
        | simp only [canonical_update] | apply keeps_foldl | apply keeps_foldl_fst | apply keeps_foldl_fst2 | intro _ | split | refine keeps_of_eq (by assumption) ?_

theorem keeps_signalAnswered {x0 : State} {x1 : Nat} {x2 : Nat} {x3 : Signal} {x4 : WinAccess} {x5 : SignalResult}
    (h0 : Canonical x0) : Canonical (State.signalAnswered x0 x1 x2 x3 x4 x5) := by
  unfold State.signalAnswered; try dsimp only
  repeat'
    with_reducible
      first
      | assumption | apply keeps_queueMessage | apply keeps_logRefusal | apply keeps_closeIfIdle
          | apply keeps_ackBack | apply keeps_actHeld | apply keeps_actedOn | simp only [canonical_update]
          | apply keeps_elim | apply keeps_foldl | apply keeps_foldl_fst | apply keeps_foldl_fst2 | intro _
          | apply keeps_ite | split | refine keeps_of_eq (by assumption) ?_
          | (simp only [canonical_all]; refine ⟨?_, ?_, ?_, ?_, ?_, ?_, ?_, ?_, ?_, ?_, ?_, ?_, ?_, ?_, ?_, ?_, ?_, ?_, ?_, ?_, ?_, ?_, ?_, ?_, ?_, ?_, ?_⟩)
          | apply rising_map | apply wf_copyInto | apply wf_fold | apply Tab.copyInto_wf | apply rising_fold
          | exact rising_nil | exact wf_nil | exact mem_nil | apply wf_copyRange | apply Tab.copyRange_wf
          | apply wf_clearRange | apply Tab.set_rising | apply Tab.upd_rising | apply Tab.filter_rising
          | apply Tab.set_wf | apply Tab.clearRange_wf | apply Canonical.mem | apply Canonical.poison
          | apply Canonical.sync | apply Canonical.obj | apply Canonical.maq | apply Canonical.cores
          | apply Canonical.objLog | apply Canonical.refusalEvent | apply Canonical.streams | apply Canonical.jobs
          | apply Canonical.sessions | apply Canonical.leftOut | apply Canonical.survivors | apply Canonical.rowLog
          | apply Canonical.conns | apply Canonical.ports | apply Canonical.hubs | apply Canonical.hubResets
          | apply Canonical.txns | apply Canonical.links | apply Canonical.arrived | apply Canonical.channels
          | apply Canonical.tiles | apply Canonical.xcvrs | apply Canonical.monitors | apply Canonical.requests
          | apply Canonical.remoteOverruns

theorem keeps_signalFailed {x0 : State} {x1 : Nat} {x2 : Nat} {x3 : Cmd} {x4 : Status} {x5 : Nat} (h0 : Canonical x0)
    : Canonical (State.signalFailed x0 x1 x2 x3 x4 x5) := by
  unfold State.signalFailed; try dsimp only
  repeat'
    with_reducible
      first
      | assumption | apply keeps_coreError | apply keeps_elim | apply keeps_foldl | apply keeps_foldl_fst
          | apply keeps_foldl_fst2 | intro _ | apply keeps_ite | split | refine keeps_of_eq (by assumption) ?_

theorem keeps_signalResult {x0 : State} {x1 : Signal} {x2 : SignalResult} (h0 : Canonical x0)
    : Canonical (State.signalResult x0 x1 x2) := by
  unfold State.signalResult; try dsimp only
  repeat'
    with_reducible
      first
      | assumption | apply keeps_logRefusal | apply keeps_withSeq | apply keeps_seqDone | apply keeps_seqFail
          | apply keeps_signalFailed | apply keeps_signalAnswered | apply keeps_elim | apply keeps_foldl
          | apply keeps_foldl_fst | apply keeps_foldl_fst2 | intro _ | apply keeps_ite | split
          | refine keeps_of_eq (by assumption) ?_

theorem keeps_loseSignals {x0 : State} {x1 : Nat} (h0 : Canonical x0) : Canonical (State.loseSignals x0 x1) := by
  unfold State.loseSignals; try dsimp only
  repeat'
    with_reducible
      first
      | assumption | apply keeps_signalResult | simp only [canonical_update] | apply keeps_elim | apply keeps_foldl
          | apply keeps_foldl_fst | apply keeps_foldl_fst2 | intro _ | apply keeps_ite | split
          | refine keeps_of_eq (by assumption) ?_

theorem keeps_loseField {x0 : State} {x1 : Nat} {x2 : Nat} {x3 : Nat} {x4 : optParam Nat 4294967295}
    (h0 : Canonical x0) : Canonical (State.loseField x0 x1 x2 x3 x4) := by
  unfold State.loseField; try dsimp only
  repeat'
    with_reducible
      first
      | assumption | apply keeps_fault | apply keeps_hubDead | apply keeps_loseLinks | apply keeps_loseSignals
          | apply keeps_reroute | apply keeps_fenceBits | apply keeps_coreFencedOff | apply keeps_reassign
          | simp only [canonical_update] | apply keeps_elim | apply keeps_foldl | apply keeps_foldl_fst
          | apply keeps_foldl_fst2 | intro _ | apply keeps_ite | split | refine keeps_of_eq (by assumption) ?_
          | (simp only [canonical_all]; refine ⟨?_, ?_, ?_, ?_, ?_, ?_, ?_, ?_, ?_, ?_, ?_, ?_, ?_, ?_, ?_, ?_, ?_, ?_, ?_, ?_, ?_, ?_, ?_, ?_, ?_, ?_, ?_⟩)
          | apply rising_map | apply wf_copyInto | apply wf_fold | apply Tab.copyInto_wf | apply rising_fold
          | exact rising_nil | exact wf_nil | exact mem_nil | apply wf_copyRange | apply Tab.copyRange_wf
          | apply wf_clearRange | apply Tab.set_rising | apply Tab.upd_rising | apply Tab.filter_rising
          | apply Tab.set_wf | apply Tab.clearRange_wf | apply Canonical.mem | apply Canonical.poison
          | apply Canonical.sync | apply Canonical.obj | apply Canonical.maq | apply Canonical.cores
          | apply Canonical.objLog | apply Canonical.refusalEvent | apply Canonical.streams | apply Canonical.jobs
          | apply Canonical.sessions | apply Canonical.leftOut | apply Canonical.survivors | apply Canonical.rowLog
          | apply Canonical.conns | apply Canonical.ports | apply Canonical.hubs | apply Canonical.hubResets
          | apply Canonical.txns | apply Canonical.links | apply Canonical.arrived | apply Canonical.channels
          | apply Canonical.tiles | apply Canonical.xcvrs | apply Canonical.monitors | apply Canonical.requests
          | apply Canonical.remoteOverruns

theorem keeps_fieldShort {x0 : Nat} {x1 : Nat} {x2 : Nat} {x3 : State} (h3 : Canonical x3)
    : Canonical (fieldShort x0 x1 x2 x3) := by
  unfold fieldShort; try dsimp only
  repeat'
    with_reducible
      first
      | assumption | apply keeps_pumpChanges | apply keeps_loseField | apply keeps_elim | apply keeps_foldl
          | apply keeps_foldl_fst | apply keeps_foldl_fst2 | intro _ | apply keeps_ite | split
          | refine keeps_of_eq (by assumption) ?_

theorem keeps_swapAtTakeover {x0 : State} (h0 : Canonical x0) : Canonical (State.swapAtTakeover x0) := by
  unfold State.swapAtTakeover; try dsimp only
  repeat'
    with_reducible
      first
      | assumption | apply keeps_abortSwap | apply keeps_discardEdits | simp only [canonical_update]
          | apply keeps_elim | apply keeps_foldl | apply keeps_foldl_fst | apply keeps_foldl_fst2 | intro _
          | apply keeps_ite | split | refine keeps_of_eq (by assumption) ?_

theorem keeps_coreFence {x0 : Nat} {x1 : Nat} {x2 : Nat} {x3 : State} (h3 : Canonical x3)
    : Canonical (coreFence x0 x1 x2 x3) := by
  unfold coreFence; try dsimp only
  repeat'
    with_reducible
      first
      | assumption | apply keeps_pumpChanges | apply keeps_fenceTile | apply keeps_elim | apply keeps_foldl
          | apply keeps_foldl_fst | apply keeps_foldl_fst2 | intro _ | apply keeps_ite | split
          | refine keeps_of_eq (by assumption) ?_

theorem keeps_coreWatchdog {x0 : Nat} {x1 : Nat} {x2 : State} (h2 : Canonical x2)
    : Canonical (coreWatchdog x0 x1 x2) := by
  unfold coreWatchdog; try dsimp only
  repeat'
    with_reducible
      first
      | assumption | apply keeps_coreFence | apply keeps_elim | apply keeps_foldl | apply keeps_foldl_fst
          | apply keeps_foldl_fst2 | intro _ | apply keeps_ite | split | refine keeps_of_eq (by assumption) ?_

theorem keeps_resendEvents {x0 : State} (h0 : Canonical x0) : Canonical (State.resendEvents x0) := by
  unfold State.resendEvents; try dsimp only
  repeat'
    with_reducible
      first
      | assumption | apply keeps_emit | apply keeps_elim | apply keeps_foldl | apply keeps_foldl_fst
          | apply keeps_foldl_fst2 | intro _ | apply keeps_ite | split | refine keeps_of_eq (by assumption) ?_

theorem keeps_controllerTakeover {x0 : Nat} {x1 : State} (h1 : Canonical x1)
    : Canonical (controllerTakeover x0 x1) := by
  unfold controllerTakeover; try dsimp only
  repeat'
    with_reducible
      first
      | assumption | apply keeps_change | apply keeps_countRare | apply keeps_put | apply keeps_fault
          | apply keeps_abortTransfers | apply keeps_swapAtTakeover | apply keeps_pumpChanges
          | apply keeps_resendEvents | simp only [canonical_update] | apply keeps_elim | apply keeps_foldl
          | apply keeps_foldl_fst | apply keeps_foldl_fst2 | intro _ | apply keeps_ite | split
          | refine keeps_of_eq (by assumption) ?_

theorem keeps_heartbeatPathLoss {x0 : State} (h0 : Canonical x0) : Canonical (heartbeatPathLoss x0) := by
  unfold heartbeatPathLoss; try dsimp only
  repeat'
    with_reducible
      first
      | assumption | apply keeps_fault | apply keeps_countRare | apply keeps_elim | apply keeps_foldl
          | apply keeps_foldl_fst | apply keeps_foldl_fst2 | intro _ | apply keeps_ite | split
          | refine keeps_of_eq (by assumption) ?_

theorem keeps_groupDrainEnd {x0 : Nat} {x1 : State} (h1 : Canonical x1) : Canonical (groupDrainEnd x0 x1) := by
  unfold groupDrainEnd; try dsimp only
  repeat'
    with_reducible
      first
      | assumption | apply keeps_zeroGroup | apply keeps_setGroups | apply keeps_updCore | apply keeps_elim
          | apply keeps_foldl | apply keeps_foldl_fst | apply keeps_foldl_fst2 | intro _ | apply keeps_ite | split
          | refine keeps_of_eq (by assumption) ?_

theorem keeps_wakeGroups {x0 : State} {x1 : Nat} {x2 : List Nat} (h0 : Canonical x0)
    : Canonical (State.wakeGroups x0 x1 x2) := by
  unfold State.wakeGroups; try dsimp only
  repeat'
    with_reducible
      first
      | assumption | apply keeps_zeroGroup | apply keeps_passGroups | apply keeps_elim | apply keeps_foldl
          | apply keeps_foldl_fst | apply keeps_foldl_fst2 | intro _ | apply keeps_ite | split
          | refine keeps_of_eq (by assumption) ?_

theorem keeps_groupRequest {x0 : State} {x1 : Nat} {x2 : Nat} (h0 : Canonical x0)
    : Canonical (State.groupRequest x0 x1 x2).1 := by
  unfold State.groupRequest; try dsimp only
  repeat'
    with_reducible
      first
      | assumption | apply keeps_wakeGroups | apply keeps_closeGroups | apply keeps_elim | apply keeps_foldl
          | apply keeps_foldl_fst | apply keeps_foldl_fst2 | intro _ | apply keeps_ite | split
          | refine keeps_of_eq (by assumption) ?_

theorem keeps_spScrub {x0 : Nat} {x1 : List Sys2Proof.Upset} {x2 : State} (h2 : Canonical x2)
    : Canonical (spScrub x0 x1 x2) := by
  unfold spScrub; try dsimp only
  repeat'
    with_reducible
      first
      | assumption | apply keeps_bump | apply keeps_takeUpset | apply keeps_elim | apply keeps_foldl
          | apply keeps_foldl_fst | apply keeps_foldl_fst2 | intro _ | apply keeps_ite | split
          | refine keeps_of_eq (by assumption) ?_

theorem keeps_groupWakeEnd {x0 : Nat} {x1 : State} (h1 : Canonical x1) : Canonical (groupWakeEnd x0 x1) := by
  unfold groupWakeEnd; try dsimp only
  repeat'
    with_reducible
      first
      | assumption | apply keeps_setGroups | apply keeps_elim | apply keeps_foldl | apply keeps_foldl_fst
          | apply keeps_foldl_fst2 | intro _ | apply keeps_ite | split | refine keeps_of_eq (by assumption) ?_

theorem keeps_spLayoutApply {x0 : Nat} {x1 : State} (h1 : Canonical x1) : Canonical (spLayoutApply x0 x1) := by
  unfold spLayoutApply; try dsimp only
  repeat'
    with_reducible
      first
      | assumption | apply keeps_applyLayout | apply keeps_elim | apply keeps_foldl | apply keeps_foldl_fst
          | apply keeps_foldl_fst2 | intro _ | apply keeps_ite | split | refine keeps_of_eq (by assumption) ?_

theorem keeps_journalStored {x0 : State} {x1 : Nat} {x2 : Nat} {x3 : Item} (h0 : Canonical x0)
    : Canonical (State.journalStored x0 x1 x2 x3) := by
  unfold State.journalStored; try dsimp only
  repeat'
    with_reducible
      first
      | assumption | apply keeps_updItem | apply keeps_journal | apply keeps_acceptStored | apply keeps_elim
          | apply keeps_foldl | apply keeps_foldl_fst | apply keeps_foldl_fst2 | intro _ | apply keeps_ite | split
          | refine keeps_of_eq (by assumption) ?_

theorem keeps_itemDispatch {x0 : Nat} {x1 : State} (h1 : Canonical x1) : Canonical (itemDispatch x0 x1) := by
  unfold itemDispatch; try dsimp only
  repeat'
    with_reducible
      first
      | assumption | apply keeps_updItem | apply keeps_journal | apply keeps_updCore | apply keeps_giveItem
          | simp only [canonical_update] | apply keeps_elim | apply keeps_foldl | apply keeps_foldl_fst
          | apply keeps_foldl_fst2 | intro _ | apply keeps_ite | split | refine keeps_of_eq (by assumption) ?_

theorem keeps_journalWriteFail {x0 : Nat} {x1 : Nat} {x2 : State} (h2 : Canonical x2)
    : Canonical (journalWriteFail x0 x1 x2) := by
  unfold journalWriteFail; try dsimp only
  repeat'
    with_reducible
      first
      | assumption | apply keeps_updStream | apply keeps_flushAnswers | simp only [canonical_update]
          | apply keeps_elim | apply keeps_foldl | apply keeps_foldl_fst | apply keeps_foldl_fst2 | intro _
          | apply keeps_ite | split | refine keeps_of_eq (by assumption) ?_

theorem keeps_writeCompletion {x0 : State} {x1 : Item} (h0 : Canonical x0)
    : Canonical (State.writeCompletion x0 x1) := by
  unfold State.writeCompletion; try dsimp only
  repeat'
    with_reducible
      first
      | assumption | apply keeps_putPlain | apply keeps_elim | apply keeps_foldl | apply keeps_foldl_fst
          | apply keeps_foldl_fst2 | intro _ | apply keeps_ite | split | refine keeps_of_eq (by assumption) ?_

theorem keeps_complAddrWriteDone {x0 : Nat} {x1 : Nat} {x2 : State} (h2 : Canonical x2)
    : Canonical (complAddrWriteDone x0 x1 x2) := by
  unfold complAddrWriteDone; try dsimp only
  repeat'
    with_reducible
      first
      | assumption | apply keeps_retireItems | apply keeps_updItem | apply keeps_elim | apply keeps_foldl
          | apply keeps_foldl_fst | apply keeps_foldl_fst2 | intro _ | apply keeps_ite | split
          | refine keeps_of_eq (by assumption) ?_

theorem keeps_journalPartitionCopy {x0 : Nat} {x1 : State} (h1 : Canonical x1)
    : Canonical (journalPartitionCopy x0 x1) := by
  unfold journalPartitionCopy; try dsimp only
  repeat'
    with_reducible
      first
      | assumption | apply keeps_countWritten | apply keeps_count | apply keeps_fault | simp only [canonical_update]
          | apply keeps_elim | apply keeps_foldl | apply keeps_foldl_fst | apply keeps_foldl_fst2 | intro _
          | apply keeps_ite | split | refine keeps_of_eq (by assumption) ?_

theorem keeps_intakeRebuild {x0 : State} (h0 : Canonical x0) : Canonical (intakeRebuild x0) := by
  unfold intakeRebuild; try dsimp only
  repeat'
    with_reducible
      first
      | assumption | apply keeps_dropUnstored | apply keeps_acceptStored | apply keeps_applyFormed
          | apply keeps_redeliver | apply keeps_fault | apply keeps_change | simp only [canonical_update]
          | apply keeps_elim | apply keeps_foldl | apply keeps_foldl_fst | apply keeps_foldl_fst2 | intro _
          | apply keeps_ite | split | refine keeps_of_eq (by assumption) ?_

theorem keeps_journalWriteDone {x0 : Nat} {x1 : Nat} {x2 : State} (h2 : Canonical x2)
    : Canonical (journalWriteDone x0 x1 x2) := by
  unfold journalWriteDone; try dsimp only
  repeat'
    with_reducible
      first
      | assumption | apply keeps_journalWriteFail | apply keeps_countRetry | apply keeps_journalStored
          | apply keeps_elim | apply keeps_foldl | apply keeps_foldl_fst | apply keeps_foldl_fst2 | intro _
          | apply keeps_ite | split | refine keeps_of_eq (by assumption) ?_

theorem keeps_completionDelivery {x0 : Nat} {x1 : State} (h1 : Canonical x1)
    : Canonical (completionDelivery x0 x1) := by
  unfold completionDelivery; try dsimp only
  repeat'
    with_reducible
      first
      | assumption | apply keeps_writeCompletion | apply keeps_queueMessage | apply keeps_updItem | apply keeps_elim
          | apply keeps_foldl | apply keeps_foldl_fst | apply keeps_foldl_fst2 | intro _ | apply keeps_ite | split
          | refine keeps_of_eq (by assumption) ?_

theorem keeps_controlSwap {x0 : State} {x1 : Item} (h0 : Canonical x0) : Canonical (State.controlSwap x0 x1) := by
  unfold State.controlSwap; try dsimp only
  repeat'
    with_reducible
      first
      | assumption | apply keeps_controlEnds | apply keeps_pumpChanges | simp only [canonical_update]
          | apply keeps_elim | apply keeps_foldl | apply keeps_foldl_fst | apply keeps_foldl_fst2 | intro _
          | apply keeps_ite | split | refine keeps_of_eq (by assumption) ?_

theorem keeps_thawWaits {x0 : State} (h0 : Canonical x0) : Canonical (State.thawWaits x0) := by
  unfold State.thawWaits; try dsimp only
  repeat'
    with_reducible
      first
      | assumption | simp only [canonical_update] | apply keeps_elim | apply keeps_foldl | apply keeps_foldl_fst
          | apply keeps_foldl_fst2 | intro _ | apply keeps_ite | split | refine keeps_of_eq (by assumption) ?_

theorem keeps_leaveRest {x0 : State} (h0 : Canonical x0) : Canonical (State.leaveRest x0) := by
  unfold State.leaveRest; try dsimp only
  repeat'
    with_reducible
      first
      | assumption | apply keeps_setPowerState | apply keeps_trainDown | apply keeps_thawWaits | apply keeps_elim
          | apply keeps_foldl | apply keeps_foldl_fst | apply keeps_foldl_fst2 | intro _ | apply keeps_ite | split
          | refine keeps_of_eq (by assumption) ?_

theorem keeps_withControl {x0 : State} {x1 : Nat} {x2 : Item → State → State} (h0 : Canonical x0)
    (h2_0 : ∀ y0 y1, Canonical y1 → Canonical (x2 y0 y1)) : Canonical (State.withControl x0 x1 x2) := by
  unfold State.withControl; try dsimp only
  repeat'
    with_reducible
      first
      | assumption | apply h2_0 | apply keeps_updItem | apply keeps_leaveRest | apply keeps_elim | apply keeps_foldl
          | apply keeps_foldl_fst | apply keeps_foldl_fst2 | intro _ | apply keeps_ite | split
          | refine keeps_of_eq (by assumption) ?_

theorem keeps_quiesceFor {x0 : State} {x1 : Nat} (h0 : Canonical x0) : Canonical (State.quiesceFor x0 x1) := by
  unfold State.quiesceFor; try dsimp only
  repeat'
    with_reducible
      first
      | assumption | apply keeps_withControl | apply keeps_controlEnds | apply keeps_tryQuiesced
          | apply keeps_askQuiesce | apply keeps_updJob | apply keeps_elim | apply keeps_foldl
          | apply keeps_foldl_fst | apply keeps_foldl_fst2 | intro _ | apply keeps_ite | split
          | refine keeps_of_eq (by assumption) ?_

theorem keeps_jobDiscard {x0 : State} (h0 : Canonical x0) : Canonical (jobDiscard x0) := by
  unfold jobDiscard; try dsimp only
  repeat'
    with_reducible
      first
      | assumption | apply keeps_withControl | apply keeps_finishItem | apply keeps_controlEnds | apply keeps_elim
          | apply keeps_foldl | apply keeps_foldl_fst | apply keeps_foldl_fst2 | intro _ | apply keeps_ite | split
          | refine keeps_of_eq (by assumption) ?_

theorem keeps_jobDelete {x0 : State} (h0 : Canonical x0) : Canonical (jobDelete x0) := by
  unfold jobDelete; try dsimp only
  repeat'
    with_reducible
      first
      | assumption | apply keeps_withControl | apply keeps_controlEnds | apply keeps_controlSwap | apply keeps_elim
          | apply keeps_foldl | apply keeps_foldl_fst | apply keeps_foldl_fst2 | intro _ | apply keeps_ite | split
          | refine keeps_of_eq (by assumption) ?_

theorem keeps_jobLayout {x0 : State} (h0 : Canonical x0) : Canonical (jobLayout x0) := by
  unfold jobLayout; try dsimp only
  repeat'
    with_reducible
      first
      | assumption | apply keeps_withControl | apply keeps_controlEnds | apply keeps_controlSwap | apply keeps_elim
          | apply keeps_foldl | apply keeps_foldl_fst | apply keeps_foldl_fst2 | intro _ | apply keeps_ite | split
          | refine keeps_of_eq (by assumption) ?_

theorem keeps_freshJob {x0 : State} {x1 : Nat} (h0 : Canonical x0) : Canonical (State.freshJob x0 x1).1 := by
  unfold State.freshJob; try dsimp only
  repeat'
    with_reducible
      first
      | assumption | apply keeps_startFresh | apply keeps_updJob | apply keeps_setJobState | apply keeps_restartItem
          | apply keeps_markResumed | apply keeps_elim | apply keeps_foldl | apply keeps_foldl_fst
          | apply keeps_foldl_fst2 | intro _ | apply keeps_ite | split | refine keeps_of_eq (by assumption) ?_

theorem keeps_jobStart {x0 : State} (h0 : Canonical x0) : Canonical (jobStart x0) := by
  unfold jobStart; try dsimp only
  repeat'
    with_reducible
      first
      | assumption | apply keeps_withControl | apply keeps_controlEnds | apply keeps_restoreJob
          | apply keeps_freshJob | apply keeps_endControl | apply keeps_elim | apply keeps_foldl
          | apply keeps_foldl_fst | apply keeps_foldl_fst2 | intro _ | apply keeps_ite | split
          | refine keeps_of_eq (by assumption) ?_

theorem keeps_jobCreate {x0 : State} (h0 : Canonical x0) : Canonical (jobCreate x0) := by
  unfold jobCreate; try dsimp only
  repeat'
    with_reducible
      first
      | assumption | apply keeps_withControl | apply keeps_controlEnds | apply keeps_controlSwap | apply keeps_elim
          | apply keeps_foldl | apply keeps_foldl_fst | apply keeps_foldl_fst2 | intro _ | apply keeps_ite | split
          | refine keeps_of_eq (by assumption) ?_

theorem keeps_logManual {x0 : State} {x1 : Nat} {x2 : Nat} {x3 : Nat} {x4 : Nat} {x5 : Nat} {x6 : Nat}
    (h0 : Canonical x0) : Canonical (State.logManual x0 x1 x2 x3 x4 x5 x6) := by
  unfold State.logManual; try dsimp only
  repeat'
    with_reducible
      first
      | assumption | apply keeps_event | apply keeps_countRare | simp only [canonical_update] | apply keeps_elim
          | apply keeps_foldl | apply keeps_foldl_fst | apply keeps_foldl_fst2 | intro _ | apply keeps_ite | split
          | refine keeps_of_eq (by assumption) ?_

theorem keeps_markManual {x0 : State} {x1 : Nat} (h0 : Canonical x0) : Canonical (State.markManual x0 x1) := by
  unfold State.markManual; try dsimp only
  repeat'
    with_reducible
      first
      | assumption | simp only [canonical_update] | apply keeps_elim | apply keeps_foldl | apply keeps_foldl_fst
          | apply keeps_foldl_fst2 | intro _ | apply keeps_ite | split | refine keeps_of_eq (by assumption) ?_

theorem keeps_evalWaits {x0 : State} {x1 : Nat} {x2 : List Nat} (h0 : Canonical x0)
    : Canonical (State.evalWaits x0 x1 x2) := by
  unfold State.evalWaits; try dsimp only
  repeat'
    with_reducible
      first
      | assumption | apply keeps_bump | simp only [canonical_update] | apply keeps_elim | apply keeps_foldl
          | apply keeps_foldl_fst | apply keeps_foldl_fst2 | intro _ | apply keeps_ite | split
          | refine keeps_of_eq (by assumption) ?_

theorem keeps_logSignal {x0 : State} {x1 : Nat} {x2 : Nat} {x3 : Nat} {x4 : Nat} {x5 : Option Nat}
    {x6 : Option (Nat × Nat)} {x7 : Nat} (h0 : Canonical x0)
    : Canonical (State.logSignal x0 x1 x2 x3 x4 x5 x6 x7) := by
  unfold State.logSignal; try dsimp only
  repeat'
    with_reducible
      first
      | assumption | apply keeps_bump | apply keeps_updJob | simp only [canonical_update] | apply keeps_elim
          | apply keeps_foldl | apply keeps_foldl_fst | apply keeps_foldl_fst2 | intro _ | apply keeps_ite | split
          | refine keeps_of_eq (by assumption) ?_
          | (simp only [canonical_all]; refine ⟨?_, ?_, ?_, ?_, ?_, ?_, ?_, ?_, ?_, ?_, ?_, ?_, ?_, ?_, ?_, ?_, ?_, ?_, ?_, ?_, ?_, ?_, ?_, ?_, ?_, ?_, ?_⟩)
          | apply rising_map | apply wf_copyInto | apply wf_fold | apply Tab.copyInto_wf | apply rising_fold
          | exact rising_nil | exact wf_nil | exact mem_nil | apply wf_copyRange | apply Tab.copyRange_wf
          | apply wf_clearRange | apply Tab.set_rising | apply Tab.upd_rising | apply Tab.filter_rising
          | apply Tab.set_wf | apply Tab.clearRange_wf | apply Canonical.mem | apply Canonical.poison
          | apply Canonical.sync | apply Canonical.obj | apply Canonical.maq | apply Canonical.cores
          | apply Canonical.objLog | apply Canonical.refusalEvent | apply Canonical.streams | apply Canonical.jobs
          | apply Canonical.sessions | apply Canonical.leftOut | apply Canonical.survivors | apply Canonical.rowLog
          | apply Canonical.conns | apply Canonical.ports | apply Canonical.hubs | apply Canonical.hubResets
          | apply Canonical.txns | apply Canonical.links | apply Canonical.arrived | apply Canonical.channels
          | apply Canonical.tiles | apply Canonical.xcvrs | apply Canonical.monitors | apply Canonical.requests
          | apply Canonical.remoteOverruns

theorem keeps_setByHand {x0 : State} {x1 : Nat} {x2 : Nat} {x3 : Nat × Nat} {x4 : Nat}
    {x5 : List (Signal × SignalResult)} (h0 : Canonical x0) : Canonical (State.setByHand x0 x1 x2 x3 x4 x5) := by
  unfold State.setByHand; try dsimp only
  repeat'
    with_reducible
      first
      | assumption | apply keeps_evalWaits | apply keeps_logSignal | apply keeps_syncSet | apply keeps_fault
          | apply keeps_markManual | apply keeps_signalResult | apply keeps_elim | apply keeps_foldl
          | apply keeps_foldl_fst | apply keeps_foldl_fst2 | intro _ | apply keeps_ite | split
          | refine keeps_of_eq (by assumption) ?_

theorem keeps_applyAt {x0 : State} {x1 : Nat} {x2 : Nat} {x3 : Nat} {x4 : Nat} {x5 : Option Nat}
    {x6 : Option (Nat × Nat)} (h0 : Canonical x0) : Canonical (State.applyAt x0 x1 x2 x3 x4 x5 x6).1 := by
  unfold State.applyAt; try dsimp only
  repeat'
    with_reducible
      first
      | assumption | apply keeps_bump | apply keeps_logSignal | apply keeps_syncSet | apply keeps_elim
          | apply keeps_foldl | apply keeps_foldl_fst | apply keeps_foldl_fst2 | intro _ | apply keeps_ite | split
          | refine keeps_of_eq (by assumption) ?_

theorem keeps_applySent {x0 : State} {x1 : Signal} (h0 : Canonical x0) : Canonical (State.applySent x0 x1).1 := by
  unfold State.applySent; try dsimp only
  repeat'
    with_reducible
      first
      | assumption | apply keeps_applyAt | apply keeps_elim | apply keeps_foldl | apply keeps_foldl_fst
          | apply keeps_foldl_fst2 | intro _ | apply keeps_ite | split | refine keeps_of_eq (by assumption) ?_

theorem keeps_takeSignals {x0 : State} {x1 : Nat} {x2 : List Nat} (h0 : Canonical x0)
    : Canonical (State.takeSignals x0 x1 x2).1 := by
  unfold State.takeSignals; try dsimp only
  repeat'
    with_reducible
      first
      | assumption | apply keeps_applySent | simp only [canonical_update] | apply keeps_elim | apply keeps_foldl
          | apply keeps_foldl_fst | apply keeps_foldl_fst2 | intro _ | apply keeps_ite | split
          | refine keeps_of_eq (by assumption) ?_

theorem keeps_manualApply {x0 : State} {x1 : Nat} {x2 : Nat} (h0 : Canonical x0)
    : Canonical (State.manualApply x0 x1 x2).1 := by
  unfold State.manualApply; try dsimp only
  repeat'
    with_reducible
      first
      | assumption | apply keeps_logManual | apply keeps_takeSignals | apply keeps_setByHand | apply keeps_elim
          | apply keeps_foldl | apply keeps_foldl_fst | apply keeps_foldl_fst2 | intro _ | apply keeps_ite | split
          | refine keeps_of_eq (by assumption) ?_

theorem keeps_setXcvrState {x0 : State} {x1 : Nat} {x2 : Nat} {x3 : Bool} (h0 : Canonical x0)
    : Canonical (State.setXcvrState x0 x1 x2 x3) := by
  unfold State.setXcvrState; try dsimp only
  repeat'
    with_reducible
      first
      | assumption | apply keeps_change | apply keeps_elim | apply keeps_foldl | apply keeps_foldl_fst
          | apply keeps_foldl_fst2 | intro _ | apply keeps_ite | split | refine keeps_of_eq (by assumption) ?_

theorem keeps_updWear {x0 : State} {x1 : Nat} {x2 : Wear → Wear} (h0 : Canonical x0)
    : Canonical (State.updWear x0 x1 x2) := by
  unfold State.updWear; try dsimp only
  repeat'
    with_reducible
      first
      | assumption | simp only [canonical_update] | apply keeps_elim | apply keeps_foldl | apply keeps_foldl_fst
          | apply keeps_foldl_fst2 | intro _ | apply keeps_ite | split | refine keeps_of_eq (by assumption) ?_

theorem keeps_clearRetired {x0 : State} {x1 : Nat} (h0 : Canonical x0) : Canonical (State.clearRetired x0 x1) := by
  unfold State.clearRetired; try dsimp only
  repeat'
    with_reducible
      first
      | assumption | apply keeps_updWear | apply keeps_setXcvrState | apply keeps_put | apply keeps_elim
          | apply keeps_foldl | apply keeps_foldl_fst | apply keeps_foldl_fst2 | intro _ | apply keeps_ite | split
          | refine keeps_of_eq (by assumption) ?_

theorem keeps_closePeer {x0 : State} {x1 : Nat} (h0 : Canonical x0) : Canonical (State.closePeer x0 x1) := by
  unfold State.closePeer; try dsimp only
  repeat'
    with_reducible
      first
      | assumption | apply keeps_beginClose | apply keeps_elim | apply keeps_foldl | apply keeps_foldl_fst
          | apply keeps_foldl_fst2 | intro _ | apply keeps_ite | split | refine keeps_of_eq (by assumption) ?_

theorem keeps_returnTile {x0 : State} {x1 : Nat} (h0 : Canonical x0) : Canonical (State.returnTile x0 x1) := by
  unfold State.returnTile; try dsimp only
  repeat'
    with_reducible
      first
      | assumption | apply keeps_put | apply keeps_elim | apply keeps_foldl | apply keeps_foldl_fst
          | apply keeps_foldl_fst2 | intro _ | apply keeps_ite | split | refine keeps_of_eq (by assumption) ?_

theorem keeps_coreMoved {x0 : State} {x1 : Nat} {x2 : Nat} (h0 : Canonical x0)
    : Canonical (State.coreMoved x0 x1 x2) := by
  unfold State.coreMoved; try dsimp only
  repeat'
    with_reducible
      first
      | assumption | apply keeps_returnTile | apply keeps_watch | apply keeps_setCoreState | apply keeps_put
          | apply keeps_takeTile | apply keeps_elim | apply keeps_foldl | apply keeps_foldl_fst
          | apply keeps_foldl_fst2 | intro _ | apply keeps_ite | split | refine keeps_of_eq (by assumption) ?_

theorem keeps_jobDefined {x0 : State} {x1 : Nat} {x2 : Nat} (h0 : Canonical x0)
    : Canonical (State.jobDefined x0 x1 x2) := by
  unfold State.jobDefined; try dsimp only
  repeat'
    with_reducible
      first
      | assumption | apply keeps_setJobState | simp only [canonical_update] | apply keeps_elim | apply keeps_foldl
          | apply keeps_foldl_fst | apply keeps_foldl_fst2 | intro _ | apply keeps_ite | split
          | refine keeps_of_eq (by assumption) ?_
          | (simp only [canonical_all]; refine ⟨?_, ?_, ?_, ?_, ?_, ?_, ?_, ?_, ?_, ?_, ?_, ?_, ?_, ?_, ?_, ?_, ?_, ?_, ?_, ?_, ?_, ?_, ?_, ?_, ?_, ?_, ?_⟩)
          | apply rising_map | apply wf_copyInto | apply wf_fold | apply Tab.copyInto_wf | apply rising_fold
          | exact rising_nil | exact wf_nil | exact mem_nil | apply wf_copyRange | apply Tab.copyRange_wf
          | apply wf_clearRange | apply Tab.set_rising | apply Tab.upd_rising | apply Tab.filter_rising
          | apply Tab.set_wf | apply Tab.clearRange_wf | apply Canonical.mem | apply Canonical.poison
          | apply Canonical.sync | apply Canonical.obj | apply Canonical.maq | apply Canonical.cores
          | apply Canonical.objLog | apply Canonical.refusalEvent | apply Canonical.streams | apply Canonical.jobs
          | apply Canonical.sessions | apply Canonical.leftOut | apply Canonical.survivors | apply Canonical.rowLog
          | apply Canonical.conns | apply Canonical.ports | apply Canonical.hubs | apply Canonical.hubResets
          | apply Canonical.txns | apply Canonical.links | apply Canonical.arrived | apply Canonical.channels
          | apply Canonical.tiles | apply Canonical.xcvrs | apply Canonical.monitors | apply Canonical.requests
          | apply Canonical.remoteOverruns

theorem keeps_reformat {x0 : State} {x1 : Nat} (h0 : Canonical x0) : Canonical (State.reformat x0 x1) := by
  unfold State.reformat; try dsimp only
  repeat'
    with_reducible
      first
      | assumption | apply keeps_zeroMem | simp only [canonical_update] | apply keeps_elim | apply keeps_foldl
          | apply keeps_foldl_fst | apply keeps_foldl_fst2 | intro _ | apply keeps_ite | split
          | refine keeps_of_eq (by assumption) ?_
          | (simp only [canonical_all]; refine ⟨?_, ?_, ?_, ?_, ?_, ?_, ?_, ?_, ?_, ?_, ?_, ?_, ?_, ?_, ?_, ?_, ?_, ?_, ?_, ?_, ?_, ?_, ?_, ?_, ?_, ?_, ?_⟩)
          | apply rising_map | apply wf_copyInto | apply wf_fold | apply Tab.copyInto_wf | apply rising_fold
          | exact rising_nil | exact wf_nil | exact mem_nil | apply wf_copyRange | apply Tab.copyRange_wf
          | apply wf_clearRange | apply Tab.set_rising | apply Tab.upd_rising | apply Tab.filter_rising
          | apply Tab.set_wf | apply Tab.clearRange_wf | apply Canonical.mem | apply Canonical.poison
          | apply Canonical.sync | apply Canonical.obj | apply Canonical.maq | apply Canonical.cores
          | apply Canonical.objLog | apply Canonical.refusalEvent | apply Canonical.streams | apply Canonical.jobs
          | apply Canonical.sessions | apply Canonical.leftOut | apply Canonical.survivors | apply Canonical.rowLog
          | apply Canonical.conns | apply Canonical.ports | apply Canonical.hubs | apply Canonical.hubResets
          | apply Canonical.txns | apply Canonical.links | apply Canonical.arrived | apply Canonical.channels
          | apply Canonical.tiles | apply Canonical.xcvrs | apply Canonical.monitors | apply Canonical.requests
          | apply Canonical.remoteOverruns

theorem keeps_dropPort {x0 : State} {x1 : Nat} (h0 : Canonical x0) : Canonical (State.dropPort x0 x1) := by
  unfold State.dropPort; try dsimp only
  repeat'
    with_reducible
      first
      | assumption | apply keeps_dropConn | apply keeps_elim | apply keeps_foldl | apply keeps_foldl_fst
          | apply keeps_foldl_fst2 | intro _ | apply keeps_ite | split | refine keeps_of_eq (by assumption) ?_

theorem keeps_roleStands {x0 : State} {x1 : Nat} (h0 : Canonical x0) : Canonical (State.roleStands x0 x1) := by
  unfold State.roleStands; try dsimp only
  repeat'
    with_reducible
      first
      | assumption | apply keeps_change | apply keeps_elim | apply keeps_foldl | apply keeps_foldl_fst
          | apply keeps_foldl_fst2 | intro _ | apply keeps_ite | split | refine keeps_of_eq (by assumption) ?_

theorem keeps_portLinkUp {x0 : Nat} {x1 : State} (h1 : Canonical x1) : Canonical (portLinkUp x0 x1) := by
  unfold portLinkUp; try dsimp only
  repeat'
    with_reducible
      first
      | assumption | apply keeps_updPort | apply keeps_trainPort | apply keeps_roleStands | apply keeps_portCameUp
          | apply keeps_change | apply keeps_elim | apply keeps_foldl | apply keeps_foldl_fst
          | apply keeps_foldl_fst2 | intro _ | apply keeps_ite | split | refine keeps_of_eq (by assumption) ?_

theorem keeps_returnRole {x0 : State} (h0 : Canonical x0) : Canonical (State.returnRole x0) := by
  unfold State.returnRole; try dsimp only
  repeat'
    with_reducible
      first
      | assumption | apply keeps_dropPort | apply keeps_change | apply keeps_updPort | apply keeps_trainPort
          | apply keeps_portLinkUp | apply keeps_elim | apply keeps_foldl | apply keeps_foldl_fst
          | apply keeps_foldl_fst2 | intro _ | apply keeps_ite | split | refine keeps_of_eq (by assumption) ?_

theorem keeps_dropLanes {x0 : State} {x1 : Nat} {x2 : Nat} (h0 : Canonical x0)
    : Canonical (State.dropLanes x0 x1 x2) := by
  unfold State.dropLanes; try dsimp only
  repeat'
    with_reducible
      first
      | assumption | apply keeps_put | apply keeps_emit | apply keeps_trainIn | apply keeps_elim | apply keeps_foldl
          | apply keeps_foldl_fst | apply keeps_foldl_fst2 | intro _ | apply keeps_ite | split
          | refine keeps_of_eq (by assumption) ?_

theorem keeps_wearAlarm {x0 : State} {x1 : Nat} {x2 : Nat} {x3 : Nat} (h0 : Canonical x0)
    : Canonical (State.wearAlarm x0 x1 x2 x3) := by
  unfold State.wearAlarm; try dsimp only
  repeat'
    with_reducible
      first
      | assumption | apply keeps_setXcvrState | apply keeps_fault | apply keeps_dropLanes | apply keeps_updWear
          | apply keeps_elim | apply keeps_foldl | apply keeps_foldl_fst | apply keeps_foldl_fst2 | intro _
          | apply keeps_ite | split | refine keeps_of_eq (by assumption) ?_

theorem keeps_standingAlarms {x0 : State} {x1 : Nat} (h0 : Canonical x0)
    : Canonical (State.standingAlarms x0 x1) := by
  unfold State.standingAlarms; try dsimp only
  repeat'
    with_reducible
      first
      | assumption | apply keeps_wearAlarm | apply keeps_elim | apply keeps_foldl | apply keeps_foldl_fst
          | apply keeps_foldl_fst2 | intro _ | apply keeps_ite | split | refine keeps_of_eq (by assumption) ?_

theorem keeps_swapMirror {x0 : State} {x1 : Nat} {x2 : Option (Nat × Nat × Nat)} {x3 : Option (Nat × Nat × Nat)}
    (h0 : Canonical x0) : Canonical (State.swapMirror x0 x1 x2 x3) := by
  unfold State.swapMirror; try dsimp only
  repeat'
    with_reducible
      first
      | assumption | apply keeps_setMirror | apply keeps_elim | apply keeps_foldl | apply keeps_foldl_fst
          | apply keeps_foldl_fst2 | intro _ | apply keeps_ite | split | refine keeps_of_eq (by assumption) ?_

theorem keeps_swapped {x0 : State} {x1 : Nat} {x2 : Nat} {x3 : Nat} (h0 : Canonical x0)
    : Canonical (State.swapped x0 x1 x2 x3) := by
  unfold State.swapped; try dsimp only
  repeat'
    with_reducible
      first
      | assumption | apply keeps_coreMoved | apply keeps_applyLayout | apply keeps_jobDefined | apply keeps_updStream
          | apply keeps_swapMirror | apply keeps_reformat | apply keeps_trainPort | apply keeps_put
          | apply keeps_clearRetired | apply keeps_standingAlarms | apply keeps_returnRole | apply keeps_closeAll
          | apply keeps_closePeer | apply keeps_elim | apply keeps_foldl | apply keeps_foldl_fst
          | apply keeps_foldl_fst2 | intro _ | apply keeps_ite | split | refine keeps_of_eq (by assumption) ?_

theorem keeps_applyEdits {x0 : State} (h0 : Canonical x0) : Canonical (State.applyEdits x0) := by
  unfold State.applyEdits; try dsimp only
  repeat'
    with_reducible
      first
      | assumption | apply keeps_change | apply keeps_swapped | apply keeps_recordMap | simp only [canonical_update]
          | apply keeps_elim | apply keeps_foldl | apply keeps_foldl_fst | apply keeps_foldl_fst2 | intro _
          | apply keeps_ite | split | refine keeps_of_eq (by assumption) ?_
          | (simp only [canonical_all]; refine ⟨?_, ?_, ?_, ?_, ?_, ?_, ?_, ?_, ?_, ?_, ?_, ?_, ?_, ?_, ?_, ?_, ?_, ?_, ?_, ?_, ?_, ?_, ?_, ?_, ?_, ?_, ?_⟩)
          | apply rising_map | apply wf_copyInto | apply wf_fold | apply Tab.copyInto_wf | apply rising_fold
          | exact rising_nil | exact wf_nil | exact mem_nil | apply wf_copyRange | apply Tab.copyRange_wf
          | apply wf_clearRange | apply Tab.set_rising | apply Tab.upd_rising | apply Tab.filter_rising
          | apply Tab.set_wf | apply Tab.clearRange_wf | apply Canonical.mem | apply Canonical.poison
          | apply Canonical.sync | apply Canonical.obj | apply Canonical.maq | apply Canonical.cores
          | apply Canonical.objLog | apply Canonical.refusalEvent | apply Canonical.streams | apply Canonical.jobs
          | apply Canonical.sessions | apply Canonical.leftOut | apply Canonical.survivors | apply Canonical.rowLog
          | apply Canonical.conns | apply Canonical.ports | apply Canonical.hubs | apply Canonical.hubResets
          | apply Canonical.txns | apply Canonical.links | apply Canonical.arrived | apply Canonical.channels
          | apply Canonical.tiles | apply Canonical.xcvrs | apply Canonical.monitors | apply Canonical.requests
          | apply Canonical.remoteOverruns

theorem keeps_putEdit {x0 : State} {x1 : Nat × Nat} (h0 : Canonical x0) : Canonical (State.putEdit x0 x1) := by
  unfold State.putEdit; try dsimp only
  repeat'
    with_reducible
      first
      | assumption | apply keeps_put | apply keeps_elim | apply keeps_foldl | apply keeps_foldl_fst
          | apply keeps_foldl_fst2 | intro _ | apply keeps_ite | split | refine keeps_of_eq (by assumption) ?_

theorem keeps_withEdits {x0 : State} (h0 : Canonical x0) : Canonical (State.withEdits x0) := by
  unfold State.withEdits; try dsimp only
  repeat'
    with_reducible
      first
      | assumption | apply keeps_putEdit | apply keeps_elim | apply keeps_foldl | apply keeps_foldl_fst
          | apply keeps_foldl_fst2 | intro _ | apply keeps_ite | split | refine keeps_of_eq (by assumption) ?_

theorem keeps_answerThen {x0 : State} {x1 : Nat → State → State} {x2 : State → State × Nat} (h0 : Canonical x0)
    (h1_0 : ∀ y0 y1, Canonical y1 → Canonical (x1 y0 y1)) (h2_0 : ∀ y0, Canonical y0 → Canonical (x2 y0).1)
    : Canonical (State.answerThen x0 x1 x2) := by
  unfold State.answerThen; try dsimp only
  repeat'
    with_reducible
      first
      | assumption | apply h1_0 | apply h2_0 | apply keeps_elim | apply keeps_foldl | apply keeps_foldl_fst
          | apply keeps_foldl_fst2 | intro _ | apply keeps_ite | split | refine keeps_of_eq (by assumption) ?_

theorem keeps_noteWrite {x0 : State} {x1 : Nat} (h0 : Canonical x0) : Canonical (State.noteWrite x0 x1) := by
  unfold State.noteWrite; try dsimp only
  repeat'
    with_reducible
      first
      | assumption | simp only [canonical_update] | apply keeps_elim | apply keeps_foldl | apply keeps_foldl_fst
          | apply keeps_foldl_fst2 | intro _ | apply keeps_ite | split | refine keeps_of_eq (by assumption) ?_

theorem keeps_cancelSwap {x0 : State} (h0 : Canonical x0) : Canonical (State.cancelSwap x0).1 := by
  unfold State.cancelSwap; try dsimp only
  repeat'
    with_reducible
      first
      | assumption | apply keeps_pumpChanges | apply keeps_endSwap | apply keeps_setSwapState | apply keeps_put
          | apply keeps_elim | apply keeps_foldl | apply keeps_foldl_fst | apply keeps_foldl_fst2 | intro _
          | apply keeps_ite | split | refine keeps_of_eq (by assumption) ?_

theorem keeps_loadAbort {x0 : State} {x1 : Nat} (h0 : Canonical x0) : Canonical (State.loadAbort x0 x1).1 := by
  unfold State.loadAbort; try dsimp only
  repeat'
    with_reducible
      first
      | assumption | apply keeps_abortLoad | apply keeps_elim | apply keeps_foldl | apply keeps_foldl_fst
          | apply keeps_foldl_fst2 | intro _ | apply keeps_ite | split | refine keeps_of_eq (by assumption) ?_

theorem keeps_updSlot {x0 : State} {x1 : Nat} {x2 : Slot → Slot} (h0 : Canonical x0)
    : Canonical (State.updSlot x0 x1 x2) := by
  unfold State.updSlot; try dsimp only
  repeat'
    with_reducible
      first
      | assumption | simp only [canonical_update] | apply keeps_elim | apply keeps_foldl | apply keeps_foldl_fst
          | apply keeps_foldl_fst2 | intro _ | apply keeps_ite | split | refine keeps_of_eq (by assumption) ?_

theorem keeps_loadCommit {x0 : State} {x1 : Nat} {x2 : Sys2Proof.LoadCheck} (h0 : Canonical x0)
    : Canonical (State.loadCommit x0 x1 x2).1 := by
  unfold State.loadCommit; try dsimp only
  repeat'
    with_reducible
      first
      | assumption | apply keeps_change | apply keeps_put | apply keeps_updSlot | simp only [canonical_update]
          | apply keeps_elim | apply keeps_foldl | apply keeps_foldl_fst | apply keeps_foldl_fst2 | intro _
          | apply keeps_ite | split | refine keeps_of_eq (by assumption) ?_

theorem keeps_lockCommand {x0 : State} {x1 : Nat} {x2 : Nat} (h0 : Canonical x0)
    : Canonical (State.lockCommand x0 x1 x2).1 := by
  unfold State.lockCommand; try dsimp only
  repeat'
    with_reducible
      first
      | assumption | apply keeps_put | simp only [canonical_update] | apply keeps_elim | apply keeps_foldl
          | apply keeps_foldl_fst | apply keeps_foldl_fst2 | intro _ | apply keeps_ite | split
          | refine keeps_of_eq (by assumption) ?_

theorem keeps_lockDebug {x0 : State} (h0 : Canonical x0) : Canonical (State.lockDebug x0) := by
  unfold State.lockDebug; try dsimp only
  repeat'
    with_reducible
      first
      | assumption | apply keeps_change | apply keeps_put | apply keeps_elim | apply keeps_foldl
          | apply keeps_foldl_fst | apply keeps_foldl_fst2 | intro _ | apply keeps_ite | split
          | refine keeps_of_eq (by assumption) ?_

theorem keeps_measureApply {x0 : State} (h0 : Canonical x0) : Canonical (State.measureApply x0).1 := by
  unfold State.measureApply; try dsimp only
  repeat'
    with_reducible
      first
      | assumption | simp only [canonical_update] | apply keeps_elim | apply keeps_foldl | apply keeps_foldl_fst
          | apply keeps_foldl_fst2 | intro _ | apply keeps_ite | split | refine keeps_of_eq (by assumption) ?_

theorem keeps_snapshot {x0 : State} {x1 : Nat} {x2 : Nat} (h0 : Canonical x0)
    : Canonical (State.snapshot x0 x1 x2) := by
  unfold State.snapshot; try dsimp only
  repeat'
    with_reducible
      first
      | assumption | apply keeps_event | apply keeps_put | apply keeps_elim | apply keeps_foldl
          | apply keeps_foldl_fst | apply keeps_foldl_fst2 | intro _ | apply keeps_ite | split
          | refine keeps_of_eq (by assumption) ?_

theorem keeps_snapshotClear {x0 : State} {x1 : Nat} {x2 : Nat} (h0 : Canonical x0)
    : Canonical (State.snapshotClear x0 x1 x2) := by
  unfold State.snapshotClear; try dsimp only
  repeat'
    with_reducible
      first
      | assumption | apply keeps_clearMonitor | apply keeps_snapshot | apply keeps_elim | apply keeps_foldl
          | apply keeps_foldl_fst | apply keeps_foldl_fst2 | intro _ | apply keeps_ite | split
          | refine keeps_of_eq (by assumption) ?_

theorem keeps_monTake {x0 : State} {x1 : Nat} {x2 : Int} {x3 : Nat} (h0 : Canonical x0)
    : Canonical (State.monTake x0 x1 x2 x3) := by
  unfold State.monTake; try dsimp only
  repeat'
    with_reducible
      first
      | assumption | apply keeps_setMonitor | apply keeps_bump | apply keeps_elim | apply keeps_foldl
          | apply keeps_foldl_fst | apply keeps_foldl_fst2 | intro _ | apply keeps_ite | split
          | refine keeps_of_eq (by assumption) ?_

theorem keeps_takeEarly {x0 : State} {x1 : Nat} (h0 : Canonical x0) : Canonical (State.takeEarly x0 x1) := by
  unfold State.takeEarly; try dsimp only
  repeat'
    with_reducible
      first
      | assumption | apply keeps_setMonitor | apply keeps_monTake | apply keeps_elim | apply keeps_foldl
          | apply keeps_foldl_fst | apply keeps_foldl_fst2 | intro _ | apply keeps_ite | split
          | refine keeps_of_eq (by assumption) ?_

theorem keeps_rollWindow {x0 : State} {x1 : Nat} (h0 : Canonical x0) : Canonical (State.rollWindow x0 x1) := by
  unfold State.rollWindow; try dsimp only
  repeat'
    with_reducible
      first
      | assumption | apply keeps_snapshotClear | apply keeps_takeEarly | apply keeps_setMonitor | apply keeps_elim
          | apply keeps_foldl | apply keeps_foldl_fst | apply keeps_foldl_fst2 | intro _ | apply keeps_ite | split
          | refine keeps_of_eq (by assumption) ?_

theorem keeps_rollFirst {x0 : State} {x1 : Nat} {x2 : Nat} (h0 : Canonical x0)
    : Canonical (State.rollFirst x0 x1 x2) := by
  unfold State.rollFirst; try dsimp only
  repeat'
    with_reducible
      first
      | assumption | apply keeps_rollWindow | apply keeps_elim | apply keeps_foldl | apply keeps_foldl_fst
          | apply keeps_foldl_fst2 | intro _ | apply keeps_ite | split | refine keeps_of_eq (by assumption) ?_

theorem keeps_monCommand {x0 : State} {x1 : Nat} {x2 : Nat} (h0 : Canonical x0)
    : Canonical (State.monCommand x0 x1 x2).1 := by
  unfold State.monCommand; try dsimp only
  repeat'
    with_reducible
      first
      | assumption | apply keeps_rollFirst | apply keeps_snapshot | apply keeps_snapshotClear
          | apply keeps_clearMonitor | apply keeps_elim | apply keeps_foldl | apply keeps_foldl_fst
          | apply keeps_foldl_fst2 | intro _ | apply keeps_ite | split | refine keeps_of_eq (by assumption) ?_

theorem keeps_ownerSwap {x0 : State} {x1 : Bool} (h0 : Canonical x0) : Canonical (State.ownerSwap x0 x1).1 := by
  unfold State.ownerSwap; try dsimp only
  repeat'
    with_reducible
      first
      | assumption | apply keeps_refuseSwap | apply keeps_beginSwap | apply keeps_elim | apply keeps_foldl
          | apply keeps_foldl_fst | apply keeps_foldl_fst2 | intro _ | apply keeps_ite | split
          | refine keeps_of_eq (by assumption) ?_

theorem keeps_freezeWaits {x0 : State} (h0 : Canonical x0) : Canonical (State.freezeWaits x0) := by
  unfold State.freezeWaits; try dsimp only
  repeat'
    with_reducible
      first
      | assumption | simp only [canonical_update] | apply keeps_elim | apply keeps_foldl | apply keeps_foldl_fst
          | apply keeps_foldl_fst2 | intro _ | apply keeps_ite | split | refine keeps_of_eq (by assumption) ?_

theorem keeps_lowerGroups {x0 : State} {x1 : Nat} {x2 : Nat} (h0 : Canonical x0)
    : Canonical (State.lowerGroups x0 x1 x2) := by
  unfold State.lowerGroups; try dsimp only
  repeat'
    with_reducible
      first
      | assumption | apply keeps_updCore | apply keeps_passGroups | apply keeps_elim | apply keeps_foldl
          | apply keeps_foldl_fst | apply keeps_foldl_fst2 | intro _ | apply keeps_ite | split
          | refine keeps_of_eq (by assumption) ?_

theorem keeps_enterLow {x0 : State} {x1 : Nat} (h0 : Canonical x0) : Canonical (State.enterLow x0 x1) := by
  unfold State.enterLow; try dsimp only
  repeat'
    with_reducible
      first
      | assumption | apply keeps_flushEnergy | apply keeps_flushWear | apply keeps_freezeWaits
          | apply keeps_dropLinks | apply keeps_showSteps | apply keeps_selfRefresh | apply keeps_updCore
          | apply keeps_lowerGroups | simp only [canonical_update] | apply keeps_elim | apply keeps_foldl
          | apply keeps_foldl_fst | apply keeps_foldl_fst2 | intro _ | apply keeps_ite | split
          | refine keeps_of_eq (by assumption) ?_

theorem keeps_enterRest {x0 : State} (h0 : Canonical x0) : Canonical (State.enterRest x0) := by
  unfold State.enterRest; try dsimp only
  repeat'
    with_reducible
      first
      | assumption | apply keeps_setPowerState | apply keeps_freezeWaits | apply keeps_dropLinks | apply keeps_elim
          | apply keeps_foldl | apply keeps_foldl_fst | apply keeps_foldl_fst2 | intro _ | apply keeps_ite | split
          | refine keeps_of_eq (by assumption) ?_

theorem keeps_leaveLow {x0 : State} {x1 : Nat} (h0 : Canonical x0) : Canonical (State.leaveLow x0 x1) := by
  unfold State.leaveLow; try dsimp only
  repeat'
    with_reducible
      first
      | assumption | apply keeps_selfRefresh | apply keeps_wakeGroups | simp only [canonical_update]
          | apply keeps_elim | apply keeps_foldl | apply keeps_foldl_fst | apply keeps_foldl_fst2 | intro _
          | apply keeps_ite | split | refine keeps_of_eq (by assumption) ?_

theorem keeps_endLow {x0 : State} {x1 : Nat} (h0 : Canonical x0) : Canonical (State.endLow x0 x1) := by
  unfold State.endLow; try dsimp only
  repeat'
    with_reducible
      first
      | assumption | apply keeps_updCore | apply keeps_setGroups | apply keeps_change | apply keeps_setPowerState
          | apply keeps_trainDown | apply keeps_thawWaits | apply keeps_showSteps | apply keeps_enterRest
          | apply keeps_elim | apply keeps_foldl | apply keeps_foldl_fst | apply keeps_foldl_fst2 | intro _
          | apply keeps_ite | split | refine keeps_of_eq (by assumption) ?_

theorem keeps_settlePower {x0 : State} (h0 : Canonical x0) : Canonical (State.settlePower x0) := by
  unfold State.settlePower; try dsimp only
  repeat'
    with_reducible
      first
      | assumption | apply keeps_change | apply keeps_setPowerState | apply keeps_endLow
          | simp only [canonical_update] | apply keeps_elim | apply keeps_foldl | apply keeps_foldl_fst
          | apply keeps_foldl_fst2 | intro _ | apply keeps_ite | split | refine keeps_of_eq (by assumption) ?_

theorem keeps_enterPower {x0 : State} {x1 : Nat} (h0 : Canonical x0) : Canonical (State.enterPower x0 x1).1 := by
  unfold State.enterPower; try dsimp only
  repeat'
    with_reducible
      first
      | assumption | apply keeps_settlePower | apply keeps_leaveLow | apply keeps_enterRest | apply keeps_leaveIdle
          | apply keeps_setPowerState | apply keeps_enterLow | apply keeps_thawWaits | apply keeps_elim
          | apply keeps_foldl | apply keeps_foldl_fst | apply keeps_foldl_fst2 | intro _ | apply keeps_ite | split
          | refine keeps_of_eq (by assumption) ?_

end Sys2Proof.Machine
end

