-- ==== Sys2Proof/Laws/Keeps7.lean ====
section
/-! SUPPORT.  What keeps the canonical form, part 7: one lemma per shared operation, from
leavePower to vinLow (of a pair: its state). -/
namespace Sys2Proof.Machine
open Sys2Proof

theorem keeps_leavePower {x0 : State} (h0 : Canonical x0) : Canonical (State.leavePower x0).1 := by
  unfold State.leavePower; try dsimp only
  repeat'
    with_reducible
      first
      | assumption | apply keeps_settlePower | apply keeps_leaveLow | apply keeps_leaveRest | apply keeps_leaveIdle
          | apply keeps_elim | apply keeps_foldl | apply keeps_foldl_fst | apply keeps_foldl_fst2 | intro _
          | apply keeps_ite | split | refine keeps_of_eq (by assumption) ?_

theorem keeps_powerRequest {x0 : State} {x1 : Nat} (h0 : Canonical x0) : Canonical (State.powerRequest x0 x1).1 := by
  unfold State.powerRequest; try dsimp only
  repeat'
    with_reducible
      first
      | assumption | apply keeps_leavePower | apply keeps_enterPower | apply keeps_elim | apply keeps_foldl
          | apply keeps_foldl_fst | apply keeps_foldl_fst2 | intro _ | apply keeps_ite | split
          | refine keeps_of_eq (by assumption) ?_

theorem keeps_snapshotAll {x0 : State} {x1 : Bool} {x2 : Nat} (h0 : Canonical x0)
    : Canonical (State.snapshotAll x0 x1 x2) := by
  unfold State.snapshotAll; try dsimp only
  repeat'
    with_reducible
      first
      | assumption | apply keeps_rollFirst | apply keeps_snapshotClear | apply keeps_snapshot | apply keeps_elim
          | apply keeps_foldl | apply keeps_foldl_fst | apply keeps_foldl_fst2 | intro _ | apply keeps_ite | split
          | refine keeps_of_eq (by assumption) ?_

theorem keeps_snapshotCommand {x0 : State} {x1 : Bool} (h0 : Canonical x0)
    : Canonical (State.snapshotCommand x0 x1).1 := by
  unfold State.snapshotCommand; try dsimp only
  repeat'
    with_reducible
      first
      | assumption | apply keeps_snapshotAll | simp only [canonical_update] | apply keeps_elim | apply keeps_foldl
          | apply keeps_foldl_fst | apply keeps_foldl_fst2 | intro _ | apply keeps_ite | split
          | refine keeps_of_eq (by assumption) ?_

theorem keeps_svnAdvance {x0 : State} (h0 : Canonical x0) : Canonical (State.svnAdvance x0).1 := by
  unfold State.svnAdvance; try dsimp only
  repeat'
    with_reducible
      first
      | assumption | apply keeps_put | apply keeps_elim | apply keeps_foldl | apply keeps_foldl_fst
          | apply keeps_foldl_fst2 | intro _ | apply keeps_ite | split | refine keeps_of_eq (by assumption) ?_

theorem keeps_command {x0 : State} {x1 : Found} {x2 : Nat} {x3 : Nat} {x4 : Nat} (h0 : Canonical x0)
    : Canonical (State.command x0 x1 x2 x3 x4).1 := by
  unfold State.command; try dsimp only
  repeat'
    with_reducible
      first
      | assumption | apply keeps_cancelSwap | apply keeps_ownerSwap | apply keeps_discardEdits
          | apply keeps_lockCommand | apply keeps_acceptReset | apply keeps_powerRequest | apply keeps_loadCommit
          | apply keeps_loadAbort | apply keeps_svnAdvance | apply keeps_measureApply | apply keeps_lockDebug
          | apply keeps_snapshotCommand | apply keeps_manualApply | apply keeps_monCommand | apply keeps_groupRequest
          | apply keeps_elim | apply keeps_foldl | apply keeps_foldl_fst | apply keeps_foldl_fst2 | intro _
          | apply keeps_ite | split | refine keeps_of_eq (by assumption) ?_

theorem keeps_loadChunk {x0 : State} {x1 : Nat} {x2 : Sys2Proof.Bytes} (h0 : Canonical x0)
    : Canonical (State.loadChunk x0 x1 x2).1 := by
  unfold State.loadChunk; try dsimp only
  repeat'
    with_reducible
      first
      | assumption | apply keeps_updSlot | apply keeps_change | apply keeps_put | simp only [canonical_update]
          | apply keeps_elim | apply keeps_foldl | apply keeps_foldl_fst | apply keeps_foldl_fst2 | intro _
          | apply keeps_ite | split | refine keeps_of_eq (by assumption) ?_

theorem keeps_writeCredential {x0 : State} {x1 : Nat} {x2 : Nat} (h0 : Canonical x0)
    : Canonical (State.writeCredential x0 x1 x2).1 := by
  unfold State.writeCredential; try dsimp only
  repeat'
    with_reducible
      first
      | assumption | apply keeps_put | apply keeps_elim | apply keeps_foldl | apply keeps_foldl_fst
          | apply keeps_foldl_fst2 | intro _ | apply keeps_ite | split | refine keeps_of_eq (by assumption) ?_

theorem keeps_writeLoadSetting {x0 : State} {x1 : Nat} {x2 : Nat} {x3 : Nat} (h0 : Canonical x0)
    : Canonical (State.writeLoadSetting x0 x1 x2 x3).1 := by
  unfold State.writeLoadSetting; try dsimp only
  repeat'
    with_reducible
      first
      | assumption | apply keeps_put | apply keeps_elim | apply keeps_foldl | apply keeps_foldl_fst
          | apply keeps_foldl_fst2 | intro _ | apply keeps_ite | split | refine keeps_of_eq (by assumption) ?_

theorem keeps_writeMonSetting {x0 : State} {x1 : Nat} {x2 : Nat} {x3 : Nat} (h0 : Canonical x0)
    : Canonical (State.writeMonSetting x0 x1 x2 x3).1 := by
  unfold State.writeMonSetting; try dsimp only
  repeat'
    with_reducible
      first
      | assumption | apply keeps_rollFirst | apply keeps_snapshotClear | apply keeps_setMonitor
          | apply keeps_openWindow | apply keeps_put | apply keeps_clearMonitor | apply keeps_elim
          | apply keeps_foldl | apply keeps_foldl_fst | apply keeps_foldl_fst2 | intro _ | apply keeps_ite | split
          | refine keeps_of_eq (by assumption) ?_

theorem keeps_writeSetting {x0 : State} {x1 : Nat} {x2 : Nat} {x3 : Nat} {x4 : Nat} (h0 : Canonical x0)
    : Canonical (State.writeSetting x0 x1 x2 x3 x4).1 := by
  unfold State.writeSetting; try dsimp only
  repeat'
    with_reducible
      first
      | assumption | apply keeps_put | apply keeps_preferRef | apply keeps_showHealth | apply keeps_writeCredential
          | apply keeps_writeLoadSetting | apply keeps_writeMonSetting | simp only [canonical_update]
          | apply keeps_elim | apply keeps_foldl | apply keeps_foldl_fst | apply keeps_foldl_fst2 | intro _
          | apply keeps_ite | split | refine keeps_of_eq (by assumption) ?_

theorem keeps_writeToken {x0 : State} {x1 : Sys2Proof.Bytes} {x2 : Sys2Proof.TokenCheck} (h0 : Canonical x0)
    : Canonical (State.writeToken x0 x1 x2).1 := by
  unfold State.writeToken; try dsimp only
  repeat'
    with_reducible
      first
      | assumption | apply keeps_change | apply keeps_put | simp only [canonical_update] | apply keeps_elim
          | apply keeps_foldl | apply keeps_foldl_fst | apply keeps_foldl_fst2 | intro _ | apply keeps_ite | split
          | refine keeps_of_eq (by assumption) ?_

theorem keeps_writeObject {x0 : State} {x1 : Found} {x2 : Nat} {x3 : Nat} {x4 : Nat} {x5 : Sys2Proof.Bytes}
    (h0 : Canonical x0) : Canonical (State.writeObject x0 x1 x2 x3 x4 x5).1 := by
  unfold State.writeObject; try dsimp only
  repeat'
    with_reducible
      first
      | assumption | apply keeps_maqPut | apply keeps_writeSetting | apply keeps_loadChunk | apply keeps_writeToken
          | apply keeps_command | apply keeps_elim | apply keeps_foldl | apply keeps_foldl_fst
          | apply keeps_foldl_fst2 | intro _ | apply keeps_ite | split | refine keeps_of_eq (by assumption) ?_

theorem keeps_applyWrite {x0 : State} {x1 : Found} {x2 : Nat} {x3 : Nat} {x4 : Nat} {x5 : Sys2Proof.Bytes}
    (h0 : Canonical x0) : Canonical (State.applyWrite x0 x1 x2 x3 x4 x5).1 := by
  unfold State.applyWrite; try dsimp only
  repeat'
    with_reducible
      first
      | assumption | apply keeps_writeObject | apply keeps_noteWrite | apply keeps_elim | apply keeps_foldl
          | apply keeps_foldl_fst | apply keeps_foldl_fst2 | intro _ | apply keeps_ite | split
          | refine keeps_of_eq (by assumption) ?_

theorem keeps_sendIn {x0 : State} {x1 : Nat} {x2 : Transfer} {x3 : Nat} {x4 : Nat} {x5 : Nat} {x6 : Bool}
    (h0 : Canonical x0) : Canonical (State.sendIn x0 x1 x2 x3 x4 x5 x6) := by
  unfold State.sendIn; try dsimp only
  repeat'
    with_reducible
      first
      | assumption | apply keeps_sendUnit | apply keeps_elim | apply keeps_foldl | apply keeps_foldl_fst
          | apply keeps_foldl_fst2 | intro _ | apply keeps_ite | split | refine keeps_of_eq (by assumption) ?_

theorem keeps_finishWrite {x0 : State} {x1 : Found} {x2 : Nat} {x3 : Transfer} (h0 : Canonical x0)
    : Canonical (State.finishWrite x0 x1 x2 x3) := by
  unfold State.finishWrite; try dsimp only
  repeat'
    with_reducible
      first
      | assumption | apply keeps_dropTransfer | apply keeps_sendIn | apply keeps_answerThen | apply keeps_applyWrite
          | apply keeps_elim | apply keeps_foldl | apply keeps_foldl_fst | apply keeps_foldl_fst2 | intro _
          | apply keeps_ite | split | refine keeps_of_eq (by assumption) ?_

theorem keeps_updTransfer {x0 : State} {x1 : Nat} {x2 : Nat} {x3 : Transfer → Transfer} (h0 : Canonical x0)
    : Canonical (State.updTransfer x0 x1 x2 x3) := by
  unfold State.updTransfer; try dsimp only
  repeat'
    with_reducible
      first
      | assumption | apply keeps_updSession | apply keeps_elim | apply keeps_foldl | apply keeps_foldl_fst
          | apply keeps_foldl_fst2 | intro _ | apply keeps_ite | split | refine keeps_of_eq (by assumption) ?_

theorem keeps_serveSegment {x0 : State} {x1 : Found} {x2 : Nat} {x3 : Transfer} {x4 : Sys2Proof.TchUnit}
    (h0 : Canonical x0) : Canonical (State.serveSegment x0 x1 x2 x3 x4) := by
  unfold State.serveSegment; try dsimp only
  repeat'
    with_reducible
      first
      | assumption | apply keeps_updTransfer | apply keeps_sendIn | apply keeps_dropTransfer
          | apply keeps_finishWrite | apply keeps_elim | apply keeps_foldl | apply keeps_foldl_fst
          | apply keeps_foldl_fst2 | intro _ | apply keeps_ite | split | refine keeps_of_eq (by assumption) ?_

theorem keeps_found {x0 : State} (h0 : Canonical x0) : Canonical (State.found x0).1 := by
  unfold State.found; try dsimp only
  repeat'
    with_reducible
      first
      | assumption | simp only [canonical_update] | apply keeps_elim | apply keeps_foldl | apply keeps_foldl_fst
          | apply keeps_foldl_fst2 | intro _ | apply keeps_ite | split | refine keeps_of_eq (by assumption) ?_

theorem keeps_noTransfer {x0 : State} {x1 : Sys2Proof.Source} {x2 : Sys2Proof.TchUnit} (h0 : Canonical x0)
    : Canonical (State.noTransfer x0 x1 x2) := by
  unfold State.noTransfer; try dsimp only
  repeat'
    with_reducible
      first
      | assumption | apply keeps_sendUnit | apply keeps_elim | apply keeps_foldl | apply keeps_foldl_fst
          | apply keeps_foldl_fst2 | intro _ | apply keeps_ite | split | refine keeps_of_eq (by assumption) ?_

theorem keeps_enter {x0 : State} {x1 : Sys2Proof.Source} (h0 : Canonical x0) : Canonical (State.enter x0 x1).1 := by
  unfold State.enter; try dsimp only
  repeat'
    with_reducible
      first
      | assumption | apply keeps_updSession | apply keeps_setSession | apply keeps_elim | apply keeps_foldl
          | apply keeps_foldl_fst | apply keeps_foldl_fst2 | intro _ | apply keeps_ite | split
          | refine keeps_of_eq (by assumption) ?_

theorem keeps_refuse {x0 : State} {x1 : Sys2Proof.Source} {x2 : Sys2Proof.TchUnit} {x3 : Nat} (h0 : Canonical x0)
    : Canonical (State.refuse x0 x1 x2 x3) := by
  unfold State.refuse; try dsimp only
  repeat'
    with_reducible
      first
      | assumption | apply keeps_sendUnit | apply keeps_elim | apply keeps_foldl | apply keeps_foldl_fst
          | apply keeps_foldl_fst2 | intro _ | apply keeps_ite | split | refine keeps_of_eq (by assumption) ?_

theorem keeps_unqueue {x0 : State} {x1 : Sys2Proof.Source} {x2 : BitVec 16} (h0 : Canonical x0)
    : Canonical (State.unqueue x0 x1 x2) := by
  unfold State.unqueue; try dsimp only
  repeat'
    with_reducible
      first
      | assumption | simp only [canonical_update] | apply keeps_elim | apply keeps_foldl | apply keeps_foldl_fst
          | apply keeps_foldl_fst2 | intro _ | apply keeps_ite | split | refine keeps_of_eq (by assumption) ?_

theorem keeps_receiveUnit {x0 : State} {x1 : Sys2Proof.Source} {x2 : Sys2Proof.TchUnit} {x3 : Bool}
    {x4 : Nat → State → State} (h0 : Canonical x0) (h4_0 : ∀ y0 y1, Canonical y1 → Canonical (x4 y0 y1))
    : Canonical (State.receiveUnit x0 x1 x2 x3 x4) := by
  unfold State.receiveUnit; try dsimp only
  repeat'
    with_reducible
      first
      | assumption | apply h4_0 | apply keeps_unqueue | apply keeps_enter | apply keeps_refuse | apply keeps_elim
          | apply keeps_foldl | apply keeps_foldl_fst | apply keeps_foldl_fst2 | intro _ | apply keeps_ite | split
          | refine keeps_of_eq (by assumption) ?_

theorem keeps_transferUnit {x0 : State} {x1 : Nat} {x2 : Sys2Proof.Source} {x3 : Sys2Proof.TchUnit} {x4 : Bool}
    {x5 : Found → Nat → Transfer → State → State} (h0 : Canonical x0)
    (h5_0 : ∀ y0 y1 y2 y3, Canonical y3 → Canonical (x5 y0 y1 y2 y3))
    : Canonical (State.transferUnit x0 x1 x2 x3 x4 x5) := by
  unfold State.transferUnit; try dsimp only
  repeat'
    with_reducible
      first
      | assumption | apply h5_0 | apply keeps_found | apply keeps_receiveUnit | apply keeps_noTransfer
          | apply keeps_elim | apply keeps_foldl | apply keeps_foldl_fst | apply keeps_foldl_fst2 | intro _
          | apply keeps_ite | split | refine keeps_of_eq (by assumption) ?_

theorem keeps_segmentUnit {x0 : Sys2Proof.Source} {x1 : Sys2Proof.TchUnit} {x2 : State} (h2 : Canonical x2)
    : Canonical (segmentUnit x0 x1 x2) := by
  unfold segmentUnit; try dsimp only
  repeat'
    with_reducible
      first
      | assumption | apply keeps_transferUnit | apply keeps_serveSegment | apply keeps_elim | apply keeps_foldl
          | apply keeps_foldl_fst | apply keeps_foldl_fst2 | intro _ | apply keeps_ite | split
          | refine keeps_of_eq (by assumption) ?_

theorem keeps_answer {x0 : State} {x1 : Nat} {x2 : Sys2Proof.Source} {x3 : Sys2Proof.TchUnit}
    {x4 : Sys2Proof.TchUnit} (h0 : Canonical x0) : Canonical (State.answer x0 x1 x2 x3 x4) := by
  unfold State.answer; try dsimp only
  repeat'
    with_reducible
      first
      | assumption | apply keeps_sendUnit | apply keeps_updSession | apply keeps_elim | apply keeps_foldl
          | apply keeps_foldl_fst | apply keeps_foldl_fst2 | intro _ | apply keeps_ite | split
          | refine keeps_of_eq (by assumption) ?_

theorem keeps_serveObject {x0 : State} {x1 : Found} {x2 : Nat} {x3 : Sys2Proof.Source} {x4 : Sys2Proof.TchUnit}
    (h0 : Canonical x0) : Canonical (State.serveObject x0 x1 x2 x3 x4) := by
  unfold State.serveObject; try dsimp only
  repeat'
    with_reducible
      first
      | assumption | apply keeps_answer | apply keeps_answerThen | apply keeps_applyWrite | apply keeps_elim
          | apply keeps_foldl | apply keeps_foldl_fst | apply keeps_foldl_fst2 | intro _ | apply keeps_ite | split
          | refine keeps_of_eq (by assumption) ?_

theorem keeps_transact {x0 : State} {x1 : Nat} {x2 : Sys2Proof.Source} {x3 : Sys2Proof.TchUnit} {x4 : State → State}
    (h0 : Canonical x0) (h4_0 : ∀ y0, Canonical y0 → Canonical (x4 y0))
    : Canonical (State.transact x0 x1 x2 x3 x4) := by
  unfold State.transact; try dsimp only
  repeat'
    with_reducible
      first
      | assumption | apply h4_0 | apply keeps_sendUnit | apply keeps_refuse | apply keeps_elim | apply keeps_foldl
          | apply keeps_foldl_fst | apply keeps_foldl_fst2 | intro _ | apply keeps_ite | split
          | refine keeps_of_eq (by assumption) ?_

theorem keeps_writeRow {x0 : State} {x1 : Found} {x2 : Sys2Proof.Req} {x3 : Nat} {x4 : Nat} {x5 : Sys2Proof.Bytes}
    (h0 : Canonical x0) : Canonical (State.writeRow x0 x1 x2 x3 x4 x5) := by
  unfold State.writeRow; try dsimp only
  repeat'
    with_reducible
      first
      | assumption | apply keeps_receiveUnit | apply keeps_transact | apply keeps_serveObject | apply keeps_elim
          | apply keeps_foldl | apply keeps_foldl_fst | apply keeps_foldl_fst2 | intro _ | apply keeps_ite | split
          | refine keeps_of_eq (by assumption) ?_

theorem keeps_groupRow {x0 : State} {x1 : Sys2Proof.Req} {x2 : Nat} {x3 : Nat} {x4 : BitVec 8} (h0 : Canonical x0)
    : Canonical (State.groupRow x0 x1 x2 x3 x4) := by
  unfold State.groupRow; try dsimp only
  repeat'
    with_reducible
      first
      | assumption | apply keeps_writeRow | apply keeps_elim | apply keeps_foldl | apply keeps_foldl_fst
          | apply keeps_foldl_fst2 | intro _ | apply keeps_ite | split | refine keeps_of_eq (by assumption) ?_

theorem keeps_request {x0 : State} {x1 : Nat} {x2 : Sys2Proof.Source} {x3 : Sys2Proof.TchUnit}
    {x4 : Found → Nat → State → State} (h0 : Canonical x0)
    (h4_0 : ∀ y0 y1 y2, Canonical y2 → Canonical (x4 y0 y1 y2)) : Canonical (State.request x0 x1 x2 x3 x4) := by
  unfold State.request; try dsimp only
  repeat'
    with_reducible
      first
      | assumption | apply h4_0 | apply keeps_found | apply keeps_receiveUnit | apply keeps_transact
          | apply keeps_elim | apply keeps_foldl | apply keeps_foldl_fst | apply keeps_foldl_fst2 | intro _
          | apply keeps_ite | split | refine keeps_of_eq (by assumption) ?_

theorem keeps_addTransfer {x0 : State} {x1 : Nat} {x2 : Transfer} (h0 : Canonical x0)
    : Canonical (State.addTransfer x0 x1 x2) := by
  unfold State.addTransfer; try dsimp only
  repeat'
    with_reducible
      first
      | assumption | apply keeps_updSession | apply keeps_elim | apply keeps_foldl | apply keeps_foldl_fst
          | apply keeps_foldl_fst2 | intro _ | apply keeps_ite | split | refine keeps_of_eq (by assumption) ?_

theorem keeps_sendSegment {x0 : State} {x1 : Nat} {x2 : Transfer} {x3 : Nat} (h0 : Canonical x0)
    : Canonical (State.sendSegment x0 x1 x2 x3) := by
  unfold State.sendSegment; try dsimp only
  repeat'
    with_reducible
      first
      | assumption | apply keeps_sendUnit | apply keeps_elim | apply keeps_foldl | apply keeps_foldl_fst
          | apply keeps_foldl_fst2 | intro _ | apply keeps_ite | split | refine keeps_of_eq (by assumption) ?_

theorem keeps_pumpRead {x0 : State} {x1 : Nat} {x2 : Nat} {x3 : Nat} (h0 : Canonical x0)
    : Canonical (State.pumpRead x0 x1 x2 x3) := by
  induction x3 generalizing x0 with
  | zero => unfold State.pumpRead; assumption
  | succ _ ih =>
    unfold State.pumpRead; try dsimp only
    repeat'
      with_reducible
        first
        | assumption | apply ih | apply keeps_updTransfer | apply keeps_sendSegment
        | simp only [canonical_update] | apply keeps_foldl | apply keeps_foldl_fst | apply keeps_foldl_fst2 | intro _ | split | refine keeps_of_eq (by assumption) ?_

theorem keeps_newChallenge {x0 : State} (h0 : Canonical x0) : Canonical (State.newChallenge x0).1 := by
  unfold State.newChallenge; try dsimp only
  repeat'
    with_reducible
      first
      | assumption | simp only [canonical_update] | apply keeps_elim | apply keeps_foldl | apply keeps_foldl_fst
          | apply keeps_foldl_fst2 | intro _ | apply keeps_ite | split | refine keeps_of_eq (by assumption) ?_

theorem keeps_readVoltage {x0 : State} {x1 : Nat} {x2 : Nat} {x3 : Nat} (h0 : Canonical x0)
    : Canonical (State.readVoltage x0 x1 x2 x3).1 := by
  unfold State.readVoltage; try dsimp only
  repeat'
    with_reducible
      first
      | assumption | apply keeps_put | simp only [canonical_update] | apply keeps_elim | apply keeps_foldl
          | apply keeps_foldl_fst | apply keeps_foldl_fst2 | intro _ | apply keeps_ite | split
          | refine keeps_of_eq (by assumption) ?_

theorem keeps_readObject {x0 : State} {x1 : Found} {x2 : ObjRow} {x3 : Nat} {x4 : Nat} {x5 : Bool}
    (h0 : Canonical x0) : Canonical (State.readObject x0 x1 x2 x3 x4 x5).1 := by
  unfold State.readObject; try dsimp only
  repeat'
    with_reducible
      first
      | assumption | apply keeps_newChallenge | apply keeps_readVoltage | apply keeps_put
          | simp only [canonical_update] | apply keeps_elim | apply keeps_foldl | apply keeps_foldl_fst
          | apply keeps_foldl_fst2 | intro _ | apply keeps_ite | split | refine keeps_of_eq (by assumption) ?_

theorem keeps_serveReadInit {x0 : State} {x1 : Found} {x2 : Nat} {x3 : Sys2Proof.Source} {x4 : Sys2Proof.TchUnit}
    (h0 : Canonical x0) : Canonical (State.serveReadInit x0 x1 x2 x3 x4) := by
  unfold State.serveReadInit; try dsimp only
  repeat'
    with_reducible
      first
      | assumption | apply keeps_refuse | apply keeps_readObject | apply keeps_sendUnit | apply keeps_pumpRead
          | apply keeps_addTransfer | apply keeps_elim | apply keeps_foldl | apply keeps_foldl_fst
          | apply keeps_foldl_fst2 | intro _ | apply keeps_ite | split | refine keeps_of_eq (by assumption) ?_

theorem keeps_readInitUnit {x0 : Sys2Proof.Source} {x1 : Sys2Proof.TchUnit} {x2 : State} (h2 : Canonical x2)
    : Canonical (readInitUnit x0 x1 x2) := by
  unfold readInitUnit; try dsimp only
  repeat'
    with_reducible
      first
      | assumption | apply keeps_request | apply keeps_serveReadInit | apply keeps_elim | apply keeps_foldl
          | apply keeps_foldl_fst | apply keeps_foldl_fst2 | intro _ | apply keeps_ite | split
          | refine keeps_of_eq (by assumption) ?_

theorem keeps_serveWriteInit {x0 : State} {x1 : Nat} {x2 : Sys2Proof.Source} {x3 : Sys2Proof.TchUnit}
    (h0 : Canonical x0) : Canonical (State.serveWriteInit x0 x1 x2 x3) := by
  unfold State.serveWriteInit; try dsimp only
  repeat'
    with_reducible
      first
      | assumption | apply keeps_refuse | apply keeps_addTransfer | apply keeps_sendUnit | apply keeps_elim
          | apply keeps_foldl | apply keeps_foldl_fst | apply keeps_foldl_fst2 | intro _ | apply keeps_ite | split
          | refine keeps_of_eq (by assumption) ?_

theorem keeps_ackEvent {x0 : State} {x1 : Sys2Proof.Source} {x2 : Nat} (h0 : Canonical x0)
    : Canonical (State.ackEvent x0 x1 x2) := by
  unfold State.ackEvent; try dsimp only
  repeat'
    with_reducible
      first
      | assumption | simp only [canonical_update] | apply keeps_elim | apply keeps_foldl | apply keeps_foldl_fst
          | apply keeps_foldl_fst2 | intro _ | apply keeps_ite | split | refine keeps_of_eq (by assumption) ?_

theorem keeps_eventAckUnit {x0 : Sys2Proof.Source} {x1 : Sys2Proof.TchUnit} {x2 : State} (h2 : Canonical x2)
    : Canonical (eventAckUnit x0 x1 x2) := by
  unfold eventAckUnit; try dsimp only
  repeat'
    with_reducible
      first
      | assumption | apply keeps_receiveUnit | apply keeps_ackEvent | apply keeps_elim | apply keeps_foldl
          | apply keeps_foldl_fst | apply keeps_foldl_fst2 | intro _ | apply keeps_ite | split
          | refine keeps_of_eq (by assumption) ?_

theorem keeps_serveWrite {x0 : State} {x1 : Found} {x2 : Nat} {x3 : Sys2Proof.Source} {x4 : Sys2Proof.TchUnit}
    (h0 : Canonical x0) : Canonical (State.serveWrite x0 x1 x2 x3 x4) := by
  unfold State.serveWrite; try dsimp only
  repeat'
    with_reducible
      first
      | assumption | apply keeps_answer | apply keeps_answerThen | apply keeps_applyWrite | apply keeps_elim
          | apply keeps_foldl | apply keeps_foldl_fst | apply keeps_foldl_fst2 | intro _ | apply keeps_ite | split
          | refine keeps_of_eq (by assumption) ?_

theorem keeps_writeUnit {x0 : Sys2Proof.Source} {x1 : Sys2Proof.TchUnit} {x2 : State} (h2 : Canonical x2)
    : Canonical (writeUnit x0 x1 x2) := by
  unfold writeUnit; try dsimp only
  repeat'
    with_reducible
      first
      | assumption | apply keeps_request | apply keeps_serveWrite | apply keeps_elim | apply keeps_foldl
          | apply keeps_foldl_fst | apply keeps_foldl_fst2 | intro _ | apply keeps_ite | split
          | refine keeps_of_eq (by assumption) ?_

theorem keeps_manualRow {x0 : State} {x1 : Sys2Proof.Req} {x2 : Nat} {x3 : Nat} (h0 : Canonical x0)
    : Canonical (State.manualRow x0 x1 x2 x3) := by
  unfold State.manualRow; try dsimp only
  repeat'
    with_reducible
      first
      | assumption | apply keeps_writeRow | apply keeps_elim | apply keeps_foldl | apply keeps_foldl_fst
          | apply keeps_foldl_fst2 | intro _ | apply keeps_ite | split | refine keeps_of_eq (by assumption) ?_

theorem keeps_writeInitUnit {x0 : Sys2Proof.Source} {x1 : Sys2Proof.TchUnit} {x2 : State} (h2 : Canonical x2)
    : Canonical (writeInitUnit x0 x1 x2) := by
  unfold writeInitUnit; try dsimp only
  repeat'
    with_reducible
      first
      | assumption | apply keeps_request | apply keeps_serveWriteInit | apply keeps_elim | apply keeps_foldl
          | apply keeps_foldl_fst | apply keeps_foldl_fst2 | intro _ | apply keeps_ite | split
          | refine keeps_of_eq (by assumption) ?_

theorem keeps_abortUnit {x0 : Sys2Proof.Source} {x1 : Sys2Proof.TchUnit} {x2 : State} (h2 : Canonical x2)
    : Canonical (abortUnit x0 x1 x2) := by
  unfold abortUnit; try dsimp only
  repeat'
    with_reducible
      first
      | assumption | apply keeps_receiveUnit | apply keeps_dropTransfer | apply keeps_elim | apply keeps_foldl
          | apply keeps_foldl_fst | apply keeps_foldl_fst2 | intro _ | apply keeps_ite | split
          | refine keeps_of_eq (by assumption) ?_

theorem keeps_lockIdleTimeout {x0 : State} (h0 : Canonical x0) : Canonical (lockIdleTimeout x0) := by
  unfold lockIdleTimeout; try dsimp only
  repeat'
    with_reducible
      first
      | assumption | apply keeps_put | simp only [canonical_update] | apply keeps_elim | apply keeps_foldl
          | apply keeps_foldl_fst | apply keeps_foldl_fst2 | intro _ | apply keeps_ite | split
          | refine keeps_of_eq (by assumption) ?_

theorem keeps_serveRead {x0 : State} {x1 : Found} {x2 : Nat} {x3 : Sys2Proof.Source} {x4 : Sys2Proof.TchUnit}
    (h0 : Canonical x0) : Canonical (State.serveRead x0 x1 x2 x3 x4) := by
  unfold State.serveRead; try dsimp only
  repeat'
    with_reducible
      first
      | assumption | apply keeps_answer | apply keeps_readObject | apply keeps_elim | apply keeps_foldl
          | apply keeps_foldl_fst | apply keeps_foldl_fst2 | intro _ | apply keeps_ite | split
          | refine keeps_of_eq (by assumption) ?_

theorem keeps_readRow {x0 : State} {x1 : Found} {x2 : Sys2Proof.Req} {x3 : Nat} {x4 : Nat} {x5 : Nat}
    (h0 : Canonical x0) : Canonical (State.readRow x0 x1 x2 x3 x4 x5) := by
  unfold State.readRow; try dsimp only
  repeat'
    with_reducible
      first
      | assumption | apply keeps_receiveUnit | apply keeps_transact | apply keeps_serveRead
          | apply keeps_serveReadInit | apply keeps_elim | apply keeps_foldl | apply keeps_foldl_fst
          | apply keeps_foldl_fst2 | intro _ | apply keeps_ite | split | refine keeps_of_eq (by assumption) ?_

theorem keeps_segAck {x0 : State} {x1 : Nat} {x2 : Sys2Proof.TchUnit} (h0 : Canonical x0)
    : Canonical (State.segAck x0 x1 x2) := by
  unfold State.segAck; try dsimp only
  repeat'
    with_reducible
      first
      | assumption | apply keeps_dropTransfer | apply keeps_pumpRead | apply keeps_updTransfer | apply keeps_elim
          | apply keeps_foldl | apply keeps_foldl_fst | apply keeps_foldl_fst2 | intro _ | apply keeps_ite | split
          | refine keeps_of_eq (by assumption) ?_

theorem keeps_segAckUnit {x0 : Sys2Proof.Source} {x1 : Sys2Proof.TchUnit} {x2 : State} (h2 : Canonical x2)
    : Canonical (segAckUnit x0 x1 x2) := by
  unfold segAckUnit; try dsimp only
  repeat'
    with_reducible
      first
      | assumption | apply keeps_transferUnit | apply keeps_segAck | apply keeps_elim | apply keeps_foldl
          | apply keeps_foldl_fst | apply keeps_foldl_fst2 | intro _ | apply keeps_ite | split
          | refine keeps_of_eq (by assumption) ?_

theorem keeps_readUnit {x0 : Sys2Proof.Source} {x1 : Sys2Proof.TchUnit} {x2 : State} (h2 : Canonical x2)
    : Canonical (readUnit x0 x1 x2) := by
  unfold readUnit; try dsimp only
  repeat'
    with_reducible
      first
      | assumption | apply keeps_request | apply keeps_serveRead | apply keeps_elim | apply keeps_foldl
          | apply keeps_foldl_fst | apply keeps_foldl_fst2 | intro _ | apply keeps_ite | split
          | refine keeps_of_eq (by assumption) ?_

theorem keeps_monitorWindowStart {x0 : Nat} {x1 : State} (h1 : Canonical x1)
    : Canonical (monitorWindowStart x0 x1) := by
  unfold monitorWindowStart; try dsimp only
  repeat'
    with_reducible
      first
      | assumption | apply keeps_setMonitor | simp only [canonical_update] | apply keeps_elim | apply keeps_foldl
          | apply keeps_foldl_fst | apply keeps_foldl_fst2 | intro _ | apply keeps_ite | split
          | refine keeps_of_eq (by assumption) ?_

theorem keeps_monitorEvent {x0 : Nat} {x1 : Int} {x2 : Nat} {x3 : State} (h3 : Canonical x3)
    : Canonical (monitorEvent x0 x1 x2 x3) := by
  unfold monitorEvent; try dsimp only
  repeat'
    with_reducible
      first
      | assumption | apply keeps_monTake | apply keeps_setMonitor | apply keeps_elim | apply keeps_foldl
          | apply keeps_foldl_fst | apply keeps_foldl_fst2 | intro _ | apply keeps_ite | split
          | refine keeps_of_eq (by assumption) ?_

theorem keeps_snapshotInstantExpiry {x0 : State} (h0 : Canonical x0) : Canonical (snapshotInstantExpiry x0) := by
  unfold snapshotInstantExpiry; try dsimp only
  repeat'
    with_reducible
      first
      | assumption | apply keeps_snapshotAll | simp only [canonical_update] | apply keeps_elim | apply keeps_foldl
          | apply keeps_foldl_fst | apply keeps_foldl_fst2 | intro _ | apply keeps_ite | split
          | refine keeps_of_eq (by assumption) ?_

theorem keeps_monitorWindowEnd {x0 : Nat} {x1 : State} (h1 : Canonical x1) : Canonical (monitorWindowEnd x0 x1) := by
  unfold monitorWindowEnd; try dsimp only
  repeat'
    with_reducible
      first
      | assumption | apply keeps_rollWindow | simp only [canonical_update] | apply keeps_elim | apply keeps_foldl
          | apply keeps_foldl_fst | apply keeps_foldl_fst2 | intro _ | apply keeps_ite | split
          | refine keeps_of_eq (by assumption) ?_

theorem keeps_laneFail {x0 : Nat} {x1 : Nat} {x2 : State} (h2 : Canonical x2) : Canonical (laneFail x0 x1 x2) := by
  unfold laneFail; try dsimp only
  repeat'
    with_reducible
      first
      | assumption | apply keeps_put | apply keeps_fault | apply keeps_countRare | apply keeps_trainIn
          | apply keeps_elim | apply keeps_foldl | apply keeps_foldl_fst | apply keeps_foldl_fst2 | intro _
          | apply keeps_ite | split | refine keeps_of_eq (by assumption) ?_

theorem keeps_resumePort {x0 : State} {x1 : Nat} (h0 : Canonical x0) : Canonical (State.resumePort x0 x1) := by
  unfold State.resumePort; try dsimp only
  repeat'
    with_reducible
      first
      | assumption | apply keeps_transmit | apply keeps_updPort | apply keeps_elim | apply keeps_foldl
          | apply keeps_foldl_fst | apply keeps_foldl_fst2 | intro _ | apply keeps_ite | split
          | refine keeps_of_eq (by assumption) ?_

theorem keeps_heedFlow {x0 : State} {x1 : Nat} {x2 : Sys2Proof.FlowFrame} (h0 : Canonical x0)
    : Canonical (State.heedFlow x0 x1 x2) := by
  unfold State.heedFlow; try dsimp only
  repeat'
    with_reducible
      first
      | assumption | apply keeps_resumePort | apply keeps_updPort | apply keeps_elim | apply keeps_foldl
          | apply keeps_foldl_fst | apply keeps_foldl_fst2 | intro _ | apply keeps_ite | split
          | refine keeps_of_eq (by assumption) ?_

theorem keeps_pauseReceive {x0 : Nat} {x1 : Sys2Proof.FlowFrame} {x2 : State} (h2 : Canonical x2)
    : Canonical (pauseReceive x0 x1 x2) := by
  unfold pauseReceive; try dsimp only
  repeat'
    with_reducible
      first
      | assumption | apply keeps_bump | apply keeps_heedFlow | apply keeps_elim | apply keeps_foldl
          | apply keeps_foldl_fst | apply keeps_foldl_fst2 | intro _ | apply keeps_ite | split
          | refine keeps_of_eq (by assumption) ?_

theorem keeps_sendXoff {x0 : State} {x1 : Nat} (h0 : Canonical x0) : Canonical (State.sendXoff x0 x1) := by
  unfold State.sendXoff; try dsimp only
  repeat'
    with_reducible
      first
      | assumption | apply keeps_bump | apply keeps_emit | apply keeps_updPort | apply keeps_elim | apply keeps_foldl
          | apply keeps_foldl_fst | apply keeps_foldl_fst2 | intro _ | apply keeps_ite | split
          | refine keeps_of_eq (by assumption) ?_

theorem keeps_bufferFrame {x0 : State} {x1 : Nat} {x2 : Nat} {x3 : Option Sys2Proof.Arrival} (h0 : Canonical x0)
    : Canonical (State.bufferFrame x0 x1 x2 x3) := by
  unfold State.bufferFrame; try dsimp only
  repeat'
    with_reducible
      first
      | assumption | apply keeps_updPort | apply keeps_sendXoff | apply keeps_put | apply keeps_elim
          | apply keeps_foldl | apply keeps_foldl_fst | apply keeps_foldl_fst2 | intro _ | apply keeps_ite | split
          | refine keeps_of_eq (by assumption) ?_

theorem keeps_dropPacket {x0 : State} {x1 : Nat} (h0 : Canonical x0) : Canonical (State.dropPacket x0 x1) := by
  unfold State.dropPacket; try dsimp only
  repeat'
    with_reducible
      first
      | assumption | apply keeps_bump | apply keeps_elim | apply keeps_foldl | apply keeps_foldl_fst
          | apply keeps_foldl_fst2 | intro _ | apply keeps_ite | split | refine keeps_of_eq (by assumption) ?_

theorem keeps_unbufferFrame {x0 : State} {x1 : Nat} {x2 : Nat} (h0 : Canonical x0)
    : Canonical (State.unbufferFrame x0 x1 x2) := by
  unfold State.unbufferFrame; try dsimp only
  repeat'
    with_reducible
      first
      | assumption | apply keeps_sendXon | apply keeps_updPort | apply keeps_elim | apply keeps_foldl
          | apply keeps_foldl_fst | apply keeps_foldl_fst2 | intro _ | apply keeps_ite | split
          | refine keeps_of_eq (by assumption) ?_

theorem keeps_takeIn {x0 : State} {x1 : Nat} {x2 : Nat} {x3 : Sys2Proof.FrameKind} (h0 : Canonical x0)
    : Canonical (State.takeIn x0 x1 x2 x3) := by
  unfold State.takeIn; try dsimp only
  repeat'
    with_reducible
      first
      | assumption | apply keeps_unbufferFrame | apply keeps_bufferFrame | apply keeps_bump | apply keeps_dropPacket
          | apply keeps_heedFlow | apply keeps_elim | apply keeps_foldl | apply keeps_foldl_fst
          | apply keeps_foldl_fst2 | intro _ | apply keeps_ite | split | refine keeps_of_eq (by assumption) ?_

theorem keeps_frameReceive {x0 : Nat} {x1 : Sys2Proof.Frame} {x2 : State} (h2 : Canonical x2)
    : Canonical (frameReceive x0 x1 x2) := by
  unfold frameReceive; try dsimp only
  repeat'
    with_reducible
      first
      | assumption | apply keeps_bump | apply keeps_count | apply keeps_takeIn | apply keeps_elim | apply keeps_foldl
          | apply keeps_foldl_fst | apply keeps_foldl_fst2 | intro _ | apply keeps_ite | split
          | refine keeps_of_eq (by assumption) ?_

theorem keeps_xoffRefresh {x0 : Nat} {x1 : State} (h1 : Canonical x1) : Canonical (xoffRefresh x0 x1) := by
  unfold xoffRefresh; try dsimp only
  repeat'
    with_reducible
      first
      | assumption | apply keeps_bump | apply keeps_emit | apply keeps_sendXon | apply keeps_elim | apply keeps_foldl
          | apply keeps_foldl_fst | apply keeps_foldl_fst2 | intro _ | apply keeps_ite | split
          | refine keeps_of_eq (by assumption) ?_

theorem keeps_wearAlarms {x0 : State} {x1 : Nat} {x2 : Wear} {x3 : Nat} (h0 : Canonical x0)
    : Canonical (State.wearAlarms x0 x1 x2 x3) := by
  unfold State.wearAlarms; try dsimp only
  repeat'
    with_reducible
      first
      | assumption | apply keeps_change | apply keeps_wearAlarm | apply keeps_elim | apply keeps_foldl
          | apply keeps_foldl_fst | apply keeps_foldl_fst2 | intro _ | apply keeps_ite | split
          | refine keeps_of_eq (by assumption) ?_

theorem keeps_pollWear {x0 : State} {x1 : Nat} {x2 : Sys2Proof.Cmis} (h0 : Canonical x0)
    : Canonical (State.pollWear x0 x1 x2) := by
  unfold State.pollWear; try dsimp only
  repeat'
    with_reducible
      first
      | assumption | apply keeps_updWear | apply keeps_put | apply keeps_wearAlarms | apply keeps_elim
          | apply keeps_foldl | apply keeps_foldl_fst | apply keeps_foldl_fst2 | intro _ | apply keeps_ite | split
          | refine keeps_of_eq (by assumption) ?_

theorem keeps_hostRoleMove {x0 : State} (h0 : Canonical x0) : Canonical (hostRoleMove x0) := by
  unfold hostRoleMove; try dsimp only
  repeat'
    with_reducible
      first
      | assumption | apply keeps_leaveUp | apply keeps_trainPort | apply keeps_updPort | apply keeps_dropPort
          | simp only [canonical_update] | apply keeps_elim | apply keeps_foldl | apply keeps_foldl_fst
          | apply keeps_foldl_fst2 | intro _ | apply keeps_ite | split | refine keeps_of_eq (by assumption) ?_

theorem keeps_keepWear {x0 : State} {x1 : Nat} {x2 : Sys2Proof.Bytes} (h0 : Canonical x0)
    : Canonical (State.keepWear x0 x1 x2) := by
  unfold State.keepWear; try dsimp only
  repeat'
    with_reducible
      first
      | assumption | simp only [canonical_update] | apply keeps_elim | apply keeps_foldl | apply keeps_foldl_fst
          | apply keeps_foldl_fst2 | intro _ | apply keeps_ite | split | refine keeps_of_eq (by assumption) ?_

theorem keeps_updXcvr {x0 : State} {x1 : Nat} {x2 : Xcvr → Xcvr} (h0 : Canonical x0)
    : Canonical (State.updXcvr x0 x1 x2) := by
  unfold State.updXcvr; try dsimp only
  repeat'
    with_reducible
      first
      | assumption | simp only [canonical_update] | apply keeps_elim | apply keeps_foldl | apply keeps_foldl_fst
          | apply keeps_foldl_fst2 | intro _ | apply keeps_ite | split | refine keeps_of_eq (by assumption) ?_
          | (simp only [canonical_all]; refine ⟨?_, ?_, ?_, ?_, ?_, ?_, ?_, ?_, ?_, ?_, ?_, ?_, ?_, ?_, ?_, ?_, ?_, ?_, ?_, ?_, ?_, ?_, ?_, ?_, ?_, ?_, ?_⟩)
          | apply rising_map | apply wf_copyInto | apply wf_fold | apply Tab.copyInto_wf | apply rising_fold
          | exact rising_nil | exact wf_nil | exact mem_nil | apply wf_copyRange | apply Tab.copyRange_wf
          | apply wf_clearRange | apply Tab.set_rising | apply Tab.upd_rising | apply Tab.filter_rising
          | apply Tab.set_wf | apply Tab.clearRange_wf | apply Canonical.mem | apply Canonical.poison
          | apply Canonical.sync | apply Canonical.obj | apply Canonical.maq | apply Canonical.cores
          | apply Canonical.objLog | apply Canonical.refusalEvent | apply Canonical.streams | apply Canonical.jobs
          | apply Canonical.sessions | apply Canonical.leftOut | apply Canonical.survivors | apply Canonical.rowLog
          | apply Canonical.conns | apply Canonical.ports | apply Canonical.hubs | apply Canonical.hubResets
          | apply Canonical.txns | apply Canonical.links | apply Canonical.arrived | apply Canonical.channels
          | apply Canonical.tiles | apply Canonical.xcvrs | apply Canonical.monitors | apply Canonical.requests
          | apply Canonical.remoteOverruns

theorem keeps_newXcvr {x0 : State} {x1 : Nat} {x2 : Sys2Proof.Cmis} (h0 : Canonical x0)
    : Canonical (State.newXcvr x0 x1 x2) := by
  unfold State.newXcvr; try dsimp only
  repeat'
    with_reducible
      first
      | assumption | apply keeps_updXcvr | apply keeps_put | apply keeps_change | apply keeps_setXcvrState
          | apply keeps_keepWear | apply keeps_dropLanes | apply keeps_elim | apply keeps_foldl
          | apply keeps_foldl_fst | apply keeps_foldl_fst2 | intro _ | apply keeps_ite | split
          | refine keeps_of_eq (by assumption) ?_

theorem keeps_xcvrPoll {x0 : Nat} {x1 : Sys2Proof.Cmis} {x2 : State} (h2 : Canonical x2)
    : Canonical (xcvrPoll x0 x1 x2) := by
  unfold xcvrPoll; try dsimp only
  repeat'
    with_reducible
      first
      | assumption | apply keeps_updXcvr | apply keeps_setXcvrState | apply keeps_newXcvr | apply keeps_put
          | apply keeps_pollWear | apply keeps_elim | apply keeps_foldl | apply keeps_foldl_fst
          | apply keeps_foldl_fst2 | intro _ | apply keeps_ite | split | refine keeps_of_eq (by assumption) ?_

theorem keeps_xcvrPresentEdge {x0 : Nat} {x1 : Bool} {x2 : State} (h2 : Canonical x2)
    : Canonical (xcvrPresentEdge x0 x1 x2) := by
  unfold xcvrPresentEdge; try dsimp only
  repeat'
    with_reducible
      first
      | assumption | apply keeps_updXcvr | apply keeps_put | apply keeps_change | apply keeps_elim
          | apply keeps_foldl | apply keeps_foldl_fst | apply keeps_foldl_fst2 | intro _ | apply keeps_ite | split
          | refine keeps_of_eq (by assumption) ?_

theorem keeps_portDownTimeout {x0 : Nat} {x1 : State} (h1 : Canonical x1) : Canonical (portDownTimeout x0 x1) := by
  unfold portDownTimeout; try dsimp only
  repeat'
    with_reducible
      first
      | assumption | apply keeps_watch | apply keeps_change | simp only [canonical_update] | apply keeps_elim
          | apply keeps_foldl | apply keeps_foldl_fst | apply keeps_foldl_fst2 | intro _ | apply keeps_ite | split
          | refine keeps_of_eq (by assumption) ?_

theorem keeps_pauseExpiry {x0 : Nat} {x1 : State} (h1 : Canonical x1) : Canonical (pauseExpiry x0 x1) := by
  unfold pauseExpiry; try dsimp only
  repeat'
    with_reducible
      first
      | assumption | apply keeps_resumePort | apply keeps_updPort | simp only [canonical_update] | apply keeps_elim
          | apply keeps_foldl | apply keeps_foldl_fst | apply keeps_foldl_fst2 | intro _ | apply keeps_ite | split
          | refine keeps_of_eq (by assumption) ?_

theorem keeps_ringStationReset {x0 : Nat} {x1 : Nat} {x2 : State} (h2 : Canonical x2)
    : Canonical (ringStationReset x0 x1 x2) := by
  unfold ringStationReset; try dsimp only
  repeat'
    with_reducible
      first
      | assumption | apply keeps_fault | apply keeps_countRare | apply keeps_leaveUp | apply keeps_updPort
          | apply keeps_trainPort | apply keeps_elim | apply keeps_foldl | apply keeps_foldl_fst
          | apply keeps_foldl_fst2 | intro _ | apply keeps_ite | split | refine keeps_of_eq (by assumption) ?_

theorem keeps_trip {x0 : State} {x1 : Nat} {x2 : Nat} {x3 : Int} (h0 : Canonical x0)
    : Canonical (State.trip x0 x1 x2 x3) := by
  unfold State.trip; try dsimp only
  repeat'
    with_reducible
      first
      | assumption | apply keeps_fault | apply keeps_pumpChanges | apply keeps_fenceTile | apply keeps_elim
          | apply keeps_foldl | apply keeps_foldl_fst | apply keeps_foldl_fst2 | intro _ | apply keeps_ite | split
          | refine keeps_of_eq (by assumption) ?_

theorem keeps_markTile {x0 : State} {x1 : Nat} (h0 : Canonical x0) : Canonical (State.markTile x0 x1) := by
  unfold State.markTile; try dsimp only
  repeat'
    with_reducible
      first
      | assumption | apply keeps_updCore | apply keeps_elim | apply keeps_foldl | apply keeps_foldl_fst
          | apply keeps_foldl_fst2 | intro _ | apply keeps_ite | split | refine keeps_of_eq (by assumption) ?_

theorem keeps_undervoltage {x0 : Nat} {x1 : State} (h1 : Canonical x1) : Canonical (undervoltage x0 x1) := by
  unfold undervoltage; try dsimp only
  repeat'
    with_reducible
      first
      | assumption | apply keeps_markTile | apply keeps_bump | apply keeps_elim | apply keeps_foldl
          | apply keeps_foldl_fst | apply keeps_foldl_fst2 | intro _ | apply keeps_ite | split
          | refine keeps_of_eq (by assumption) ?_

theorem keeps_setGrants {x0 : State} {x1 : Sys2Proof.PowerSample} (h0 : Canonical x0)
    : Canonical (State.setGrants x0 x1) := by
  unfold State.setGrants; try dsimp only
  repeat'
    with_reducible
      first
      | assumption | apply keeps_put | simp only [canonical_update] | apply keeps_elim | apply keeps_foldl
          | apply keeps_foldl_fst | apply keeps_foldl_fst2 | intro _ | apply keeps_ite | split
          | refine keeps_of_eq (by assumption) ?_

theorem keeps_lowerStageCap {x0 : State} (h0 : Canonical x0) : Canonical (State.lowerStageCap x0) := by
  unfold State.lowerStageCap; try dsimp only
  repeat'
    with_reducible
      first
      | assumption | simp only [canonical_update] | apply keeps_elim | apply keeps_foldl | apply keeps_foldl_fst
          | apply keeps_foldl_fst2 | intro _ | apply keeps_ite | split | refine keeps_of_eq (by assumption) ?_

theorem keeps_replicaWarn {x0 : State} {x1 : Nat} {x2 : Nat} (h0 : Canonical x0)
    : Canonical (State.replicaWarn x0 x1 x2) := by
  unfold State.replicaWarn; try dsimp only
  repeat'
    with_reducible
      first
      | assumption | apply keeps_bump | apply keeps_fault | apply keeps_updTile | apply keeps_showHealth
          | apply keeps_markTile | apply keeps_elim | apply keeps_foldl | apply keeps_foldl_fst
          | apply keeps_foldl_fst2 | intro _ | apply keeps_ite | split | refine keeps_of_eq (by assumption) ?_

theorem keeps_replicaWindow {x0 : Nat} {x1 : Nat} {x2 : Nat} {x3 : State} (h3 : Canonical x3)
    : Canonical (replicaWindow x0 x1 x2 x3) := by
  unfold replicaWindow; try dsimp only
  repeat'
    with_reducible
      first
      | assumption | apply keeps_updTile | apply keeps_put | apply keeps_replicaWarn | apply keeps_pumpChanges
          | apply keeps_fenceTile | apply keeps_elim | apply keeps_foldl | apply keeps_foldl_fst
          | apply keeps_foldl_fst2 | intro _ | apply keeps_ite | split | refine keeps_of_eq (by assumption) ?_

theorem keeps_thermalPeriod {x0 : State} {x1 : Nat} (h0 : Canonical x0) : Canonical (State.thermalPeriod x0 x1) := by
  unfold State.thermalPeriod; try dsimp only
  repeat'
    with_reducible
      first
      | assumption | apply keeps_put | apply keeps_updTile | apply keeps_elim | apply keeps_foldl
          | apply keeps_foldl_fst | apply keeps_foldl_fst2 | intro _ | apply keeps_ite | split
          | refine keeps_of_eq (by assumption) ?_

theorem keeps_tileStepChange {x0 : Nat} {x1 : State} (h1 : Canonical x1) : Canonical (tileStepChange x0 x1) := by
  unfold tileStepChange; try dsimp only
  repeat'
    with_reducible
      first
      | assumption | apply keeps_bump | apply keeps_put | simp only [canonical_update] | apply keeps_elim
          | apply keeps_foldl | apply keeps_foldl_fst | apply keeps_foldl_fst2 | intro _ | apply keeps_ite | split
          | refine keeps_of_eq (by assumption) ?_

theorem keeps_raiseTrim {x0 : State} {x1 : Nat} (h0 : Canonical x0) : Canonical (State.raiseTrim x0 x1) := by
  unfold State.raiseTrim; try dsimp only
  repeat'
    with_reducible
      first
      | assumption | apply keeps_showPatina | apply keeps_appendRepair | apply keeps_put | apply keeps_elim
          | apply keeps_foldl | apply keeps_foldl_fst | apply keeps_foldl_fst2 | intro _ | apply keeps_ite | split
          | refine keeps_of_eq (by assumption) ?_

theorem keeps_patinaMeasure {x0 : Nat} {x1 : Nat} {x2 : State} (h2 : Canonical x2)
    : Canonical (patinaMeasure x0 x1 x2) := by
  unfold patinaMeasure; try dsimp only
  repeat'
    with_reducible
      first
      | assumption | apply keeps_updTile | apply keeps_raiseTrim | apply keeps_elim | apply keeps_foldl
          | apply keeps_foldl_fst | apply keeps_foldl_fst2 | intro _ | apply keeps_ite | split
          | refine keeps_of_eq (by assumption) ?_

theorem keeps_stepDecision {x0 : State} (h0 : Canonical x0) : Canonical (stepDecision x0) := by
  unfold stepDecision; try dsimp only
  repeat'
    with_reducible
      first
      | assumption | apply keeps_put | apply keeps_elim | apply keeps_foldl | apply keeps_foldl_fst
          | apply keeps_foldl_fst2 | intro _ | apply keeps_ite | split | refine keeps_of_eq (by assumption) ?_

theorem keeps_refresh {x0 : State} {x1 : Nat} {x2 : Nat} {x3 : Option Int} (h0 : Canonical x0)
    : Canonical (State.refresh x0 x1 x2 x3) := by
  unfold State.refresh; try dsimp only
  repeat'
    with_reducible
      first
      | assumption | apply keeps_setLayerField | apply keeps_elim | apply keeps_foldl | apply keeps_foldl_fst
          | apply keeps_foldl_fst2 | intro _ | apply keeps_ite | split | refine keeps_of_eq (by assumption) ?_

theorem keeps_judgePeriod {x0 : State} {x1 : Nat} (h0 : Canonical x0) : Canonical (State.judgePeriod x0 x1) := by
  unfold State.judgePeriod; try dsimp only
  repeat'
    with_reducible
      first
      | assumption | apply keeps_change | apply keeps_countRare | apply keeps_put | simp only [canonical_update]
          | apply keeps_elim | apply keeps_foldl | apply keeps_foldl_fst | apply keeps_foldl_fst2 | intro _
          | apply keeps_ite | split | refine keeps_of_eq (by assumption) ?_

theorem keeps_publish {x0 : State} {x1 : Sys2Proof.PowerSample} (h0 : Canonical x0)
    : Canonical (State.publish x0 x1) := by
  unfold State.publish; try dsimp only
  repeat'
    with_reducible
      first
      | assumption | apply keeps_put | apply keeps_count | simp only [canonical_update] | apply keeps_elim
          | apply keeps_foldl | apply keeps_foldl_fst | apply keeps_foldl_fst2 | intro _ | apply keeps_ite | split
          | refine keeps_of_eq (by assumption) ?_

theorem keeps_showLimits {x0 : State} (h0 : Canonical x0) : Canonical (State.showLimits x0) := by
  unfold State.showLimits; try dsimp only
  repeat'
    with_reducible
      first
      | assumption | apply keeps_change | apply keeps_elim | apply keeps_foldl | apply keeps_foldl_fst
          | apply keeps_foldl_fst2 | intro _ | apply keeps_ite | split | refine keeps_of_eq (by assumption) ?_

theorem keeps_powerPeriod {x0 : Sys2Proof.PowerSample} {x1 : State} (h1 : Canonical x1)
    : Canonical (powerPeriod x0 x1) := by
  unfold powerPeriod; try dsimp only
  repeat'
    with_reducible
      first
      | assumption | apply keeps_publish | apply keeps_thermalPeriod | apply keeps_showLimits
          | apply keeps_lowerStageCap | apply keeps_judgePeriod | apply keeps_setGrants
          | simp only [canonical_update] | apply keeps_elim | apply keeps_foldl | apply keeps_foldl_fst
          | apply keeps_foldl_fst2 | intro _ | apply keeps_ite | split | refine keeps_of_eq (by assumption) ?_

theorem keeps_stageFault {x0 : Sys2Proof.Stage} {x1 : State} (h1 : Canonical x1) : Canonical (stageFault x0 x1) := by
  unfold stageFault; try dsimp only
  repeat'
    with_reducible
      first
      | assumption | apply keeps_fault | apply keeps_updTile | apply keeps_pumpChanges | apply keeps_loseField
          | apply keeps_showLimits | simp only [canonical_update] | apply keeps_elim | apply keeps_foldl
          | apply keeps_foldl_fst | apply keeps_foldl_fst2 | intro _ | apply keeps_ite | split
          | refine keeps_of_eq (by assumption) ?_

theorem keeps_stopInput {x0 : State} (h0 : Canonical x0) : Canonical (State.stopInput x0) := by
  unfold State.stopInput; try dsimp only
  repeat'
    with_reducible
      first
      | assumption | apply keeps_dropLinks | apply keeps_stopJob | simp only [canonical_update] | apply keeps_elim
          | apply keeps_foldl | apply keeps_foldl_fst | apply keeps_foldl_fst2 | intro _ | apply keeps_ite | split
          | refine keeps_of_eq (by assumption) ?_
          | (simp only [canonical_all]; refine ⟨?_, ?_, ?_, ?_, ?_, ?_, ?_, ?_, ?_, ?_, ?_, ?_, ?_, ?_, ?_, ?_, ?_, ?_, ?_, ?_, ?_, ?_, ?_, ?_, ?_, ?_, ?_⟩)
          | apply rising_map | apply wf_copyInto | apply wf_fold | apply Tab.copyInto_wf | apply rising_fold
          | exact rising_nil | exact wf_nil | exact mem_nil | apply wf_copyRange | apply Tab.copyRange_wf
          | apply wf_clearRange | apply Tab.set_rising | apply Tab.upd_rising | apply Tab.filter_rising
          | apply Tab.set_wf | apply Tab.clearRange_wf | apply Canonical.mem | apply Canonical.poison
          | apply Canonical.sync | apply Canonical.obj | apply Canonical.maq | apply Canonical.cores
          | apply Canonical.objLog | apply Canonical.refusalEvent | apply Canonical.streams | apply Canonical.jobs
          | apply Canonical.sessions | apply Canonical.leftOut | apply Canonical.survivors | apply Canonical.rowLog
          | apply Canonical.conns | apply Canonical.ports | apply Canonical.hubs | apply Canonical.hubResets
          | apply Canonical.txns | apply Canonical.links | apply Canonical.arrived | apply Canonical.channels
          | apply Canonical.tiles | apply Canonical.xcvrs | apply Canonical.monitors | apply Canonical.requests
          | apply Canonical.remoteOverruns

theorem keeps_vinHigh {x0 : Nat} {x1 : State} (h1 : Canonical x1) : Canonical (vinHigh x0 x1) := by
  unfold vinHigh; try dsimp only
  repeat'
    with_reducible
      first
      | assumption | apply keeps_stopInput | simp only [canonical_update] | apply keeps_elim | apply keeps_foldl
          | apply keeps_foldl_fst | apply keeps_foldl_fst2 | intro _ | apply keeps_ite | split
          | refine keeps_of_eq (by assumption) ?_

theorem keeps_thermalStepWindow {x0 : Nat} {x1 : State} (h1 : Canonical x1)
    : Canonical (thermalStepWindow x0 x1) := by
  unfold thermalStepWindow; try dsimp only
  repeat'
    with_reducible
      first
      | assumption | apply keeps_updTile | apply keeps_change | apply keeps_elim | apply keeps_foldl
          | apply keeps_foldl_fst | apply keeps_foldl_fst2 | intro _ | apply keeps_ite | split
          | refine keeps_of_eq (by assumption) ?_

theorem keeps_thermalReading {x0 : Nat} {x1 : List Int} {x2 : List Int} {x3 : State} (h3 : Canonical x3)
    : Canonical (thermalReading x0 x1 x2 x3) := by
  unfold thermalReading; try dsimp only
  repeat'
    with_reducible
      first
      | assumption | apply keeps_refresh | apply keeps_updTile | apply keeps_put | apply keeps_trip
          | apply keeps_elim | apply keeps_foldl | apply keeps_foldl_fst | apply keeps_foldl_fst2 | intro _
          | apply keeps_ite | split | refine keeps_of_eq (by assumption) ?_

theorem keeps_vinRestored {x0 : Nat} {x1 : State} (h1 : Canonical x1) : Canonical (vinRestored x0 x1) := by
  unfold vinRestored; try dsimp only
  repeat'
    with_reducible
      first
      | assumption | apply keeps_showLimits | simp only [canonical_update] | apply keeps_elim | apply keeps_foldl
          | apply keeps_foldl_fst | apply keeps_foldl_fst2 | intro _ | apply keeps_ite | split
          | refine keeps_of_eq (by assumption) ?_

theorem keeps_vinLow {x0 : Nat} {x1 : State} (h1 : Canonical x1) : Canonical (vinLow x0 x1) := by
  unfold vinLow; try dsimp only
  repeat'
    with_reducible
      first
      | assumption | apply keeps_stopInput | apply keeps_showLimits | simp only [canonical_update] | apply keeps_elim
          | apply keeps_foldl | apply keeps_foldl_fst | apply keeps_foldl_fst2 | intro _ | apply keeps_ite | split
          | refine keeps_of_eq (by assumption) ?_

end Sys2Proof.Machine
end

