-- ==== Sys2Proof/Laws/Keeps8.lean ====
section
/-! SUPPORT.  What keeps the canonical form, part 8: one lemma per shared operation, from
idleEntry to mcastTimeout (of a pair: its state). -/
namespace Sys2Proof.Machine
open Sys2Proof

theorem keeps_idleEntry {x0 : State} (h0 : Canonical x0) : Canonical (idleEntry x0) := by
  unfold idleEntry; try dsimp only
  repeat'
    with_reducible
      first
      | assumption | apply keeps_setPowerState | apply keeps_elim | apply keeps_foldl | apply keeps_foldl_fst
          | apply keeps_foldl_fst2 | intro _ | apply keeps_ite | split | refine keeps_of_eq (by assumption) ?_

theorem keeps_lowerWoken {x0 : State} {x1 : Nat} (h0 : Canonical x0) : Canonical (State.lowerWoken x0 x1) := by
  unfold State.lowerWoken; try dsimp only
  repeat'
    with_reducible
      first
      | assumption | apply keeps_lowerGroups | apply keeps_elim | apply keeps_foldl | apply keeps_foldl_fst
          | apply keeps_foldl_fst2 | intro _ | apply keeps_ite | split | refine keeps_of_eq (by assumption) ?_

theorem keeps_headerAck {x0 : State} {x1 : Nat} {x2 : Sys2Proof.CtpPacket} (h0 : Canonical x0)
    : Canonical (State.headerAck x0 x1 x2) := by
  unfold State.headerAck; try dsimp only
  repeat'
    with_reducible
      first
      | assumption | apply keeps_ackReceived | apply keeps_resendAll | apply keeps_updConn | apply keeps_elim
          | apply keeps_foldl | apply keeps_foldl_fst | apply keeps_foldl_fst2 | intro _ | apply keeps_ite | split
          | refine keeps_of_eq (by assumption) ?_

theorem keeps_adoptItems {x0 : State} {x1 : Nat} {x2 : Nat} (h0 : Canonical x0)
    : Canonical (State.adoptItems x0 x1 x2) := by
  unfold State.adoptItems; try dsimp only
  repeat'
    with_reducible
      first
      | assumption | simp only [canonical_update] | apply keeps_elim | apply keeps_foldl | apply keeps_foldl_fst
          | apply keeps_foldl_fst2 | intro _ | apply keeps_ite | split | refine keeps_of_eq (by assumption) ?_

theorem keeps_answerOffer {x0 : State} {x1 : Nat} {x2 : Nat} {x3 : Nat} {x4 : Sys2Proof.Bytes} (h0 : Canonical x0)
    : Canonical (State.answerOffer x0 x1 x2 x3 x4) := by
  unfold State.answerOffer; try dsimp only
  repeat'
    with_reducible
      first
      | assumption | apply keeps_transmit | apply keeps_elim | apply keeps_foldl | apply keeps_foldl_fst
          | apply keeps_foldl_fst2 | intro _ | apply keeps_ite | split | refine keeps_of_eq (by assumption) ?_

theorem keeps_takeFrame {x0 : State} {x1 : Nat} (h0 : Canonical x0) : Canonical (State.takeFrame x0 x1) := by
  unfold State.takeFrame; try dsimp only
  repeat'
    with_reducible
      first
      | assumption | apply keeps_serveProbes | apply keeps_sendXon | apply keeps_updPort | apply keeps_elim
          | apply keeps_foldl | apply keeps_foldl_fst | apply keeps_foldl_fst2 | intro _ | apply keeps_ite | split
          | refine keeps_of_eq (by assumption) ?_

theorem keeps_serving {x0 : State} {x1 : Nat} {x2 : Nat} {x3 : Sys2Proof.Arrival → State → State} (h0 : Canonical x0)
    (h3_0 : ∀ y0 y1, Canonical y1 → Canonical (x3 y0 y1)) : Canonical (State.serving x0 x1 x2 x3) := by
  unfold State.serving; try dsimp only
  repeat'
    with_reducible
      first
      | assumption | apply h3_0 | apply keeps_takeFrame | apply keeps_elim | apply keeps_foldl
          | apply keeps_foldl_fst | apply keeps_foldl_fst2 | intro _ | apply keeps_ite | split
          | refine keeps_of_eq (by assumption) ?_

theorem keeps_receiveHello {x0 : Nat} {x1 : State} (h1 : Canonical x1) : Canonical (receiveHello x0 x1) := by
  unfold receiveHello; try dsimp only
  repeat'
    with_reducible
      first
      | assumption | apply keeps_serving | apply keeps_dropPacket | apply keeps_answerOffer | apply keeps_drawCredit
          | apply keeps_setConn | apply keeps_updConn | apply keeps_adoptItems | simp only [canonical_update]
          | apply keeps_elim | apply keeps_foldl | apply keeps_foldl_fst | apply keeps_foldl_fst2 | intro _
          | apply keeps_ite | split | refine keeps_of_eq (by assumption) ?_

theorem keeps_takeSacks {x0 : State} {x1 : Nat} {x2 : List (Nat × Nat)} (h0 : Canonical x0)
    : Canonical (State.takeSacks x0 x1 x2) := by
  unfold State.takeSacks; try dsimp only
  repeat'
    with_reducible
      first
      | assumption | apply keeps_setConn | apply keeps_resend | apply keeps_elim | apply keeps_foldl
          | apply keeps_foldl_fst | apply keeps_foldl_fst2 | intro _ | apply keeps_ite | split
          | refine keeps_of_eq (by assumption) ?_

theorem keeps_receiveMessage {x0 : State} {x1 : Nat} {x2 : Nat} {x3 : Conn} {x4 : Sys2Proof.CtpPacket}
    {x5 : List Sys2Proof.Upset} (h0 : Canonical x0) : Canonical (State.receiveMessage x0 x1 x2 x3 x4 x5) := by
  unfold State.receiveMessage; try dsimp only
  repeat'
    with_reducible
      first
      | assumption | apply keeps_sendAck | apply keeps_actHeld | apply keeps_updConn | apply keeps_closeIfIdle
          | apply keeps_ackBack | apply keeps_headerAck | apply keeps_elim | apply keeps_foldl
          | apply keeps_foldl_fst | apply keeps_foldl_fst2 | intro _ | apply keeps_ite | split
          | refine keeps_of_eq (by assumption) ?_

theorem keeps_ringRetry {x0 : State} {x1 : List Place} (h0 : Canonical x0) : Canonical (State.ringRetry x0 x1) := by
  unfold State.ringRetry; try dsimp only
  repeat'
    with_reducible
      first
      | assumption | apply keeps_countRetry | apply keeps_elim | apply keeps_foldl | apply keeps_foldl_fst
          | apply keeps_foldl_fst2 | intro _ | apply keeps_ite | split | refine keeps_of_eq (by assumption) ?_

theorem keeps_creditProbe {x0 : Nat} {x1 : State} (h1 : Canonical x1) : Canonical (creditProbe x0 x1) := by
  unfold creditProbe; try dsimp only
  repeat'
    with_reducible
      first
      | assumption | apply keeps_sendAck | apply keeps_setConn | simp only [canonical_update] | apply keeps_elim
          | apply keeps_foldl | apply keeps_foldl_fst | apply keeps_foldl_fst2 | intro _ | apply keeps_ite | split
          | refine keeps_of_eq (by assumption) ?_

theorem keeps_receiveClose {x0 : Nat} {x1 : State} (h1 : Canonical x1) : Canonical (receiveClose x0 x1) := by
  unfold receiveClose; try dsimp only
  repeat'
    with_reducible
      first
      | assumption | apply keeps_serving | apply keeps_dropPacket | apply keeps_dropConn | apply keeps_closeIfIdle
          | apply keeps_updConn | apply keeps_headerAck | apply keeps_elim | apply keeps_foldl
          | apply keeps_foldl_fst | apply keeps_foldl_fst2 | intro _ | apply keeps_ite | split
          | refine keeps_of_eq (by assumption) ?_

theorem keeps_repeatPacket {x0 : State} {x1 : Nat} {x2 : Nat} {x3 : Nat} {x4 : Conn → Sys2Proof.Bytes}
    (h0 : Canonical x0) : Canonical (State.repeatPacket x0 x1 x2 x3 x4) := by
  unfold State.repeatPacket; try dsimp only
  repeat'
    with_reducible
      first
      | assumption | apply keeps_dropConn | apply keeps_sendPacket | apply keeps_setConn
          | simp only [canonical_update] | apply keeps_elim | apply keeps_foldl | apply keeps_foldl_fst
          | apply keeps_foldl_fst2 | intro _ | apply keeps_ite | split | refine keeps_of_eq (by assumption) ?_

theorem keeps_ctpRtoExpiry {x0 : Nat} {x1 : State} (h1 : Canonical x1) : Canonical (ctpRtoExpiry x0 x1) := by
  unfold ctpRtoExpiry; try dsimp only
  repeat'
    with_reducible
      first
      | assumption | apply keeps_dropConn | apply keeps_resend | apply keeps_setConn | simp only [canonical_update]
          | apply keeps_elim | apply keeps_foldl | apply keeps_foldl_fst | apply keeps_foldl_fst2 | intro _
          | apply keeps_ite | split | refine keeps_of_eq (by assumption) ?_

theorem keeps_receiveHelloAck {x0 : Nat} {x1 : State} (h1 : Canonical x1) : Canonical (receiveHelloAck x0 x1) := by
  unfold receiveHelloAck; try dsimp only
  repeat'
    with_reducible
      first
      | assumption | apply keeps_serving | apply keeps_dropPacket | apply keeps_dropConn | apply keeps_pump
          | apply keeps_setConn | apply keeps_elim | apply keeps_foldl | apply keeps_foldl_fst
          | apply keeps_foldl_fst2 | intro _ | apply keeps_ite | split | refine keeps_of_eq (by assumption) ?_

theorem keeps_signalCycle {x0 : State} {x1 : Nat} {x2 : List Nat} (h0 : Canonical x0)
    : Canonical (State.signalCycle x0 x1 x2).1 := by
  unfold State.signalCycle; try dsimp only
  repeat'
    with_reducible
      first
      | assumption | apply keeps_takeSignals | apply keeps_evalWaits | apply keeps_elim | apply keeps_foldl
          | apply keeps_foldl_fst | apply keeps_foldl_fst2 | intro _ | apply keeps_ite | split
          | refine keeps_of_eq (by assumption) ?_

theorem keeps_signalArrival {x0 : Nat} {x1 : Nat} {x2 : State} (h2 : Canonical x2)
    : Canonical (signalArrival x0 x1 x2) := by
  unfold signalArrival; try dsimp only
  repeat'
    with_reducible
      first
      | assumption | apply keeps_signalCycle | apply keeps_signalResult | apply keeps_elim | apply keeps_foldl
          | apply keeps_foldl_fst | apply keeps_foldl_fst2 | intro _ | apply keeps_ite | split
          | refine keeps_of_eq (by assumption) ?_

theorem keeps_receive {x0 : Nat} {x1 : Nat} {x2 : List Sys2Proof.Upset} {x3 : State} (h3 : Canonical x3)
    : Canonical (receive x0 x1 x2 x3) := by
  unfold receive; try dsimp only
  repeat'
    with_reducible
      first
      | assumption | apply keeps_dropPacket | apply keeps_takeFrame | apply keeps_ringRetry
          | apply keeps_receiveMessage | apply keeps_elim | apply keeps_foldl | apply keeps_foldl_fst
          | apply keeps_foldl_fst2 | intro _ | apply keeps_ite | split | refine keeps_of_eq (by assumption) ?_

theorem keeps_ctpAckTimer {x0 : Nat} {x1 : State} (h1 : Canonical x1) : Canonical (ctpAckTimer x0 x1) := by
  unfold ctpAckTimer; try dsimp only
  repeat'
    with_reducible
      first
      | assumption | apply keeps_sendAck | apply keeps_elim | apply keeps_foldl | apply keeps_foldl_fst
          | apply keeps_foldl_fst2 | intro _ | apply keeps_ite | split | refine keeps_of_eq (by assumption) ?_

theorem keeps_receiveAck {x0 : Nat} {x1 : State} (h1 : Canonical x1) : Canonical (receiveAck x0 x1) := by
  unfold receiveAck; try dsimp only
  repeat'
    with_reducible
      first
      | assumption | apply keeps_serving | apply keeps_dropPacket | apply keeps_closeIfIdle | apply keeps_ackBack
          | apply keeps_takeSacks | apply keeps_headerAck | apply keeps_elim | apply keeps_foldl
          | apply keeps_foldl_fst | apply keeps_foldl_fst2 | intro _ | apply keeps_ite | split
          | refine keeps_of_eq (by assumption) ?_

theorem keeps_logReplay {x0 : State} {x1 : Nat} {x2 : Nat} {x3 : List Run} {x4 : Nat} (h0 : Canonical x0)
    : Canonical (State.logReplay x0 x1 x2 x3 x4) := by
  unfold State.logReplay; try dsimp only
  repeat'
    with_reducible
      first
      | assumption | apply keeps_fault | apply keeps_elim | apply keeps_foldl | apply keeps_foldl_fst
          | apply keeps_foldl_fst2 | intro _ | apply keeps_ite | split | refine keeps_of_eq (by assumption) ?_

theorem keeps_undoStep {x0 : State} {x1 : Nat} (h0 : Canonical x0) : Canonical (State.undoStep x0 x1) := by
  unfold State.undoStep; try dsimp only
  repeat'
    with_reducible
      first
      | assumption | apply keeps_restorePage | apply keeps_updCore | apply keeps_elim | apply keeps_foldl
          | apply keeps_foldl_fst | apply keeps_foldl_fst2 | intro _ | apply keeps_ite | split
          | refine keeps_of_eq (by assumption) ?_

theorem keeps_noMajority {x0 : State} {x1 : Nat} {x2 : List Run} (h0 : Canonical x0)
    : Canonical (State.noMajority x0 x1 x2) := by
  unfold State.noMajority; try dsimp only
  repeat'
    with_reducible
      first
      | assumption | apply keeps_logReplay | apply keeps_bump | apply keeps_undoStep | apply keeps_coreError
          | apply keeps_elim | apply keeps_foldl | apply keeps_foldl_fst | apply keeps_foldl_fst2 | intro _
          | apply keeps_ite | split | refine keeps_of_eq (by assumption) ?_

theorem keeps_commitMirror {x0 : State} {x1 : Nat} {x2 : Nat} {x3 : ResumePoint} (h0 : Canonical x0)
    : Canonical (State.commitMirror x0 x1 x2 x3) := by
  unfold State.commitMirror; try dsimp only
  repeat'
    with_reducible
      first
      | assumption | apply keeps_change | apply keeps_copyPages | apply keeps_putPlain | apply keeps_saveObjects
          | apply keeps_elim | apply keeps_foldl | apply keeps_foldl_fst | apply keeps_foldl_fst2 | intro _
          | apply keeps_ite | split | refine keeps_of_eq (by assumption) ?_

theorem keeps_foldLogs {x0 : State} {x1 : List Nat} {x2 : Nat} (h0 : Canonical x0)
    : Canonical (State.foldLogs x0 x1 x2) := by
  unfold State.foldLogs; try dsimp only
  repeat'
    with_reducible
      first
      | assumption | apply keeps_updJob | simp only [canonical_update] | apply keeps_elim | apply keeps_foldl
          | apply keeps_foldl_fst | apply keeps_foldl_fst2 | intro _ | apply keeps_ite | split
          | refine keeps_of_eq (by assumption) ?_
          | (simp only [canonical_all]; refine ⟨?_, ?_, ?_, ?_, ?_, ?_, ?_, ?_, ?_, ?_, ?_, ?_, ?_, ?_, ?_, ?_, ?_, ?_, ?_, ?_, ?_, ?_, ?_, ?_, ?_, ?_, ?_⟩)
          | apply rising_map | apply wf_copyInto | apply wf_fold | apply Tab.copyInto_wf | apply rising_fold
          | exact rising_nil | exact wf_nil | exact mem_nil | apply wf_copyRange | apply Tab.copyRange_wf
          | apply wf_clearRange | apply Tab.set_rising | apply Tab.upd_rising | apply Tab.filter_rising
          | apply Tab.set_wf | apply Tab.clearRange_wf | apply Canonical.mem | apply Canonical.poison
          | apply Canonical.sync | apply Canonical.obj | apply Canonical.maq | apply Canonical.cores
          | apply Canonical.objLog | apply Canonical.refusalEvent | apply Canonical.streams | apply Canonical.jobs
          | apply Canonical.sessions | apply Canonical.leftOut | apply Canonical.survivors | apply Canonical.rowLog
          | apply Canonical.conns | apply Canonical.ports | apply Canonical.hubs | apply Canonical.hubResets
          | apply Canonical.txns | apply Canonical.links | apply Canonical.arrived | apply Canonical.channels
          | apply Canonical.tiles | apply Canonical.xcvrs | apply Canonical.monitors | apply Canonical.requests
          | apply Canonical.remoteOverruns

theorem keeps_commitStep {x0 : State} {x1 : Nat} (h0 : Canonical x0) : Canonical (State.commitStep x0 x1) := by
  unfold State.commitStep; try dsimp only
  repeat'
    with_reducible
      first
      | assumption | apply keeps_commitMirror | apply keeps_updCore | apply keeps_foldLogs | apply keeps_put
          | apply keeps_bump | apply keeps_setCoreState | apply keeps_elim | apply keeps_foldl
          | apply keeps_foldl_fst | apply keeps_foldl_fst2 | intro _ | apply keeps_ite | split
          | refine keeps_of_eq (by assumption) ?_

theorem keeps_finishCommit {x0 : State} {x1 : Nat} (h0 : Canonical x0) : Canonical (State.finishCommit x0 x1) := by
  unfold State.finishCommit; try dsimp only
  repeat'
    with_reducible
      first
      | assumption | apply keeps_seqDone | apply keeps_commitStep | apply keeps_elim | apply keeps_foldl
          | apply keeps_foldl_fst | apply keeps_foldl_fst2 | intro _ | apply keeps_ite | split
          | refine keeps_of_eq (by assumption) ?_

theorem keeps_countRun {x0 : State} {x1 : Nat} {x2 : Run} {x3 : Nat} (h0 : Canonical x0)
    : Canonical (State.countRun x0 x1 x2 x3) := by
  unfold State.countRun; try dsimp only
  repeat'
    with_reducible
      first
      | assumption | apply keeps_bump | apply keeps_bumpIf | apply keeps_elim | apply keeps_foldl
          | apply keeps_foldl_fst | apply keeps_foldl_fst2 | intro _ | apply keeps_ite | split
          | refine keeps_of_eq (by assumption) ?_

theorem keeps_startRun {x0 : State} {x1 : Replay} {x2 : Nat} {x3 : Option Nat} (h0 : Canonical x0)
    : Canonical (State.startRun x0 x1 x2 x3) := by
  unfold State.startRun; try dsimp only
  repeat'
    with_reducible
      first
      | assumption | apply keeps_copyPages | simp only [canonical_update] | apply keeps_elim | apply keeps_foldl
          | apply keeps_foldl_fst | apply keeps_foldl_fst2 | intro _ | apply keeps_ite | split
          | refine keeps_of_eq (by assumption) ?_

theorem keeps_assignRuns {x0 : State} (h0 : Canonical x0) : Canonical (State.assignRuns x0) := by
  unfold State.assignRuns; try dsimp only
  repeat'
    with_reducible
      first
      | assumption | apply keeps_startRun | apply keeps_elim | apply keeps_foldl | apply keeps_foldl_fst
          | apply keeps_foldl_fst2 | intro _ | apply keeps_ite | split | refine keeps_of_eq (by assumption) ?_

theorem keeps_falseAlarm {x0 : State} {x1 : Nat} {x2 : List Run} (h0 : Canonical x0)
    : Canonical (State.falseAlarm x0 x1 x2) := by
  unfold State.falseAlarm; try dsimp only
  repeat'
    with_reducible
      first
      | assumption | apply keeps_bump | apply keeps_logReplay | apply keeps_updTile | apply keeps_elim
          | apply keeps_foldl | apply keeps_foldl_fst | apply keeps_foldl_fst2 | intro _ | apply keeps_ite | split
          | refine keeps_of_eq (by assumption) ?_

theorem keeps_strike {x0 : State} {x1 : Nat} (h0 : Canonical x0) : Canonical (State.strike x0 x1) := by
  unfold State.strike; try dsimp only
  repeat'
    with_reducible
      first
      | assumption | apply keeps_updTile | apply keeps_change | apply keeps_elim | apply keeps_foldl
          | apply keeps_foldl_fst | apply keeps_foldl_fst2 | intro _ | apply keeps_ite | split
          | refine keeps_of_eq (by assumption) ?_

theorem keeps_strikeOut {x0 : State} {x1 : Nat} {x2 : Nat} (h0 : Canonical x0)
    : Canonical (State.strikeOut x0 x1 x2) := by
  unfold State.strikeOut; try dsimp only
  repeat'
    with_reducible
      first
      | assumption | apply keeps_pumpChanges | apply keeps_fenceTile | apply keeps_elim | apply keeps_foldl
          | apply keeps_foldl_fst | apply keeps_foldl_fst2 | intro _ | apply keeps_ite | split
          | refine keeps_of_eq (by assumption) ?_

theorem keeps_commitOriginal {x0 : State} {x1 : Nat} {x2 : List Run} {x3 : Option Nat} (h0 : Canonical x0)
    : Canonical (State.commitOriginal x0 x1 x2 x3) := by
  unfold State.commitOriginal; try dsimp only
  repeat'
    with_reducible
      first
      | assumption | apply keeps_falseAlarm | apply keeps_finishCommit | apply keeps_strike | apply keeps_logReplay
          | apply keeps_strikeOut | apply keeps_elim | apply keeps_foldl | apply keeps_foldl_fst
          | apply keeps_foldl_fst2 | intro _ | apply keeps_ite | split | refine keeps_of_eq (by assumption) ?_

theorem keeps_putPage {x0 : State} {x1 : Nat} {x2 : Sys2Proof.Bytes × Nat} (h0 : Canonical x0)
    : Canonical (State.putPage x0 x1 x2) := by
  unfold State.putPage; try dsimp only
  repeat'
    with_reducible
      first
      | assumption | apply keeps_countWritten | apply keeps_storeAt | apply keeps_setPoison | apply keeps_elim
          | apply keeps_foldl | apply keeps_foldl_fst | apply keeps_foldl_fst2 | intro _ | apply keeps_ite | split
          | refine keeps_of_eq (by assumption) ?_

theorem keeps_rewritePages {x0 : State} {x1 : Nat} {x2 : Sys2Proof.ReplayResult} {x3 : Sys2Proof.ReplayResult}
    (h0 : Canonical x0) : Canonical (State.rewritePages x0 x1 x2 x3) := by
  unfold State.rewritePages; try dsimp only
  repeat'
    with_reducible
      first
      | assumption | apply keeps_putPage | apply keeps_elim | apply keeps_foldl | apply keeps_foldl_fst
          | apply keeps_foldl_fst2 | intro _ | apply keeps_ite | split | refine keeps_of_eq (by assumption) ?_

theorem keeps_commitReplay {x0 : State} {x1 : Nat} {x2 : Sys2Proof.ReplayResult} {x3 : Sys2Proof.ReplayResult}
    {x4 : List Run} (h0 : Canonical x0) : Canonical (State.commitReplay x0 x1 x2 x3 x4) := by
  unfold State.commitReplay; try dsimp only
  repeat'
    with_reducible
      first
      | assumption | apply keeps_updCore | apply keeps_rewritePages | apply keeps_strike | apply keeps_logReplay
          | apply keeps_finishCommit | apply keeps_egressByCommand | apply keeps_strikeOut | apply keeps_elim
          | apply keeps_foldl | apply keeps_foldl_fst | apply keeps_foldl_fst2 | intro _ | apply keeps_ite | split
          | refine keeps_of_eq (by assumption) ?_

theorem keeps_vote {x0 : State} {x1 : Nat} {x2 : Sys2Proof.ReplayResult} {x3 : List Run} (h0 : Canonical x0)
    : Canonical (State.vote x0 x1 x2 x3) := by
  unfold State.vote; try dsimp only
  repeat'
    with_reducible
      first
      | assumption | apply keeps_noMajority | apply keeps_commitOriginal | apply keeps_commitReplay
          | simp only [canonical_update] | apply keeps_elim | apply keeps_foldl | apply keeps_foldl_fst
          | apply keeps_foldl_fst2 | intro _ | apply keeps_ite | split | refine keeps_of_eq (by assumption) ?_

theorem keeps_replayRunDone {x0 : Nat} {x1 : Option Sys2Proof.ReplayResult} {x2 : State} (h2 : Canonical x2)
    : Canonical (replayRunDone x0 x1 x2) := by
  unfold replayRunDone; try dsimp only
  repeat'
    with_reducible
      first
      | assumption | apply keeps_assignRuns | apply keeps_countRun | apply keeps_freeRun | apply keeps_vote
          | apply keeps_elim | apply keeps_foldl | apply keeps_foldl_fst | apply keeps_foldl_fst2 | intro _
          | apply keeps_ite | split | refine keeps_of_eq (by assumption) ?_

theorem keeps_runDone {x0 : State} {x1 : Nat} {x2 : Nat} {x3 : Active} {x4 : ArithFlags} (h0 : Canonical x0)
    : Canonical (State.runDone x0 x1 x2 x3 x4) := by
  unfold State.runDone; try dsimp only
  repeat'
    with_reducible
      first
      | assumption | apply keeps_putActive | apply keeps_elim | apply keeps_foldl | apply keeps_foldl_fst
          | apply keeps_foldl_fst2 | intro _ | apply keeps_ite | split | refine keeps_of_eq (by assumption) ?_

theorem keeps_takeOriginal {x0 : State} {x1 : State} {x2 : Nat} {x3 : List (Nat × Nat)} (h0 : Canonical x0)
    (h1 : Canonical x1) : Canonical (State.takeOriginal x0 x1 x2 x3) := by
  unfold State.takeOriginal; try dsimp only
  repeat'
    with_reducible
      first
      | assumption | apply keeps_putPiece | apply keeps_elim | apply keeps_foldl | apply keeps_foldl_fst
          | apply keeps_foldl_fst2 | intro _ | apply keeps_ite | split | refine keeps_of_eq (by assumption) ?_

theorem keeps_seqEnd {x0 : Nat} {x1 : State} (h1 : Canonical x1) : Canonical (seqEnd x0 x1) := by
  unfold seqEnd; try dsimp only
  repeat'
    with_reducible
      first
      | assumption | apply keeps_withSeq | apply keeps_seqFail | apply keeps_finishItem | apply keeps_seqDone
          | apply keeps_setCoreState | apply keeps_updCore | apply keeps_elim | apply keeps_foldl
          | apply keeps_foldl_fst | apply keeps_foldl_fst2 | intro _ | apply keeps_ite | split
          | refine keeps_of_eq (by assumption) ?_

theorem keeps_seqHint {x0 : Nat} {x1 : State} (h1 : Canonical x1) : Canonical (seqHint x0 x1) := by
  unfold seqHint; try dsimp only
  repeat'
    with_reducible
      first
      | assumption | apply keeps_withSeq | apply keeps_seqDone | apply keeps_updCore | apply keeps_elim
          | apply keeps_foldl | apply keeps_foldl_fst | apply keeps_foldl_fst2 | intro _ | apply keeps_ite | split
          | refine keeps_of_eq (by assumption) ?_

theorem keeps_seqLoop {x0 : Nat} {x1 : State} (h1 : Canonical x1) : Canonical (seqLoop x0 x1) := by
  unfold seqLoop; try dsimp only
  repeat'
    with_reducible
      first
      | assumption | apply keeps_withSeq | apply keeps_seqFail | apply keeps_seqDone | apply keeps_updCore
          | apply keeps_elim | apply keeps_foldl | apply keeps_foldl_fst | apply keeps_foldl_fst2 | intro _
          | apply keeps_ite | split | refine keeps_of_eq (by assumption) ?_

theorem keeps_seqNop {x0 : Nat} {x1 : Nat} {x2 : State} (h2 : Canonical x2) : Canonical (seqNop x0 x1 x2) := by
  unfold seqNop; try dsimp only
  repeat'
    with_reducible
      first
      | assumption | apply keeps_withSeq | apply keeps_seqDone | apply keeps_elim | apply keeps_foldl
          | apply keeps_foldl_fst | apply keeps_foldl_fst2 | intro _ | apply keeps_ite | split
          | refine keeps_of_eq (by assumption) ?_

theorem keeps_stepBegin {x0 : Nat} {x1 : State} (h1 : Canonical x1) : Canonical (stepBegin x0 x1) := by
  unfold stepBegin; try dsimp only
  repeat'
    with_reducible
      first
      | assumption | apply keeps_withSeq | apply keeps_seqFail | apply keeps_seqDone | apply keeps_useKey
          | apply keeps_updCore | apply keeps_elim | apply keeps_foldl | apply keeps_foldl_fst
          | apply keeps_foldl_fst2 | intro _ | apply keeps_ite | split | refine keeps_of_eq (by assumption) ?_

theorem keeps_spdm {x0 : State} {x1 : Sys2Proof.Source} {x2 : Nat} {x3 : Sys2Proof.Bytes} (h0 : Canonical x0)
    : Canonical (State.spdm x0 x1 x2 x3) := by
  unfold State.spdm; try dsimp only
  repeat'
    with_reducible
      first
      | assumption | apply keeps_emit | apply keeps_elim | apply keeps_foldl | apply keeps_foldl_fst
          | apply keeps_foldl_fst2 | intro _ | apply keeps_ite | split | refine keeps_of_eq (by assumption) ?_

theorem keeps_spdmError {x0 : State} {x1 : Sys2Proof.Source} {x2 : Nat} (h0 : Canonical x0)
    : Canonical (State.spdmError x0 x1 x2) := by
  unfold State.spdmError; try dsimp only
  repeat'
    with_reducible
      first
      | assumption | apply keeps_spdm | apply keeps_elim | apply keeps_foldl | apply keeps_foldl_fst
          | apply keeps_foldl_fst2 | intro _ | apply keeps_ite | split | refine keeps_of_eq (by assumption) ?_

theorem keeps_spdmRequest {x0 : State} {x1 : Sys2Proof.Source} {x2 : Sys2Proof.Spdm} {x3 : State → State}
    (h0 : Canonical x0) (h3_0 : ∀ y0, Canonical y0 → Canonical (x3 y0))
    : Canonical (State.spdmRequest x0 x1 x2 x3) := by
  unfold State.spdmRequest; try dsimp only
  repeat'
    with_reducible
      first
      | assumption | apply h3_0 | apply keeps_spdmError | apply keeps_elim | apply keeps_foldl
          | apply keeps_foldl_fst | apply keeps_foldl_fst2 | intro _ | apply keeps_ite | split
          | refine keeps_of_eq (by assumption) ?_

theorem keeps_inSession {x0 : State} {x1 : Sys2Proof.Source} {x2 : Sys2Proof.Spdm} {x3 : Session → State → State}
    (h0 : Canonical x0) (h3_0 : ∀ y0 y1, Canonical y1 → Canonical (x3 y0 y1))
    : Canonical (State.inSession x0 x1 x2 x3) := by
  unfold State.inSession; try dsimp only
  repeat'
    with_reducible
      first
      | assumption | apply h3_0 | apply keeps_spdmRequest | apply keeps_elim | apply keeps_foldl
          | apply keeps_foldl_fst | apply keeps_foldl_fst2 | intro _ | apply keeps_ite | split
          | refine keeps_of_eq (by assumption) ?_

theorem keeps_spdmHeartbeatTimeout {x0 : Nat} {x1 : State} (h1 : Canonical x1)
    : Canonical (spdmHeartbeatTimeout x0 x1) := by
  unfold spdmHeartbeatTimeout; try dsimp only
  repeat'
    with_reducible
      first
      | assumption | apply keeps_closeSession | simp only [canonical_update] | apply keeps_elim | apply keeps_foldl
          | apply keeps_foldl_fst | apply keeps_foldl_fst2 | intro _ | apply keeps_ite | split
          | refine keeps_of_eq (by assumption) ?_

theorem keeps_ownBytes {x0 : State} {x1 : Nat} (h0 : Canonical x0) : Canonical (State.ownBytes x0 x1).1 := by
  unfold State.ownBytes; try dsimp only
  repeat'
    with_reducible
      first
      | assumption | simp only [canonical_update] | apply keeps_elim | apply keeps_foldl | apply keeps_foldl_fst
          | apply keeps_foldl_fst2 | intro _ | apply keeps_ite | split | refine keeps_of_eq (by assumption) ?_

theorem keeps_spdmSlot0 {x0 : State} {x1 : Sys2Proof.Source} {x2 : Sys2Proof.Spdm} {x3 : State → State}
    (h0 : Canonical x0) (h3_0 : ∀ y0, Canonical y0 → Canonical (x3 y0))
    : Canonical (State.spdmSlot0 x0 x1 x2 x3) := by
  unfold State.spdmSlot0; try dsimp only
  repeat'
    with_reducible
      first
      | assumption | apply h3_0 | apply keeps_spdmRequest | apply keeps_spdmError | apply keeps_elim
          | apply keeps_foldl | apply keeps_foldl_fst | apply keeps_foldl_fst2 | intro _ | apply keeps_ite | split
          | refine keeps_of_eq (by assumption) ?_

theorem keeps_challenge {x0 : Sys2Proof.Source} {x1 : Sys2Proof.Spdm} {x2 : State} (h2 : Canonical x2)
    : Canonical (challenge x0 x1 x2) := by
  unfold challenge; try dsimp only
  repeat'
    with_reducible
      first
      | assumption | apply keeps_spdmSlot0 | apply keeps_ownBytes | apply keeps_spdm | apply keeps_elim
          | apply keeps_foldl | apply keeps_foldl_fst | apply keeps_foldl_fst2 | intro _ | apply keeps_ite | split
          | refine keeps_of_eq (by assumption) ?_

theorem keeps_finish {x0 : Sys2Proof.Source} {x1 : Sys2Proof.Spdm} {x2 : State} (h2 : Canonical x2)
    : Canonical (finish x0 x1 x2) := by
  unfold finish; try dsimp only
  repeat'
    with_reducible
      first
      | assumption | apply keeps_spdmError | apply keeps_closeSession | apply keeps_spdm | apply keeps_updSession
          | apply keeps_elim | apply keeps_foldl | apply keeps_foldl_fst | apply keeps_foldl_fst2 | intro _
          | apply keeps_ite | split | refine keeps_of_eq (by assumption) ?_

theorem keeps_getVersion {x0 : Sys2Proof.Source} {x1 : Sys2Proof.Spdm} {x2 : State} (h2 : Canonical x2)
    : Canonical (getVersion x0 x1 x2) := by
  unfold getVersion; try dsimp only
  repeat'
    with_reducible
      first
      | assumption | apply keeps_spdmError | apply keeps_spdm | apply keeps_elim | apply keeps_foldl
          | apply keeps_foldl_fst | apply keeps_foldl_fst2 | intro _ | apply keeps_ite | split
          | refine keeps_of_eq (by assumption) ?_

theorem keeps_negotiateAlgorithms {x0 : Sys2Proof.Source} {x1 : Sys2Proof.Spdm} {x2 : State} (h2 : Canonical x2)
    : Canonical (negotiateAlgorithms x0 x1 x2) := by
  unfold negotiateAlgorithms; try dsimp only
  repeat'
    with_reducible
      first
      | assumption | apply keeps_spdmRequest | apply keeps_spdm | apply keeps_elim | apply keeps_foldl
          | apply keeps_foldl_fst | apply keeps_foldl_fst2 | intro _ | apply keeps_ite | split
          | refine keeps_of_eq (by assumption) ?_

theorem keeps_debugPortAttach {x0 : State} (h0 : Canonical x0) : Canonical (debugPortAttach x0) := by
  unfold debugPortAttach; try dsimp only
  repeat'
    with_reducible
      first
      | assumption | apply keeps_change | apply keeps_elim | apply keeps_foldl | apply keeps_foldl_fst
          | apply keeps_foldl_fst2 | intro _ | apply keeps_ite | split | refine keeps_of_eq (by assumption) ?_

theorem keeps_getCapabilities {x0 : Sys2Proof.Source} {x1 : Sys2Proof.Spdm} {x2 : State} (h2 : Canonical x2)
    : Canonical (getCapabilities x0 x1 x2) := by
  unfold getCapabilities; try dsimp only
  repeat'
    with_reducible
      first
      | assumption | apply keeps_spdmRequest | apply keeps_spdm | apply keeps_elim | apply keeps_foldl
          | apply keeps_foldl_fst | apply keeps_foldl_fst2 | intro _ | apply keeps_ite | split
          | refine keeps_of_eq (by assumption) ?_

theorem keeps_getCertificate {x0 : Sys2Proof.Source} {x1 : Sys2Proof.Spdm} {x2 : State} (h2 : Canonical x2)
    : Canonical (getCertificate x0 x1 x2) := by
  unfold getCertificate; try dsimp only
  repeat'
    with_reducible
      first
      | assumption | apply keeps_spdmSlot0 | apply keeps_spdm | apply keeps_elim | apply keeps_foldl
          | apply keeps_foldl_fst | apply keeps_foldl_fst2 | intro _ | apply keeps_ite | split
          | refine keeps_of_eq (by assumption) ?_

theorem keeps_heartbeat {x0 : Sys2Proof.Source} {x1 : Sys2Proof.Spdm} {x2 : State} (h2 : Canonical x2)
    : Canonical (heartbeat x0 x1 x2) := by
  unfold heartbeat; try dsimp only
  repeat'
    with_reducible
      first
      | assumption | apply keeps_inSession | apply keeps_spdm | apply keeps_updSession | apply keeps_elim
          | apply keeps_foldl | apply keeps_foldl_fst | apply keeps_foldl_fst2 | intro _ | apply keeps_ite | split
          | refine keeps_of_eq (by assumption) ?_

theorem keeps_keyExchange {x0 : Sys2Proof.Source} {x1 : Sys2Proof.Spdm} {x2 : State} (h2 : Canonical x2)
    : Canonical (keyExchange x0 x1 x2) := by
  unfold keyExchange; try dsimp only
  repeat'
    with_reducible
      first
      | assumption | apply keeps_spdmRequest | apply keeps_spdmError | apply keeps_setSession | apply keeps_ownBytes
          | apply keeps_spdm | apply keeps_elim | apply keeps_foldl | apply keeps_foldl_fst | apply keeps_foldl_fst2
          | intro _ | apply keeps_ite | split | refine keeps_of_eq (by assumption) ?_

theorem keeps_keyUpdate {x0 : Sys2Proof.Source} {x1 : Sys2Proof.Spdm} {x2 : State} (h2 : Canonical x2)
    : Canonical (keyUpdate x0 x1 x2) := by
  unfold keyUpdate; try dsimp only
  repeat'
    with_reducible
      first
      | assumption | apply keeps_inSession | apply keeps_spdm | apply keeps_updSession | apply keeps_elim
          | apply keeps_foldl | apply keeps_foldl_fst | apply keeps_foldl_fst2 | intro _ | apply keeps_ite | split
          | refine keeps_of_eq (by assumption) ?_

theorem keeps_getDigests {x0 : Sys2Proof.Source} {x1 : Sys2Proof.Spdm} {x2 : State} (h2 : Canonical x2)
    : Canonical (getDigests x0 x1 x2) := by
  unfold getDigests; try dsimp only
  repeat'
    with_reducible
      first
      | assumption | apply keeps_spdmRequest | apply keeps_spdm | apply keeps_elim | apply keeps_foldl
          | apply keeps_foldl_fst | apply keeps_foldl_fst2 | intro _ | apply keeps_ite | split
          | refine keeps_of_eq (by assumption) ?_

theorem keeps_endSession {x0 : Sys2Proof.Source} {x1 : Sys2Proof.Spdm} {x2 : State} (h2 : Canonical x2)
    : Canonical (endSession x0 x1 x2) := by
  unfold endSession; try dsimp only
  repeat'
    with_reducible
      first
      | assumption | apply keeps_inSession | apply keeps_closeSession | apply keeps_spdm | apply keeps_elim
          | apply keeps_foldl | apply keeps_foldl_fst | apply keeps_foldl_fst2 | intro _ | apply keeps_ite | split
          | refine keeps_of_eq (by assumption) ?_

theorem keeps_debugUnlockExpiry {x0 : State} (h0 : Canonical x0) : Canonical (debugUnlockExpiry x0) := by
  unfold debugUnlockExpiry; try dsimp only
  repeat'
    with_reducible
      first
      | assumption | apply keeps_lockDebug | simp only [canonical_update] | apply keeps_elim | apply keeps_foldl
          | apply keeps_foldl_fst | apply keeps_foldl_fst2 | intro _ | apply keeps_ite | split
          | refine keeps_of_eq (by assumption) ?_

theorem keeps_getMeasurements {x0 : Sys2Proof.Source} {x1 : Sys2Proof.Spdm} {x2 : State} (h2 : Canonical x2)
    : Canonical (getMeasurements x0 x1 x2) := by
  unfold getMeasurements; try dsimp only
  repeat'
    with_reducible
      first
      | assumption | apply keeps_spdmRequest | apply keeps_spdmError | apply keeps_ownBytes | apply keeps_spdm
          | apply keeps_elim | apply keeps_foldl | apply keeps_foldl_fst | apply keeps_foldl_fst2 | intro _
          | apply keeps_ite | split | refine keeps_of_eq (by assumption) ?_

theorem keeps_seqResume {x0 : State} {x1 : Nat} (h0 : Canonical x0) : Canonical (State.seqResume x0 x1) := by
  unfold State.seqResume; try dsimp only
  repeat'
    with_reducible
      first
      | assumption | apply keeps_setCoreState | apply keeps_elim | apply keeps_foldl | apply keeps_foldl_fst
          | apply keeps_foldl_fst2 | intro _ | apply keeps_ite | split | refine keeps_of_eq (by assumption) ?_

theorem keeps_wakeNotice {x0 : Nat} {x1 : Nat} {x2 : State} (h2 : Canonical x2)
    : Canonical (wakeNotice x0 x1 x2) := by
  unfold wakeNotice; try dsimp only
  repeat'
    with_reducible
      first
      | assumption | apply keeps_seqResume | apply keeps_withSeq | apply keeps_seqDone | apply keeps_seqFail
          | apply keeps_updHead | apply keeps_addStarted | apply keeps_popQueue | simp only [canonical_update]
          | apply keeps_elim | apply keeps_foldl | apply keeps_foldl_fst | apply keeps_foldl_fst2 | intro _
          | apply keeps_ite | split | refine keeps_of_eq (by assumption) ?_

theorem keeps_seqWait {x0 : Nat} {x1 : State} (h1 : Canonical x1) : Canonical (seqWait x0 x1) := by
  unfold seqWait; try dsimp only
  repeat'
    with_reducible
      first
      | assumption | apply keeps_withSeq | apply keeps_registerWait | apply keeps_seqDone | apply keeps_setCoreState
          | apply keeps_setStarted | apply keeps_seqFail | apply keeps_elim | apply keeps_foldl
          | apply keeps_foldl_fst | apply keeps_foldl_fst2 | intro _ | apply keeps_ite | split
          | refine keeps_of_eq (by assumption) ?_

theorem keeps_delayExpiry {x0 : Nat} {x1 : State} (h1 : Canonical x1) : Canonical (delayExpiry x0 x1) := by
  unfold delayExpiry; try dsimp only
  repeat'
    with_reducible
      first
      | assumption | apply keeps_withSeq | apply keeps_seqDone | apply keeps_count | apply keeps_updCore
          | apply keeps_elim | apply keeps_foldl | apply keeps_foldl_fst | apply keeps_foldl_fst2 | intro _
          | apply keeps_ite | split | refine keeps_of_eq (by assumption) ?_

theorem keeps_poisonCommit {x0 : State} {x1 : Nat} {x2 : Active} (h0 : Canonical x0)
    : Canonical (State.poisonCommit x0 x1 x2) := by
  unfold State.poisonCommit; try dsimp only
  repeat'
    with_reducible
      first
      | assumption | apply keeps_bump | apply keeps_logPoisonEnding | apply keeps_undoStep | apply keeps_coreError
          | apply keeps_elim | apply keeps_foldl | apply keeps_foldl_fst | apply keeps_foldl_fst2 | intro _
          | apply keeps_ite | split | refine keeps_of_eq (by assumption) ?_

theorem keeps_queueReplay {x0 : State} {x1 : Nat} (h0 : Canonical x0) : Canonical (State.queueReplay x0 x1) := by
  unfold State.queueReplay; try dsimp only
  repeat'
    with_reducible
      first
      | assumption | apply keeps_bumpIf | apply keeps_assignRuns | apply keeps_put | simp only [canonical_update]
          | apply keeps_elim | apply keeps_foldl | apply keeps_foldl_fst | apply keeps_foldl_fst2 | intro _
          | apply keeps_ite | split | refine keeps_of_eq (by assumption) ?_

theorem keeps_auditStep {x0 : State} {x1 : Nat} (h0 : Canonical x0) : Canonical (State.auditStep x0 x1) := by
  unfold State.auditStep; try dsimp only
  repeat'
    with_reducible
      first
      | assumption | apply keeps_updCore | simp only [canonical_update] | apply keeps_elim | apply keeps_foldl
          | apply keeps_foldl_fst | apply keeps_foldl_fst2 | intro _ | apply keeps_ite | split
          | refine keeps_of_eq (by assumption) ?_

theorem keeps_stepCommit {x0 : Nat} {x1 : State} (h1 : Canonical x1) : Canonical (stepCommit x0 x1) := by
  unfold stepCommit; try dsimp only
  repeat'
    with_reducible
      first
      | assumption | apply keeps_withSeq | apply keeps_seqFail | apply keeps_poisonCommit | apply keeps_auditStep
          | apply keeps_queueReplay | apply keeps_seqDone | apply keeps_commitStep | apply keeps_elim
          | apply keeps_foldl | apply keeps_foldl_fst | apply keeps_foldl_fst2 | intro _ | apply keeps_ite | split
          | refine keeps_of_eq (by assumption) ?_

theorem keeps_waitDeadline {x0 : Nat} {x1 : Nat} {x2 : State} (h2 : Canonical x2)
    : Canonical (waitDeadline x0 x1 x2) := by
  unfold waitDeadline; try dsimp only
  repeat'
    with_reducible
      first
      | assumption | apply keeps_coreError | apply keeps_seqResume | apply keeps_bump | simp only [canonical_update]
          | apply keeps_elim | apply keeps_foldl | apply keeps_foldl_fst | apply keeps_foldl_fst2 | intro _
          | apply keeps_ite | split | refine keeps_of_eq (by assumption) ?_

theorem keeps_seqDelay {x0 : Nat} {x1 : State} (h1 : Canonical x1) : Canonical (seqDelay x0 x1) := by
  unfold seqDelay; try dsimp only
  repeat'
    with_reducible
      first
      | assumption | apply keeps_withSeq | apply keeps_setStarted | apply keeps_updCore | apply keeps_elim
          | apply keeps_foldl | apply keeps_foldl_fst | apply keeps_foldl_fst2 | intro _ | apply keeps_ite | split
          | refine keeps_of_eq (by assumption) ?_

theorem keeps_segmentResendTimeout {x0 : Nat} {x1 : Nat} {x2 : State} (h2 : Canonical x2)
    : Canonical (segmentResendTimeout x0 x1 x2) := by
  unfold segmentResendTimeout; try dsimp only
  repeat'
    with_reducible
      first
      | assumption | apply keeps_abortTransfer | apply keeps_sendSegment | apply keeps_updTransfer | apply keeps_elim
          | apply keeps_foldl | apply keeps_foldl_fst | apply keeps_foldl_fst2 | intro _ | apply keeps_ite | split
          | refine keeps_of_eq (by assumption) ?_

theorem keeps_eventResendTimeout {x0 : Nat} {x1 : Nat} {x2 : State} (h2 : Canonical x2)
    : Canonical (eventResendTimeout x0 x1 x2) := by
  unfold eventResendTimeout; try dsimp only
  repeat'
    with_reducible
      first
      | assumption | apply keeps_emit | simp only [canonical_update] | apply keeps_elim | apply keeps_foldl
          | apply keeps_foldl_fst | apply keeps_foldl_fst2 | intro _ | apply keeps_ite | split
          | refine keeps_of_eq (by assumption) ?_

theorem keeps_sessionIdleTimeout {x0 : Nat} {x1 : State} (h1 : Canonical x1)
    : Canonical (sessionIdleTimeout x0 x1) := by
  unfold sessionIdleTimeout; try dsimp only
  repeat'
    with_reducible
      first
      | assumption | apply keeps_closeSession | simp only [canonical_update] | apply keeps_elim | apply keeps_foldl
          | apply keeps_foldl_fst | apply keeps_foldl_fst2 | intro _ | apply keeps_ite | split
          | refine keeps_of_eq (by assumption) ?_

theorem keeps_transferIdleTimeout {x0 : Nat} {x1 : Nat} {x2 : State} (h2 : Canonical x2)
    : Canonical (transferIdleTimeout x0 x1 x2) := by
  unfold transferIdleTimeout; try dsimp only
  repeat'
    with_reducible
      first
      | assumption | apply keeps_abortTransfer | simp only [canonical_update] | apply keeps_elim | apply keeps_foldl
          | apply keeps_foldl_fst | apply keeps_foldl_fst2 | intro _ | apply keeps_ite | split
          | refine keeps_of_eq (by assumption) ?_

theorem keeps_mirrorResyncDone {x0 : Nat} {x1 : State} (h1 : Canonical x1) : Canonical (mirrorResyncDone x0 x1) := by
  unfold mirrorResyncDone; try dsimp only
  repeat'
    with_reducible
      first
      | assumption | apply keeps_copyMem | apply keeps_setMirror | apply keeps_elim | apply keeps_foldl
          | apply keeps_foldl_fst | apply keeps_foldl_fst2 | intro _ | apply keeps_ite | split
          | refine keeps_of_eq (by assumption) ?_

theorem keeps_dramScrub {x0 : Nat} {x1 : List Sys2Proof.Upset} {x2 : State} (h2 : Canonical x2)
    : Canonical (dramScrub x0 x1 x2) := by
  unfold dramScrub; try dsimp only
  repeat'
    with_reducible
      first
      | assumption | apply keeps_bump | apply keeps_takeUpset | apply keeps_elim | apply keeps_foldl
          | apply keeps_foldl_fst | apply keeps_foldl_fst2 | intro _ | apply keeps_ite | split
          | refine keeps_of_eq (by assumption) ?_

theorem keeps_stackReformatDone {x0 : Nat} {x1 : State} (h1 : Canonical x1)
    : Canonical (stackReformatDone x0 x1) := by
  unfold stackReformatDone; try dsimp only
  repeat'
    with_reducible
      first
      | assumption | simp only [canonical_update] | apply keeps_elim | apply keeps_foldl | apply keeps_foldl_fst
          | apply keeps_foldl_fst2 | intro _ | apply keeps_ite | split | refine keeps_of_eq (by assumption) ?_

theorem keeps_spareSwapDone {x0 : Nat} {x1 : Nat} {x2 : Sys2Proof.Dir} {x3 : State} (h3 : Canonical x3)
    : Canonical (spareSwapDone x0 x1 x2 x3) := by
  unfold spareSwapDone; try dsimp only
  repeat'
    with_reducible
      first
      | assumption | apply keeps_swapSpare | apply keeps_elim | apply keeps_foldl | apply keeps_foldl_fst
          | apply keeps_foldl_fst2 | intro _ | apply keeps_ite | split | refine keeps_of_eq (by assumption) ?_

theorem keeps_coilLinkFail {x0 : Nat} {x1 : Nat} {x2 : Sys2Proof.Dir} {x3 : Nat} {x4 : State} (h4 : Canonical x4)
    : Canonical (coilLinkFail x0 x1 x2 x3 x4) := by
  unfold coilLinkFail; try dsimp only
  repeat'
    with_reducible
      first
      | assumption | apply keeps_endLost | apply keeps_linkFail | apply keeps_elim | apply keeps_foldl
          | apply keeps_foldl_fst | apply keeps_foldl_fst2 | intro _ | apply keeps_ite | split
          | refine keeps_of_eq (by assumption) ?_

theorem keeps_reset : Canonical State.reset := by
  unfold State.reset; try dsimp only
  repeat'
    with_reducible
      first
      | assumption | simp only [canonical_update] | apply keeps_elim | apply keeps_foldl | apply keeps_foldl_fst
          | apply keeps_foldl_fst2 | intro _ | apply keeps_ite | split | refine keeps_of_eq (by assumption) ?_
          | (simp only [canonical_all]; refine ⟨?_, ?_, ?_, ?_, ?_, ?_, ?_, ?_, ?_, ?_, ?_, ?_, ?_, ?_, ?_, ?_, ?_, ?_, ?_, ?_, ?_, ?_, ?_, ?_, ?_, ?_, ?_⟩)
          | apply rising_map | apply wf_copyInto | apply wf_fold | apply Tab.copyInto_wf | apply rising_fold
          | exact rising_nil | exact wf_nil | exact mem_nil | apply wf_copyRange | apply Tab.copyRange_wf
          | apply wf_clearRange | apply Tab.set_rising | apply Tab.upd_rising | apply Tab.filter_rising
          | apply Tab.set_wf | apply Tab.clearRange_wf | apply Canonical.mem | apply Canonical.poison
          | apply Canonical.sync | apply Canonical.obj | apply Canonical.maq | apply Canonical.cores
          | apply Canonical.objLog | apply Canonical.refusalEvent | apply Canonical.streams | apply Canonical.jobs
          | apply Canonical.sessions | apply Canonical.leftOut | apply Canonical.survivors | apply Canonical.rowLog
          | apply Canonical.conns | apply Canonical.ports | apply Canonical.hubs | apply Canonical.hubResets
          | apply Canonical.txns | apply Canonical.links | apply Canonical.arrived | apply Canonical.channels
          | apply Canonical.tiles | apply Canonical.xcvrs | apply Canonical.monitors | apply Canonical.requests
          | apply Canonical.remoteOverruns

theorem keeps_idle {x0 : State} (h0 : Canonical x0) : Canonical (idle x0) := by
  unfold idle; try dsimp only
  repeat'
    with_reducible
      first
      | assumption | simp only [canonical_update] | apply keeps_elim | apply keeps_foldl | apply keeps_foldl_fst
          | apply keeps_foldl_fst2 | intro _ | apply keeps_ite | split | refine keeps_of_eq (by assumption) ?_

theorem keeps_withFetchWord {x0 : State} {x1 : Nat} {x2 : Nat} (h0 : Canonical x0)
    : Canonical (State.withFetchWord x0 x1 x2) := by
  unfold State.withFetchWord; try dsimp only
  repeat'
    with_reducible
      first
      | assumption | simp only [canonical_update] | apply keeps_elim | apply keeps_foldl | apply keeps_foldl_fst
          | apply keeps_foldl_fst2 | intro _ | apply keeps_ite | split | refine keeps_of_eq (by assumption) ?_

theorem keeps_hubReset {x0 : Nat} {x1 : Nat} {x2 : State} (h2 : Canonical x2) : Canonical (hubReset x0 x1 x2) := by
  unfold hubReset; try dsimp only
  repeat'
    with_reducible
      first
      | assumption | apply keeps_pumpChanges | apply keeps_askReset | apply keeps_elim | apply keeps_foldl
          | apply keeps_foldl_fst | apply keeps_foldl_fst2 | intro _ | apply keeps_ite | split
          | refine keeps_of_eq (by assumption) ?_

theorem keeps_linkDownReport {x0 : Nat} {x1 : State} (h1 : Canonical x1) : Canonical (linkDownReport x0 x1) := by
  unfold linkDownReport; try dsimp only
  repeat'
    with_reducible
      first
      | assumption | apply keeps_pumpChanges | apply keeps_reroute | apply keeps_elim | apply keeps_foldl
          | apply keeps_foldl_fst | apply keeps_foldl_fst2 | intro _ | apply keeps_ite | split
          | refine keeps_of_eq (by assumption) ?_

theorem keeps_resendImage {x0 : State} {x1 : List Nat} (h0 : Canonical x0)
    : Canonical (State.resendImage x0 x1) := by
  unfold State.resendImage; try dsimp only
  repeat'
    with_reducible
      first
      | assumption | apply keeps_pumpChanges | apply keeps_abortSwap | simp only [canonical_update]
          | apply keeps_elim | apply keeps_foldl | apply keeps_foldl_fst | apply keeps_foldl_fst2 | intro _
          | apply keeps_ite | split | refine keeps_of_eq (by assumption) ?_

theorem keeps_targetAckTimeout {x0 : State} (h0 : Canonical x0) : Canonical (targetAckTimeout x0) := by
  unfold targetAckTimeout; try dsimp only
  repeat'
    with_reducible
      first
      | assumption | apply keeps_resendImage | apply keeps_elim | apply keeps_foldl | apply keeps_foldl_fst
          | apply keeps_foldl_fst2 | intro _ | apply keeps_ite | split | refine keeps_of_eq (by assumption) ?_

theorem keeps_targetAck {x0 : Nat} {x1 : Sys2Proof.AckKind} {x2 : Bool} {x3 : State} (h3 : Canonical x3)
    : Canonical (targetAck x0 x1 x2 x3) := by
  unfold targetAck; try dsimp only
  repeat'
    with_reducible
      first
      | assumption | apply keeps_resendImage | apply keeps_pumpChanges | simp only [canonical_update]
          | apply keeps_elim | apply keeps_foldl | apply keeps_foldl_fst | apply keeps_foldl_fst2 | intro _
          | apply keeps_ite | split | refine keeps_of_eq (by assumption) ?_

theorem keeps_swapTooLate {x0 : State} (h0 : Canonical x0) : Canonical (swapTooLate x0) := by
  unfold swapTooLate; try dsimp only
  repeat'
    with_reducible
      first
      | assumption | apply keeps_pumpChanges | apply keeps_abortSwap | simp only [canonical_update]
          | apply keeps_elim | apply keeps_foldl | apply keeps_foldl_fst | apply keeps_foldl_fst2 | intro _
          | apply keeps_ite | split | refine keeps_of_eq (by assumption) ?_

theorem keeps_swapInstant {x0 : State} (h0 : Canonical x0) : Canonical (swapInstant x0) := by
  unfold swapInstant; try dsimp only
  repeat'
    with_reducible
      first
      | assumption | apply keeps_setSwapState | apply keeps_routesActive | apply keeps_applyEdits
          | simp only [canonical_update] | apply keeps_elim | apply keeps_foldl | apply keeps_foldl_fst
          | apply keeps_foldl_fst2 | intro _ | apply keeps_ite | split | refine keeps_of_eq (by assumption) ?_

theorem keeps_hubResetDone {x0 : Nat} {x1 : Bool} {x2 : State} (h2 : Canonical x2)
    : Canonical (hubResetDone x0 x1 x2) := by
  unfold hubResetDone; try dsimp only
  repeat'
    with_reducible
      first
      | assumption | apply keeps_pumpChanges | apply keeps_resetDone | apply keeps_elim | apply keeps_foldl
          | apply keeps_foldl_fst | apply keeps_foldl_fst2 | intro _ | apply keeps_ite | split
          | refine keeps_of_eq (by assumption) ?_

theorem keeps_quiesceTimeout {x0 : State} (h0 : Canonical x0) : Canonical (quiesceTimeout x0) := by
  unfold quiesceTimeout; try dsimp only
  repeat'
    with_reducible
      first
      | assumption | apply keeps_pumpChanges | apply keeps_abortSwap | simp only [canonical_update]
          | apply keeps_elim | apply keeps_foldl | apply keeps_foldl_fst | apply keeps_foldl_fst2 | intro _
          | apply keeps_ite | split | refine keeps_of_eq (by assumption) ?_

theorem keeps_reduceDeadline {x0 : Nat} {x1 : State} (h1 : Canonical x1) : Canonical (reduceDeadline x0 x1) := by
  unfold reduceDeadline; try dsimp only
  repeat'
    with_reducible
      first
      | assumption | apply keeps_putActive | simp only [canonical_update] | apply keeps_elim | apply keeps_foldl
          | apply keeps_foldl_fst | apply keeps_foldl_fst2 | intro _ | apply keeps_ite | split
          | refine keeps_of_eq (by assumption) ?_

theorem keeps_seqSignal {x0 : Nat} {x1 : State} (h1 : Canonical x1) : Canonical (seqSignal x0 x1) := by
  unfold seqSignal; try dsimp only
  repeat'
    with_reducible
      first
      | assumption | apply keeps_withSeq | apply keeps_setStarted | apply keeps_sendSignal | apply keeps_windowSignal
          | apply keeps_seqFail | apply keeps_connTo | apply keeps_queueMessage | apply keeps_elim
          | apply keeps_foldl | apply keeps_foldl_fst | apply keeps_foldl_fst2 | intro _ | apply keeps_ite | split
          | refine keeps_of_eq (by assumption) ?_

theorem keeps_mcastTimeout {x0 : Nat} {x1 : State} (h1 : Canonical x1) : Canonical (mcastTimeout x0 x1) := by
  unfold mcastTimeout; try dsimp only
  repeat'
    with_reducible
      first
      | assumption | apply keeps_putActive | simp only [canonical_update] | apply keeps_elim | apply keeps_foldl
          | apply keeps_foldl_fst | apply keeps_foldl_fst2 | intro _ | apply keeps_ite | split
          | refine keeps_of_eq (by assumption) ?_

end Sys2Proof.Machine
end

