-- ==== Sys2Proof/Laws/Mgmt.lean ====
section
/-! SUPPORT. The laws of the management protocol: what a request does that a session admits. -/

namespace Sys2Proof.Machine

open Sys2Proof

/-- t differs from s in its sessions, connections, port buffers, what left the device, and when the lock was last written. -/
def AnswerOnly (s t : State) : Prop :=
  t = { s with sessions := t.sessions, conns := t.conns, ports := t.ports, out := t.out, lockWrite := t.lockWrite }

theorem AnswerOnly.refl (s : State) : AnswerOnly s s := rfl

theorem AnswerOnly.trans {s t u : State} (h : AnswerOnly s t) (k : AnswerOnly t u) : AnswerOnly s u := by
  unfold AnswerOnly at *; rw [k, h]

/-- A fold of operations that each only answer only answers. -/
theorem AnswerOnly.foldl {α : Type} (f : State → α → State) (hf : ∀ s x, AnswerOnly s (f s x)) (l : List α) (s : State) :
    AnswerOnly s (l.foldl f s) := by
  induction l generalizing s with
  | nil => exact .refl s
  | cons x r ih => exact (hf s x).trans (ih _)

theorem answerOnly_transmit (s : State) (p : Nat) (k : CtpPacket) : AnswerOnly s (s.transmit p k) := by
  unfold State.transmit; split
  · rfl
  · split <;> rfl

theorem answerOnly_updConn (s : State) (n : Nat) (f : Conn → Conn) : AnswerOnly s (s.updConn n f) := by
  unfold State.updConn; split <;> rfl

theorem answerOnly_sendPacket (s : State) (n a b c d e : Nat) (x : Bytes) : AnswerOnly s (s.sendPacket n a b c d e x) := by
  unfold State.sendPacket; split
  · exact (answerOnly_transmit _ _ _).trans (answerOnly_updConn _ _ _)
  · exact .refl _

theorem answerOnly_sendOne (s : State) (n : Nat) (m : Message) : AnswerOnly s (s.sendOne n m) :=
  (answerOnly_sendPacket _ _ _ _ _ _ _ _).trans (answerOnly_updConn _ _ _)

theorem answerOnly_pump (s : State) (n : Nat) : AnswerOnly s (s.pump n) := by
  unfold State.pump; split
  · exact .refl _
  · split
    · exact .refl _
    · exact .trans (by rfl) (.foldl _ (fun s m => answerOnly_sendOne s n m) _ _)

theorem answerOnly_queueMessage (s : State) (n a b c : Nat) (x : Bytes) : AnswerOnly s (s.queueMessage n a b c x).1 := by
  unfold State.queueMessage; split
  · exact .refl _
  · split
    · exact .refl _
    · exact .trans (by rfl) (answerOnly_pump _ _)

theorem answerOnly_sendUnit (s : State) (src : Source) (u : TchUnit) : AnswerOnly s (s.sendUnit src u) := by
  unfold State.sendUnit; simp only; split
  · exact answerOnly_queueMessage _ _ _ _ _ _
  · rfl

theorem answerOnly_updSession (s : State) (n : Nat) (f : Session → Session) : AnswerOnly s (s.updSession n f) := by
  unfold State.updSession; split <;> rfl

theorem answerOnly_noteWrite (s : State) (n : Nat) : AnswerOnly s (s.noteWrite n) := by
  unfold State.noteWrite; split <;> rfl

/-- An answer to a write touches sessions, connections, port buffers and what leaves the device; no object, no memory, no core. -/
theorem answerOnly_replied (s : State) (n : Nat) (q : Req) (i j : Nat) (d : Bytes) (st : Nat) : AnswerOnly s (s.replied n q i j d st) :=
  ((answerOnly_updSession _ _ _).trans (answerOnly_sendUnit _ _ _)).trans (answerOnly_noteWrite _ _)

theorem AnswerOnly.get {s t : State} (h : AnswerOnly s t) (i j : Nat) : t.get i j = s.get i j := by rw [h]; rfl
theorem AnswerOnly.rangeOk {s t : State} (h : AnswerOnly s t) (i j v : Nat) : t.rangeOk i j v = s.rangeOk i j v := by rw [h]; rfl

theorem AnswerOnly.now {s t : State} (h : AnswerOnly s t) : t.now = s.now := by rw [h]
theorem AnswerOnly.swapping {s t : State} (h : AnswerOnly s t) : t.swapping = s.swapping := by rw [h]; rfl
theorem AnswerOnly.swapState {s t : State} (h : AnswerOnly s t) : t.swapState = s.swapState := by rw [h]; rfl
theorem AnswerOnly.goAcked {s t : State} (h : AnswerOnly s t) : t.goAcked = s.goAcked := by rw [h]; rfl
theorem AnswerOnly.entering {s t : State} (h : AnswerOnly s t) : t.entering = s.entering := by rw [h]
theorem AnswerOnly.powerState {s t : State} (h : AnswerOnly s t) : t.powerState = s.powerState := by rw [h]; rfl
theorem AnswerOnly.powerHeld {s t : State} (h : AnswerOnly s t) : t.powerHeld = s.powerHeld := by rw [h]; rfl
theorem AnswerOnly.core {s t : State} (h : AnswerOnly s t) (c : Nat) : t.core c = s.core c := by rw [h]; rfl
theorem AnswerOnly.groupsMoving {s t : State} (h : AnswerOnly s t) (c : Nat) : t.groupsMoving c = s.groupsMoving c := by rw [h]; rfl
theorem AnswerOnly.layoutApplied {s t : State} (h : AnswerOnly s t) (c : Nat) : t.layoutApplied c = s.layoutApplied c := by rw [h]; rfl
theorem AnswerOnly.resetting {s t : State} (h : AnswerOnly s t) : t.resetting = s.resetting := by rw [h]
theorem AnswerOnly.security {s t : State} (h : AnswerOnly s t) : t.security = s.security := by rw [h]
theorem AnswerOnly.tests {s t : State} (h : AnswerOnly s t) : t.tests = s.tests := by rw [h]

theorem foldl_putEdit_answer (l : List (Nat × Nat)) (t : State) (a : Tab (Option Session)) (b : Tab (Option Conn)) (c : Tab Port)
    (d : List Emit) (e : Nat) :
    l.foldl State.putEdit { t with sessions := a, conns := b, ports := c, out := d, lockWrite := e }
      = { l.foldl State.putEdit t with sessions := a, conns := b, ports := c, out := d, lockWrite := e } := by
  induction l generalizing t with
  | nil => rfl
  | cons x r ih =>
    rw [List.foldl_cons, List.foldl_cons, ← ih (t.putEdit x)]
    congr 1
    unfold State.putEdit; split <;> rfl

/-- Whether the maquette passes its checks does not depend on what an answer touches. -/
theorem AnswerOnly.maquetteBad {t u : State} (h : AnswerOnly t u) : u.maquetteBad = t.maquetteBad := by
  rw [h]
  generalize u.sessions = a; generalize u.conns = b; generalize u.ports = c; generalize u.out = d; generalize u.lockWrite = e
  have hw : State.withEdits { t with sessions := a, conns := b, ports := c, out := d, lockWrite := e }
      = { t.withEdits with sessions := a, conns := b, ports := c, out := d, lockWrite := e } := foldl_putEdit_answer _ _ _ _ _ _ _
  unfold State.maquetteBad
  rw [hw]
  have hj (m : State) : (List.range 64).flatMap (State.badJob { m with sessions := a, conns := b, ports := c, out := d, lockWrite := e })
      = (List.range 64).flatMap m.badJob := congrArg (fun f => (List.range 64).flatMap f) (funext fun j => rfl)
  have k {x x' y y' : List Nat} (p : x = x') (q : y = y') : x ++ y = x' ++ y' := by rw [p, q]
  exact k (k (k (k (k (k (k (k (k (k rfl rfl) (hj _)) rfl) rfl) rfl) rfl) rfl) rfl) rfl) rfl

theorem AnswerOnly.maquetteFirstBad {t u : State} (h : AnswerOnly t u) : u.maquetteFirstBad = t.maquetteFirstBad := by
  unfold State.maquetteFirstBad; rw [h.maquetteBad]

/-- A unit that reaches a session, its header good, is served in it. -/
theorem receive_reaches {s t : State} {src : Source} {u : TchUnit} {n : Nat} {fits : Bool} {act : Nat → State → State}
    (h : s.reaches src u = some (n, t)) (hf : fits = true) (he : u.envelope = src.env.isSome) :
    s.receiveUnit src u fits act = act n t := by
  unfold State.reaches at h
  unfold State.receiveUnit
  simp only at h ⊢
  split at h
  · cases h
  rename_i h1
  rw [if_neg h1]
  obtain ⟨m, hm, hp⟩ := Option.map_eq_some_iff.mp h
  injection hp with h3 h4
  subst h3; subst h4
  simp only [hm, hf, Bool.not_true, Bool.false_eq_true, if_false, he, ne_eq, not_true]

/-- A request that a session admits opens its transaction. -/
theorem receive_admits {s t : State} {src : Source} {u : TchUnit} {n : Nat} {fits : Bool} {act : Nat → State → State}
    (h : s.admits src u = some (n, t)) (hf : fits = true) (he : u.envelope = src.env.isSome) :
    s.receiveUnit src u fits (fun n s => s.transact n src u (act n)) = act n t := by
  unfold State.admits at h
  rw [Option.filter_eq_some_iff] at h
  obtain ⟨h, h2⟩ := h
  rw [receive_reaches h hf he]
  simp only at h2
  split at h2
  · cases h2
  rename_i x hx
  simp only [Bool.and_eq_true, decide_eq_true_eq, Option.isNone_iff_eq_none] at h2
  obtain ⟨⟨h5, h6⟩, h7⟩ := h2
  simp only [State.transact, hx, h5, h6, if_neg (Nat.not_le.mpr h7)]

/-- A request to write an object that is admitted is answered, and has its effect after the answer. -/
theorem writeRow_admits {s t : State} {q : Req} {idx sub : Nat} {data : Bytes} {n : Nat} (f : Found)
    (h : s.admitsWrite q idx sub data = some (n, t)) (hi : idx < 65536) (hs : sub < 256) :
    s.writeRow f q idx sub data
      = ((t.replied n q idx sub data ((t.noteWrite n).writeObject f n idx sub data).2).writeObject f n idx sub data).1 := by
  unfold State.admitsWrite at h
  rw [Option.filter_eq_some_iff] at h
  obtain ⟨h, h2⟩ := h
  have hi' : (BitVec.ofNat 16 idx).toNat = idx := by rw [BitVec.toNat_ofNat]; omega
  have hs' : (BitVec.ofNat 8 sub).toNat = sub := by rw [BitVec.toNat_ofNat]; omega
  have h3 : t.writeStatus n idx sub 0 false (writeSize data.length) = 0 := by simpa using h2
  unfold State.writeRow
  simp only
  rw [receive_admits (act := fun n s => s.serveObject f n q.src (reqUnit q 2 idx sub data)) h rfl rfl]
  simp only [State.serveObject, reqUnit, hi', hs', h3, ne_eq, not_true, if_false, State.answerThen, State.applyWrite, State.replied]

/-- A write of a command object whose value its listing names starts its action. -/
theorem writeObject_cmd {i j : Nat} {d : Bytes} (x : State) (f : Found) (n : Nat) (h : (objRow i j).map (·.access) = some .cmd)
    (hv : cmdValueOk i j (writeMask i j (ofLE d)) = true) : x.writeObject f n i j d = x.command f n i (writeMask i j (ofLE d)) := by
  obtain ⟨r, hr, ha⟩ := Option.map_eq_some_iff.mp h
  unfold State.writeObject; simp only [hr, ha, hv, if_true]

/-- An admitted write of a command object is answered with its action's status, and then the action is had. -/
theorem writeRow_cmd {s t : State} {q : Req} {i j : Nat} {d : Bytes} {n : Nat} (f : Found) (h : s.admitsWrite q i j d = some (n, t))
    (hi : i < 65536) (hj : j < 256) (ha : (objRow i j).map (·.access) = some .cmd) (hv : cmdValueOk i j (writeMask i j (ofLE d)) = true) :
    s.writeRow f q i j d = ((t.replied n q i j d ((t.noteWrite n).command f n i (writeMask i j (ofLE d))).2).command f n i
      (writeMask i j (ofLE d))).1 := by
  rw [writeRow_admits f h hi hj, writeObject_cmd _ f n ha hv, writeObject_cmd _ f n ha hv]

/-- A row that writes one command object: an admitted request is answered with its action's status, and then the action is had. -/
theorem exec_cmd {s t : State} {q : Req} {n : Nat} (x : Instr) (f : Found) (i j : Nat) (d : Bytes) (act : State → State × Nat)
    (h : s.admitsWrite q i j d = some (n, t)) (hi : i < 65536) (hj : j < 256) (ha : (objRow i j).map (·.access) = some .cmd)
    (hv : cmdValueOk i j (writeMask i j (ofLE d)) = true) (hx : ∀ s : State, exec x s = .next (s.writeRow f q i j d))
    (hc : ∀ u : State, u.command f n i (writeMask i j (ofLE d)) = act u) :
    exec x s = .next (act (t.replied n q i j d (act (t.noteWrite n)).2)).1 := by
  rw [hx, writeRow_cmd f h hi hj ha hv, hc, hc]

/-- A row that writes one command object, whose action gives one status and one effect in every state that differs from the one it is served in by
what an answer touches: the answer carries that status, and then the effect is had. -/
theorem exec_cmd_of {s t : State} {q : Req} {n : Nat} (x : Instr) (f : Found) (i j : Nat) (d : Bytes) (act : State → State × Nat)
    (g : State → State) (st : Nat) (h : s.admitsWrite q i j d = some (n, t)) (hi : i < 65536) (hj : j < 256)
    (ha : (objRow i j).map (·.access) = some .cmd) (hv : cmdValueOk i j (writeMask i j (ofLE d)) = true)
    (hx : ∀ s : State, exec x s = .next (s.writeRow f q i j d)) (hc : ∀ u : State, u.command f n i (writeMask i j (ofLE d)) = act u)
    (hg : ∀ u, AnswerOnly t u → act u = (g u, st)) : exec x s = .next (g (t.replied n q i j d st)) := by
  rw [exec_cmd x f i j d act h hi hj ha hv hx hc, hg _ (answerOnly_noteWrite t n), hg _ (answerOnly_replied t n q i j d st)]

end Sys2Proof.Machine
end

