-- ==== Sys2Proof/WellFormed.lean ====
section
/-! DEFINITION. Well-formed commands: what the operands of a row can be. Each check has a name. -/

namespace Sys2Proof

/-- Why an instruction is no command of the table. -/
inductive IllFormed where
  /-- A unit whose service belongs to another row (R43). -/
  | unitService
  /-- A flow-control frame that does not carry eight times (R300). -/
  | flowForm
  /-- An upset with more than the four attempts of a transfer, or a position no channel has (R228, R236). -/
  | upsetForm
  /-- An SPDM key hash that is not 64 bytes (R442). -/
  | keyHash
  /-- A repair entry whose payload exceeds its 22 bytes (R424). -/
  | repairPayload
  /-- A failing slot check that R438 does not number. -/
  | slotCheck
  /-- A flit that does not carry 1,024 data bytes (R252). -/
  | flitData
  /-- A replay page that is not a 4 KiB page (R348). -/
  | replayPage
  /-- A power sample without its 168 points, 8 rails, 3 classes and 13 steps (R384, R388, R391). -/
  | sampleLength
  /-- Readings that are not 16 of a tile and 12 of a stack (R398). -/
  | sensorCount
  /-- CMIS data without eight lanes, or whose names are not 16 bytes and its date code 8 (R315). -/
  | cmisLength
  /-- A position outside a vertical channel (R228). -/
  | coilLink
  /-- More wires than a link direction has (R254). -/
  | wireCount
  /-- A cause that the row's rule does not number (R232, R365, R374). -/
  | causeCode
  /-- A phase outside the ten of a field (R381). -/
  | phaseMask
  /-- A frame whose packet does not fit its length (R299). -/
  | frameForm
  /-- A rail point that does not exist (R384). -/
  | railPoint
  deriving DecidableEq, Repr

/-- A named check. -/
def require (b : Bool) (e : IllFormed) : Option IllFormed := if b then none else some e

/-- A unit's service is its row's, or one that no row of a requester has (R42, R43). -/
def checkUnit (service : Nat) (u : TchUnit) : Option IllFormed :=
  require (u.service.toNat = service || ! [0x01, 0x02, 0x03, 0x04, 0x05, 0x06, 0x07, 0x11].contains u.service.toNat) .unitService

/-- A transfer has its first attempt and three resends (R236), and a channel 512 positions (R228). -/
def upsetFits (u : Upset) : Bool :=
  match u.kind with
  | .stored _ => true
  | .read _ tries => decide (tries.length ≤ 4)
  | .written _ tries failing _ => decide (tries.length ≤ 4) && failing.all fun p => decide (p.toNat < 512)

/-- Every upset of a row has its form. -/
def checkUpsets (ups : List Upset) : Option IllFormed := require (ups.all upsetFits) .upsetForm

/-- A key hash has 64 bytes. -/
def checkSpdm (m : Spdm) : Option IllFormed := require (m.leaf.all fun h => h.length = 64) .keyHash

/-- Findings of a boot. -/
def checkBringUp (f : BringUp) : Option IllFormed :=
  if decide (5 < f.slotA.toNat) || decide (5 < f.slotB.toNat) then some .slotCheck
  else require (f.entries.all fun e => decide (e.2.2.length ≤ 22)) .repairPayload

/-- A replay page is a 4 KiB page. -/
def pageFits (p : ReplayPage) : Bool := p.addr.toNat % 4096 = 0 && p.data.length = 4096

/-- A power sample has every point. -/
def sampleFits (m : PowerSample) : Bool :=
  m.domains.length = 168 && m.rails.length = 8 && m.demand.length = 3 && m.p64.length = 13

/-- CMIS data has eight lanes, three names of 16 bytes and a date code of 8. -/
def cmisFits (c : Cmis) : Bool :=
  c.bias.length = 8 && c.txPower.length = 8 && c.rxPower.length = 8 && c.serial.length = 16 && c.part.length = 16
    && c.vendor.length = 16 && c.dateCode.length = 8

/-- A PFC frame carries eight times. -/
def flowFits (f : FlowFrame) : Bool :=
  match f with
  | .pause _ => true
  | .pfc _ times => decide (times.length = 8)

/-- The packet a frame carries fits in it, and a PFC frame carries eight times. -/
def frameFits (f : Frame) : Bool :=
  match f.kind with
  | .udp _ a => decide (a.packet.payload.length ≤ f.length.toNat)
  | .flow g => flowFits g
  | .ip4 | .field _ | .other => true

/-- The first check that a command fails. -/
def Instr.check (i : Instr) : Option IllFormed :=
  match i with
  | .nop _ => none
  | .wait _ => none
  | .signal _ => none
  | .fence _ => none
  | .stepBegin _ => none
  | .stepCommit _ => none
  | .hint _ => none
  | .timestamp _ => none
  | .endRun _ => none
  | .delay _ => none
  | .loop _ => none
  | .load _ ups => checkUpsets ups
  | .gather _ ups => checkUpsets ups
  | .store _ ups => checkUpsets ups
  | .copy _ ups => checkUpsets ups
  | .mm _ ups => checkUpsets ups
  | .mmSeg _ ups => checkUpsets ups
  | .wload _ ups => checkUpsets ups
  | .mmW _ _ ups => checkUpsets ups
  | .accIo _ ups => checkUpsets ups
  | .mmF64 _ _ ups => checkUpsets ups
  | .fuseOut _ ups => checkUpsets ups
  | .vop _ ups => checkUpsets ups
  | .vred _ ups => checkUpsets ups
  | .vtab _ ups => checkUpsets ups
  | .send _ ups => checkUpsets ups
  | .mcast _ ups => checkUpsets ups
  | .reduce _ ups => checkUpsets ups
  | .rwrite _ ups => checkUpsets ups
  | .rread _ ups => checkUpsets ups
  | .commandFetch _ ups => checkUpsets ups
  | .commandDispatch _ => none
  | .commandStart _ _ => none
  | .commandComplete _ _ => none
  | .passEnd _ _ ups => checkUpsets ups
  | .delayExpiry _ => none
  | .waitDeadline _ _ => none
  | .wakeNotice _ _ => none
  | .signalArrival _ _ => none
  | .manualWriteImage _ _ => none
  | .manualAdd _ _ => none
  | .manualSetFlag _ _ => none
  | .manualClearFlag _ _ => none
  | .manualCompleteGeneration _ _ => none
  | .read _ u => checkUnit 0x01 u
  | .write _ u => checkUnit 0x02 u
  | .readSegInit _ u => checkUnit 0x03 u
  | .writeSegInit _ u => checkUnit 0x04 u
  | .segment _ u => checkUnit 0x05 u
  | .segAck _ u => checkUnit 0x06 u
  | .abort _ u => checkUnit 0x07 u
  | .eventAck _ u => checkUnit 0x11 u
  | .segmentResendTimeout _ _ => none
  | .transferIdleTimeout _ _ => none
  | .sessionIdleTimeout _ => none
  | .eventResendTimeout _ _ => none
  | .rwmWrite _ _ _ _ => none
  | .objectWrite _ _ _ _ => none
  | .minVoltageRead _ module point _ => require (decide (point.toNat < if module then 8 else 168)) .railPoint
  | .rxBufferPeakRead _ _ => none
  | .swapAtQuiescent _ => none
  | .swapAtInstant _ => none
  | .swapCancel _ => none
  | .targetAck _ _ _ => none
  | .targetAckTimeout => none
  | .quiescePointReached => none
  | .quiesceTimeout => none
  | .swapTooLate => none
  | .swapInstant => none
  | .copyActiveToMaquette _ => none
  | .maquetteLockTake _ => none
  | .maquetteLockRelease _ => none
  | .lockIdleTimeout => none
  | .warmReset _ => none
  | .coldReset _ f => checkBringUp f
  | .resetContact _ => none
  | .powerOn f => checkBringUp f
  | .ptpLockWaitExpiry => none
  | .run _ => none
  | .idle _ => none
  | .rest _ => none
  | .hold _ => none
  | .keep _ => none
  | .idleEntry => none
  | .groupOn _ _ _ => none
  | .groupRetention _ _ _ => none
  | .groupOff _ _ _ => none
  | .groupDrainEnd _ => none
  | .groupWakeEnd _ => none
  | .spScrubInterval _ ups => checkUpsets ups
  | .spLayoutApply _ => none
  | .coilLinkFail _ _ _ position => require (decide (position.toNat < 512)) .coilLink
  | .spareSwapDone _ _ _ => none
  | .dramScrubInterval _ ups => checkUpsets ups
  | .stackReformatDone _ => none
  | .hubReset _ _ => none
  | .hubResetDone _ _ => none
  | .retryBackoffExpiry _ => none
  | .mirrorResyncDone _ => none
  | .journalPartitionCopy _ => none
  | .flitReceive _ _ f => require (f.data.length = 1024) .flitData
  | .linkRetryTimeout _ _ => none
  | .laneRetry _ _ wires => require (wires.all fun w => decide (w.toNat < 8384)) .wireCount
  | .transactionArrival _ => none
  | .armatureResendTimeout _ => none
  | .linkDownReport _ => none
  | .mcastTimeout _ => none
  | .reduceDeadline _ => none
  | .laneFail _ _ => none
  | .portLinkUp _ => none
  | .portDownTimeout _ => none
  | .hostRoleMove => none
  | .frameReceive _ f => require (frameFits f) .frameForm
  | .pauseReceive _ f => require (flowFits f) .flowForm
  | .xoffRefresh _ => none
  | .ringStationReset _ _ => none
  | .hello _ => none
  | .helloAck _ => none
  | .close _ => none
  | .ack _ => none
  | .work _ => none
  | .winWrite _ ups => checkUpsets ups
  | .winReduceFp32 _ ups => checkUpsets ups
  | .winReduceInt64 _ ups => checkUpsets ups
  | .winReadReq _ ups => checkUpsets ups
  | .winReadData _ ups => checkUpsets ups
  | .winSignal _ => none
  | .winStatus _ => none
  | .mgmt _ => none
  | .ctpRtoExpiry _ => none
  | .ctpAckTimer _ => none
  | .helloRepeat _ => none
  | .closeRepeat _ => none
  | .creditProbe _ => none
  | .xcvrPoll _ data => require (cmisFits data) .cmisLength
  | .xcvrPresentEdge _ _ => none
  | .wearRecordFlush => none
  | .journalWriteDone _ _ => none
  | .journalWriteFail _ _ => none
  | .itemDispatch _ => none
  | .completionDelivery _ => none
  | .intakeRebuild => none
  | .jobCreate => none
  | .jobStart => none
  | .jobStop => none
  | .jobCheckpoint => none
  | .jobLayout => none
  | .jobDiscard => none
  | .jobDelete => none
  | .replayRunDone _ fault => require (fault.all fun r => r.pages.all pageFits) .replayPage
  | .coreFence _ cause _ => require (decide (1 ≤ cause.toNat ∧ cause.toNat ≤ 6)) .causeCode
  | .coreWatchdog _ _ => none
  | .assignmentTestDone _ _ => none
  | .fieldShort _ phases _ => require (decide (phases.toNat < 1024)) .phaseMask
  | .stageFault _ => none
  | .vinLow _ => none
  | .vinHigh _ => none
  | .controllerTakeover reason => require (decide (reason.toNat ≤ 2)) .causeCode
  | .heartbeatPathLoss _ => none
  | .powerPeriod m => require (sampleFits m) .sampleLength
  | .stepDecision => none
  | .tileStepChange _ => none
  | .thermalReading _ logic stack => require (decide (logic.length = 16 ∧ stack.length = 12)) .sensorCount
  | .thermalStepWindow _ => none
  | .droopCrossing _ => none
  | .undervoltage _ => none
  | .patinaMeasure _ _ => none
  | .energyFlush => none
  | .replicaWindow _ _ _ => none
  | .referenceBad _ => none
  | .referenceGood _ => none
  | .timebaseCorrection _ => none
  | .ppsOut => none
  | .ppsInEdge _ => none
  | .ptpMessage _ _ => none
  | .getVersion _ m => checkSpdm m
  | .getCapabilities _ m => checkSpdm m
  | .negotiateAlgorithms _ m => checkSpdm m
  | .getDigests _ m => checkSpdm m
  | .getCertificate _ m => checkSpdm m
  | .challenge _ m => checkSpdm m
  | .getMeasurements _ m => checkSpdm m
  | .keyExchange _ m => checkSpdm m
  | .finish _ m => checkSpdm m
  | .heartbeat _ m => checkSpdm m
  | .keyUpdate _ m => checkSpdm m
  | .endSession _ m => checkSpdm m
  | .credentialWrite _ _ _ => none
  | .loadChunkWrite _ _ => none
  | .loadCommit _ _ => none
  | .loadAbort _ => none
  | .svnAdvance _ => none
  | .measureApply _ => none
  | .debugChallengeRead _ => none
  | .debugTokenWrite _ _ _ => none
  | .debugLock _ => none
  | .debugUnlockExpiry => none
  | .monitorSnapshotAll _ => none
  | .monitorSnapshotClearAll _ => none
  | .snapshotInstantExpiry => none
  | .monSnapshot _ _ => none
  | .monSnapshotClear _ _ => none
  | .monClear _ _ => none
  | .monConfigWrite _ _ _ _ => none
  | .monitorWindowEnd _ => none
  | .monitorEvent _ _ _ => none
  | .controlQuiesceTimeout => none
  | .vmemVppShort _ => none
  | .layerFault _ _ cause => require (decide (1 ≤ cause.toNat ∧ cause.toNat ≤ 2)) .causeCode
  | .complAddrWriteDone _ _ => none
  | .resetLRelease f => checkBringUp f
  | .vinRestored _ => none
  | .pauseExpiry _ => none
  | .monitorWindowStart _ => none
  | .debugPortAttach => none
  | .spdmHeartbeatTimeout _ => none

/-- A command whose operands pass every check. -/
abbrev Instr.wellFormed (i : Instr) : Prop := i.check = none

end Sys2Proof
end

