-- ==== Sys2Proof/Tests/Slice0.lean ====
section
/-! SUPPORT. Tests: the checks of WellFormed refuse what they should, the spec's worked examples come out as it prints them, and every statement's
hypotheses are met by some state. -/

namespace Sys2Proof.Tests
set_option Elab.async false

open Sys2Proof Sys2Proof.Machine

/-! ### Helpers -/

/-- The state that a command answers. -/
def after (c : Instr) (s : State) : State :=
  match exec c s with
  | .next t => t
  | _ => s

/-- Every table of a state in its form, as one Bool. -/
def canonical (s : State) : Bool :=
  Memory.wf s.mem && Tab.wf false s.poison && Tab.wf 0 s.sync && Tab.rising s.obj && Tab.rising s.maq && Tab.rising s.cores
    && Tab.rising s.objLog && Tab.rising s.refusalEvent && Tab.rising s.streams && Tab.rising s.jobs && Tab.rising s.sessions
    && Tab.rising s.leftOut && Tab.rising s.survivors && Tab.rising s.rowLog && Tab.rising s.conns && Tab.rising s.ports
    && Tab.rising s.hubs && Tab.rising s.hubResets && Tab.rising s.txns && Tab.rising s.links && Tab.rising s.arrived
    && Tab.rising s.channels && Tab.rising s.tiles && Tab.rising s.xcvrs && Tab.rising s.monitors && Tab.rising s.requests
    && Tab.rising s.remoteOverruns

theorem canonical_iff (s : State) (h : canonical s = true) : Canonical s := by
  simp only [canonical, Bool.and_eq_true] at h
  constructor <;> simp [h]

/-- Core 0 running job 0 with one command started on an engine. -/
def started (e : Nat) (words : List Nat) (f : Active → Active := id) (g : Core → Core := id) : State :=
  State.reset.updCore 0 fun k => g { k with state := 1, job := 0, active := [(e, [f { q := { cmd := { words := words } } }])] }

/-- What `started` has started. -/
def startedAs (words : List Nat) (f : Active → Active := id) : Active := f { q := { cmd := { words := words } } }

/-- A module in service, with an owner in secured session 0. -/
def owner : State :=
  ((State.reset.setSession 0 (some { source := ⟨17, 1, none⟩, level := 3, secure := true, finished := true })).put 0x1010 0 4)

/-- A request of that owner. -/
def req : Req := ⟨⟨17, 1, some 0⟩, 7⟩

/-- A unit with one service and nothing else. -/
def unit (service : Nat) : TchUnit :=
  { version := 1, service := BitVec.ofNat 8 service, transaction := 0x0102, status := 0, response := false, maquette := false, envelope := false
    last := false, reserved := 0, length := 0, index := 0x1010, subindex := 0, type := 0, param := 0, data := [] }

/-- A packet with nothing in it. -/
def packet (type : Nat) (payload : Bytes := []) : CtpPacket :=
  { version := 1, type := BitVec.ofNat 8 type, flags := 0, src := 5, dst := 0, conn := 0, length := BitVec.ofNat 16 payload.length, psn := 0
    ackPsn := 0, credit := 0, jobTag := 0, gen := 0, reserved := 0, crc := 0, payload := payload }

/-- A flit with nothing in it. -/
def flit : Flit :=
  { seq := 0, ack := 0, crcOk := true, head := false, last := false, vc := 0, escape := false, dest := 0x3F, src := 0x3F, granules := 0
    txn := 0, poison := 0, credit := 0, data := List.replicate 1024 0 }

/-- A boot that finds nothing wrong. -/
def soundBoot : BringUp :=
  { vin := 50000, romFailed := 0, slotA := 0, slotB := 0, keyOk := true, factoryOk := true, variantOk := true, badSegment := none, shorted := 0
    hubFailed := 0, tileFailed := 0, plinthFailed := false, copiesFailed := false, missing := 0, entries := [] }

/-- A power sample of zeros. -/
def sample : PowerSample :=
  { domains := List.replicate 168 0, rails := List.replicate 8 0, vin := 0, inlet := 0, outlet := 0, demand := [0, 0, 0], fixed := 0
    p64 := List.replicate 13 0 }

/-- CMIS data of zeros. -/
def cmis : Cmis :=
  { silent := false, identifier := 0x18, revision := 0x50, moduleState := 0, moduleFlags := [], temperature := 0, supply := 0, highPower := false
    laneFlags := [], biasHighAlarm := 0, bias := List.replicate 8 0, txPower := List.replicate 8 0, rxPower := List.replicate 8 0
    vendor := List.replicate 16 0, oui := 0, part := List.replicate 16 0, serial := List.replicate 16 0, dateCode := List.replicate 8 0, capabilities := [] }

/-- An SPDM request with nothing in it. -/
def spdm (leaf : Option Bytes := none) : Spdm :=
  { version := 0x12, session := 0, param1 := 0, param2 := 0, body := [], ok := true, leaf := leaf }

/-- A stored bit that reads wrong, at an address. -/
def upset (a : Nat) : Upset := ⟨BitVec.ofNat 64 a, .stored 1⟩

/-- A frame of 64 bytes with a good FCS, and one that carries a packet. -/
def frame (kind : FrameKind) (ok : Bool := true) : Frame := ⟨ok, 0, 64, 0, 0, kind⟩
def carrying (m : CtpPacket) : FrameKind := .udp 47012 ⟨none, m⟩

/-! ### WellFormed: an ill-formed term for each check -/

theorem test_unitService : (Instr.read req.src (unit 0x02)).check = some .unitService := by decide +kernel
theorem test_flowForm : (Instr.pauseReceive 0 (.pfc 1 [])).check = some .flowForm := by decide +kernel
theorem test_upsetForm : (Instr.load 0 [⟨0, .read 0 (List.replicate 5 1)⟩]).check = some .upsetForm
    ∧ (Instr.load 0 [⟨0, .written 0 [] [512] 0⟩]).check = some .upsetForm ∧ (Instr.load 0 [upset 0, ⟨0, .written 0 [] [511] 0⟩]).wellFormed := by decide +kernel
theorem test_keyHash : (Instr.keyExchange req.src (spdm (some [0]))).check = some .keyHash := by decide +kernel
theorem test_repairPayload : (Instr.powerOn { soundBoot with entries := [(1, 0, List.replicate 23 0)] }).check = some .repairPayload := by decide +kernel
theorem test_slotCheck : (Instr.resetLRelease { soundBoot with slotA := 6 }).check = some .slotCheck := by decide +kernel
theorem test_flitData : (Instr.flitReceive 0 .plus { flit with data := [] }).check = some .flitData := by decide +kernel
theorem test_replayPage :
    (Instr.replayRunDone 0 (some { ownFailed := false, pages := [⟨1, List.replicate 4096 0, 0⟩], messages := [], flags := 0, completed := 0 })).check
      = some .replayPage := by decide +kernel
theorem test_sampleLength : (Instr.powerPeriod { sample with rails := [] }).check = some .sampleLength := by decide +kernel
theorem test_sensorCount : (Instr.thermalReading 0 [] []).check = some .sensorCount := by decide +kernel
theorem test_cmisLength : (Instr.xcvrPoll 0 { cmis with serial := [] }).check = some .cmisLength := by decide +kernel
theorem test_coilLink : (Instr.coilLinkFail 0 0 .read 512).check = some .coilLink := by decide +kernel
theorem test_wireCount : (Instr.laneRetry 0 .plus [8383, 8384]).check = some .wireCount := by decide +kernel
theorem test_causeCode : (Instr.coreFence 0 7 0).check = some .causeCode := by decide +kernel
theorem test_phaseMask : (Instr.fieldShort 0 1024 0).check = some .phaseMask := by decide +kernel
theorem test_frameForm : (Instr.frameReceive 0 (frame (carrying (packet 0x10 (List.replicate 65 0))))).check = some .frameForm := by decide +kernel
theorem test_railPoint : (Instr.minVoltageRead req false 168 0).check = some .railPoint := by decide +kernel
theorem test_wellFormed : (Instr.read req.src (unit 0x01)).wellFormed := by decide +kernel

/-! ### The spec's worked examples -/

/-- The exchange of chapter 2 after R47: device_state reads 0x04 as a U8. -/
theorem test_read_device_state : unitBytes (unit 0x01) = [0x01, 0x01, 0x02, 0x01, 0, 0, 0, 0, 0x10, 0x10, 0, 0, 0, 0, 0, 0]
    ∧ (after (.read ⟨17, 1, none⟩ (unit 0x01)) owner).out.map (fun e => match e with
        | .unit _ u => unitBytes u
        | _ => []) = [[0x01, 0x01, 0x02, 0x01, 0, 0x01, 0x01, 0, 0x10, 0x10, 0, 0x02, 0, 0, 0, 0, 0x04]] := by decide +kernel

/-- The worked addresses of chapter 1. -/
theorem test_addresses : stackOf 0x000000A100000000 = 5 ∧ spCore 0x1000000024010000 = 9 ∧ syncCore 0x200000000000C100 = 3
    ∧ syncIndex 0x200000000000C100 = 0x100 ∧ winAddr 0x2A7 0x012 0x40 = 0x42A7012000000040 := by decide +kernel

/-- 464 is a tie that rounds to 448 without overflow; 464.5 overflows (R74). -/
theorem test_e4m3_overflow : Format.ofFraction .e4m3 .rne true 0 false 464 1 = ⟨0x7E, false, false⟩
    ∧ (Format.ofFraction .e4m3 .rne true 0 false 929 2).ovf = true := by decide +kernel

/-- The worked block conversion of chapter 3: scale 0x78, elements 0x7E, 0x3A and 0xEB, with overflow. -/
theorem test_mx_block : (Format.mxE4m3.mxBlock .rne [(f32 0x406CCCCD, 0), (f32 0x3C23D70A, 0), (f32 0xBF333333, 0)])
    = ⟨0x78, [0x7E, 0x3A, 0xEB], true, false⟩ := by decide +kernel

/-- The worked slicing of chapter 3. -/
theorem test_slices : sliceExponent [f64 0x3FB999999999999A, f64 0x4008000000000000] = 2
    ∧ slicesOf 8 2 (f64 0x3FB999999999999A) = [3, 25, 76, 102, 51, 25, 76, 102]
    ∧ (slicesOf 8 2 (f64 0xBFB999999999999A)).map sliceByte = [0xFD, 0xE7, 0xB4, 0x9A, 0xCD, 0xE7, 0xB4, 0x9A] := by decide +kernel

/-- Operands of the worked accumulation of chapter 5. -/
def accRow : List (Elem × Elem) :=
  (List.range 64).map fun k => ({ bits := if k = 0 then 0x78 else if k < 32 then 0x02 else if k = 32 then 0xF8 else 0 },
    { bits := if k = 0 ∨ k = 32 then 0x78 else 0x38 })

/-- The worked accumulation of chapter 5: 0x47800010 after block 0, 0x3E000000 after block 1, drained to E4M3 as 0x20. -/
theorem test_accumulation : (contract .blockExact .e4m3 .e4m3 0 (accRow.take 32)).1 = 0x47800010
    ∧ (contract .blockExact .e4m3 .e4m3 0 accRow).1 = 0x3E000000
    ∧ (Format.convert .e4m3 .rne false 0 (f32 0x3E000000)).bits = 0x20 := by decide +kernel

/-- The worked fused output of chapter 5, from the record's words to the element. -/
theorem test_fused_output : (match decodeRecord 0x100 (toLE 8 0x000000102101420B ++ toLE 8 0x3E00000000000000 ++ toLE 48 0) with
    | .ok r => (r.act, r.scaleDesc, r.biasDesc, (Format.convert .e4m3 r.round r.sat 0 (fusedValue r [] 0x3F000000 0xC0000000 (.flt 0x40533333)).1).bits)
    | .error _ => (0, 0, 0, 0)) = (0x2, 0x101, 0x102, 0x93) := by decide +kernel

/-- The worked reduction of chapter 10: C0 2^24, C1 1.0, C2 1.0, C3 -2^24 over the tree give 1.0. -/
theorem test_reduction :
    ((⟨false, 5, 0, 2, 0, 0xF, 0x10000, 0, [0x4B800000, 0x3F800000, 0x3F800000, 0xCB800000].zipIdx.map fun v => ⟨v.2, 32, [v.1], [false], false⟩,
        [], [], 0, 0, 0⟩ : GroupOp).nodeValue false 22 0).1 = [(0x3F800000, false)] := by decide +kernel

/-- The worked detour of chapter 10, with hub 13 dead: the tree, the escape ports on the way to hub 15, and BLOCKED bit 15 of hub 12. -/
theorem test_detour : let s : State := { State.reset with hubs := [(13, 2)] }
    let t := s.escapeTree
    [8, 9, 12, 10, 14, 15].map (fun h => (t.find? fun e => e.1 = h).map (·.2)) = [some 4, some 8, some 8, some 9, some 10, some 14]
      ∧ [12, 8, 9, 10, 14].map (fun h => escapePort t h 15) = [3, 2, 2, 1, 2] ∧ bit (s.routeTable t 12) (192 + 15) = true := by decide +kernel

/-- The worked barrier of chapter 11, row by row, and the overrun after it. -/
theorem test_barrier : arrive 0x4000000700300000 (some 7) = (0x4000000700300001, .ok)
    ∧ arrive 0x4000000700300001 (some 7) = (0x4000000700300002, .ok) ∧ arrive 0x4000000700300002 (some 8) = (0x4000000700300402, .ok)
    ∧ arrive 0x4000000700300402 (some 8) = (0x4000000700300802, .ok) ∧ arrive 0x4000000700300802 (some 7) = (0x4000000800300002, .ok)
    ∧ arrive 0x4000000800300002 (some 8) = (0x4000000900300000, .ok) ∧ arrive 0x4000000700300802 (some 9) = (0x4000000700300802, .overrun)
    ∧ waitHolds 0x4000000800300002 1 8 = some true ∧ waitHolds 0x4000000700300802 1 8 = some false := by decide +kernel

/-- The worked window of chapter 8, active in a module whose job 4 owns S2. -/
def opened : State := (State.reset.put 0x2620 1 0x2A7).put 0x2400 0x13 (0x00000048_00000000 + 0x10000000 * 2 ^ 64 + 0x0B04072FF2000413 * 2 ^ 128)

/-- The worked window's RWRITE with generation 6 is refused by check 4; with 7 the bytes go to S2 offset 0x8_0000_0040. -/
theorem test_window : opened.windowCheck ⟨0x215, 0x0B04, 6, 0x012, 0x40, 4096, 1⟩ = some 0x04
    ∧ opened.windowCheck ⟨0x215, 0x0B04, 7, 0x012, 0x40, 4096, 1⟩ = none
    ∧ winTarget (opened.window 0x012) 0x40 = 2 * 2 ^ 37 + 0x800000040 := by decide +kernel

/-- The worked cap of chapter 16: n_cap 55 at 9,000 W, 24 at 6,000 W, 49 once step 2 is in force; step 2 is the best at 6,000 W. -/
theorem test_power_example : let x (cap p : Nat) := grantsOf cap 600 0 [700, 1500, 1000] [400, 2200, 6100] [0, 0, 0] [0, 0, 0] p
    (x 9000 6100).nCap = 55 ∧ (x 6000 6100).nCap = 24 ∧ (x 6000 3080).nCap = 49
      ∧ (x 6000 6100).g.map (· / (x 6000 6100).unit) = [700, 2200, 2380] := by decide +kernel

/-- A PA24-M at 44 V is held to 11,478 W (R382). -/
theorem test_cap_at_44V : State.capInForce { State.reset with power := { State.reset.power with vin := 44000 } } = 11478 := by decide +kernel

/-- Command 1 of chapter 7's first sequence, and the MM of its second. -/
def loadCmd : Cmd := { words := [0x0000004000211110, 1, 0x0000000000051050] }
def mmCmd : Cmd := { words := [0x0000000000030020, 0x0009000000000000, 0x0000100030011010, 0, 0x2000] }

/-- Their fields (R141, R182, R184), and no fault in their headers. -/
theorem test_command_words : (loadCmd.opcode, loadCmd.tag, loadCmd.waitEn, loadCmd.desc 0, loadCmd.desc 12) = (0x10, 0x21, true, 0x050, 0x051)
    ∧ (mmCmd.opcode, mmCmd.tag, mmCmd.desc 0, mmCmd.desc 12, mmCmd.desc 24, mmCmd.desc 36) = (0x20, 3, 0x010, 0x011, 0x030, 0x100)
    ∧ engineOf mmCmd.opcode = some 2 ∧ loadCmd.headerFault = none ∧ mmCmd.headerFault = none := by decide +kernel

/-- The worked addresses of R226. -/
theorem test_layers : State.reset.layerOf 0x000000A100000000 = 1 ∧ State.reset.layerOffset 0x000000A100000000 = 0x55555000
    ∧ State.reset.layerOf (2 * 2 ^ 37 + 0x800000040) = 2 ∧ State.reset.layerOffset (2 * 2 ^ 37 + 0x800000040) = 0x2AAAAA040 := by decide +kernel

/-- The check symbols of a granule make its first syndromes vanish, and an error of one symbol is corrected, of two detected (R235). -/
theorem test_codeword : (let w := codeword ((List.range 64).map (BitVec.ofNat 8)) false 0x1234
     [0, 1, 2].map (syndrome w) = [0, 0, 0] ∧ w.length = 36)
    ∧ decodeErrors (errorSymbols (0xBEEF * 2 ^ (16 * 7))) = some (List.replicate 36 0)
    ∧ decodeErrors (errorSymbols (0xBEEF * 2 ^ (16 * 7) + 1)) = none := by decide +kernel

/-- FIPS 180-4's example, "abc", by its first bytes. -/
theorem test_sha512 : (sha512 [0x61, 0x62, 0x63]).take 8 = [0xDD, 0xAF, 0x35, 0xA1, 0x93, 0x61, 0x7A, 0xBA] := by decide +kernel

/-! ### The hypotheses of the statements are met -/

/-- A started command is the one its engine works on. -/
def works (e : Nat) (words : List Nat) (f : Active → Active := id) (g : Core → Core := id) : Prop :=
  ((started e words f g).core 0).working e (bits (words.getD 0 0) 0 8) = some (0, startedAs words f)

theorem witness_StepRunsFrontCommand : step { owner with pending := [.nop 0, .fence 1] } = exec (.nop 0) { owner with pending := [.fence 1] } := rfl

theorem witness_IdleStepIsOneNanosecond : State.reset.pending = [] := rfl

theorem witness_PlainSequencerCommandsExecute : works 0 [0x00] ∧ works 0 [0x03] ∧ works 0 [0x06, 0, 0x4004] ∧ works 0 [0x09, 0, 7]
    ∧ works 0 [0x09, 0, 7] fun a => { a with streamed := 1 } := by
  simp only [works]; decide +kernel

/-- A LOOP at level 1, PC 256, with a body of 3 commands. -/
def loopCmd (count : Nat) : Nat × (Active → Active) := (1 + 3 * 256 + count * 2 ^ 32, fun a => { a with q := { a.q with cmd := { a.q.cmd with pc := 256 } } })

def looping (count : Nat) (slots : List LoopSlot) : State :=
  started 0 [0x0A, 0, (loopCmd count).1] (loopCmd count).2 fun k => { k with loops := slots }

theorem witness_LoopRunsItsBodyCountTimes :
    (∀ s ∈ [looping 1 [], looping 2 [], looping 3 [⟨256, 3, 1⟩], looping 2 [⟨256, 2, 1⟩], looping 2 [⟨64, 2, 1⟩], looping 2 [{}, ⟨64, 2, 1⟩]], Canonical s)
    ∧ ((looping 1 []).core 0).working 0 0x0A = some (0, startedAs [0x0A, 0, (loopCmd 1).1] (loopCmd 1).2)
    ∧ ((looping 3 [⟨256, 3, 1⟩]).core 0).working 0 0x0A = some (0, startedAs [0x0A, 0, (loopCmd 3).1] (loopCmd 3).2)
    ∧ bits (loopCmd 3).1 0 3 = 1 ∧ bits (loopCmd 3).1 8 13 = 3 ∧ bits (loopCmd 3).1 32 32 = 3 ∧ ((looping 2 []).core 0).runStart + 64 * 3 ≤ 256
    ∧ 64 * 4 ≤ 256 ∧ ((looping 2 [{}, ⟨64, 2, 1⟩]).core 0).loops.drop 1 = [⟨64, 2, 1⟩]
    ∧ ((looping 2 [⟨256, 2, 1⟩]).core 0).loops.getD 0 {} = ⟨256, 2, 1⟩ :=
  ⟨fun s h => canonical_iff s ((by decide +kernel : ∀ s ∈ [looping 1 [], looping 2 [], looping 3 [⟨256, 3, 1⟩], looping 2 [⟨256, 2, 1⟩],
    looping 2 [⟨64, 2, 1⟩], looping 2 [{}, ⟨64, 2, 1⟩]], canonical s = true) s h), by decide +kernel⟩

/-- An address of object 0 of core 0. -/
def object0 : Nat := 0x2000000000000000

theorem witness_WaitIsMetOutstandingOrOfWrongKind : works 0 [0x01, 0, object0, 0] ∧ works 0 [0x01, 0, object0, 1] ∧ works 0 [0x01, 0, object0, 2 ^ 32]
    ∧ (let v := State.reset.syncGet (syncCore object0) (syncIndex object0)
       waitHolds v 0 0 = some true ∧ waitHolds v 0 1 = some false ∧ waitHolds v 0 (2 ^ 31) = some false ∧ waitHolds v 1 0 = none)
    ∧ (started 0 [0x01, 0, object0, 0]).stationUp (syncCore object0) = true
    ∧ ({ started 0 [0x01, 0, object0, 0] with lostFields := 1 } : State).stationUp (syncCore object0) = false := by
  simp only [works]; decide +kernel

theorem witness_WaitTargetsCompareAsSigned : imgKind 0 = 0 ∧ imgKind 0x4000000700300001 = 1 ∧ imgKind (2 * 2 ^ 62 + 1) = 2
    ∧ waitHolds 0 0 (2 ^ 31 + 1) = some true ∧ waitHolds (2 * 2 ^ 62 + 1) 2 1 = some true := by decide +kernel

/-- A wake notice, and the state that holds it. -/
def noticeFor (e : Nat) (opcode : Bool) : Wake := ⟨0, e, opcode, 0, true⟩

theorem witness_WakeNoticeReleasesTheWaiter :
    (let s : State := { started 0 [0x01] with wakes := [noticeFor 0 true] }
     let r : State := { s with wakes := [] }
     (s.wakes.find? fun w => w.core = 0 && w.engine = 0) = some (noticeFor 0 true) ∧ s.wakes.erase (noticeFor 0 true) = []
       ∧ ((r.seqResume 0).core 0).working 0 0x01 = some (0, startedAs [0x01]) ∧ s.lent 0 = false)
    ∧ (({ State.reset with wakes := [noticeFor 3 false] } : State).wakes.find? fun w => w.core = 0 && w.engine = 3) = some (noticeFor 3 false)
    ∧ ({ State.reset with replays := [{ core := 1, borrowed := some 0 }] } : State).lent 0 = true
    ∧ ((State.reset.updCore 0 fun k => { k with queues := [(3, [{}])] }).core 0).queue 3 = [{}]
    ∧ (State.reset.wakes.find? fun w => w.core = 0 && w.engine = 3) = none := by decide +kernel

theorem witness_WaitDeadlineStopsTheCore : let w : Wait := ⟨0, 0, object0, 0, 1, 0, 0, 1000, true, none⟩
    (({ State.reset with waits := [w] } : State).waits.find? fun w => w.core = 0 && w.engine = 0 && w.frozen.isNone
      && State.reset.stationUp (syncCore w.object)) = some w := by decide +kernel

/-- A signal to object 0 of core 0 at port 4, from a header of core 0 or its SIGNAL, and the state in which it stands there. -/
def arriving (kind value : Nat) (header : Bool := true) : Signal :=
  ⟨0, 0, kind, value, none, 4, none, if header then .header 0 1 { words := [0x10] } else .opcode 0, none⟩
def signalled (g : Signal) (image : Nat := 0) : State := { (started 0 [0x02]).syncSet 0 0 image with signals := [g] }

theorem witness_SignalArrivalAppliesTheOldestOfAPort :
    (∀ e ∈ [(arriving 0 (2 ^ 32 - 1), 5, SignalResult.ok), (arriving 2 1, 2 * 2 ^ 62, .ok), (arriving 2 1 false, 0, .kindError),
        ({ arriving 1 1 false with gen := some 9 }, 0x4000000700300802, .overrun), (arriving 1 1, 0x4000000700300000, .ok)],
      let s := signalled e.1 e.2.1
      canonical s = true ∧ takeSignal 0 4 s.signals = some e.1 ∧ e.1.win = none ∧ s.waits = [] ∧ s.syncGet 0 0 = e.2.1
        ∧ (applySignal e.2.1 e.1.kind e.1.value e.1.gen).2 = e.2.2
        ∧ (({ s with signals := [] } : State).core 0).working 0 0x02 = some (0, startedAs [0x02]))
    ∧ (∀ p, p < 5 → takeSignal 0 p State.reset.signals = none) := by
  refine ⟨?_, fun _ _ => rfl⟩; decide +kernel

theorem witness_StepBeginOpensOrRefuses :
    (let s := (started 0 [0x04, 0, 1]).put (coreObj 0 + 2) 1 4096
     (s.core 0).working 0 0x04 = some (0, startedAs [0x04, 0, 1]) ∧ (s.core 0).stepOpen = false ∧ (s.core 0).committed < 1
       ∧ s.get (coreObj 0 + 2) 1 ≠ 0 ∧ s.mirroredCommits (s.core 0).job = false)
    ∧ (let s := ((started 0 [0x04, 0, 1]).put (coreObj 0 + 2) 1 4096).put (coreObj 0 + 2) 3 8192
       let s := s.put (0x2100 + 0) 0x0C 1
       (s.core 0).working 0 0x04 = some (0, startedAs [0x04, 0, 1]) ∧ s.get (coreObj 0 + 2) 3 ≠ 0)
    ∧ works 0 [0x04, 0, 0] ∧ 0 ≤ ((started 0 [0x04, 0, 0]).core 0).committed
    ∧ works 0 [0x04, 0, 1] id (fun k => { k with stepOpen := true }) := by
  simp only [works]; decide +kernel

def committing (number : Nat := 3) (f : StepRecord → StepRecord := id) (opened : Bool := true) (again : Option Nat := none) : State :=
  started 0 [0x05, 0, number] id fun k => { k with stepOpen := opened, step := 3, record := f k.record, again := again }

/-- Which case a step is in, but for the audit's draw, which is free. -/
theorem witness_StepCommitClosesTheStep :
    (∀ s ∈ [committing, committing 3 id true (some 3), committing 3 (fun r => { r with poisonStored := true }), committing 3 (fun r => { r with suspectAudit := true })],
      canonical s = true ∧ (s.core 0).working 0 0x05 = some (0, startedAs [0x05, 0, 3]) ∧ (s.core 0).stepOpen = true
        ∧ (startedAs [0x05, 0, 3]).q.cmd.word 2 = (s.core 0).step ∧ s.replays = [])
    ∧ ((committing 3 id true (some 3)).core 0).again = some ((committing).core 0).step ∧ (committing.core 0).again = none
    ∧ (committing.core 0).record.poisonStored = false ∧ (committing.core 0).record.suspect = false
    ∧ ((committing 3 fun r => { r with poisonStored := true }).core 0).record.poisonStored = true
    ∧ ((committing 3 fun r => { r with suspectAudit := true }).core 0).record.suspect = true
    ∧ ((committing 3 id false).core 0).stepOpen = false ∧ (startedAs [0x05, 0, 4]).q.cmd.word 2 ≠ ((committing 4).core 0).step
    ∧ (∃ r ∈ ({ committing with replays := [{ core := 0 }] } : State).replays, r.core = 0) := by decide +kernel

/-- An item in a state. -/
def itemIn (state : Nat) : Item :=
  { stream := 1, sequence := 2, job := 0, state := state, pair := 0, source := 0, conn := 0, accepted := 0, started := 0, descriptor := [], payload := []
    completion := [], deliveredOnce := false, messageConfirmed := false, addrConfirmed := false, resumed := false }

theorem witness_EndCompletesTheItemOrRefuses : works 0 [0x08] ∧ works 0 [0x08] id (fun k => { k with stepOpen := true })
    ∧ (let s : State := { started 0 [0x08] id (fun k => { k with item := some (1, 2) }) with items := [itemIn 2] }
       (s.core 0).working 0 0x08 = some (0, startedAs [0x08]) ∧ s.findItem 1 2 = some (itemIn 2) ∧ s.recordFormed (itemIn 2) = false
         ∧ s.intake.rebuilding = false ∧ ({ s with intake := { s.intake with rebuilding := true } } : State).intake.rebuilding = true) := by
  simp only [works]; decide +kernel

/-- An address in core 0's scratchpad. -/
def pad (n : Nat) : Nat := 0x1000000000000000 + n

def stamping : State := started 0 [0x07, 0, pad 16]

theorem witness_TimestampWritesSixteenBytes : Canonical stamping ∧ (stamping.core 0).working 0 0x07 = some (0, startedAs [0x07, 0, pad 16])
    ∧ stamping.awayPlace 0 (stamping.places [] [pad 16]) = none ∧ spaceOf (pad 16) = 1 ∧ pad 16 % 16 = 0
    ∧ (let u := stamping.requestDone 0 0 (stamping.places [] [pad 16])
       u.accessStatus 0 (pad 16) = (.ok, 0) ∧ u.reservedBy none (pad 16) 16 = none ∧ (u.imagePage 0 (pad 16 / 4096 * 4096)).isSome) :=
  ⟨canonical_iff _ (by decide +kernel), by decide +kernel⟩

/-- Core 0 running job 0, which holds it, from its scratchpad. -/
def fetching (n : Nat) (pc : Nat := pad 0) (cmd : Cmd := {}) : State :=
  (State.reset.put 0x2000 2 1).updCore 0 fun k => { k with state := 1, job := 0, pc := pc, prefetch := List.replicate n cmd }

theorem witness_CommandFetchAppendsToPrefetch :
    (∀ e ∈ [(0, pad 0, Status.ok), (127, pad 0, .ok), (0, pad 32, .addrRange), (0, pad (2 ^ 40), .addrReserved)], let s := fetching e.1 e.2.1
      let k := s.core 0
      let pc := (k.pc + 64 * k.prefetch.length) % 2 ^ 64
      let xs := s.places (if 2 ≤ spaceOf pc then [] else [pc]) []
      k.runs = true ∧ k.prefetch.length < 128 ∧ (∀ x ∈ k.prefetch, x.status = 0) ∧ s.awayPlace 0 xs = none
        ∧ (((s.requestDone 0 fetchPort xs).takeUpsets 0 [(pc, 64)] []).fetchStatus 0 k.job pc).1 = e.2.2)
    ∧ 128 ≤ ((fetching 128).core 0).prefetch.length ∧ (State.reset.core 0).runs = false
    ∧ ∃ x ∈ ((fetching 1 (pad 0) { status := 8 }).core 0).prefetch, x.status ≠ 0 := by decide +kernel

/-- Core 0 running, with one command fetched and n queued for an engine. -/
def dispatching (op n : Nat) : State :=
  State.reset.updCore 0 fun k => { k with state := 1, job := 0, prefetch := [{ words := [op] }], queues := [(1, List.replicate n {})] }

theorem witness_CommandDispatchQueuesOrStalls :
    (∀ p ∈ [(0x00, 0), (0x10, 255), (0x10, 256), (0xFF, 0), (0x1000000000010, 0)], ((dispatching p.1 p.2).core 0).mayDispatch = true
      ∧ ((dispatching p.1 p.2).core 0).prefetch = [{ words := [p.1] }])
    ∧ ((fetching 1 (pad 0) { status := 8 }).core 0).mayDispatch = true ∧ (State.reset.core 0).mayDispatch = false
    ∧ engineOf 0x00 = some 0 ∧ engineOf 0x10 = some 1 ∧ ({ words := [0x10] } : Cmd).headerFault = none ∧ ({ words := [0] } : Cmd).headerFault = none
    ∧ engineOf 0xFF = none ∧ ({ words := [0x1000000000010] } : Cmd).opcode = 0x10 ∧ ({ words := [0x1000000000010] } : Cmd).headerFault = some 0
    ∧ ((dispatching 0x10 255).core 0).queue 1 = List.replicate 255 {} ∧ ((dispatching 0x10 256).core 0).queue 1 = List.replicate 256 {} := by
  decide +kernel

/-- Core 0 running, with one command at the head of an engine's queue. -/
def starting (e : Nat) (words : List Nat) (g : Core → Core := id) (met : Bool := false) : State :=
  State.reset.updCore 0 fun k => g { k with state := 1, job := 0, queues := [(e, [{ cmd := { words := words }, waitMet := met }])] }

theorem witness_CommandStartTestsThenStarts :
    (let s := starting 0 [0x100] id true
     let k := s.core 0
     k.queue 0 = [{ cmd := { words := [0x100] }, waitMet := true }] ∧ k.runs = true ∧ k.hasRoom 0 = true
       ∧ (∀ q ∈ k.queue 0, k.tokenMet q 48 = true ∧ k.tokenMet q 54 = true ∧ q.cmd.fences = false ∧ q.cmd.waitEn = true ∧ q.waitMet = true)
       ∧ ((s.popQueue 0 0).checkCommand 0 k.job [] { words := [0x100] }).toOption.isSome = true)
    ∧ (let s := starting 0 [0x03]
       let k := s.core 0
       (∀ q ∈ k.queue 0, q.cmd.fences = true ∧ k.fenceMet q = true)
       ∧ ((s.popQueue 0 0).checkCommand 0 k.job [] { words := [0x03] }).toOption.isSome = true)
    ∧ (((starting 0 [0x00, 0, 1]).popQueue 0 0).checkCommand 0 0 [] { words := [0x00, 0, 1] }).toOption.isNone
    ∧ ((starting 1 [0x10] fun k => { k with active := [(1, List.replicate 4 {})] }).core 0).hasRoom 1 = false
    ∧ (∀ e ∈ [(0, 0, some true), (0, 1, some false), (1, 0, none)],
      let s := starting 0 [0x100 + e.1 * 2 ^ 46, e.2.1]
      ((s.core 0).queue 0).all (fun q => q.cmd.waitEn && !q.waitMet && !q.waiting) = true
        ∧ (s.registerWait ⟨0, 0, syncAddr 0 0, e.1, e.2.1, 0, 0, 0, false, none⟩).2 = e.2.2)
    ∧ (let q : Queued := { cmd := { words := [0, 1 * 2 ^ 48] }, before := [0, 2] }
       (State.reset.core 0).tokenMet q 48 = false ∧ (State.reset.core 0).fenceMet q = false)
    ∧ ((starting 1 [0x10] fun k => { k with active := [(1, List.replicate 3 {})] }).core 0).hasRoom 1 = true := by decide +kernel

theorem witness_CommandCompleteCountsOrStopsTheCore :
    ((started 0 [0x00]).core 0).started 0 = [startedAs [0x00]] ∧ (startedAs [0x00]).done = false ∧ (State.reset.core 0).started 1 = []
    ∧ (∀ e ∈ [(1, 0x10, 0, 0), (1, 0x210, 0, 0), (1, 0x10, 8, 0), (5, 0x53, 0x0E, 0), (5, 0x53, 0x0E, 0xFFFF)],
      let f : Active → Active := fun a => { a with done := true, status := e.2.2.1, desc := e.2.2.2 }
      ((started e.1 [e.2.1] f).core 0).started e.1 = [startedAs [e.2.1] f] ∧ (startedAs [e.2.1] f).done = true ∧ ((started e.1 [e.2.1] f).core 0).runs = true)
    ∧ ({ words := [0x10] } : Cmd).signalEn = false ∧ ({ words := [0x210] } : Cmd).signalEn = true ∧ ({ words := [0x53] } : Cmd).opcode = 0x53
    ∧ (let f : Active → Active := fun a => { a with done := true, status := 8 }
       let s := started 1 [0x10] f fun k => { k with state := 4 }
       (s.core 0).started 1 = [startedAs [0x10] f] ∧ (s.core 0).runs = false)
    ∧ (State.reset.job 0).freshAtStop = false := by
  decide +kernel

/-- A descriptor of rank 2: base, format code, DIM0, DIM1, strides of dimensions 0 and 1. -/
def desc (base format d0 d1 st0 st1 : Nat) : Nat :=
  base + format * 2 ^ 64 + 2 * 2 ^ 72 + d0 * 2 ^ 128 + d1 * 2 ^ 160 + 2 ^ 192 + 2 ^ 224 + st0 * 2 ^ 256 + st1 * 2 ^ 320

/-- A command of opcode op whose descriptor indices are 0, 1, 2 and 3, with a word 3, started on an engine with those descriptors read. -/
def given (e op : Nat) (slots : List Nat) (words : List Nat := []) (f : Active → Active := id) : State × Active :=
  let g (a : Active) : Active := f { a with slots := (List.range slots.length).zip slots }
  let ws := [op, 0, 0 + 1 * 2 ^ 12 + 2 * 2 ^ 24 + 3 * 2 ^ 36 + words.getD 0 0] ++ words.drop 1
  (started e ws g, startedAs ws g)

/-- INT8 matrices of 2 rows of 2 in the scratchpad. -/
def int8At (n : Nat) : Nat := desc (pad n) 0x00 2 2 1 64

def bytesMove (e op : Nat) : State × Active := given e op [int8At 0, int8At 4096]

/-- A state with every bank group of core 0 off, and one with stack 0's reads of layer 0 held: device memory's first page is away. -/
def closed (s : State) : State := s.setGroups 0 fun _ _ => 4

def tensors (a : Active) : Option (Tensor × Tensor) :=
  match a.tensor (a.q.cmd.desc 0), a.tensor (a.q.cmd.desc 12) with
  | some x, some y => some (x, y)
  | _, _ => none

theorem witness_AccessCommandsCopyThenEnd :
    (∀ p ∈ [(1, 0x10), (1, 0x13), (1, 0x14), (5, 0x50)], ∀ off ∈ [false, true], let x := bytesMove p.1 p.2
      let s := if off then closed x.1 else x.1
      (s.core 0).working p.1 p.2 = some (0, x.2)
        ∧ (tensors x.2).any (fun t => s.awayPlace 0 (s.places [t.1.base] [t.2.base]) = none
          ∧ (((s.requestDone 0 p.1 (s.places [t.1.base] [t.2.base])).takeUpsets 0 t.1.spans []).moveTensor 0 p.1 x.2.q t.1 t.2).2.1.isSome = off)) := by
  decide +kernel

/-- A GATHER of 2 rows of 2 bytes by a list of INT32 entries in zeroed memory, or one with an entry beyond the source. -/
def gathering (bad : Bool) : State × Active :=
  let x := given 1 0x11 [int8At 0, int8At 4096, desc (pad 8192) 0x03 2 1 4 0] [0, 2 * 2 ^ 32]
  (if bad then x.1.setBytes (pad 8196) [2] else x.1, x.2)

theorem witness_GatherCopiesTheListedRows : ∀ e ∈ [(false, false), (true, false), (false, true)], let x := gathering e.1
    let s := if e.2 then closed x.1 else x.1
    (s.core 0).working 1 0x11 = some (0, x.2)
      ∧ (match x.2.tensor 0, x.2.tensor 1, x.2.tensor 2 with
        | some src, some dst, some list =>
          let s0 := s.requestDone 0 1 (s.places [src.base, list.base] [dst.base])
          decide (s.awayPlace 0 (s.places [src.base, list.base] [dst.base]) = none ∧ (s0.readErr 0 list.base 8).isSome = e.2
            ∧ ((List.range 2).map fun n => s0.listEntry list n) = [0, if e.1 then 2 else 0] ∧ src.dim 1 = 2
            ∧ (s0.moveRun 0 1 none false src dst { i1 := 0 } { i1 := 0 }).2.isSome = e.2)
        | _, _, _ => false : Bool) := by decide +kernel

/-- FP32 tensors of one element in the scratchpad. -/
def fp32At (n : Nat) : Nat := desc (pad n) 0x1A 1 1 4 4

/-- Whether what an execute or vector command reads comes and its write is refused or not. -/
def computes (s : State) (e : Nat) (a : Active) (src dst : Tensor) (refused : Bool) : Bool :=
  let xs := s.places [src.base] [dst.base]
  let u := (s.requestDone 0 e xs).readRanges 0 src.spans []
  decide (s.awayPlace 0 xs = none ∧ (u.putComputed 0 e dst .rne false (u.openKey 0 a.q false) src.runSpans fun _ _ => [{ value := .nan }]).2.1.isSome = refused)

theorem witness_ComputingCommandsWriteThenEnd : ∀ off ∈ [false, true], let shut (s : State) : State := if off then closed s else s
    (let x := given 3 0x30 [fp32At 0, fp32At 4096] [(0xFFF - 2) * 2 ^ 24]
     ((shut x.1).core 0).working 3 0x30 = some (0, x.2) ∧ (tensors x.2).any (fun t => computes (shut x.1) 3 x.2 t.1 t.2 off) = true
       ∧ (readFusion x.2.slotView x.2.q.loops (x.2.q.cmd.desc 24)).toOption = some {} ∧ (shut x.1).fusionErr 0 {} = none)
    ∧ (∀ op ∈ [0x40, 0x41], let x := given 4 op [fp32At 0, fp32At 4096, fp32At 8192, fp32At 12288]
      ((shut x.1).core 0).working 4 op = some (0, x.2)
        ∧ (match x.2.tensor (x.2.q.cmd.desc 0), x.2.tensor (x.2.q.cmd.desc 36) with
          | some src, some dst => computes (shut x.1) 4 x.2 src dst off
          | _, _ => false : Bool) = true
        ∧ (Domain.ofField (bits (x.2.q.cmd.word 2) 54 2)).isSome)
    ∧ (let x := given 4 0x42 [desc (pad 0) 0x03 1 1 4 4, fp32At 4096, fp32At 8192, fp32At 12288]
       ((shut x.1).core 0).working 4 0x42 = some (0, x.2)
        ∧ (match x.2.tensor (x.2.q.cmd.desc 0), x.2.tensor (x.2.q.cmd.desc 12), x.2.tensor (x.2.q.cmd.desc 36) with
          | some ix, some tab, some dst =>
            let s := shut x.1
            let xs := s.places [ix.base, tab.base] [dst.base]
            let u := (s.requestDone 0 4 xs).readRanges 0 (ix.spans ++ tab.spans) []
            let w := u.vtabRun 0 ix tab dst (u.openKey 0 x.2.q false) {}
            decide (s.awayPlace 0 xs = none ∧ w.2.1.isSome = off ∧ w.2.2.1 = none)
          | _, _, _ => false : Bool)) := by decide +kernel

def wloading : State × Active := given 2 0x22 [int8At 0]

theorem witness_WloadLatchesEveryElement :
    (∀ off ∈ [false, true], let s := if off then closed wloading.1 else wloading.1
      (s.core 0).working 2 0x22 = some (0, wloading.2) ∧ (s.core 0).arraysFree = true
      ∧ (match wloading.2.tensor (wloading.2.q.cmd.desc 0) with
        | some w =>
          let u := (s.requestDone 0 2 (s.places [w.base] [])).readRanges 0 w.spans []
          decide (s.awayPlace 0 (s.places [w.base] []) = none ∧ canonical u = true ∧ w.dim 0 ≤ 512
            ∧ (List.range (w.dim 1)).all fun j => (u.lineErr 0 w j).isSome = off)
        | none => false : Bool)) := by decide +kernel

def mmIn (f : Active → Active := id) : State × Active := given 2 0x20 [int8At 0, int8At 4096, fp32At 8192] [0xFFF000000000 - 3 * 2 ^ 36, pad 16384, 2] f

def mmSegIn (n : Nat := 1) : State × Active :=
  given 2 0x21 [int8At 0, int8At 4096, fp32At 8192, 0, desc (pad 20480) 0x03 2 1 4 0] [0, 0, 4] fun a =>
    { a with segments := List.replicate n (toLE 4 0 ++ toLE 4 1 ++ toLE 4 0 ++ toLE 4 0 ++ toLE 2 0xFFF ++ toLE 2 0xFFF ++ toLE 2 0xFFF) }

theorem witness_MatrixPassStreamsIntoTheArrays : ∀ off ∈ [false, true], let shut (s : State) : State := if off then closed s else s
    (let x := mmIn
     let s := shut x.1
     (s.core 0).working 2 0x20 = some (0, x.2) ∧ (s.core 0).arraysFree = true
      ∧ (tensors x.2).any (fun t => pairKind t.1.format t.2.format = some .integer ∧ s.awayPlace 0 (s.places [t.1.base, t.2.base] []) = none
          ∧ ((mmPasses (s.widths 0) (bit (x.2.q.cmd.word 2) 48) (t.1.dim 0) (bits (x.2.q.cmd.word 4) 0 32) (t.1.dim 1) (t.2.dim 1))[x.2.streamed]?).any
              fun p => p.parts.all fun y =>
                ((s.requestDone 0 2 (s.places [t.1.base, t.2.base] [])).mmLines 0 t.1 t.2 p.k0 p.k1 y).err.isSome = off
                  && decide (startsReads .integer p.first (x.2.q.cmd.word 3) (t.2.dim 1) y = [])))
    ∧ (let x := mmSegIn
       let s := shut x.1
       (s.core 0).working 2 0x21 = some (0, x.2) ∧ (s.core 0).arraysFree = true
      ∧ (match x.2.tensor (x.2.q.cmd.desc 0), x.2.tensor (x.2.q.cmd.desc 12), x.2.tensor (bits (x.2.q.cmd.word 4) 0 12) with
        | some ta, some tb, some tl => decide (pairKind ta.format tb.format = some .integer ∧ s.awayPlace 0 (s.places [ta.base, tb.base, tl.base] []) = none
          ∧ ((segTiles (s.widths 0) (bit (x.2.q.cmd.word 2) 48) (tb.dim 1) (x.2.segments.map segmentOf))[x.2.streamed]?).any
              fun ps => ps.all fun y => (s.segLines 0 ta tl (x.2.segOps (((x.2.segments.map segmentOf)).getD y.seg (segmentOf [])) tb) (ta.dim 0) y).err.isSome = off)
        | _, _, _ => false : Bool))
    ∧ (let x := mmSegIn 0
       (x.1.core 0).working 2 0x21 = some (0, x.2) ∧ x.2.segments = []) := by decide +kernel

theorem witness_PassEndDrainsTheArrays :
    (∀ e ∈ [(1, false), (2, false), (1, true)],
      let x := given 2 0x20 [int8At 0, int8At 4096, fp32At 8192] [0xFFF000000000 - 3 * 2 ^ 36, pad 16384, e.1] fun a => { a with streamed := 1 }
      let s := if e.2 then closed x.1 else x.1
      (((List.range 1).zip ((s.core 0).started 2)).find? fun y => decide (y.2.drained < y.2.streamed) && !y.2.done) = some (0, x.2) ∧ x.2.stopping = false
        ∧ (match x.2.tensor (x.2.q.cmd.desc 0), x.2.tensor (x.2.q.cmd.desc 12), x.2.tensor (x.2.q.cmd.desc 24) with
          | some ta, some tb, some td =>
            let xs := s.places ((x.2.fusion (x.2.q.cmd.desc 36)).tensors.map (·.base)) [td.base]
            let y := (s.requestDone 0 2 xs).takeMismatches 0 0 x.2 x.2.drained (x.2.bad ++ [])
            decide (pairKind ta.format tb.format = some .integer ∧ s.awayPlace 0 xs = none
              ∧ ((mmPasses (s.widths 0) (bit (x.2.q.cmd.word 2) 48) (ta.dim 0) (bits (x.2.q.cmd.word 4) 0 32) (ta.dim 1) (tb.dim 1))[y.2.drained]?).any
                fun p => p.last = decide (e.1 = 2)
                  ∧ (e.1 = 1 → (eachUntil (fun u (z : Nat × Part) => u.drainPsum 0 (x.2.q.cmd.word 3) 2 .integer z.2 z.1 ((y.1.handOver 0).core 0).drainBuffer y.2.passPoison)
                      (rowOrder p.parts) (y.1.handOver 0)).2.isSome = e.2))
          | _, _, _ => false : Bool))
    ∧ (let x := mmIn fun a => { a with streamed := 1, stopping := true }
       (x.1.core 0).started 2 = [x.2] ∧ x.2.stopping = true ∧ x.2.done = false ∧ x.2.drained < x.2.streamed)
    ∧ (let x := mmSegIn
       x.2.q.cmd.opcode ≠ 0x20 ∧ ((segTiles (x.1.widths 0) false 2 (x.2.segments.map segmentOf))[0]?).isSome)
    ∧ (State.reset.core 0).started 2 = [] := by decide +kernel

/-- An INT8 latch set of two rows of two columns. -/
def latched : LatchSet := { format := 0, rows := 2, width := 2 }

theorem witness_ResidentWideAndSplitProductsEnd :
    (∀ off ∈ [false, true], let x := given 2 0x23 [int8At 0, int8At 4096, desc (pad 8192) 0x03 2 2 4 64] [0xFFF000000000 - 3 * 2 ^ 36 + (0xFFF000 - 0x1000)]
     let s := x.1.updCore 0 fun k => { k with latch := some latched }
     let s := if off then closed s else s
     (s.core 0).working 2 0x23 = some (0, x.2) ∧ (s.core 0).arraysFree = true ∧ (s.core 0).latch = some latched
      ∧ (match x.2.tensor (x.2.q.cmd.desc 0), x.2.tensor (x.2.q.cmd.desc 24) with
        | some ta, some td => decide ((s.mmwLines 0 x.2 latched ta td).err.isSome = off ∧ pairKind ta.format .int8 = some .integer
            ∧ s.awayPlace 0 (s.places [ta.base] [td.base]) = none ∧ s.fusionErr 0 (x.2.fusion (x.2.q.cmd.desc 36)) = none
            ∧ (s.mmwWrite 0 td {} true false [] (ta.dim 1) (td.dim 0) {}).2.1.isSome = off)
        | _, _ => false : Bool))
    ∧ (∀ dir ∈ [0, 1, 2], let x := given 2 0x24 [] [0, pad (2 ^ 24), dir]
       (x.1.core 0).working 2 0x24 = some (0, x.2) ∧ bits (x.2.q.cmd.word 4) 0 2 = dir ∧ (x.1.core 0).arraysFree = true)
    ∧ (given 2 0x24 [] [0, pad (2 ^ 24), 1]).1.rangesErr 0 (accRows (pad (2 ^ 24)) 1024 false) = none
    ∧ (State.reset.rangesErr 0 []).isNone ∧ ((closed State.reset).rangesErr 0 (accRows (pad (2 ^ 24)) 1024 false)).isSome
    ∧ (∀ off ∈ [false, true], let x := given 2 0x25 [desc (pad 0) 0x1B 1 1 8 8, desc (pad 4096) 0x1B 1 1 8 8, desc (pad 8192) 0x1B 1 1 8 8] [0, pad 16384, 2]
       let s := if off then closed x.1 else x.1
       (s.core 0).working 2 0x25 = some (0, x.2)
      ∧ (match x.2.tensor (x.2.q.cmd.desc 0), x.2.tensor (x.2.q.cmd.desc 12), x.2.tensor (x.2.q.cmd.desc 24) with
        | some ta, some tb, some td => decide (s.awayPlace 0 (s.places [ta.base, tb.base] [td.base, x.2.q.cmd.word 3]) = none
            ∧ (s.lineErr 0 ta 0).isSome = off ∧ (s.lineErr 0 tb 0).isSome = off ∧ ta.dim 1 = 1 ∧ tb.dim 1 = 1)
        | _, _, _ => false : Bool)) := by decide +kernel

theorem witness_AccumulatorsSurviveDrainAndReload : 2 ^ 32 - 1 < 2 ^ 32 ∧ -(2 ^ 47 : Int) ≤ 2 ^ 47 - 1 ∧ (2 ^ 47 - 1 : Int) < 2 ^ 47 := by decide

/-- Connection 0, open, to module 9 by port 1. -/
def linked (s : State) : State := s.setConn 0 { phase := 1, peer := 9, port := 1, limit := 8208, window := 256 }

/-- An address of module m's window 0x012. -/
def window (m : Nat) : Nat := winAddr m 0x012 0x40

/-- Window 0x012 over an address, open to the module itself for every right. -/
def opening (a : Nat) (s : State) : State := s.put 0x2400 0x13 (a + 0x1000 * 2 ^ 64 + 0x1F * 2 ^ 128)

theorem witness_SignalGoesToItsObject : works 0 [0x02, 0, object0, 1] ∧ spaceOf object0 = 2 ∧ works 0 [0x02, 0, object0, 1] (fun a => { a with streamed := 1 })
    ∧ works 0 [0x02, 0, window 0, 1] ∧ works 0 [0x02, 0, window 9, 1] ∧ spaceOf (window 9) ≠ 2 ∧ winModule (window 0) = State.reset.moduleNo
    ∧ winModule (window 9) ≠ State.reset.moduleNo ∧ (State.reset.connTo 9).2 = none ∧ ((linked State.reset).connTo 9).2 = some 0
    ∧ ((State.reset.windowSignal (State.reset.accessOf 0 (window 0) 8 4)).2.getRight?).isSome
    ∧ (let s := opening object0 (started 0 [0x02, 0, window 0, 1])
       (s.windowSignal (s.accessOf 0 (window 0) 8 4)).2.getLeft? = some (object0 + 8)) := by
  simp only [works]; decide +kernel

/-- Group 0 with cores 0 and 1, the root 0, of job 0. -/
def grouped (s : State) : State := (s.put 0x2200 1 (2 ^ 63 + 3)).put 0x2300 1 (2 ^ 63 + 3)

/-- A group command of group 0. -/
def grouping (op : Nat) (d : Nat) : State × Active :=
  let x := given 5 op [d, int8At 4096] [2 ^ 40 - 2 * 2 ^ 24 - 3 * 2 ^ 36]
  (grouped x.1, x.2)

theorem witness_GroupTransfersReachEveryMember :
    (∀ e ∈ [(0x51, false), (0x52, false), (0x51, true), (0x52, true)], let x := grouping e.1 (int8At 0)
      let s := if e.2 then closed x.1 else x.1
      (s.core 0).working 5 e.1 = some (0, x.2) ∧ (s.core 0).unsent 5 e.1 = some (0, x.2) ∧ x.2.q.cmd.group = 0
        ∧ (tensors x.2).any (fun t => s.awayPlace 0 (s.places [t.1.base] []) = none
          ∧ ((s.requestDone 0 5 (s.places [t.1.base] [])).tensorErr 0 t.1).isSome = e.2))
    ∧ (let x := grouping 0x51 (int8At 0)
       (x.1.group true 0).map (fun g => groupMembers g.1 0) = some [1, 0]
        ∧ (∀ l ∈ [[], [1, 0]], let o : GroupOp := ⟨true, 0, 0, 0, 0, 3, 0, 0, [], [], l, 0, 0, 0⟩
          let s : State := { x.1.putActive 0 5 0 { x.2 with operation := some 0 } with ops := [o] }
          s.opOf true 0 0 = some o ∧ (s.groupOn 0x51 0 0 0).isSome ∧ (∀ m ∈ l, s.mcastComes o m = true)
            ∧ ((l.filter (s.mcastComes o)).foldl (fun s m => match s.opOf true 0 0 with
              | some o => s.writeMember o m
              | none => s) s).opOf true 0 0 ≠ none))
    ∧ (let x := grouping 0x52 (desc (pad 0) 0x1A 1 1 4 4)
       ((x.1.openOp 0 0 0 0).opOf false 0 0).isSome)
    ∧ (let x := grouping 0x52 (desc (pad 0) 0x1A 1 1 4 4)
       let o : GroupOp := ⟨false, 0, 0, 0, 0, 3, 0, 0, [⟨1, 32, [0], [false], false⟩], [], [], 0, 0, 0⟩
       let s : State := { (x.1.updCore 1 fun k => { k with state := 1, job := 0 }).putActive 1 5 0 x.2 with ops := [o] }
       s.opOf false 0 0 = some o ∧ 1 ≠ o.root ∧ ((o.of 1).any fun x => !x.taken) = true ∧ s.partialTaken o 1 = true ∧ s.txnOf 1 5 = none) := by
  decide +kernel

theorem witness_RemoteTransfersUseWindowsOrMessages :
    (∀ op ∈ [0x53, 0x54], ∀ m ∈ [0, 9], let x := given 5 op [int8At 0, int8At 4096] [0, window m, 0]
      (x.1.core 0).unsent 5 op = some (0, x.2) ∧ (x.1.connTo 9).2 = none ∧ ((linked x.1).connTo 9).2 = some 0
        ∧ decide (winModule (window m) = x.1.moduleNo) = decide (m = 0)
        ∧ (tensors x.2).any (fun t => x.1.rangesErr 0 t.1.imageRanges = none ∧ ((closed x.1).rangesErr 0 t.1.imageRanges).isSome
          ∧ x.1.awayPlace 0 (x.1.places [t.1.base] (x.1.ownTarget (decide (m = 0)) (window m))) = none))
    ∧ (∀ e ∈ [false, true], let x := given 5 0x53 [int8At 0, int8At 4096] [0, window 0, 0]
       let s := if e then x.1 else opening (pad 8192) x.1
       (tensors x.2).any fun t => (s.writeOwn 0 (window 0) 1 (some 0) [] (s.writeParts t.1 (window 0) 8192)).2.isSome = e)
    ∧ (∀ e ∈ [false, true], let x := given 5 0x54 [int8At 0, int8At 4096] [0, window 0, 0]
       let s := if e then x.1 else opening (pad 8192) x.1
       (tensors x.2).any fun t => (s.readOwn 0 0 t.2 (window 0) [] (readParts t.2.imageLen (window 0) 8192)).2.isSome = e) := by decide +kernel

/-- Whether a write of that owner is admitted by session 0 in a state with a property. -/
def admitted (s : State) (i j : Nat) (data : Bytes) (p : State → Bool := fun _ => true) : Bool :=
  (s.admitsWrite req i j data).any fun x => x.1 = 0 && p x.2

theorem witness_MaquetteRequestsEditUnderTheLock :
    admitted owner 0xF002 0 [1] (fun t => t.get 0xF002 1 = 0) = true
    ∧ admitted (owner.put 0xF002 1 1) 0xF002 0 [1] (fun t => t.get 0xF002 1 = 0 + 1) = true
    ∧ admitted (owner.put 0xF002 1 2) 0xF002 0 [1] (fun t => t.get 0xF002 1 ≠ 0 && t.get 0xF002 1 ≠ 0 + 1) = true
    ∧ (∀ v ∈ [0, 1, 2], admitted (owner.put 0xF002 1 v) 0xF002 0 [2] (fun t => t.get 0xF002 1 = v) = true)
    ∧ admitted (owner.put 0xF002 1 1) 0xF001 0 [1] = true ∧ (owner.put 0xF002 1 1).get 0xF002 1 ≠ 0
    ∧ (objRow 0x2620 1).map (·.access) = some .rwm
    ∧ admitted ((owner.put 0xF002 1 1).found.1) 0x2620 1 [9, 0] (fun t => t.rangeOk 0x2620 1 (writeMask 0x2620 1 9)) = true
    ∧ (objRow 0x3100 1).map (·.access) = some .rw
    ∧ admitted owner.found.1 0x3100 1 [4] (fun t => t.rangeOk 0x3100 1 (writeMask 0x3100 1 4)) = true
    ∧ admitted owner.found.1 0x3100 1 [255] (fun t => !t.rangeOk 0x3100 1 (writeMask 0x3100 1 255)) = true := by decide +kernel

/-- The owner holding the lock, with swap_state v. -/
def swapIn (v : Nat) : State := (owner.put 0xF002 1 1).put 0xF000 2 v

theorem witness_SwapRequestsBeginRefuseOrCancel :
    (∀ v ∈ [1, 2], admitted (swapIn 3) 0xF000 0 [BitVec.ofNat 8 v] (·.swapping) = true)
    ∧ admitted (swapIn 0) 0xF000 0 [1] (fun t => !t.swapping && t.maquetteFirstBad = none) = true
    ∧ admitted { swapIn 0 with maq := [(okey 0x4101 1, 1)] } 0xF000 0 [1] (fun t => !t.swapping && t.maquetteFirstBad.isSome) = true
    ∧ admitted (swapIn 0) 0xF000 0 [2] (fun t => !t.swapping && ! (t.now + 2000000 ≤ t.get 0xF000 1)) = true
    ∧ (∀ T ∈ [2000000, 1000000000000], admitted ((swapIn 0).put 0xF000 1 T) 0xF000 0 [2] (fun t => !t.swapping && t.now + 2000000 ≤ t.get 0xF000 1
        && t.get 0xF000 1 ≤ t.now + 1000000000000 && t.changedCores = []) = true)
    ∧ admitted { (((swapIn 0).put 0xF000 1 2000000).put 0x2000 0x0D 2).put 0x2000 2 1 with maq := [(okey 0x4101 1, 23)] } 0xF000 0 [2]
        (fun t => t.changedCores.any fun c => [2, 3].contains (t.jobState 0) && (t.jobCores 0).contains c) = true
    ∧ (∀ v ∈ [1, 2], admitted (swapIn v) 0xF000 0 [3] (fun t => [1, 2].contains t.swapState && !t.goAcked) = true)
    ∧ admitted (swapIn 0) 0xF000 0 [3] (fun t => ! [1, 2].contains t.swapState) = true := by decide +kernel

/-- The owner in a power state, with a transition under way or not, and a job in a state. -/
def powered (v : Nat) (entering : Option Nat := none) (job : Nat := 0) : State := { (owner.put 0x3300 1 v).put 0x2000 0x0D job with entering := entering }

theorem witness_StateRequestsAreAnsweredThenActed :
    (∀ op ∈ [0, 1, 2, 3, 4], (∀ v ∈ [0, 1, 2, 3, 4], admitted (powered v) 0xF020 0 [BitVec.ofNat 8 op]
        (fun t => t.entering = none && t.powerState = v && !t.powerHeld) = true)
      ∧ admitted (powered 0 (some 3)) 0xF020 0 [BitVec.ofNat 8 op] (fun t => t.entering = some 3 && !t.powerHeld) = true
      ∧ admitted (powered 0 none 2) 0xF020 0 [BitVec.ofNat 8 op] (fun t => t.entering = none && t.powerHeld) = true)
    ∧ (∀ v ∈ [0, 1, 2],
      admitted owner (coreObj 21 + 1) 4 [255, BitVec.ofNat 8 v] (fun t => wholeSpans (t.layoutApplied 21) 255 && !t.groupsMoving 21 && (t.core 21).job = 0xFF
        && (t.core 21).reservedRanges = []) = true
      ∧ admitted (owner.put (coreObj 21 + 1) 2 2) (coreObj 21 + 1) 4 [1, BitVec.ofNat 8 v] (fun t => !wholeSpans (t.layoutApplied 21) 1) = true
      ∧ admitted (owner.setGroups 21 fun _ _ => 1) (coreObj 21 + 1) 4 [255, BitVec.ofNat 8 v] (fun t => wholeSpans (t.layoutApplied 21) 255 && t.groupsMoving 21) = true
      ∧ admitted (owner.updCore 21 fun k => { k with job := 63 }) (coreObj 21 + 1) 4 [255, BitVec.ofNat 8 v] (fun t => (t.core 21).job ≠ 0xFF) = true)
    ∧ (∀ v ∈ [1, 2], admitted owner 0xF010 0 [BitVec.ofNat 8 v] (fun t => t.resetting.kind = 0 && !t.swapping) = true
      ∧ admitted (owner.put 0xF000 2 3) 0xF010 0 [BitVec.ofNat 8 v] (fun t => t.resetting.kind = 0 && t.swapState = 3) = true
      ∧ admitted { owner.put 0xF000 2 2 with swap := { goSent := true } } 0xF010 0 [BitVec.ofNat 8 v] (fun t => t.swapState = 2 && t.goAcked) = true
      ∧ admitted { owner with resetting := { kind := 1 } } 0xF010 0 [BitVec.ofNat 8 v] (fun t => t.resetting.kind ≠ 0) = true) := by decide +kernel

theorem witness_ManualSettingsAreLoggedAndApplied :
    (∀ v ∈ [1, 2, 3, 4, 5], admitted (owner.put 0x7010 2 v) 0x7010 4 [1] = true ∧ (owner.put 0x7010 2 v).get 0x7010 2 = v)
    ∧ (∀ e ∈ [(2, 2, true, true), (2, 1, true, false), (3, 2, false, true)],
      let u := (((started 0 [0x00]).put 0x7010 1 object0).put 0x7010 2 e.1).put 0x2000 0x0D e.2.1
      spaceOf (u.get 0x7010 1) = 2 ∧ addrReserved object0 = false ∧ addrOut object0 = false
        ∧ (manualSignal ((u.takeSignals 0 (setPositions 5 31)).1.syncGet 0 0) e.1 (u.get 0x7010 3)).isSome = e.2.2.1
        ∧ u.hasRunningJob 0 = e.2.2.2) ∧ spaceOf (State.reset.get 0x7010 1) ≠ 2 := by decide +kernel

theorem witness_SecurityRequestsLoadMeasureAndAdvance :
    (∀ k ∈ [0, 1, 2, 3], bits (ofLE (List.replicate 64 0 ++ [BitVec.ofNat 8 k] ++ List.replicate 7 0)) 512 8 ≤ 3
        ∧ admitted owner 0x1040 8 (List.replicate 64 0 ++ [BitVec.ofNat 8 k] ++ List.replicate 7 0) = true)
    ∧ admitted owner 0x1060 3 [1] = true ∧ admitted owner 0x1060 4 [1] = true ∧ admitted owner 0x1060 4 [2] = true
    ∧ admitted owner 0x1061 2 [1] = true ∧ admitted owner 0x1070 3 [1] = true ∧ admitted owner 0x1080 2 (List.replicate 640 0) = true
    ∧ admitted owner 0x1080 5 [1] = true
    ∧ (∀ e ∈ [(none, 0), (none, 1), (some 0, 1), (some 1, 1)], admitted { owner.put 0x1060 1 e.2 with security := { owner.security with loader := e.1 } } 0x1060 3 [1]
        (fun t => t.security.loader = e.1 && t.loadBusy 0 = (e.1 = some 1) && t.runs (t.get 0x1060 1) = (e.2 = 0) && decide (1 ≤ targetSize (t.get 0x1060 1))) = true
      ∧ ∀ v ∈ [1, 2], admitted { owner with security := { owner.security with loader := e.1 } } 0x1060 4 [v]
        (fun t => t.security.loader = e.1 && t.loadBusy 0 = (e.1 = some 1)) = true)
    ∧ admitted (owner.put 0x1060 2 (targetSize 0)) 0x1060 3 [1] (fun t => decide (targetSize 0 < t.get 0x1060 2 + 1)) = true
    ∧ (∀ v ∈ [0, 1], admitted { owner with security := { owner.security with svn := v } } 0x1061 2 [1] (fun t => decide (t.get 0x1061 1 < t.security.svn) = decide (v = 1)) = true)
    ∧ (∀ e ∈ [(0, 0, false), (1, 0, true), (64, 256, true), (67108865, 0, false)],
      admitted { owner.put 0x1070 2 e.1 with security := { owner.security with programLog := List.replicate e.2.1 [] } } 0x1070 3 [1]
        (fun t => t.measurable (t.get 0x1070 1) (t.get 0x1070 2) = e.2.2 && decide (256 ≤ t.security.programLog.length) = decide (e.2.1 = 256)) = true)
    ∧ (State.reset.tokenOk [] ⟨false⟩) = false
    ∧ (let u := State.reset.put 0x1040 1 (3 * 2 ^ 512)
       credLevel (u.get 0x1040 1) = 3 ∧ credLevel 0 ≠ 3 ∧ ∀ i, i < 8 → i + 1 ≠ 1 → credLevel (u.get 0x1040 (i + 1)) ≠ 3) := by decide +kernel

theorem witness_DebugAccessIsChallengedTimedAndScoped :
    (owner.admits req.src (reqUnit req 0x03 0x1080 1 [])).any (fun x => x.2.readStatus x.1 0x1080 1 0 = 0) = true
    ∧ (let s : State := { State.reset with security := { State.reset.security with challenge := some ([], 100) } }
       s.security.challenge = some ([], 100) ∧ s.get 0x1080 4 = 0 ∧ (s.put 0x1080 4 100).get 0x1080 4 = 100 ∧ (s.put 0x1080 4 101).get 0x1080 4 = 101)
    ∧ State.reset.security.challenge = none ∧ (State.reset.put 0x1080 4 1).get 0x1080 4 ≠ 0 ∧ bit ((State.reset.put 0x1080 3 1).get 0x1080 3) 0 = true
    ∧ State.reset.get 0x4001 2 ≠ 1 ∧ bit (State.reset.get 0x1080 3) 0 = false := by decide +kernel

/-- A channel of statistics in use: port frames of the module, enabled. -/
def watching (m : Monitor := {}) (v : Nat := 0x05 + 2 ^ 24) : State := { (State.reset.put (monObj 5) 1 v) with monitors := [(5, m)] }

theorem witness_MonitorRequestsSnapshotClearOrSet :
    admitted owner 0x5000 1 [1] = true ∧ admitted owner 0x5000 1 [2] = true
    ∧ (∀ v ∈ [1, 2, 3], admitted owner (monObj 127) 5 [BitVec.ofNat 8 v] = true)
    ∧ admitted owner (monObj 0) 1 (List.replicate 32 0) = true ∧ admitted owner (monObj 0) 4 (List.replicate 8 0) = true
    ∧ (∀ e ∈ [(1, 0, true), (3, 0, true), (4, 999, false), (2, 0, true)], owner.monSettingOk 0 e.1 e.2.1 = e.2.2)
    ∧ (owner.put (monObj 0) 3 1).monSettingOk 0 4 1000 = true
    ∧ State.reset.get 0x5000 3 = 0 ∧ State.reset.now + 100000 ≤ (State.reset.put 0x5000 3 100000).get 0x5000 3
    ∧ (State.reset.put 0x5000 3 99999).get 0x5000 3 < State.reset.now + 100000 := by decide +kernel

theorem witness_MonitorEventsEnterTheStatistics :
    Canonical (watching {}) ∧ monEnable ((watching {}).monConfig 5) = true ∧ monSource ((watching {}).monConfig 5) ≠ 0 ∧ (watching {}).channelUp 5 = true
    ∧ max ((watching {}).monitor 5).start ((watching {}).monitor 5).opens ≤ 0 ∧ ((watching {}).monitor 5).closes = 0
    ∧ (((watching {}).monitor 5).seen + 1) % 2 ^ monSample ((watching {}).monConfig 5) = 0 ∧ ((watching {}).monitor 5).taken < monRate
    ∧ Tab.rising ((watching {}).monitor 5).bins = true
    ∧ ¬ (0 < ((watching { closes := 1 }).monitor 5).opens) ∧ ((watching { closes := 1 }).monitor 5).closes ≠ 0
    ∧ ((watching { closes := 1 }).monitor 5).closes ≤ 1
    ∧ (watching { opens := 1 }).now < ((watching { opens := 1 }).monitor 5).opens ∧ ((watching {}).put (monObj 5) 4 1).get (monObj 5) 4 ≠ 0
    ∧ (watching {}).get (monObj 5) 4 = 0 ∧ monEnable (State.reset.monConfig 5) = false
    ∧ ({ State.reset with snapshotAt := some (5, true) } : State).snapshotAt = some (5, true) := ⟨canonical_iff _ (by decide +kernel), by decide +kernel⟩

theorem witness_SpdmRequestsAreAnsweredWithinTheSubset :
    State.reset.silent req.src = false ∧ (spdm).ok = true ∧ (spdm).version.toNat ∈ [0x11, 0x12, 0x13] ∧ (spdm).param1 = 0 ∧ (spdm).param2.toNat ≤ 11
    ∧ ({ spdm with param2 := 0xFF } : Spdm).param2.toNat = 0xFF ∧ ¬ ({ spdm with version := 0x10 } : Spdm).version.toNat ∈ [0x11, 0x12, 0x13]
    ∧ State.reset.freeSession = some 0 ∧ owner.freeSession = some 1
    ∧ ((List.range 32).foldl (fun s n => s.setSession n (some { source := req.src })) State.reset).freeSession = none
    ∧ (owner.session (spdm).session).any (·.secure) = true ∧ owner.silent req.src = false := by decide +kernel

/-- A unit of the owner's secured session for an object, with data. -/
def ownUnit (service index sub : Nat) (data : Bytes := []) (param : Nat := 0) : TchUnit :=
  { unit service with envelope := true, index := BitVec.ofNat 16 index, subindex := BitVec.ofNat 8 sub, data := data, length := BitVec.ofNat 16 data.length
                      param := BitVec.ofNat 32 param }

/-- The owner with a transfer of that unit's transaction. -/
def transferring (write : Bool) (acked next resends : Nat) : State := owner.updSession 0 fun x => { x with transfers :=
  [{ txn := 258, write := write, index := 0x1060, sub := 3, total := 8, data := [], next := next, acked := acked, resends := resends, active := 0 }] }

theorem witness_UnitsAreServedByTheirService :
    (∀ e ∈ [(ownUnit 1 0x1010 0, true), (ownUnit 1 0x1080 2, false), (ownUnit 3 0x1010 0, true), (ownUnit 3 0x1080 2, false)],
      let idx := e.1.index.toNat
      let sub := e.1.subindex.toNat
      headerFits e.1.service.toNat e.1 = true ∧ (objRow idx sub).isSome = true ∧ e.1.envelope = req.src.env.isSome
        ∧ (owner.found.1.admits req.src e.1).any (fun x => decide (x.2.readStatus x.1 idx sub e.1.type.toNat = 0) = e.2
          && (objRow idx sub).all fun r => !e.2 || decide ((x.2.shown r idx sub false).length ≤ 8)) = true)
    ∧ (∀ e ∈ [(ownUnit 2 0x3100 1 [4], expeditedSize 1, true), (ownUnit 2 0x1010 0 [4], expeditedSize 1, false), (ownUnit 4 0x1060 3 [] 1, segmentedSize 1, true),
        (ownUnit 4 0x1010 0 [] 1, segmentedSize 1, false)],
      let idx := e.1.index.toNat
      let sub := e.1.subindex.toNat
      headerFits e.1.service.toNat e.1 = true ∧ (objRow idx sub).isSome = true
        ∧ (owner.found.1.admits req.src e.1).any (fun x => decide (x.2.writeStatus x.1 idx sub e.1.type.toNat false e.2.1 = 0) = e.2.2) = true)
    ∧ (∀ e ∈ [(ownUnit 5 0 0, true), (ownUnit 6 0 0, false)], headerFits e.1.service.toNat e.1 = true
      ∧ ((transferring e.2 0 0 0).found.1.reaches req.src e.1).any (fun x => (x.2.transfer x.1 258).any fun t => t.write = e.2) = true)
    ∧ ((owner.found.1.reaches req.src (ownUnit 5 0 0)).any fun x => (x.2.transfer x.1 258).isNone) = true
    ∧ (∀ e ∈ [(ownUnit 1 0x2400 0x13, 32), (ownUnit 3 0x7001 0, 0)], (owner.found.1.admits req.src e.1).any (fun x => x.2.readStatus x.1 e.1.index.toNat e.1.subindex.toNat 0 = 0
      && (objRow e.1.index.toNat e.1.subindex.toNat).any fun r => (x.2.shown r e.1.index.toNat e.1.subindex.toNat false).length = e.2) = true)
    ∧ (∀ e ∈ [ownUnit 7 0 0, ownUnit 0x11 0 0], headerFits e.service.toNat e = true ∧ (owner.reaches req.src e).isSome = true) := by decide +kernel

theorem witness_RestartingReadsReturnAndRestart :
    (∀ e ∈ [(false, 167), (true, 7)], let idx := if e.1 then 0x3031 else 0x3030
      (owner.admits req.src (reqUnit req 0x03 idx (e.2 + 1) [])).any (fun x => x.2.readStatus x.1 idx (e.2 + 1) 0 = 0) = true)
    ∧ (owner.admits req.src (reqUnit req 0x01 (portObj 16) 0x08 [])).any (fun x => x.2.readStatus x.1 (portObj 16) 0x08 0 = 0) = true := by decide +kernel

/-- An event not acknowledged, and the state that holds both. -/
def unackedEvent (resends : Nat) : Unacked := ⟨7, 5, resends, 0⟩
def withEvent (resends : Nat) : State := { State.reset with unacked := [unackedEvent resends], events := [⟨5, 0x1010, 0, 0, 4⟩] }

theorem witness_SessionTimersResendAbortOrClose :
    (∀ n ∈ [0, 2, 3], ((transferring false 0 1 n).transfer 0 258).any (fun t => !t.write && t.acked < t.next && t.resends = n) = true)
    ∧ (owner.session 0).isSome = true
    ∧ (∀ n ∈ [2, 3], ((withEvent n).unacked.find? fun x => x.subscriber = 7 && x.seq = (5 : BitVec 32).toNat) = some (unackedEvent n)
      ∧ ((withEvent n).events.find? fun e => e.seq = 5).isSome = true) := by decide +kernel

/-- A swap in a state of the machine. -/
def swapAt (v : Nat) (w : Swap) : State := { State.reset.put 0xF000 2 v with swap := w }

/-- A change of route tables that the controller asks for. -/
def routesWanted : Change := ⟨.routes, []⟩

theorem witness_SwapsAdvanceByAcknowledgementAndTime :
    (∀ l ∈ [[3, 4], [3]], (swapAt 1 { image := l }).swapState = 1 ∧ (swapAt 1 { image := l }).swap.image.contains 3 = true)
    ∧ (swapAt 1 {}).swapState = 1 ∧ (swapAt 1 {}).swap.image = [] ∧ (swapAt 3 {}).swapState = 3 ∧ (swapAt 3 {}).swap.confirm = []
    ∧ (swapAt 1 {}).advanceSwap.changes = []
    ∧ (let s : State := { swapAt 1 { image := [3] } with changes := [routesWanted] }
       s.swap.image ≠ [] ∧ s.swap.purpose = .owner ∧ s.unmanaged = false ∧ s.changes.any Change.ofFault = true)
    ∧ (swapAt 2 { goSent := true }).swapState = 2 ∧ (swapAt 2 { goSent := true }).swap.goSent = true
    ∧ (let s := swapAt 3 { confirm := [3] }
       s.swapState = 3 ∧ s.swap.confirm.contains 3 = true)
    ∧ (swapAt 2 { atQuiescent := true, jobs := [0] }).swap.jobs.all (swapAt 2 { atQuiescent := true }).jobQuiet = true
    ∧ (∀ v ∈ [1, 2], let s := swapAt v { jobs := [0] }
       [1, 2].contains s.swapState = true ∧ s.swap.jobs ≠ [] ∧ s.swap.goSent = false ∧ s.swap.atQuiescent = false ∧ s.goAcked = false)
    ∧ (∀ f ∈ [SwapFor.owner, .routes], (swapAt 2 { goSent := true, purpose := f }).goAcked = true)
    ∧ ({ State.reset with resetting := { waitJobs := true } } : State).resetting.waitJobs = true ∧ State.reset.resetting.waitJobs = false
    ∧ (∀ v ∈ [3, 4], let i : Item := { itemIn 2 with stream := 0, descriptor := List.replicate 56 0 ++ [BitVec.ofNat 8 v] }
       ({ State.reset with items := [i] } : State).runningControl = some i ∧ i.control = v) := by decide +kernel

theorem witness_StartsKeepWhatTheirKindKeepsAndBoot :
    (∀ v ∈ [46000, 56000], 46000 ≤ ({ soundBoot with vin := BitVec.ofNat 32 v } : BringUp).vin.toNat ∧ ({ soundBoot with vin := BitVec.ofNat 32 v } : BringUp).vin.toNat ≤ 56000)
    ∧ ({ soundBoot with vin := 45999 } : BringUp).vin.toNat < 46000 ∧ 56000 < ({ soundBoot with vin := 56001 } : BringUp).vin.toNat
    ∧ 10000 ≤ (10000 : BitVec 64).toNat ∧ 36000 ≤ State.reset.power.vin ∧ (9999 : BitVec 64).toNat < 10000
    ∧ ({ State.reset with resetting := { heldLow := true, waitPtp := some 5 } } : State).resetting.heldLow = true ∧ State.reset.resetting.heldLow = false
    ∧ ({ State.reset with resetting := { waitPtp := some 5 } } : State).resetting.waitPtp = some 5 := by decide +kernel

theorem witness_GroupsDrainWakeAndAreScrubbed :
    (∀ v ∈ [0, 5, 6], let s := (State.reset.put (coreObj 0 + 1) 1 1).updCore 0 fun k => { k with state := v }
      s.get (coreObj 0 + 1) 1 ≠ s.layoutApplied 0 ∧ (s.core 0).state ∈ [0, 5, 6])
    ∧ State.reset.get (coreObj 0 + 1) 1 = State.reset.layoutApplied 0 ∧ ¬ ((started 0 [0]).core 0).state ∈ [0, 5, 6]
    ∧ (({ State.reset with entering := some 2 } : State).entering.all (decide <| · < 3)) = true ∧ State.reset.entering.all (decide <| · < 3) = true
    ∧ ({ State.reset with entering := some 3 } : State).entering = some 3
    ∧ State.reset.powerState = 0 ∧ State.reset.entering = none ∧ (State.reset.cores.any fun e => e.2.streams) = false := by decide +kernel

/-- Stack 0's read channel of layer 0 with some of its last links failed, and swaps pending. -/
def channelled (failed : Nat) (pending : List (Nat × Nat) := []) (held : Bool := false) : State :=
  State.reset.updChannel 0 0 0 fun c => { c with failed := (List.range failed).map (543 - ·), pending := pending, held := held }

theorem witness_StacksSwapSparesNarrowLoseAndReformat :
    (∀ e ∈ [(0, false, true), (31, false, true), (32, true, false), (287, false, false), (288, false, false)], let s := channelled e.1
      let old := s.channel 0 0 0
      let c := { old with failed := old.failed ++ [old.linkOf 0], charges := Tab.set [] old.charges 0 [] }
      s.stackLost 0 = false ∧ s.layerLost 0 0 = false ∧ 0 < old.positions ∧ (old.pending.any (·.1 = 0)) = false
        ∧ decide (256 ≤ c.good) = decide (e.1 < 288) ∧ (c.half && !old.half) = e.2.1 ∧ (e.1 < 32 → c.spare.isSome = e.2.2))
    ∧ (let s := channelled 0 [(0, 543)] true
       (s.channel 0 0 0).pending = [(0, 543)] ∧ ((s.channel 0 0 0).pending.any (·.1 = 0)) = true)
    ∧ ((channelled 40 [] true).channel 0 0 0).pending = [] ∧ ((channelled 40 [] true).channel 0 0 0).held = true
    ∧ ({ (channelled 31).channel 0 0 0 with pending := [(7, 512)] } : Channel).spare = none
    ∧ (let v := 0x10000 * 2 ^ 64 + 4096 * 2 ^ 128 + 2 ^ 192
       let s := (State.reset.put 0x2700 64 v).put 0x2702 64 3
       mirrorEntry (s.get 0x2700 64) = some (0, 0x10000, 4096) ∧ s.mirrorState 63 = 3)
    ∧ (let s : State := { State.reset with intake := { State.reset.intake with lostPartitions := [(23, true)] } }
       s.partitionLost 23 = true ∧ Tab.get false s.intake.copied 23 = false ∧ s.partitionLost ((23 + 12) % 24) = false ∧ s.choosePair = some 0)
    ∧ (State.reset.put 0x4100 0x17 (2 ^ 8)).stackLost 0 = true := by decide +kernel

/-- A flit with a SEQ. -/
def flitOf (seq : Nat) (crc : Bool := true) (dest : Nat := 0x3F) : Flit := { flit with seq := BitVec.ofNat 8 seq, crcOk := crc, dest := BitVec.ofNat 6 dest }

/-- A packet of one flit from hub 0 to hub 1. -/
def request (seq : Nat) : Flit := { flitOf seq true 1 with head := true, last := true, src := 0 }

/-- A request for hub 1, and a state that holds it. -/
def asking (phase resends : Nat) : State := State.reset.setTxn 0 (some { core := 0, engine := 1, hub := 1, address := 0, phase := phase, resends := resends })

theorem witness_LinksDeliverInOrderAndHubsResetOrReroute :
    (let k := State.reset.linkSide 0 0
     State.reset.linkDown 0 = false ∧ k.held = false ∧ State.reset.hub (linkHubs 0 0).1 ≠ 1 ∧ State.reset.hub (linkHubs 0 0).2 ≠ 1
       ∧ (k.buffer.find? fun g => g.seq = (flitOf 0).seq) = none ∧ (flitOf 0).seq.toNat = k.next ∧ (flitOf 0).seq.toNat = k.expect
       ∧ (flitOf 1).seq.toNat ≠ k.next ∧ (flitOf 1).seq.toNat ≠ k.expect ∧ (flitOf 0 false).crcOk = false ∧ State.reset.sideOpen 0 0 = true)
    ∧ (∀ f ∈ [flitOf 0, request 0], (State.reset.injected 0 0 f).isSome ∧ ∀ g, State.reset.injected 0 0 f = some g → carries g = carries f
      ∧ ((State.reset.sendFlit 0 0 (entryPort g) g).linkSide 0 0).buffer.getLast?.isSome)
    ∧ State.reset.injected 0 0 { flitOf 0 true 24 with granules := 1 } = none
    ∧ (let s := State.reset.updLink 0 0 fun k => { k with buffer := [flitOf 3] }
       ((s.linkSide 0 0).buffer.find? fun g => g.seq = (flitOf 3 false).seq) = some (flitOf 3))
    ∧ (State.reset.put 0x4600 1 (2 * 2 ^ 16)).linkDown 0 = true
    ∧ (let s := State.reset.updLink 0 0 fun k => { k with buffer := [flit], retries := [0, 0, 0] }
       (s.linkSide 0 0).buffer ≠ [] ∧ (s.linkSide 0 0).held = false ∧ s.linkDown 0 = false)
    ∧ ((State.reset.updLink 0 0 fun k => { k with held := true }).linkSide 0 0).held = true
    ∧ State.reset.unmanaged = false ∧ State.reset.hub 0 = 0 ∧ ({ State.reset with hubs := [(0, 1)] } : State).hub 0 = 1 ∧ Tab.get 0 State.reset.hubResets 0 = 0
    ∧ Tab.get 0 ({ State.reset with hubResets := [(0, 1)] } : State).hubResets 0 ≠ 0
    ∧ (∀ e ∈ [(1, 0), (0, 2), (2, 0), (0, 3)], ((asking e.1 e.2).txn 0).any (fun t => t.phase = e.1 && t.resends = e.2) = true) := by decide +kernel

/-- Port p in a port_state, configured for mode 1. -/
def portAt (p v : Nat) : State := ((State.reset.put (portObj p) 1 v).put (State.reset.portCfg p) 1 1).put (portObj p) 3 255

theorem witness_PortsTrainMoveAndFail :
    (∀ m ∈ [0, 1], let s := (portAt 1 1).put (portObj 1) 2 1
      let s := if m = 0 then (s.put (portObj 1) 2 0).put (State.reset.portCfg 1) 1 0 else s
      s.portUp 1 = false ∧ decide (((if s.get (portObj 1) 2 = 0 then s.trainPort 1 else s).get (portObj 1) 2) = 0) = decide (m = 0))
    ∧ (((portAt 0 5).updPort 0 fun q => { q with roleMoved := true }).portOf 0).roleMoved = true ∧ ((portAt 0 5).portOf 0).roleMoved = false
    ∧ (portAt 1 2).portUp 1 = true
    ∧ (∀ v ∈ [1, 2, 3], (portAt 1 v).portState 1 ∈ [1, 2, 3] ∧ bit ((portAt 1 v).get (portObj 1) 3) 7 = true)
    ∧ (portAt 1 0).portState 1 ≠ 1
    ∧ (∀ v ∈ [0, 1, 4], let s := (portAt 0 v).put 0x2600 0x0A 1
      s.get 0x2600 0x0A ≠ 0 ∧ (s.portOf 0).roleMoved = false ∧ s.portUp 0 = false ∧ s.portMode 0 ≠ 0) ∧ State.reset.unmanaged = false := by decide +kernel

/-- A packet with a good CRC (R303). -/
def sealed (m : CtpPacket) : CtpPacket := { m with crc := BitVec.ofNat 32 (crc32c (packetImage m)) }

theorem witness_FramesAreBufferedAndPaused :
    (State.reset.answersAt 18 (State.reset.macOf 18) = true ∧ State.reset.answersAt 18 (State.reset.macOf 18 + 1) = false) ∧ (
    (portAt 1 0).portUp 1 = false ∧ (portAt 1 2).portUp 1 = true ∧ (portAt 0 3).portUp 0 = true ∧ (portAt 18 2).portUp 18 = true
    ∧ (∀ k ∈ [carrying (packet 0x10), carrying (packet 0x11), .ip4, .flow (.pause 0), .other, .field 1], (frame k).fcsOk = true ∧ ∀ p ∈ [0, 1],
      ((portAt p 2).bump (portObj p) 6).bufferUsed p + cellsOf (frame k).length.toNat ≤ bufferBytes ∧ decide (p = (portAt p 2).hostPort) = decide (p = 0))
    ∧ knownType 0x10 = true ∧ knownType 0x13 = false ∧ State.reset.get 0x2600 5 = 47012
    ∧ (let s := (portAt 1 2).updPort 1 fun q => { q with buffer := [(bufferBytes, none)] }
       bufferBytes < (s.bump (portObj 1) 6).bufferUsed 1 + cellsOf 64)
    ∧ (∀ v ∈ [0, 1, 2], (State.reset.put 0x2600 6 v).get 0x2600 6 = v)
    ∧ ((State.reset.updPort 1 fun q => { q with paused := [(8, 5)], xoff := true }).portOf 1).paused = [(8, 5)] ∧ (State.reset.portOf 1).paused = []
    ∧ ((State.reset.updPort 1 fun q => { q with xoff := true }).portOf 1).xoff = true ∧ (State.reset.portOf 1).xoff = false) :=
  ⟨⟨by simp [State.answersAt], by simp [State.answersAt]; decide +kernel⟩, by decide +kernel⟩

/-- A seated transceiver. -/
def seated (x : Xcvr := {}) : State := State.reset.updXcvr 1 fun _ => { x with present := true }

theorem witness_TransceiversArePolledAndWearIsKept :
    (State.reset.xcvr 1).present = false ∧ (seated.xcvr 1).present = true ∧ ({ cmis with silent := true } : Cmis).silent = true ∧ cmis.silent = false
    ∧ (∀ n ∈ [3, 4], ((seated { silentPolls := n }).xcvr 1).silentPolls = n) := by decide +kernel

/-- A packet of module 9 as it arrives, its source address that of the peer table's entry for it. -/
def arrived (m : CtpPacket) : Arrival := ⟨some 1, sealed m⟩

/-- Port 1 up with a packet at the front of its buffer, over the connection of `linked`, which expects PSN 5. -/
def fronted (m : CtpPacket) : State :=
  ((linked ((portAt 1 2).put 0x2640 10 1)).updConn 0 fun c => { c with expect := 5, version := m.version.toNat }).updPort 1 fun q => { q with buffer := [(64, some (arrived m))] }

/-- A message of the peer, by type and PSN. -/
def message (type psn : Nat) (payload : Bytes := []) : CtpPacket := { packet type payload with src := 9, psn := BitVec.ofNat 32 psn }

theorem witness_SequencedPacketsAreActedOnInOrder :
    (∀ t ∈ [0x10, 0x20, 0x21, 0x22, 0x23, 0x24, 0x25, 0x26, 0x30], (portAt 1 0).frontPacket 1 t = none
      ∧ (let s := fronted { message t 5 with dst := 1 }
         s.frontPacket 1 t = some (arrived { message t 5 with dst := 1 }) ∧ s.admitted 1 (arrived { message t 5 with dst := 1 }) = none))
    ∧ (∀ e ∈ [(1, 5, true), (1, 4, false), (1, 6, false), (2, 6, true), (2, 261, true), (2, 262, false)],
      let m := { message 0x30 e.2.1 with version := BitVec.ofNat 8 e.1 }
      let s := fronted m
      s.frontPacket 1 0x30 = some (arrived m)
        ∧ (s.admitted 1 (arrived m)).any (fun x => x.1 = 0 && x.2.expect = 5 && psnDiff m.psn.toNat x.2.expect = (e.2.1 : Int) - 5 && x.2.keeps m.psn.toNat = e.2.2
          && !s.mustWait 0 (s.sourced 1 m) && x.2.nextHeld = none && !x.2.signalling) = true)
    ∧ (let m := message 0x10 5 (List.replicate 128 0)
       let s : State := { fronted m with items := List.replicate 4096 (itemIn 0) }
       s.mustWait 0 (s.sourced 1 m) = true)
    ∧ (let s := (fronted (message 0x30 5)).updConn 0 fun c => { c with held := [message 0x30 5] }
       (s.conn 0).any (fun c => c.nextHeld = some (message 0x30 5) && !c.signalling) = true) := by decide +kernel

/-- The offer of a peer, and the packet that carries it. -/
def offered (type versions : Nat) (conn : Nat := 0xFFFF) : CtpPacket :=
  { packet type (offerBytes versions 256 0 0 8208 0 0) with src := 9, conn := BitVec.ofNat 16 conn }

theorem witness_ConnectionsOpenAcknowledgeCloseAndTimeOut :
    (∀ e ∈ [(1, 1, 0xFFFF), (1, 4, 0xFFFF), (2, 1, 0)], let m := offered e.1 e.2.1 e.2.2
      let s := fronted m
      let t := s.takeFrame 1
      s.frontPacket 1 e.1 = some (arrived m) ∧ t.addressed 1 (arrived m) = true ∧ headerOk (t.sourced 1 (sealed m)) 1 8208 = true
        ∧ (e.1 = 1 → t.connList.find? (fun x => x.2.peer = m.src.toNat && x.2.asked = m.payload) = none ∧ t.freeConn = some 1
          ∧ decide (commonVersion (t.get 0x2620 3) e.2.1 = 0) = decide (e.2.1 = 4)))
    ∧ (let m := offered 1 1
       let s := (fronted m).updConn 0 fun c => { c with asked := m.payload }
       ((s.takeFrame 1).connList.find? fun x => x.2.peer = m.src.toNat && x.2.asked = m.payload).isSome = true)
    ∧ headerOk (packet 0x01) 1 8208 = false ∧ ((fronted (offered 2 1)).conn 7).isNone
    ∧ (∀ v ∈ [0, 1], (((fronted (offered 2 1 0)).updConn 0 fun c => { c with phase := v }).conn 0).any (·.phase = v) = true)
    ∧ (∀ e ∈ [(3, 1), (3, 3), (4, 1)], let m := message e.1 0
      let s := (fronted m).updConn 0 fun c => { c with phase := e.2 }
      s.frontPacket 1 e.1 = some (arrived m) ∧ ((s.takeFrame 1).admitted 1 (arrived m)).any (fun x => x.2.phase = e.2) = true
        ∧ State.reset.admitted 1 (arrived m) = none)
    ∧ (∀ n ∈ [0, State.reset.get 0x2620 5 - 1], let q (psn : Nat) (sent : Bool) : Message := { psn := psn, type := 0x10, sent := sent }
      let s := State.reset.setConn 0 { phase := 1, owed := 1, timeouts := n, queue := [q 0 true, q 1 false] }
      (s.conn 0).any (fun c => !(c.queue.filter (·.sent)).isEmpty && 0 < c.owed && 1 ≤ c.phase && c.credit = 0 && (c.queue.any fun m => !m.sent)
        && decide (s.get 0x2620 5 ≤ c.timeouts + 1) = decide (n ≠ 0)) = true)
    ∧ (∀ p ∈ [0, 3], ∀ n ∈ [0, State.reset.get 0x2620 5], ((State.reset.setConn 0 { phase := p, repeats := n }).conn 0).any
        (fun c => c.phase = p && decide (State.reset.get 0x2620 5 ≤ c.repeats) = decide (n ≠ 0)) = true) := by decide +kernel

/-- A state whose items are these, with core 0 the lead of job 0 in a job state. -/
def having (items : List Item) (job : Nat := 1) : State :=
  { ((State.reset.put 0x2000 0x0D job).put 0x2000 2 1).updCore 0 fun k => { k with job := 0 } with items := items }

/-- The item of `itemIn`, delivered by a mode. -/
def modal (state mode : Nat) : Item := { itemIn state with descriptor := List.replicate 32 0 ++ [BitVec.ofNat 8 mode] ++ List.replicate 95 0 }

theorem witness_ItemsAreAcceptedDispatchedAndDelivered :
    (let s := having [itemIn 0]
     s.findItem 1 2 = some (itemIn 0) ∧ (itemIn 0).state = 0 ∧ (itemIn 0).stored = false ∧ (itemIn 0).partitions.any s.partitionLost = false
       ∧ s.ringAway ((itemIn 0).partitions.map fun p => ⟨1, s.partitionAddr p, s.partitionAddr p⟩) = none
       ∧ (itemIn 0).partitions.any ({ s with intake := { s.intake with lostPartitions := [(0, true)] } } : State).partitionLost = true)
    ∧ (∀ off ∈ [false, true], let s := having [modal 1 1] 2
       let s := if off then closed s else s
       s.leadFree 0 = true ∧ s.nextItem 0 = some (modal 1 1) ∧ (s.writeMailbox 0 (modal 1 1)).2.isSome = off)
    ∧ (∀ m ∈ [1, 2, 3], (linked (having [modal 3 m])).deliverable 1 = some (modal 3 m)
      ∧ (linked (having [modal 3 m])).messageDue (modal 3 m) = decide (m ≠ 2) ∧ (linked (having [modal 3 m])).writeDue (modal 3 m) = decide (m ≠ 1))
    ∧ (let i := { modal 3 2 with deliveredOnce := true, written := true }
       (having [i]).findItem 1 2 = some i ∧ i.state = 3 ∧ i.written = true ∧ bit i.mode 1 = true)
    ∧ State.reset.intake.rebuilding = false
    ∧ ({ State.reset with intake := { State.reset.intake with rebuilding := true } } : State).intake.rebuilding = true := by decide +kernel

/-- A control item with an operation and flags. -/
def control (op : Nat) (flags : Nat := 0) : Item :=
  { itemIn 1 with stream := 0, descriptor := List.replicate 56 0 ++ [BitVec.ofNat 8 op, BitVec.ofNat 8 flags] ++ List.replicate 70 0 }

theorem witness_ControlOperationsRunOnePerItemInOrder :
    (∀ op ∈ [1, 2, 3, 4, 5, 6, 7], (having [control op]).nextControl = some (control op) ∧ (control op).control = op ∧ (having [control op]).startDeferred 0 = false)
    ∧ (∀ v ∈ [0, 1, 4], let u := (having [control 2 1] v).leaveRest
      (u.jobState 0 = 1 ∨ u.jobState 0 = 4) = (v = 1 ∨ v = 4) ∧ (u.jobCores 0).any u.coreOut = false ∧ (u.job 0).mustFresh = false)
    ∧ bit (control 2 1).controlFlags 0 = true ∧ bit (control 2 0).controlFlags 0 = false
    ∧ ({ having [control 2] with swap := { cores := [0] } } : State).startDeferred 0 = true
    ∧ ((having [control 2]).freshJob 0).2 = none := by decide +kernel

/-- What a run leaves, and a state in which core 0's suspect step is run on a tile, or waits while that tile's field is lost and no other may run it. -/
def leaves (failed : Bool := false) (completed : Nat := 0) : ReplayResult :=
  { ownFailed := failed, pages := [], messages := [], flags := 0, completed := BitVec.ofNat 64 completed }
def replaying (runs : List Run) (tile : Option Nat := some 5) : State := { State.reset with replays := [{ core := 0, runs := runs, tile := tile }] }

theorem witness_ReplayRunsVote :
    ((replaying []).assignRuns.replays.find? fun x => x.core = 0) = some { core := 0, tile := some 5 }
    ∧ (State.reset.assignRuns.replays.find? fun x => x.core = 0) = none
    ∧ (replaying []).runsAgree 0 ((replaying []).original 0) (leaves) = true
    ∧ (replaying []).runsAgree 0 ((replaying []).original 0) (leaves false 1) = false
    ∧ (replaying []).runsAgree 0 (leaves false 1) (leaves false 1) = true ∧ (replaying []).runsAgree 0 (leaves false 1) (leaves false 2) = false
    ∧ ([⟨7, leaves true⟩, ⟨6, leaves⟩] : List Run).filter (fun r => !r.result.ownFailed) = [⟨6, leaves⟩]
    ∧ ([⟨7, leaves⟩, ⟨8, leaves true⟩, ⟨6, leaves⟩] : List Run).filter (fun r => !r.result.ownFailed) = [⟨7, leaves⟩, ⟨6, leaves⟩]
    ∧ ([⟨7, leaves true⟩] : List Run).filter (fun r => !r.result.ownFailed) = [] := by decide +kernel

/-- A test of tile 3 for core 0. -/
def testing : Assign := ⟨3, 0, 0xFF, 0, 0, false, false⟩

theorem witness_FaultsFenceTestAndTakeOver :
    (((started 1 [0x10]).core 0).started 1).find? (fun a => !a.done) = some (startedAs [0x10]) ∧ (startedAs [0x10]).mayStall 1 = false
    ∧ (started 1 [0x10]).coreOut 0 = false
    ∧ (({ State.reset with tests := [testing] } : State).tests.find? fun t => t.tile = 3 && !t.passed) = some testing
    ∧ (State.reset.tile 3).phasesOut = [] ∧ (∀ f ∈ [Stage.input 7, .middle 7, .io 7], 24 ≤ (stagePlace f).2
      ∧ bit (Tab.get 0 State.reset.power.stagesOut (stagePlace f).2) (stagePlace f).1 = false)
    ∧ (∀ v ∈ [(41999, 0), (42000, 1), (45999, 1), (57000, 2), (57001, 3)], let mv : BitVec 32 := BitVec.ofNat 32 v.1
      decide (mv.toNat < 42000) = decide (v.2 = 0) ∧ decide (42000 ≤ mv.toNat ∧ mv.toNat < 46000) = decide (v.2 = 1) ∧ decide (57000 < mv.toNat) = decide (v.2 = 3))
    ∧ ({ State.reset with unmanaged := true } : State).unmanaged = true ∧ State.reset.unmanaged = false ∧ (State.reset.put 0x4001 2 1).get 0x4001 2 ≠ 0
    ∧ State.reset.get 0x4001 2 = 0
    ∧ (∀ f ∈ [SwapFor.owner, .control 0 2], let s : State := { swapAt 1 { purpose := f } with items := [{ itemIn 2 with stream := 0 }] }
      s.swapState ∈ [1, 2] ∧ s.goAcked = false ∧ s.swap.purpose = f ∧ s.findItem 0 2 = some { itemIn 2 with stream := 0 })
    ∧ ¬ (State.reset.swapState ∈ [1, 2] ∧ State.reset.goAcked = false) := by decide +kernel

theorem witness_TilesStepThrottleTripAndTrim :
    (∀ v ∈ [11, 12], let s := State.reset.put 0x3000 6 v
      decide (s.bestStep (min s.variant.2 (s.get 0x3100 1)) ≤ s.get 0x3000 6) = decide (v = 12))
    ∧ (let s := State.reset.put 0x3101 24 1
       s.get 0x3101 24 ≠ 0xFF ∧ s.get 0x3101 24 ≠ s.tileStep 23 ∧ s.powerState ≠ 2 ∧ s.tileServes 23 = true)
    ∧ (State.reset.put 0x3101 24 0xFF).get 0x3101 24 = 0xFF
    ∧ hottest (([115000, 0] : List (BitVec 32)).map (·.toInt)) = some 115000
    ∧ (∀ v ∈ [0, 32], let s := State.reset.put 0x3203 1 (v + 256)
      (s.tile 0).notLow = false ∧ bits (s.get 0x3203 1) 0 7 ≤ 32)
    ∧ (let s := State.reset.put 0x3203 1 64
       (s.tile 0).notFull = false ∧ bits (s.get 0x3203 1) 0 7 = 64 ∧ (s.tile 0).logic ≤ 100000 ∧ bits (s.get 0x3203 1) 8 4 < s.variant.2)
    ∧ ((State.reset.updTile 0 fun t => { t with notLow := true, notFull := true }).tile 0).notLow = true
    ∧ (let s := started 0 [0] id fun k => { k with stepOpen := true }
       s.coreOn 0 = some 0 ∧ (s.core 0).stepOpen = true ∧ (s.bump 0x3051 1).coreOn 0 = some 0 ∧ ((s.bump 0x3051 1).core 0).stepOpen = true)
    ∧ ((State.reset.updTile 0 fun t => { t with measured := some 5 }).tile 0).measured = some 5 ∧ (State.reset.tile 0).measured = none
    ∧ (∀ v ∈ [19, 20, 60], let u := (State.reset.updTile 0 fun t => { t with slacks := [(0, v)] }).put 0x3112 1 v
      decide (u.get 0x3111 3 ≤ v) = decide (v = 60)) := by decide +kernel

/-- A PTP event message of domain 0. -/
def ptp (kind : PtpKind) (sent : Bool := false) (carrier : PtpOver := .udp6) : PtpMsg :=
  { kind := kind, carrier := carrier, sent := sent, domain := 0, told := 0, best := true, locks := false, rate := 0 }

theorem witness_ReferencesTimebaseAndPulses :
    (∀ r ∈ [RefInput.a, .b], decide ((State.reset.put 0x3110 3 0).refGood (refCode r)) = false ∧ (State.reset.put 0x3110 3 3).refGood (refCode r) = true)
    ∧ (State.reset.put 0x3110 2 1).get 0x3110 2 ≠ refCode .a
    ∧ ({ State.reset with clocks := { State.reset.clocks with holdover := some 5 } } : State).clocks.holdover = some 5 ∧ State.reset.clocks.holdover = none
    ∧ (99 : BitVec 32).toNat < 100 ∧ 100 ≤ (100 : BitVec 32).toNat
    ∧ (let s : State := { State.reset with now := 500000005, clocks := { State.reset.clocks with ppsIn := some 5 } }
       s.clocks.ppsIn = some 5 ∧ ¬ (s.now < 5 + 500000000) ∧ 500000004 < 5 + 500000000)
    ∧ (let s := ((portAt 1 2).put 0x2601 8 1).put 0x3120 2 1
       s.get (0x2600 + 1) 8 ≠ 0 ∧ s.portUp 1 = true ∧ (ptp .sync).domain.toNat = s.get 0x3120 7 ∧ s.get 0x3120 2 = 1 ∧ (ptp .sync).locks = false
         ∧ (ptp .pdelayResp true).kind ≠ .delayReq ∧ (ptp .delayReq).sent = false ∧ (ptp .sync).carrier ≠ .udp4
         ∧ (ptp .sync false .udp4).carrier = .udp4 ∧ 1 ≠ s.hostPort)
    ∧ (portAt 1 0).portUp 1 = false := by decide +kernel

theorem witness_HintOnlyAnnounces :
    (let s := started 0 [0x06, 0, 0x4001, 5 + 9 * 2 ^ 32]
     Canonical s ∧ Tab.rising (s.core 0).hints = true ∧ Tab.rising (s.core 0).active = true) ∧ works 0 [0x06, 0, 0x4001, 5 + 9 * 2 ^ 32]
    ∧ bit 0x4001 2 = false ∧ bits 0x4001 0 2 = 1 := by
  refine ⟨⟨canonical_iff _ (by decide +kernel), by decide +kernel⟩, ?_, by decide +kernel⟩
  simp only [works]; decide +kernel

theorem witness_EveryStepKeepsTheCanonicalForm : Canonical { State.reset with pending := [.nop 0] }
    ∧ ∃ t, step { State.reset with pending := [.nop 0] } = .next t := ⟨canonical_iff _ (by decide +kernel), _, rfl⟩

end Sys2Proof.Tests
end

section
/-! SUPPORT. What each fault row of O55 comes to, case by case: fences and assignment tests (R365, R366), converters and the input (R380, R382,
R459), the take-over of the recovery controllers (R59, R338, R374, R375). -/

namespace Sys2Proof.Machine

open Sys2Proof

section
variable {s : State}

/-! ### Fences and assignment tests -/

theorem coreWatchdog_of_stalled {c e : Nat} {a : Active} (hfirst : ((s.core c).started e).find? (fun a => !a.done) = some a)
    (hstall : a.mayStall e = false) (hin : s.coreOut c = false) :
    coreWatchdog c e s = (s.fenceTile (s.tileOf c) 0x02 e).pumpChanges := by
  simp only [coreWatchdog, hfirst, hstall, hin, Bool.or_false, Bool.false_eq_true, if_false, coreFence]

theorem assignmentTestDone_passed {h : Nat} {a : Assign} (htest : s.tests.find? (fun t => t.tile = h && !t.passed) = some a) :
    assignmentTestDone h true s = State.pumpChanges
      { s with tests := s.tests.map fun t => if t.tile = h then { t with passed := true } else t
               changes := s.changes ++ [⟨.substitute a.core h a.job, [(okey 0x4101 (a.core + 1), h)]⟩] } := by
  simp only [assignmentTestDone, htest, if_true]

theorem assignmentTestDone_failed {h : Nat} {a : Assign} (htest : s.tests.find? (fun t => t.tile = h && !t.passed) = some a) :
    assignmentTestDone h false s = (s.fenceTile h 0x06 0 a.entry).pumpChanges := by
  simp only [assignmentTestDone, htest, Bool.false_eq_true, if_false]

/-! ### Converters -/

/-- The state once a phase of a field is out: its fault entered and the phase noted (R380). -/
def State.phaseOut (s : State) (h p : Nat) : State :=
  (s.fault { cls := 0x0F, action := 0x01, tile := h, detail := toLE 1 p ++ toLE 1 h }).updTile h fun t =>
    { t with phasesOut := t.phasesOut ++ [p] }

/-- A field runs on the phases that are left, and is lost when both of its VSRAM phases, 8 and 9, are out (R371, R376). -/
theorem stageFault_field {h : TileId} {p : Fin 10} (hin : p.val ∉ (s.tile h).phasesOut) :
    stageFault (.field h p) s =
      if 8 ∈ ((s.phaseOut h p).tile h).phasesOut ∧ 9 ∈ ((s.phaseOut h p).tile h).phasesOut then
        (State.loseField { s.phaseOut h p with fresh := (s.phaseOut h p).fresh + 1 } h 768
          (Config.current (s.phaseOut h p).fresh).toNat s.faultNext).pumpChanges
      else s.phaseOut h p := by
  have hout : ((s.tile h).phasesOut.contains p.val) = false :=
    Bool.eq_false_iff.mpr (mt List.contains_iff_mem.mp hin)
  simp only [stageFault, stagePlace, h.isLt, if_true, hout, Bool.false_eq_true, if_false, Bool.and_eq_true, List.contains_iff_mem]
  rfl

theorem stageFault_shared {f : Stage} (hplace : 24 ≤ (stagePlace f).2)
    (hin : bit (Tab.get 0 s.power.stagesOut (stagePlace f).2) (stagePlace f).1 = false) :
    stageFault f s =
      let u := s.fault { cls := 0x0F, action := 0x01, tile := 0xFF, detail := toLE 1 (stagePlace f).1 ++ toLE 1 (stagePlace f).2 }
      let out := setBit (Tab.get 0 u.power.stagesOut (stagePlace f).2) (stagePlace f).1 true
      State.showLimits { u with power := { u.power with stagesOut := Tab.set 0 u.power.stagesOut (stagePlace f).2 out } } := by
  simp only [stageFault, if_neg (Nat.not_lt.mpr hplace), hin, Bool.false_eq_true, if_false]

/-! ### Input -/

/-- The state with a measured input voltage, in millivolts (R382). -/
def State.withVin (s : State) (mv : Nat) : State := { s with power := { s.power with vin := mv } }

theorem vinLow_of_lt {mv : Nat} (hlow : mv < 42000) : vinLow mv s = (s.withVin mv).stopInput := by
  rw [vinLow, if_neg (by omega), if_pos hlow]; rfl

theorem vinLow_of_hold {mv : Nat} (hrun : 42000 ≤ mv) (hlow : mv < 46000) : vinLow mv s = (s.withVin mv).showLimits := by
  rw [vinLow, if_neg (by omega), if_neg (by omega)]; rfl

theorem vinHigh_of_lt {mv : Nat} (hhigh : 57000 < mv) : vinHigh mv s = (s.withVin mv).stopInput := if_pos hhigh

theorem vinHigh_of_le {mv : Nat} (hin : mv ≤ 57000) : vinHigh mv s = s.withVin mv := if_neg (Nat.not_lt.mpr hin)

theorem vinRestored_eq (mv : Nat) : vinRestored mv s =
    if 42000 ≤ mv ∧ mv < 56500 then
      State.showLimits { s.withVin mv with power := { (s.withVin mv).power with stopped := false } }
    else (s.withVin mv).showLimits :=
  apply_ite State.showLimits _ _ _

/-! ### Take-over -/

theorem controllerTakeover_of_unmanaged (reason : Nat) (hnone : s.unmanaged = true) : controllerTakeover reason s = s := if_pos hnone

theorem controllerTakeover_without_standby (reason : Nat) (hone : s.unmanaged = false) (hout : s.get 0x4001 0x02 ≠ 0) :
    controllerTakeover reason s = { s with unmanaged := true } := by
  rw [controllerTakeover, if_neg (Bool.eq_false_iff.mp hone), if_pos hout]

/-- The state once the standby is in charge: epoch raised, take-over counted, fault entered, no standby left (R374). -/
def State.underStandby (s : State) (reason : Nat) : State :=
  let failed := s.get 0x4001 0x01
  let epoch := (s.get 0x4001 0x03 + 1) % 256
  let u := ((s.put 0x4001 0x03 epoch).countRare 0x4001 0x04).change 0x4001 0x01 (1 - failed)
  (u.fault { cls := 0x14, action := 0x09, detail := toLE 1 failed ++ toLE 1 epoch ++ toLE 1 reason }).change 0x4001 0x02 1

theorem controllerTakeover_with_standby (reason : Nat) (hone : s.unmanaged = false) (hin : s.get 0x4001 0x02 = 0) :
    controllerTakeover reason s =
      ((List.range 32).foldl (fun s n => s.abortTransfers n 0x11) (s.underStandby reason).swapAtTakeover).resendEvents.pumpChanges := by
  rw [controllerTakeover, if_neg (Bool.eq_false_iff.mp hone), if_neg (not_not_intro hin)]; rfl

/-- The test that swapAtTakeover makes: no swap under way, or its GO acknowledged (R59). -/
theorem swapSettled_iff : (! [1, 2].contains s.swapState || s.goAcked) = true ↔ ¬ (s.swapState ∈ [1, 2] ∧ s.goAcked = false) := by
  rw [Classical.not_and_iff_not_or_not, Bool.not_eq_false, Bool.or_eq_true, Bool.not_eq_true', ← Bool.not_eq_true, List.contains_iff_mem]

theorem swapAtTakeover_of_settled (hsettled : ¬ (s.swapState ∈ [1, 2] ∧ s.goAcked = false)) : s.swapAtTakeover = s :=
  if_pos (swapSettled_iff.mpr hsettled)

section
variable (hopen : s.swapState ∈ [1, 2]) (hgo : s.goAcked = false)
include hopen hgo

theorem swapAtTakeover_of_own (hpurpose : ∀ st seq, s.swap.purpose ≠ .control st seq) : s.swapAtTakeover = s.abortSwap 0x05 [] := by
  rw [State.swapAtTakeover, if_neg (mt swapSettled_iff.mp (not_not_intro ⟨hopen, hgo⟩))]
  split
  next st seq hcontrol => exact absurd hcontrol (hpurpose st seq)
  next => rfl

/-- A control operation's swap is aborted as an owner's, and the operation's own edits wait to be made anew (R338). -/
theorem swapAtTakeover_of_control {st seq : Nat} {i : Item} (hpurpose : s.swap.purpose = .control st seq)
    (hitem : s.findItem st seq = some i) :
    s.swapAtTakeover =
      let w := (State.abortSwap { s with swap := { s.swap with purpose := .owner } } 0x05 []).discardEdits
      { w with changes := ⟨.control st seq, i.jobEdits⟩ :: w.changes } := by
  rw [State.swapAtTakeover, if_neg (mt swapSettled_iff.mp (not_not_intro ⟨hopen, hgo⟩)), hpurpose]
  simp only [hitem, Option.map_some, Option.getD_some]
  rfl
end
end

/-- Settles O55: each row's answer is the case of its meaning that the clause's conditions choose. -/
theorem faultsFenceTestAndTakeOver : Obligations.FaultsFenceTestAndTakeOver := by
  intro s h cause reason c e amps mv phases ring
  refine ⟨rfl, fun a hfirst hstall hin => ?watchdog, fun a htest => ⟨?passed, ?failed⟩, rfl, fun p hin => ?field,
    fun f hplace hin => ?shared,
    ⟨fun hlow => ?stops, fun hrun hlow => ?holds, fun hhigh => ?above, fun hin => ?within, ?restored⟩,
    fun hnone => ?unmanaged, fun hone hout => ?alone, fun hone hin => ?standby, swapAtTakeover_of_settled,
    fun hopen hgo => ⟨swapAtTakeover_of_own hopen hgo, fun st seq i => swapAtTakeover_of_control hopen hgo⟩, rfl⟩
  case watchdog => exact congrArg Host.Outcome.next (coreWatchdog_of_stalled hfirst hstall hin)
  case passed => exact congrArg Host.Outcome.next (assignmentTestDone_passed htest)
  case failed => exact congrArg Host.Outcome.next (assignmentTestDone_failed htest)
  case field => exact congrArg Host.Outcome.next (stageFault_field hin)
  case shared => exact congrArg Host.Outcome.next (stageFault_shared hplace hin)
  case stops => exact congrArg Host.Outcome.next (vinLow_of_lt hlow)
  case holds => exact congrArg Host.Outcome.next (vinLow_of_hold hrun hlow)
  case above => exact congrArg Host.Outcome.next (vinHigh_of_lt hhigh)
  case within => exact congrArg Host.Outcome.next (vinHigh_of_le hin)
  case restored => exact congrArg Host.Outcome.next (vinRestored_eq mv.toNat)
  case unmanaged => exact congrArg Host.Outcome.next (controllerTakeover_of_unmanaged reason.toNat hnone)
  case alone => exact congrArg Host.Outcome.next (controllerTakeover_without_standby reason.toNat hone hout)
  case standby => exact congrArg Host.Outcome.next (controllerTakeover_with_standby reason.toNat hone hin)

end Sys2Proof.Machine
end

section
/-! SUPPORT. What a write of a setting, of the maquette and of its lock comes to, case by case (R36, R49, R58, R62). -/

namespace Sys2Proof.Machine

open Sys2Proof

section
variable {s t u : State} {q : Req} {n : Nat}

/-! ### A write of one object, by its listing -/

/-- A row that writes one object, whose write gives one status and one effect in every state that an answer leads to. -/
theorem exec_write_of (x : Instr) (f : Found) (i j : Nat) (d : Bytes) (g : State → State) (st : Nat)
    (hadmits : s.admitsWrite q i j d = some (n, t)) (hi : i < 65536) (hj : j < 256)
    (hx : ∀ s : State, exec x s = .next (s.writeRow f q i j d)) (heffect : ∀ u, AnswerOnly t u → u.writeObject f n i j d = (g u, st)) :
    exec x s = .next (g (t.replied n q i j d st)) := by
  rw [hx, writeRow_admits f hadmits hi hj, heffect _ (answerOnly_noteWrite t n), heffect _ (answerOnly_replied t n q i j d st)]

theorem writeObject_wo {f : Found} {i j : Nat} {d : Bytes} (haccess : (objRow i j).map (·.access) = some .wo) :
    u.writeObject f n i j d = if i = 0x1060 then u.loadChunk n d else u.writeToken d f.token := by
  obtain ⟨r, hrow, hwo⟩ := Option.map_eq_some_iff.mp haccess
  simp only [State.writeObject, hrow, hwo]

section
variable {f : Found} {i j : Nat} {d : Bytes} {r : ObjRow} (hrow : objRow i j = some r)
include hrow

theorem writeObject_rwm (haccess : r.access = .rwm) :
    u.writeObject f n i j d =
      let v := writeMask i j (ofLE d)
      if u.rangeOk i j v then (u.maqPut i j v, 0) else (u, 0x07) := by
  simp only [State.writeObject, hrow, haccess]

theorem writeObject_rw (haccess : r.access = .rw) :
    u.writeObject f n i j d =
      let v := writeMask i j (ofLE d)
      if u.rangeOk i j v then u.writeSetting n i j v else (u, 0x07) := by
  simp only [State.writeObject, hrow, haccess]

variable (hadmits : s.admitsWrite q i j d = some (n, t)) (hi : i < 65536) (hj : j < 256)
include hadmits hi hj

/-- An admitted write of a maquette object is answered by its range alone, and edits the maquette after the answer (R36). -/
theorem writeRow_rwm (haccess : r.access = .rwm) :
    s.writeRow f q i j d =
      let v := writeMask i j (ofLE d)
      if t.rangeOk i j v then (t.replied n q i j d 0).maqPut i j v else t.replied n q i j d 0x07 := by
  rw [writeRow_admits f hadmits hi hj, writeObject_rwm hrow haccess, writeObject_rwm hrow haccess]
  simp only [(answerOnly_noteWrite t n).rangeOk, (answerOnly_replied t n q i j d _).rangeOk]
  split <;> rfl

/-- An admitted write of a setting in range is answered with the status of its effect, which follows; out of range it has none (R36). -/
theorem writeRow_rw (haccess : r.access = .rw) :
    s.writeRow f q i j d =
      let v := writeMask i j (ofLE d)
      if t.rangeOk i j v then ((t.replied n q i j d ((t.noteWrite n).writeSetting n i j v).2).writeSetting n i j v).1
      else t.replied n q i j d 0x07 := by
  rw [writeRow_admits f hadmits hi hj, writeObject_rw hrow haccess, writeObject_rw hrow haccess]
  simp only [(answerOnly_noteWrite t n).rangeOk, (answerOnly_replied t n q i j d _).rangeOk]
  split <;> rfl
end

/-! ### The lock (R49) -/

theorem lockCommand_refused {v : Nat} (hheld : u.get 0xF002 0x01 ≠ 0) (hother : u.get 0xF002 0x01 ≠ n + 1) :
    u.lockCommand n v = (u, 0x0E) := by
  simp [State.lockCommand, hheld, hother]

theorem lockCommand_take_free (hfree : u.get 0xF002 0x01 = 0) :
    u.lockCommand n 1 = ({ u.put 0xF002 0x01 (n + 1) with lockWrite := u.now }, 0) := by
  simp [State.lockCommand, hfree]

theorem lockCommand_take_own (hown : u.get 0xF002 0x01 = n + 1) : u.lockCommand n 1 = (u, 0) := by
  simp [State.lockCommand, hown]

theorem lockCommand_release (hown : u.get 0xF002 0x01 = 0 ∨ u.get 0xF002 0x01 = n + 1) :
    u.lockCommand n 2 = (u.put 0xF002 0x01 0, 0) := by
  rcases hown with h | h <;> simp [State.lockCommand, h]

/-- A row of the maquette lock, by what its command comes to in every state that an answer leads to. -/
theorem exec_maquetteLockTake_of (g : State → State) (st : Nat) (hadmits : s.admitsWrite q 0xF002 0x00 [1] = some (n, t))
    (heffect : ∀ u, AnswerOnly t u → u.lockCommand n 1 = (g u, st)) :
    exec (.maquetteLockTake q) s = .next (g (t.replied n q 0xF002 0x00 [1] st)) :=
  exec_cmd_of _ {} _ _ _ _ g st hadmits (by decide) (by decide) (by decide) (by decide) (fun _ => rfl) (fun _ => rfl) heffect

theorem exec_maquetteLockRelease_of (g : State → State) (st : Nat) (hadmits : s.admitsWrite q 0xF002 0x00 [2] = some (n, t))
    (heffect : ∀ u, AnswerOnly t u → u.lockCommand n 2 = (g u, st)) :
    exec (.maquetteLockRelease q) s = .next (g (t.replied n q 0xF002 0x00 [2] st)) :=
  exec_cmd_of _ {} _ _ _ _ g st hadmits (by decide) (by decide) (by decide) (by decide) (fun _ => rfl) (fun _ => rfl) heffect

theorem lockIdleTimeout_of_free (hfree : s.get 0xF002 0x01 = 0) : lockIdleTimeout s = s := if_pos hfree

theorem lockIdleTimeout_of_held (hheld : s.get 0xF002 0x01 ≠ 0) :
    lockIdleTimeout s = { s with now := max s.now (s.lockWrite + s.get 0xF002 0x02 * 1000000000) }.put 0xF002 0x01 0 := if_neg hheld
end

/-- Settles O30: an admitted write is answered, and takes effect by its object's listing and the holder of the lock. -/
theorem maquetteRequestsEditUnderTheLock : Obligations.MaquetteRequestsEditUnderTheLock := by
  intro q s
  refine ⟨fun i j value n t r hrow hadmits => ⟨fun haccess => ?rwm, fun haccess => ?rw⟩,
    fun n t hadmits => ⟨fun hfree => ?takeFree, fun hown => ?takeOwn, fun hheld hother => ?takeOther⟩,
    fun n t hadmits => ⟨fun hown => ?release, fun hheld hother => ?releaseOther⟩, fun n t hadmits => ?copy, fun hheld => ?limit,
    fun hfree => ?noHolder⟩
  case rwm => exact congrArg Host.Outcome.next (writeRow_rwm hrow hadmits i.isLt j.isLt haccess)
  case rw => exact congrArg Host.Outcome.next (writeRow_rw hrow hadmits i.isLt j.isLt haccess)
  case takeFree =>
    exact exec_maquetteLockTake_of (fun u => { u.put 0xF002 0x01 (n + 1) with lockWrite := t.now }) 0 hadmits fun u hu => by
      rw [lockCommand_take_free ((hu.get ..).trans hfree), hu.now]
  case takeOwn => exact exec_maquetteLockTake_of id 0 hadmits fun u hu => lockCommand_take_own ((hu.get ..).trans hown)
  case takeOther =>
    exact exec_maquetteLockTake_of id 0x0E hadmits fun u hu =>
      lockCommand_refused (hu.get 0xF002 0x01 ▸ hheld) (hu.get 0xF002 0x01 ▸ hother)
  case release =>
    exact exec_maquetteLockRelease_of (fun u => u.put 0xF002 0x01 0) 0 hadmits fun u hu =>
      lockCommand_release (hown.imp (hu.get ..).trans (hu.get ..).trans)
  case releaseOther =>
    exact exec_maquetteLockRelease_of id 0x0E hadmits fun u hu =>
      lockCommand_refused (hu.get 0xF002 0x01 ▸ hheld) (hu.get 0xF002 0x01 ▸ hother)
  case copy =>
    exact exec_cmd_of _ {} _ _ _ _ State.discardEdits 0 hadmits (by decide) (by decide) (by decide) (by decide) (fun _ => rfl) (fun _ => rfl)
      fun u _ => rfl
  case limit => exact congrArg Host.Outcome.next (lockIdleTimeout_of_held hheld)
  case noHolder => exact congrArg Host.Outcome.next (lockIdleTimeout_of_free hfree)

end Sys2Proof.Machine
end

section
/-! SUPPORT. What a swap command comes to, case by case (R51, R54, R55, R59). -/

namespace Sys2Proof.Machine

open Sys2Proof

/-- A job runs on a core that the maquette moves (R55). -/
def State.movesRunningJob (s : State) : Bool :=
  s.changedCores.any fun c => (List.range 64).any fun j => [2, 3].contains (s.jobState j) && (s.jobCores j).contains c

theorem AnswerOnly.movesRunningJob {s t : State} (h : AnswerOnly s t) : t.movesRunningJob = s.movesRunningJob := by rw [h]; rfl

/-- The instant of swap_time lies between 2 ms and 1,000 s ahead (R55). -/
def State.instantInRange (s : State) : Prop :=
  s.now + 2000000 ≤ s.get 0xF000 0x01 ∧ s.get 0xF000 0x01 ≤ s.now + 1000000000000

theorem AnswerOnly.instantInRange {s t : State} (h : AnswerOnly s t) : t.instantInRange ↔ s.instantInRange := by
  rw [State.instantInRange, State.instantInRange, h.now, h.get]

/-- The swap may be cancelled: distributing or armed, its GO not acknowledged (R54). -/
def State.cancellable (s : State) : Prop := [1, 2].contains s.swapState = true ∧ s.goAcked = false

theorem AnswerOnly.cancellable {s t : State} (h : AnswerOnly s t) : t.cancellable ↔ s.cancellable := by
  rw [State.cancellable, State.cancellable, h.swapState, h.goAcked]

/-- The test that a command 0x02 makes of its instant. -/
theorem State.instantInRange.test {u : State} (hin : u.instantInRange) :
    (decide (u.get 0xF000 0x01 < u.now + 2000000) || decide (u.now + 1000000000000 < u.get 0xF000 0x01)) = false := by
  obtain ⟨hlow, hhigh⟩ := hin
  rw [decide_eq_false (Nat.not_lt.mpr hlow), decide_eq_false (Nat.not_lt.mpr hhigh)]; rfl

section
variable {s t u : State} {q : Req} {n : Nat}

/-! ### The commands 0x01 and 0x02 -/

theorem ownerSwap_under_way {b : Bool} (hswap : u.swapping = true) : u.ownerSwap b = (u, 0x08) := by
  simp only [State.ownerSwap, hswap, if_true]

section
variable (hnone : u.swapping = false)
include hnone

theorem ownerSwap_at_quiescent_passed (hpass : u.maquetteFirstBad = none) : u.ownerSwap true = (u.beginSwap true 0 .owner, 0) := by
  simp only [State.ownerSwap, hnone, hpass, Bool.not_true, Bool.false_and, Bool.false_eq_true, if_false, if_true]

theorem ownerSwap_at_quiescent_failed {k : Nat} (hfail : u.maquetteFirstBad = some k) : u.ownerSwap true = (u.refuseSwap k, 0x10) := by
  simp only [State.ownerSwap, hnone, hfail, Bool.not_true, Bool.false_and, Bool.false_eq_true, if_false]

theorem ownerSwap_at_other_instant (hout : ¬ u.instantInRange) : u.ownerSwap false = (u, 0x07) := by
  have hguard : u.get 0xF000 0x01 < u.now + 2000000 ∨ u.now + 1000000000000 < u.get 0xF000 0x01 := by
    unfold State.instantInRange at hout; omega
  simp [State.ownerSwap, hnone, hguard]

variable (hin : u.instantInRange)
include hin

theorem ownerSwap_at_instant_running (hrunning : u.movesRunningJob = true) : u.ownerSwap false = (u, 0x09) := by
  unfold State.movesRunningJob at hrunning
  simp only [State.ownerSwap, hnone, hin.test, hrunning, Bool.and_false, Bool.false_eq_true, if_false,
    Bool.not_false, Bool.and_true, if_true]

variable (hfree : u.movesRunningJob = false)
include hfree

theorem ownerSwap_at_instant_passed (hpass : u.maquetteFirstBad = none) :
    u.ownerSwap false = (u.beginSwap false (u.get 0xF000 0x01) .owner, 0) := by
  unfold State.movesRunningJob at hfree
  simp only [State.ownerSwap, hnone, hin.test, hfree, hpass, Bool.and_false, Bool.false_eq_true, if_false]

theorem ownerSwap_at_instant_failed {k : Nat} (hfail : u.maquetteFirstBad = some k) : u.ownerSwap false = (u.refuseSwap k, 0x10) := by
  unfold State.movesRunningJob at hfree
  simp only [State.ownerSwap, hnone, hin.test, hfree, hfail, Bool.and_false, Bool.false_eq_true, if_false]
end

/-! ### The command 0x03 -/

theorem cancelSwap_of_cancellable (hmay : u.cancellable) :
    u.cancelSwap = (((((u.put 0xF000 0x05 0x04).put 0xF000 0x04 0).setSwapState 6).endSwap false).pumpChanges, 0) := by
  obtain ⟨hopen, hunacked⟩ := hmay
  simp only [State.cancelSwap, hopen, hunacked, Bool.not_true, Bool.or_false, Bool.false_eq_true, if_false]

theorem cancelSwap_of_not_cancellable (hnot : ¬ u.cancellable) : u.cancelSwap = (u, 0x09) := by
  have hguard : (! [1, 2].contains u.swapState || u.goAcked) = true := by
    refine Classical.byContradiction fun hmay => hnot ?_
    rw [Bool.not_eq_true, Bool.or_eq_false_iff, Bool.not_eq_false'] at hmay
    exact hmay
  simp only [State.cancelSwap, hguard, if_true]

/-! ### Their rows, by what each command comes to in every state that an answer leads to -/

theorem command_swap (u : State) (f : Found) (n v : Nat) :
    u.command f n 0xF000 v = if v = 3 then u.cancelSwap else u.ownerSwap (v = 1) := rfl

theorem exec_swapAtQuiescent_of (g : State → State) (st : Nat) (hadmits : s.admitsWrite q 0xF000 0x00 [1] = some (n, t))
    (heffect : ∀ u, AnswerOnly t u → u.ownerSwap true = (g u, st)) :
    exec (.swapAtQuiescent q) s = .next (g (t.replied n q 0xF000 0x00 [1] st)) :=
  exec_cmd_of _ {} _ _ _ (·.ownerSwap true) g st hadmits (by decide) (by decide) (by decide) (by decide) (fun _ => rfl)
    (fun u => (command_swap u {} n _).trans (if_neg (by decide))) heffect

theorem exec_swapAtInstant_of (g : State → State) (st : Nat) (hadmits : s.admitsWrite q 0xF000 0x00 [2] = some (n, t))
    (heffect : ∀ u, AnswerOnly t u → u.ownerSwap false = (g u, st)) :
    exec (.swapAtInstant q) s = .next (g (t.replied n q 0xF000 0x00 [2] st)) :=
  exec_cmd_of _ {} _ _ _ (·.ownerSwap false) g st hadmits (by decide) (by decide) (by decide) (by decide) (fun _ => rfl)
    (fun u => (command_swap u {} n _).trans (if_neg (by decide))) heffect

theorem exec_swapCancel_of (g : State → State) (st : Nat) (hadmits : s.admitsWrite q 0xF000 0x00 [3] = some (n, t))
    (heffect : ∀ u, AnswerOnly t u → u.cancelSwap = (g u, st)) :
    exec (.swapCancel q) s = .next (g (t.replied n q 0xF000 0x00 [3] st)) :=
  exec_cmd_of _ {} _ _ _ State.cancelSwap g st hadmits (by decide) (by decide) (by decide) (by decide) (fun _ => rfl)
    (fun u => (command_swap u {} n _).trans (if_pos rfl)) heffect
end

/-- Settles O31: the checks of a swap command read nothing that an answer touches, so the case found when it is served is the case had. -/
theorem swapRequestsBeginRefuseOrCancel : Obligations.SwapRequestsBeginRefuseOrCancel := by
  intro q s n t
  refine ⟨fun hadmits => ⟨fun hswap => ?busy, fun hnone hpass => ?begins, fun k hnone hfail => ?fails⟩,
    fun hadmits => ⟨fun hswap => ?instantBusy, fun hnone hout => ?outOfRange, fun hnone hin hrun => ?running,
      fun hnone hin hfree hpass => ?instantBegins, fun k hnone hin hfree hfail => ?instantFails⟩,
    fun hadmits => ⟨fun hmay => ?cancelled, fun hnot => ?notCancelled⟩⟩
  case busy => exact exec_swapAtQuiescent_of id 0x08 hadmits fun u hu => ownerSwap_under_way (hu.swapping.trans hswap)
  case begins =>
    exact exec_swapAtQuiescent_of (fun u => u.beginSwap true 0 .owner) 0 hadmits fun u hu =>
      ownerSwap_at_quiescent_passed (hu.swapping.trans hnone) (hu.maquetteFirstBad.trans hpass)
  case fails =>
    exact exec_swapAtQuiescent_of (fun u => u.refuseSwap k) 0x10 hadmits fun u hu =>
      ownerSwap_at_quiescent_failed (hu.swapping.trans hnone) (hu.maquetteFirstBad.trans hfail)
  case instantBusy => exact exec_swapAtInstant_of id 0x08 hadmits fun u hu => ownerSwap_under_way (hu.swapping.trans hswap)
  case outOfRange =>
    exact exec_swapAtInstant_of id 0x07 hadmits fun u hu =>
      ownerSwap_at_other_instant (hu.swapping.trans hnone) (mt hu.instantInRange.mp hout)
  case running =>
    exact exec_swapAtInstant_of id 0x09 hadmits fun u hu =>
      ownerSwap_at_instant_running (hu.swapping.trans hnone) (hu.instantInRange.mpr hin) (hu.movesRunningJob.trans hrun)
  case instantBegins =>
    exact exec_swapAtInstant_of (fun u => u.beginSwap false (t.get 0xF000 0x01) .owner) 0 hadmits fun u hu => by
      rw [ownerSwap_at_instant_passed (hu.swapping.trans hnone) (hu.instantInRange.mpr hin) (hu.movesRunningJob.trans hfree)
        (hu.maquetteFirstBad.trans hpass), hu.get]
  case instantFails =>
    exact exec_swapAtInstant_of (fun u => u.refuseSwap k) 0x10 hadmits fun u hu =>
      ownerSwap_at_instant_failed (hu.swapping.trans hnone) (hu.instantInRange.mpr hin) (hu.movesRunningJob.trans hfree)
        (hu.maquetteFirstBad.trans hfail)
  case cancelled =>
    exact exec_swapCancel_of (fun u => ((((u.put 0xF000 0x05 0x04).put 0xF000 0x04 0).setSwapState 6).endSwap false).pumpChanges) 0 hadmits
      fun u hu => cancelSwap_of_cancellable (hu.cancellable.mpr hmay)
  case notCancelled => exact exec_swapCancel_of id 0x09 hadmits fun u hu => cancelSwap_of_not_cancellable (mt hu.cancellable.mp hnot)

end Sys2Proof.Machine
end

section
/-! SUPPORT. What a request for a power state, for scratchpad groups and for a reset comes to, case by case (R36, R62, R206, R394). -/

namespace Sys2Proof.Machine

open Sys2Proof

section
variable {s t u : State} {q : Req} {n : Nat}

/-! ### Power states (R394) -/

section
variable (hstill : u.entering = none)
include hstill

theorem leavePower_of_upper (hupper : u.powerState < 3) : u.leavePower = (u.leaveIdle.leaveRest, 0) := by
  simp only [State.leavePower, hstill, Option.isSome_none, Bool.false_eq_true, if_false, if_neg (Nat.not_le.mpr hupper)]

theorem leavePower_of_lower (hlower : 3 ≤ u.powerState) : u.leavePower = ((u.leaveLow 0).settlePower, 0) := by
  simp only [State.leavePower, hstill, Option.isSome_none, Bool.false_eq_true, if_false, if_pos hlower]

theorem enterPower_same {v : Nat} (hsame : u.powerState = v) : u.enterPower v = (u, 0) := by
  simp [State.enterPower, hstill, hsame]

section
variable (hfree : u.powerHeld = false)
include hfree

theorem enterPower_rest_from_upper (hupper : u.powerState < 2) : u.enterPower 2 = (u.leaveIdle.enterRest, 0) := by
  simp [State.enterPower, hstill, hfree, Nat.ne_of_lt hupper, show ¬ 3 ≤ u.powerState by omega]

theorem enterPower_rest_from_lower (hlower : 3 ≤ u.powerState) : u.enterPower 2 = ((u.leaveLow 2).settlePower, 0) := by
  simp [State.enterPower, hstill, hfree, hlower, show u.powerState ≠ 2 by omega]

theorem enterPower_hold_from_upper (hupper : u.powerState < 3) :
    u.enterPower 3 = ((u.leaveIdle.thawWaits.enterLow 3).settlePower, 0) := by
  simp [State.enterPower, hstill, hfree, Nat.ne_of_lt hupper, show u.powerState ≠ 4 by omega]

theorem enterPower_hold_from_keep (hkeep : u.powerState = 4) : u.enterPower 3 = (u.setPowerState 3, 0) := by
  simp [State.enterPower, hstill, hfree, hkeep]

theorem enterPower_keep (hother : u.powerState ≠ 4) : u.enterPower 4 = ((u.leaveIdle.thawWaits.enterLow 4).settlePower, 0) := by
  simp [State.enterPower, hstill, hfree, hother]
end
end

theorem leavePower_moving (hmoving : u.entering ≠ none) : u.leavePower = (u, 0x08) := by
  simp only [State.leavePower, Option.isSome_iff_ne_none.mpr hmoving, if_true]

section
variable {v : Nat}

theorem enterPower_held (hheld : u.powerHeld = true) (hother : ¬ (u.entering = none ∧ u.powerState = v)) : u.enterPower v = (u, 0x09) := by
  have hguard : ¬ ((u.powerState = v && u.entering.isNone) = true) := by
    rw [Bool.and_eq_true, decide_eq_true_eq, Option.isNone_iff_eq_none, and_comm]; exact hother
  simp only [State.enterPower, if_neg hguard, hheld, if_true]

theorem enterPower_moving (hmoving : u.entering ≠ none) (hfree : u.powerHeld = false) : u.enterPower v = (u, 0x08) := by
  simp only [State.enterPower, Option.isNone_eq_false_iff.mpr (Option.isSome_iff_ne_none.mpr hmoving), hfree,
    Option.isSome_iff_ne_none.mpr hmoving, Bool.and_false, Bool.false_eq_true, if_false, if_true]
end

theorem command_power (u : State) (f : Found) (n v : Nat) : u.command f n 0xF020 v = u.powerRequest v := rfl

theorem powerRequest_leave {v : Nat} (hrun : v ≤ 1) : u.powerRequest v = u.leavePower := if_pos hrun

theorem powerRequest_enter {v : Nat} (hlow : 1 < v) : u.powerRequest v = u.enterPower v := if_neg (Nat.not_le.mpr hlow)

/-- A row that writes power_state_request, by what the request comes to in every state that an answer leads to. -/
theorem exec_power_of (x : Instr) (b : Byte) (g : State → State) (st : Nat) (hadmits : s.admitsWrite q 0xF020 0 [b] = some (n, t))
    (hv : cmdValueOk 0xF020 0 (writeMask 0xF020 0 (ofLE [b])) = true) (hx : ∀ s : State, exec x s = .next (s.writeRow {} q 0xF020 0 [b]))
    (heffect : ∀ u, AnswerOnly t u → u.powerRequest (writeMask 0xF020 0 (ofLE [b])) = (g u, st)) :
    exec x s = .next (g (t.replied n q 0xF020 0 [b] st)) :=
  exec_cmd_of x {} _ _ _ (·.powerRequest _) g st hadmits (by decide) (by decide) (by decide) hv hx (fun _ => command_power _ _ _ _) heffect

section
variable {x : Instr} {b : Byte} (hadmits : s.admitsWrite q 0xF020 0 [b] = some (n, t))
  (hx : ∀ s : State, exec x s = .next (s.writeRow {} q 0xF020 0 [b]))
include hadmits hx

/-- RUN and IDLE, by the state that stands. -/
theorem exec_leave (hv : writeMask 0xF020 0 (ofLE [b]) ≤ 1) :
    (t.entering = none → t.powerState < 3 → exec x s = .next (t.replied n q 0xF020 0 [b] 0).leaveIdle.leaveRest) ∧
    (t.entering = none → 3 ≤ t.powerState → exec x s = .next ((t.replied n q 0xF020 0 [b] 0).leaveLow 0).settlePower) ∧
    (¬ t.entering = none → exec x s = .next (t.replied n q 0xF020 0 [b] 0x08)) := by
  have hrow (g : State → State) (st : Nat) (heffect : ∀ u, AnswerOnly t u → u.leavePower = (g u, st)) :
      exec x s = .next (g (t.replied n q 0xF020 0 [b] st)) :=
    exec_power_of x b g st hadmits (decide_eq_true (Nat.le_trans hv (by decide))) hx fun u hu => (powerRequest_leave hv).trans (heffect u hu)
  refine ⟨fun hstill hupper => ?upper, fun hstill hlower => ?lower, fun hmoving => ?moving⟩
  case upper =>
    exact hrow (·.leaveIdle.leaveRest) 0 fun u hu => leavePower_of_upper (hu.entering.trans hstill) (hu.powerState ▸ hupper)
  case lower =>
    exact hrow (fun u => (u.leaveLow 0).settlePower) 0 fun u hu =>
      leavePower_of_lower (hu.entering.trans hstill) (hu.powerState ▸ hlower)
  case moving => exact hrow id 0x08 fun u hu => leavePower_moving (hu.entering ▸ hmoving)

section
variable {v : Nat} (hb : writeMask 0xF020 0 (ofLE [b]) = v) (hlow : 1 < v) (hkeep : v ≤ 4)
include hb hlow hkeep

theorem exec_enter_of (g : State → State) (st : Nat) (heffect : ∀ u, AnswerOnly t u → u.enterPower v = (g u, st)) :
    exec x s = .next (g (t.replied n q 0xF020 0 [b] st)) :=
  exec_power_of x b g st hadmits (decide_eq_true (hb ▸ hkeep)) hx fun u hu => by
    rw [hb, powerRequest_enter hlow, heffect u hu]

/-- REST, HOLD and KEEP where the state stands, is kept away, or is changing. -/
theorem exec_enter_kept :
    (t.entering = none → t.powerState = v → exec x s = .next (t.replied n q 0xF020 0 [b] 0)) ∧
    (t.powerHeld = true → ¬ (t.entering = none ∧ t.powerState = v) → exec x s = .next (t.replied n q 0xF020 0 [b] 0x09)) ∧
    (¬ t.entering = none → t.powerHeld = false → exec x s = .next (t.replied n q 0xF020 0 [b] 0x08)) := by
  have hrow := exec_enter_of hadmits hx hb hlow hkeep id
  refine ⟨fun hstill hsame => hrow 0 fun u hu => ?same, fun hheld hother => hrow 0x09 fun u hu => ?held,
    fun hmoving hfree => hrow 0x08 fun u hu => ?moving⟩
  case same => exact enterPower_same (hu.entering.trans hstill) (hu.powerState.trans hsame)
  case held => exact enterPower_held (hu.powerHeld.trans hheld) (by rw [hu.entering, hu.powerState]; exact hother)
  case moving => exact enterPower_moving (hu.entering ▸ hmoving) (hu.powerHeld.trans hfree)
end
end

/-! ### Scratchpad groups (R206) -/

/-- A group of the mask's core moves, or one of the mask holds a reserved range (R206). -/
def State.groupsBusy (s : State) (c : Nat) (gs : List Nat) : Bool :=
  s.groupsMoving c || gs.any fun g => (s.core c).reservedRanges.any fun r => rangesMeet r.1 r.2 (spAddr c (g * 2 ^ 23)) (2 ^ 23)

theorem AnswerOnly.groupsBusy (h : AnswerOnly s t) (c : Nat) (gs : List Nat) : t.groupsBusy c gs = s.groupsBusy c gs := by rw [h]; rfl
theorem AnswerOnly.groupState (h : AnswerOnly s t) (c g : Nat) : t.groupState c g = s.groupState c g := by rw [h]; rfl

theorem ofLE_pair (a b : Byte) : ofLE [a, b] = a.toNat + 256 * b.toNat := by simp [ofLE]

theorem bits_low_of_pair (a b : Byte) : bits (ofLE [a, b]) 0 8 = a.toNat := by
  have ha : a.toNat < 256 := a.isLt
  rw [ofLE_pair, bits]; omega

theorem bits_high_of_pair (a : Byte) {b : Byte} (hb : b.toNat < 4) : bits (ofLE [a, b]) 8 2 = b.toNat := by
  have ha : a.toNat < 256 := a.isLt
  rw [ofLE_pair, bits]; omega

/-- The mask names the top group of a core with a job: it is not closed (R206). -/
def State.holdsTop (s : State) (c mask : Nat) : Bool := bit mask 7 && (s.core c).job ≠ 0xFF

theorem AnswerOnly.holdsTop (h : AnswerOnly s t) (c mask : Nat) : t.holdsTop c mask = s.holdsTop c mask := by rw [h]; rfl

/-- What a request for some groups does to them, by its target: 0 on, 1 retention, 2 off (R206). -/
def State.moveGroups (s : State) (c : Nat) (gs : List Nat) : Nat → State
  | 0 => s.wakeGroups c gs
  | 1 => (s.closeGroups c gs 3).wakeGroups c (gs.filter fun g => s.groupState c g = 4)
  | _ => (s.closeGroups c gs 4).wakeGroups c (gs.filter fun g => s.groupState c g = 3)

/-- A request for some groups, by the tests of R206 in their order. -/
theorem groupRequest_eq (c v : Nat) :
    u.groupRequest c v =
      if wholeSpans (u.layoutApplied c) (bits v 0 8) = false then (u, 0x07)
      else if bits v 8 2 ≠ 0 ∧ u.holdsTop c (bits v 0 8) = true then (u, 0x09)
      else if u.groupsBusy c (setPositions 8 (bits v 0 8)) = true then (u, 0x08)
      else (u.moveGroups c (setPositions 8 (bits v 0 8)) (bits v 8 2), 0) := by
  have htop : (bit (bits v 0 8) 7 && bits v 8 2 ≠ 0 && (u.core c).job ≠ 0xFF) = true ↔
      bits v 8 2 ≠ 0 ∧ u.holdsTop c (bits v 0 8) = true := by
    rw [Bool.and_right_comm, Bool.and_eq_true, decide_eq_true_eq, and_comm, State.holdsTop]
  simp only [State.groupRequest, htop, Bool.not_eq_true', State.groupsBusy]
  rcases bits v 8 2 with _ | _ | k <;> rfl

/-- The object of a core that takes group_request keeps every bit of its value. -/
theorem writeMask_group (c : CoreId) (v : Nat) : writeMask (coreObj c + 1) 4 v = v := by
  have hindex : coreObj c + 1 = 0x8001 + 0x80 * c.val := by unfold coreObj; omega
  have hc := c.isLt
  generalize coreObj c + 1 = i at hindex
  unfold writeMask
  repeat rw [if_neg (by omega)]
  split
  case h_5 => rfl
  all_goals omega

theorem access_group (c : CoreId) : (objRow (coreObj c + 1) 4).map (·.access) = some .cmd := by
  revert c; decide

theorem cmdValueOk_group (c : CoreId) {v : Nat} (hv : bits v 8 2 ≤ 2) : cmdValueOk (coreObj c + 1) 4 v = true := by
  have hindex : coreObj c + 1 = 0x8001 + 0x80 * c.val := by unfold coreObj; omega
  have hc := c.isLt
  generalize coreObj c + 1 = i at hindex
  unfold cmdValueOk
  split
  case h_12 => rw [if_neg (by omega), if_pos (by omega)]; exact decide_eq_true hv
  all_goals omega

/-- A write of an object of a core is for its groups. -/
theorem command_core (f : Found) (v : Nat) {i : Nat} (hlow : 0x8000 ≤ i) (hhigh : i < 0xF000) :
    u.command f n i v = u.groupRequest ((i - 0x8000) / 0x80) v := by
  unfold State.command
  split
  case h_12 => exact if_neg (by omega)
  all_goals omega

theorem command_group (c : CoreId) (f : Found) (v : Nat) : u.command f n (coreObj c + 1) v = u.groupRequest c v := by
  have hc := c.isLt
  rw [command_core f v (by unfold coreObj; omega) (by unfold coreObj; omega), show (coreObj c + 1 - 0x8000) / 0x80 = c.val by
    unfold coreObj; omega]

/-- No group closes, or not the top one of a core with a job. -/
theorem not_closes_top {c mask target : Nat} (hrest : target = 0 ∨ t.holdsTop c mask = false) : ¬ (target ≠ 0 ∧ t.holdsTop c mask = true) :=
  fun ⟨hcloses, htop⟩ => hrest.elim hcloses fun hno => Bool.eq_false_iff.mp hno htop

section
variable {x : Instr} {c : CoreId} {mask target : Byte} (hadmits : s.admitsWrite q (coreObj c + 1) 4 [mask, target] = some (n, t))
  (hx : ∀ s : State, exec x s = .next (s.writeRow {} q (coreObj c + 1) 4 [mask, target])) (hrange : target.toNat ≤ 2)
include hadmits hx hrange

/-- A row that requests groups, by what the request comes to in every state that an answer leads to. -/
theorem exec_group_of (g : State → State) (st : Nat)
    (heffect : ∀ u, AnswerOnly t u → u.groupRequest c (ofLE [mask, target]) = (g u, st)) :
    exec x s = .next (g (t.replied n q (coreObj c + 1) 4 [mask, target] st)) := by
  have hc := c.isLt
  have hhigh : bits (ofLE [mask, target]) 8 2 ≤ 2 := by rw [bits_high_of_pair mask (by omega)]; exact hrange
  refine exec_cmd_of x {} _ _ _ (·.groupRequest c (ofLE [mask, target])) g st hadmits (by unfold coreObj; omega) (by decide)
    (access_group c) ?_ hx (fun u => ?_) heffect
  · rw [writeMask_group]; exact cmdValueOk_group c hhigh
  · rw [writeMask_group, command_group]

theorem exec_group_cut (hcut : wholeSpans (t.layoutApplied c) mask.toNat = false) :
    exec x s = .next (t.replied n q (coreObj c + 1) 4 [mask, target] 0x07) :=
  exec_group_of hadmits hx hrange id 0x07 fun u hu => by
    rw [groupRequest_eq, bits_low_of_pair, hu.layoutApplied, if_pos hcut]; rfl

section
variable (hwhole : wholeSpans (t.layoutApplied c) mask.toNat = true)
include hwhole

theorem exec_group_top (hcloses : target.toNat ≠ 0) (htop : t.holdsTop c mask.toNat = true) :
    exec x s = .next (t.replied n q (coreObj c + 1) 4 [mask, target] 0x09) :=
  exec_group_of hadmits hx hrange id 0x09 fun u hu => by
    rw [groupRequest_eq, bits_low_of_pair, bits_high_of_pair mask (by omega), hu.layoutApplied, hu.holdsTop, if_neg (by rw [hwhole]; decide),
      if_pos ⟨hcloses, htop⟩]; rfl

variable (hrest : target.toNat = 0 ∨ t.holdsTop c mask.toNat = false)
include hrest

theorem exec_group_busy (hbusy : t.groupsBusy c (setPositions 8 mask.toNat) = true) :
    exec x s = .next (t.replied n q (coreObj c + 1) 4 [mask, target] 0x08) :=
  exec_group_of hadmits hx hrange id 0x08 fun u hu => by
    rw [groupRequest_eq, bits_low_of_pair, bits_high_of_pair mask (by omega), hu.layoutApplied, hu.holdsTop, hu.groupsBusy,
      if_neg (by rw [hwhole]; decide), if_neg (not_closes_top hrest), if_pos hbusy]; rfl

theorem exec_group_moves (hfree : t.groupsBusy c (setPositions 8 mask.toNat) = false) :
    exec x s = .next ((t.replied n q (coreObj c + 1) 4 [mask, target] 0).moveGroups c (setPositions 8 mask.toNat) target.toNat) :=
  exec_group_of hadmits hx hrange (·.moveGroups c (setPositions 8 mask.toNat) target.toNat) 0 fun u hu => by
    rw [groupRequest_eq, bits_low_of_pair, bits_high_of_pair mask (by omega), hu.layoutApplied, hu.holdsTop, hu.groupsBusy,
      if_neg (by rw [hwhole]; decide), if_neg (not_closes_top hrest), if_neg (by rw [hfree]; decide)]
end

/-- GROUP_RETENTION and GROUP_OFF: had, or refused by the tests of R206. -/
theorem exec_group_closes (hcloses : target.toNat ≠ 0) :
    (wholeSpans (t.layoutApplied c) mask.toNat = true → t.holdsTop c mask.toNat = false →
      t.groupsBusy c (setPositions 8 mask.toNat) = false →
      exec x s = .next ((t.replied n q (coreObj c + 1) 4 [mask, target] 0).moveGroups c (setPositions 8 mask.toNat) target.toNat)) ∧
    (wholeSpans (t.layoutApplied c) mask.toNat = false → exec x s = .next (t.replied n q (coreObj c + 1) 4 [mask, target] 0x07)) ∧
    (wholeSpans (t.layoutApplied c) mask.toNat = true → t.holdsTop c mask.toNat = true →
      exec x s = .next (t.replied n q (coreObj c + 1) 4 [mask, target] 0x09)) ∧
    (wholeSpans (t.layoutApplied c) mask.toNat = true → t.holdsTop c mask.toNat = false →
      t.groupsBusy c (setPositions 8 mask.toNat) = true →
      exec x s = .next (t.replied n q (coreObj c + 1) 4 [mask, target] 0x08)) :=
  ⟨fun hwhole hrest => exec_group_moves hadmits hx hrange hwhole (.inr hrest), exec_group_cut hadmits hx hrange,
    fun hwhole => exec_group_top hadmits hx hrange hwhole hcloses, fun hwhole hrest => exec_group_busy hadmits hx hrange hwhole (.inr hrest)⟩
end

/-! ### Resets (R62, R418) -/

/-- A reset of a kind begins 10 ms after its answer, with what its boot finds. -/
def State.resetAsked (s : State) (kind : Nat) (f : Option BringUp) : State :=
  { s with resetting := { kind := kind, start := s.now + 10000000, found := f } }

section
variable {kind : Nat} {f : Option BringUp}

theorem acceptReset_refused (hunder : u.resetting.kind ≠ 0) : u.acceptReset kind f = (u, 0x09) := if_pos hunder

theorem acceptReset_eq (hnone : u.resetting.kind = 0) :
    u.acceptReset kind f =
      let r := u.resetAsked kind f
      let r := if [1, 2].contains r.swapState && !r.goAcked then r.abortSwap 0x04 [] else r
      if r.swapping then ({ r with resetting := { r.resetting with waitSwap := true } }, 0) else (r.beginReset, 0) :=
  if_neg (not_not_intro hnone)

theorem acceptReset_without_swap (hnone : u.resetting.kind = 0) (hswap : u.swapping = false) :
    u.acceptReset kind f = ((u.resetAsked kind f).beginReset, 0) := by
  have hsettled : (u.resetAsked kind f).swapping = false := hswap
  have hclosed : [1, 2].contains (u.resetAsked kind f).swapState = false := by
    simp only [State.swapping, List.contains_cons, Bool.or_eq_false_iff] at hsettled ⊢
    obtain ⟨h1, h2, -⟩ := hsettled
    exact ⟨h1, h2, rfl⟩
  simp only [acceptReset_eq hnone, hclosed, hsettled, Bool.false_and, Bool.false_eq_true, if_false]

theorem acceptReset_after_swap (hnone : u.resetting.kind = 0) (hgoes : u.swapState = 3 ∨ (u.swapState = 2 ∧ u.goAcked = true)) :
    u.acceptReset kind f =
      ({ u.resetAsked kind f with resetting := { (u.resetAsked kind f).resetting with waitSwap := true } }, 0) := by
  replace hgoes : (u.resetAsked kind f).swapState = 3 ∨ ((u.resetAsked kind f).swapState = 2 ∧ (u.resetAsked kind f).goAcked = true) := hgoes
  rw [acceptReset_eq hnone]
  rcases hgoes with hstate | ⟨hstate, hacked⟩
  · simp [State.swapping, hstate]
  · simp [State.swapping, hstate, hacked]

theorem command_reset (u : State) (f : Found) (n v : Nat) : u.command f n 0xF010 v = u.acceptReset v (if v = 2 then some f.boot else none) := rfl

section
variable {x : Instr} {b : Byte} {found : Found} (hadmits : s.admitsWrite q 0xF010 0 [b] = some (n, t))
  (hx : ∀ s : State, exec x s = .next (s.writeRow found q 0xF010 0 [b])) (hb : writeMask 0xF010 0 (ofLE [b]) = kind)
  (hkind : 1 ≤ kind ∧ kind ≤ 2) (hf : f = if kind = 2 then some found.boot else none)
include hadmits hx hb hkind hf

/-- WARM_RESET and COLD_RESET: refused under a reset, begun without a swap, or waiting for one (R62). -/
theorem exec_reset :
    (t.resetting.kind = 0 → t.swapping = false → exec x s = .next ((t.replied n q 0xF010 0 [b] 0).resetAsked kind f).beginReset) ∧
    (t.resetting.kind = 0 → t.swapState = 3 ∨ (t.swapState = 2 ∧ t.goAcked = true) → exec x s =
      .next (let r := (t.replied n q 0xF010 0 [b] 0).resetAsked kind f
             { r with resetting := { r.resetting with waitSwap := true } })) ∧
    (t.resetting.kind ≠ 0 → exec x s = .next (t.replied n q 0xF010 0 [b] 0x09)) := by
  have hrow (g : State → State) (st : Nat) (heffect : ∀ u, AnswerOnly t u → u.acceptReset kind f = (g u, st)) :
      exec x s = .next (g (t.replied n q 0xF010 0 [b] st)) :=
    exec_cmd_of x found _ _ _ (·.acceptReset kind f) g st hadmits (by decide) (by decide) (by decide)
      (by rw [hb]; exact decide_eq_true hkind) hx (fun u => by rw [command_reset, hb, hf]) heffect
  refine ⟨fun hnone hswap => ?begins, fun hnone hgoes => ?waits, fun hunder => ?refused⟩
  case begins =>
    exact hrow (fun u => (u.resetAsked kind f).beginReset) 0 fun u hu =>
      acceptReset_without_swap (hu.resetting ▸ hnone) (hu.swapping.trans hswap)
  case waits =>
    exact hrow (fun u => { u.resetAsked kind f with resetting := { (u.resetAsked kind f).resetting with waitSwap := true } }) 0 fun u hu =>
      acceptReset_after_swap (hu.resetting ▸ hnone) (by rw [hu.swapState, hu.goAcked]; exact hgoes)
  case refused => exact hrow id 0x09 fun u hu => acceptReset_refused (hu.resetting ▸ hunder)
end
end
end

/-- Settles O32: each request is refused or had by the case that its own tests choose, which an answer does not change. -/
theorem stateRequestsAreAnsweredThenActed : Obligations.StateRequestsAreAnsweredThenActed := by
  intro q c mask f s n t
  refine ⟨fun hadmits => ?run, fun hadmits => ?idle, fun hadmits => ?rest, fun hadmits => ?hold, fun hadmits => ?keep, fun hadmits => ?on,
    fun hadmits => ?retention, fun hadmits => ?off, fun hadmits => ?warm, fun hadmits => ?cold⟩
  case run => exact exec_leave hadmits (fun _ => rfl) (by decide)
  case idle => exact exec_leave hadmits (fun _ => rfl) (by decide)
  case rest =>
    have hrow := exec_enter_of (x := .rest q) (v := 2) hadmits (fun _ => rfl) rfl (by decide) (by decide)
    obtain ⟨hsame, hheld, hmoving⟩ := exec_enter_kept (x := .rest q) (v := 2) hadmits (fun _ => rfl) rfl (by decide) (by decide)
    refine ⟨hsame, fun hstill hupper hfree => ?_, fun hstill hlower hfree => ?_, hheld, hmoving⟩
    · exact hrow (·.leaveIdle.enterRest) 0 fun u hu =>
        enterPower_rest_from_upper (hu.entering.trans hstill) (hu.powerHeld.trans hfree) (hu.powerState ▸ hupper)
    · exact hrow (fun u => (u.leaveLow 2).settlePower) 0 fun u hu =>
        enterPower_rest_from_lower (hu.entering.trans hstill) (hu.powerHeld.trans hfree) (hu.powerState ▸ hlower)
  case hold =>
    have hrow := exec_enter_of (x := .hold q) (v := 3) hadmits (fun _ => rfl) rfl (by decide) (by decide)
    obtain ⟨hsame, hheld, hmoving⟩ := exec_enter_kept (x := .hold q) (v := 3) hadmits (fun _ => rfl) rfl (by decide) (by decide)
    refine ⟨hsame, fun hstill hupper hfree => ?_, fun hstill hkeep hfree => ?_, hheld, hmoving⟩
    · exact hrow (fun u => (u.leaveIdle.thawWaits.enterLow 3).settlePower) 0 fun u hu =>
        enterPower_hold_from_upper (hu.entering.trans hstill) (hu.powerHeld.trans hfree) (hu.powerState ▸ hupper)
    · exact hrow (·.setPowerState 3) 0 fun u hu =>
        enterPower_hold_from_keep (hu.entering.trans hstill) (hu.powerHeld.trans hfree) (hu.powerState.trans hkeep)
  case keep =>
    have hrow := exec_enter_of (x := .keep q) (v := 4) hadmits (fun _ => rfl) rfl (by decide) (by decide)
    obtain ⟨hsame, hheld, hmoving⟩ := exec_enter_kept (x := .keep q) (v := 4) hadmits (fun _ => rfl) rfl (by decide) (by decide)
    refine ⟨hsame, fun hstill hother hfree => ?_, hheld, hmoving⟩
    exact hrow (fun u => (u.leaveIdle.thawWaits.enterLow 4).settlePower) 0 fun u hu =>
      enterPower_keep (hu.entering.trans hstill) (hu.powerHeld.trans hfree) (hu.powerState ▸ hother)
  case on =>
    exact ⟨fun hwhole hfree => exec_group_moves hadmits (fun _ => rfl) (by decide) hwhole (.inl rfl) hfree,
      exec_group_cut hadmits (fun _ => rfl) (by decide),
      fun hwhole hbusy => exec_group_busy hadmits (fun _ => rfl) (by decide) hwhole (.inl rfl) hbusy⟩
  case retention => exact exec_group_closes hadmits (fun _ => rfl) (by decide) (by decide)
  case off => exact exec_group_closes hadmits (fun _ => rfl) (by decide) (by decide)
  case warm => exact exec_reset (found := {}) hadmits (fun _ => rfl) rfl (by decide) rfl
  case cold => exact exec_reset (found := { boot := f }) hadmits (fun _ => rfl) rfl (by decide) rfl

end Sys2Proof.Machine
end

section
/-! SUPPORT. What the writes of the security objects come to, case by case: credentials, loads, measurements, the SVN floor, debug tokens (R439,
R440, R442, R445, R446). -/

namespace Sys2Proof.Machine

open Sys2Proof

section
variable {s t u : State} {q : Req} {n : Nat}

/-! ### What an answer leaves -/

theorem AnswerOnly.loadBusy (h : AnswerOnly s t) (n : Nat) : t.loadBusy n = s.loadBusy n := by rw [h]; rfl
theorem AnswerOnly.runs (h : AnswerOnly s t) (k : Nat) : t.runs k = s.runs k := by rw [h]; rfl
theorem AnswerOnly.measurable (h : AnswerOnly s t) (a k : Nat) : t.measurable a k = s.measurable a k := by rw [h]; rfl
theorem AnswerOnly.readBytes (h : AnswerOnly s t) (a k : Nat) : t.readBytes a k = s.readBytes a k := by rw [h]; rfl
theorem AnswerOnly.tokenOk (h : AnswerOnly s t) (b : Bytes) (f : TokenCheck) : t.tokenOk b f = s.tokenOk b f := by rw [h]; rfl

/-! ### Credentials (R442) -/

theorem access_credential (k : Fin 8) : (objRow 0x1040 (k.val + 1)).map (·.access) = some .rw := by
  revert k; decide

theorem rangeOk_credential (k v : Nat) : u.rangeOk 0x1040 k v = decide (credLevel v ≤ 3) := rfl

theorem writeSetting_credential (k v : Nat) : u.writeSetting n 0x1040 k v = u.writeCredential k v := rfl

theorem writeObject_credential (k : Fin 8) (f : Found) (d : Bytes) :
    u.writeObject f n 0x1040 (k.val + 1) d =
      let v := writeMask 0x1040 (k.val + 1) (ofLE d)
      if credLevel v ≤ 3 then u.writeCredential (k.val + 1) v else (u, 0x07) := by
  obtain ⟨r, hrow, hrw⟩ := Option.map_eq_some_iff.mp (access_credential k)
  simp only [writeObject_rw hrow hrw, rangeOk_credential, decide_eq_true_iff, writeSetting_credential]

/-- An entry is the last owner's, and a value would take it from the owners (R442). -/
def State.dropsLastOwner (s : State) (k v : Nat) : Prop :=
  credLevel (s.get 0x1040 k) = 3 ∧ credLevel v ≠ 3 ∧ ∀ i, i < 8 → i + 1 ≠ k → credLevel (s.get 0x1040 (i + 1)) ≠ 3

theorem AnswerOnly.dropsLastOwner (h : AnswerOnly s t) (k v : Nat) : t.dropsLastOwner k v ↔ s.dropsLastOwner k v := by
  simp only [State.dropsLastOwner, h.get]

/-- The test that a write of a credential makes. -/
theorem dropsLastOwner_iff (k v : Nat) :
    (credLevel (u.get 0x1040 k) = 3 && credLevel v ≠ 3
      && !((List.range 8).filter (· + 1 ≠ k)).any fun i => credLevel (u.get 0x1040 (i + 1)) = 3) = true ↔ u.dropsLastOwner k v := by
  simp [State.dropsLastOwner, and_assoc]

theorem writeCredential_of_last {k v : Nat} (hlast : u.dropsLastOwner k v) : u.writeCredential k v = (u, 0x09) :=
  if_pos ((dropsLastOwner_iff k v).mpr hlast)

theorem writeCredential_of_kept {k v : Nat} (hkept : ¬ u.dropsLastOwner k v) : u.writeCredential k v = (u.put 0x1040 k v, 0) :=
  if_neg (mt (dropsLastOwner_iff k v).mp hkept)

/-! ### Loads (R440) -/

theorem loadBusy_of_loader_none (hnone : u.security.loader = none) : u.loadBusy n = false := by
  simp only [State.loadBusy, hnone]

theorem loadBusy_of_loader_own (hown : u.security.loader = some n) : u.loadBusy n = false := by
  simp [State.loadBusy, hown]

/-- A load of session n begins: its target is emptied and invalid (R440). -/
def State.beginLoad (s : State) (n T : Nat) : State :=
  let x := s.updSlot T fun y => { y with chunks := [], valid := false }
  ({ x with security := { x.security with loader := some n } }.put 0x1060 6 0).change 0x1060 5 1

section
variable {d : Bytes}

theorem loadChunk_busy (hbusy : u.loadBusy n = true) : u.loadChunk n d = (u, 0x08) := if_pos hbusy

variable (hidle : u.loadBusy n = false)
include hidle

theorem loadChunk_running (hruns : u.runs (u.get 0x1060 1) = true) : u.loadChunk n d = (u, 0x09) := by
  simp only [State.loadChunk, hidle, hruns, Bool.false_eq_true, if_false, if_true]

variable (hruns : u.runs (u.get 0x1060 1) = false)
include hruns

theorem loadChunk_outside (hout : targetSize (u.get 0x1060 1) < u.get 0x1060 2 + d.length) : u.loadChunk n d = (u, 0x07) := by
  simp only [State.loadChunk, hidle, hruns, Bool.false_eq_true, if_false, if_pos hout]

/-- A chunk joins those of its target, which the first empties as the load begins. -/
theorem loadChunk_inside (hin : u.get 0x1060 2 + d.length ≤ targetSize (u.get 0x1060 1)) :
    u.loadChunk n d =
      ((if u.security.loader.isSome then u else u.beginLoad n (u.get 0x1060 1)).updSlot (u.get 0x1060 1) fun y =>
        { y with chunks := y.chunks ++ [(u.get 0x1060 2, d)] }, 0) := by
  simp only [State.loadChunk, hidle, hruns, Bool.false_eq_true, if_false, if_neg (Nat.not_lt.mpr hin), State.beginLoad]
end

theorem command_load (u : State) (f : Found) (n v : Nat) :
    u.command f n 0x1060 v = if v = 1 then u.loadCommit n f.load else u.loadAbort n := rfl

section
variable {lc : LoadCheck}

theorem loadCommit_busy (hbusy : u.loadBusy n = true) : u.loadCommit n lc = (u, 0x08) := if_pos hbusy

theorem loadCommit_none (hnone : u.security.loader = none) : u.loadCommit n lc = (u, 0x09) := by
  simp only [State.loadCommit, loadBusy_of_loader_none hnone, hnone, Option.isNone_none, Bool.false_eq_true, if_false, if_true]

theorem loadAbort_busy (hbusy : u.loadBusy n = true) : u.loadAbort n = (u, 0x08) := if_pos hbusy

theorem loadAbort_none (hnone : u.security.loader = none) : u.loadAbort n = (u, 0x09) := by
  simp only [State.loadAbort, loadBusy_of_loader_none hnone, hnone, Option.isNone_none, Bool.false_eq_true, if_false, if_true]

theorem loadAbort_own (hown : u.security.loader = some n) : u.loadAbort n = (u.abortLoad, 0) := by
  simp only [State.loadAbort, loadBusy_of_loader_own hown, hown, Option.isNone_some, Bool.false_eq_true, if_false]

/-- A change to a value that is not the object's default leaves the other objects, whatever the form of their table. -/
theorem get_change_of_other {i j k v : Nat} (hv : v ≠ objDefault i j) (hother : okey i k ≠ okey i j) (hi : i ≠ 0x4101) :
    (s.change i j v).get i k = s.get i k := by
  have hput : (s.put i j v).get i k = s.get i k := by
    simp only [State.get, State.put, if_neg hi, Tab.set, if_neg hv]
    exact Tab.get_put_other hother
  unfold State.change
  split
  · rfl
  · split
    · rw [event_eq]; exact hput
    · exact hput

/-- The state in which a load is verified: its session has it no more, and its state is 2. -/
def State.verifying (s : State) : State := { s with security := { s.security with loader := none } }.change 0x1060 5 2

/-- A change of another object, to a value that is not its default, leaves the target of a load. -/
theorem verifying_target : u.verifying.get 0x1060 1 = u.get 0x1060 1 :=
  get_change_of_other (s := { u with security := { u.security with loader := none } }) (by decide) (by decide) (by decide)

/-- The first check that a target fails, 0 for none. -/
def State.loadFinding (s : State) (lc : LoadCheck) : Nat :=
  let T := s.get 0x1060 1
  if T < 2 then s.imageCheck (s.slot T) lc.failed.toNat else s.variantCheck (s.slot T) lc.failed.toNat

/-- What a verified load leaves, by its first failing check: the target invalid, or valid with what its header says. -/
def State.verified (s : State) (lc : LoadCheck) : State :=
  let T := s.get 0x1060 1
  let h := (s.slot T).bytes 2048
  if s.loadFinding lc ≠ 0 then (s.put 0x1060 6 (s.loadFinding lc)).change 0x1060 5 4
  else if T = 2 then (s.updSlot T fun y => { y with valid := true }).change 0x1060 5 3
  else ((s.updSlot T fun y =>
    { y with valid := true, svn := leAt h 6 2, version := [leAt h 2 1, leAt h 3 1, leAt h 4 2], hash := (h.drop 16).take 64 }).put
      0x4202 1 T).change 0x1060 5 3

theorem verified_bad (hbad : s.loadFinding lc ≠ 0) : s.verified lc = (s.put 0x1060 6 (s.loadFinding lc)).change 0x1060 5 4 := if_pos hbad

theorem verified_variant (hgood : s.loadFinding lc = 0) (hvariant : s.get 0x1060 1 = 2) :
    s.verified lc = (s.updSlot (s.get 0x1060 1) fun y => { y with valid := true }).change 0x1060 5 3 := by
  rw [State.verified, if_neg (not_not_intro hgood), if_pos hvariant]

theorem verified_slot (hgood : s.loadFinding lc = 0) (hslot : s.get 0x1060 1 ≠ 2) :
    s.verified lc =
      let T := s.get 0x1060 1
      let h := (s.slot T).bytes 2048
      ((s.updSlot T fun y =>
        { y with valid := true, svn := leAt h 6 2, version := [leAt h 2 1, leAt h 3 1, leAt h 4 2], hash := (h.drop 16).take 64 }).put
          0x4202 1 T).change 0x1060 5 3 := by
  rw [State.verified, if_neg (not_not_intro hgood), if_neg hslot]

/-- Two effects with one status. -/
theorem ite_status {c : Prop} [Decidable c] (a b : State) (st : Nat) : (if c then (a, st) else (b, st)) = (if c then a else b, st) :=
  (apply_ite (·, st) c a b).symm

theorem loadCommit_own (hown : u.security.loader = some n) : u.loadCommit n lc = (u.verifying.verified lc, 0) := by
  simp only [State.loadCommit, loadBusy_of_loader_own hown, hown, Option.isNone_some, Bool.false_eq_true, if_false, ite_status, State.verified,
    State.loadFinding, verifying_target]
  rfl
end

/-! ### The SVN floor and program measurement (R439, R445) -/

theorem svnAdvance_of_lt (hlt : u.get 0x1061 1 < u.security.svn) : u.svnAdvance = (u.put 0x1061 1 u.security.svn, 0) :=
  if_neg (Nat.not_le.mpr hlt)

theorem svnAdvance_of_le (hle : u.security.svn ≤ u.get 0x1061 1) : u.svnAdvance = (u, 0x09) := if_pos hle

/-- A measurement joins the log, and the log's value takes it in: e the entry, d its digest (R445). -/
def State.logMeasurement (s : State) (e d : Bytes) : State :=
  { s with security := { s.security with programLog := s.security.programLog ++ [e], logValue := sha512 (s.security.logValue ++ d) } }

theorem measureApply_refused (hout : u.measurable (u.get 0x1070 1) (u.get 0x1070 2) = false) : u.measureApply = (u, 0x10) := by
  simp only [State.measureApply, hout, Bool.not_false, if_true]

section
variable (hin : u.measurable (u.get 0x1070 1) (u.get 0x1070 2) = true)
include hin

theorem measureApply_full (hfull : 256 ≤ u.security.programLog.length) : u.measureApply = (u, 0x09) := by
  simp only [State.measureApply, hin, Bool.not_true, Bool.false_eq_true, if_false, if_pos hfull]

theorem measureApply_taken (hroom : u.security.programLog.length < 256) :
    u.measureApply =
      let d := sha512 (u.readBytes (u.get 0x1070 1) (u.get 0x1070 2))
      (u.logMeasurement (toLE 8 u.now ++ toLE 8 (u.get 0x1070 1) ++ toLE 4 (u.get 0x1070 2) ++ toLE 12 0 ++ d) d, 0) := by
  simp only [State.measureApply, hin, Bool.not_true, Bool.false_eq_true, if_false, if_neg (Nat.not_le.mpr hroom), State.logMeasurement]
end

/-! ### Debug tokens (R446) -/

/-- The challenge is consumed. -/
def State.challengeUsed (s : State) : State := { s with security := { s.security with challenge := none } }

section
variable {d : Bytes} {tc : TokenCheck}

theorem writeToken_accepted (hok : u.tokenOk d tc = true) :
    u.writeToken d tc = ((u.challengeUsed.put 0x1080 4 (u.now + leAt d 4 4 * 1000000000)).change 0x1080 3 (leAt d 2 2), 0) := by
  simp only [State.writeToken, hok, Bool.not_true, Bool.false_eq_true, if_false, State.challengeUsed]

theorem writeToken_refused (hbad : u.tokenOk d tc = false) : u.writeToken d tc = (u.challengeUsed, 0x10) := by
  simp only [State.writeToken, hbad, Bool.not_false, if_true, State.challengeUsed]
end
end

/-- Settles O34: the tests of each action read nothing that an answer touches, so the case found when it is served is the case had. -/
theorem securityRequestsLoadMeasureAndAdvance : Obligations.SecurityRequestsLoadMeasureAndAdvance := by
  intro q s n t k data lc tc
  refine ⟨fun hadmits => ?credential, fun hadmits => ?chunk, fun hadmits => ?commit, fun hadmits => ?abort, fun hadmits => ?floor,
    fun hadmits => ?measure, fun hadmits => ?token, fun hadmits => ?lock⟩
  case credential =>
    have hk := k.isLt
    have hrow := fun g st => exec_write_of (.credentialWrite q k data) {} _ _ _ g st hadmits (by decide) (by omega) fun _ => rfl
    simp only [writeObject_credential] at hrow
    refine ⟨fun hlevel hkeeps => hrow (fun u => u.put 0x1040 (k.val + 1) _) 0 fun u hu => ?_, fun hlevel hlast => hrow id 0x09 fun u hu => ?_,
      fun hlevel => hrow id 0x07 fun u hu => if_neg (Nat.not_le.mpr hlevel)⟩
    · rw [if_pos hlevel, writeCredential_of_kept (mt (hu.dropsLastOwner _ _).mp hkeeps)]
    · rw [if_pos hlevel, writeCredential_of_last ((hu.dropsLastOwner _ _).mpr hlast)]; rfl
  case chunk =>
    have hrow := fun g st => exec_write_of (.loadChunkWrite q data) {} _ _ _ g st hadmits (by decide) (by decide) fun _ => rfl
    have hwrite (u : State) : u.writeObject {} n 0x1060 3 data = u.loadChunk n data :=
      (writeObject_wo (by decide)).trans (if_pos rfl)
    simp only [hwrite] at hrow
    refine ⟨fun hbusy => hrow id 0x08 fun u hu => loadChunk_busy ((hu.loadBusy n).trans hbusy),
      fun hidle hruns => hrow id 0x09 fun u hu => loadChunk_running ((hu.loadBusy n).trans hidle) (by rw [hu.get, hu.runs, hruns]),
      fun hidle hruns hout => hrow id 0x07 fun u hu => loadChunk_outside ((hu.loadBusy n).trans hidle) (by rw [hu.get, hu.runs, hruns])
        (by rw [hu.get, hu.get]; exact hout),
      fun hown hruns hin => ?joins, fun hnone hruns hin => ?first⟩
    case joins =>
      refine hrow (fun u => u.updSlot (t.get 0x1060 1) fun y => { y with chunks := y.chunks ++ [(t.get 0x1060 2, data)] }) 0 fun u hu => ?_
      have hloader : u.security.loader = some n := hu.security ▸ hown
      rw [loadChunk_inside (loadBusy_of_loader_own hloader) (by rw [hu.get, hu.runs, hruns]) (by rw [hu.get, hu.get]; exact hin)]
      simp only [hloader, Option.isSome_some, if_true, hu.get]
    case first =>
      refine hrow (fun u => State.updSlot (State.beginLoad u n (t.get 0x1060 1)) (t.get 0x1060 1) fun y =>
        { y with chunks := y.chunks ++ [(t.get 0x1060 2, data)] }) 0 fun u hu => ?_
      have hloader : u.security.loader = none := hu.security ▸ hnone
      rw [loadChunk_inside (loadBusy_of_loader_none hloader) (by rw [hu.get, hu.runs, hruns]) (by rw [hu.get, hu.get]; exact hin)]
      simp only [hloader, Option.isSome_none, Bool.false_eq_true, if_false, hu.get]
  case commit =>
    have hrow := fun g st => exec_cmd_of (.loadCommit q lc) { load := lc } _ _ _ (·.loadCommit n lc) g st hadmits (by decide) (by decide)
      (by decide) (by decide) (fun _ => rfl) fun u => (command_load u _ n _).trans (if_pos rfl)
    refine ⟨fun hbusy => hrow id 0x08 fun u hu => loadCommit_busy ((hu.loadBusy n).trans hbusy),
      fun hnone => hrow id 0x09 fun u hu => loadCommit_none (hu.security ▸ hnone), fun hown => ?_⟩
    have hverified := hrow (fun u => u.verifying.verified lc) 0 fun u hu => loadCommit_own (hu.security ▸ hown)
    exact ⟨fun hbad => hverified.trans (congrArg Host.Outcome.next (verified_bad hbad)),
      fun hgood hvariant => hverified.trans (congrArg Host.Outcome.next (verified_variant hgood hvariant)),
      fun hgood hslot => hverified.trans (congrArg Host.Outcome.next (verified_slot hgood hslot))⟩
  case abort =>
    have hrow := fun g st => exec_cmd_of (.loadAbort q) {} _ _ _ (·.loadAbort n) g st hadmits (by decide) (by decide)
      (by decide) (by decide) (fun _ => rfl) fun u => (command_load u _ n _).trans (if_neg (by decide))
    exact ⟨fun hbusy => hrow id 0x08 fun u hu => loadAbort_busy ((hu.loadBusy n).trans hbusy),
      fun hnone => hrow id 0x09 fun u hu => loadAbort_none (hu.security ▸ hnone),
      fun hown => hrow State.abortLoad 0 fun u hu => loadAbort_own (hu.security ▸ hown)⟩
  case floor =>
    have hrow := fun g st => exec_cmd_of (.svnAdvance q) {} _ _ _ State.svnAdvance g st hadmits (by decide) (by decide)
      (by decide) (by decide) (fun _ => rfl) fun _ => rfl
    refine ⟨fun hlt => hrow (·.put 0x1061 1 t.security.svn) 0 fun u hu => ?_, fun hle => hrow id 0x09 fun u hu => ?_⟩
    · rw [svnAdvance_of_lt (by rw [hu.get, hu.security]; exact hlt), hu.security]
    · exact svnAdvance_of_le (by rw [hu.get, hu.security]; exact hle)
  case measure =>
    have hrow := fun g st => exec_cmd_of (.measureApply q) {} _ _ _ State.measureApply g st hadmits (by decide) (by decide)
      (by decide) (by decide) (fun _ => rfl) fun _ => rfl
    refine ⟨fun hout => hrow id 0x10 fun u hu => measureApply_refused (by rw [hu.get, hu.get, hu.measurable, hout]),
      fun hin hfull => hrow id 0x09 fun u hu => measureApply_full (by rw [hu.get, hu.get, hu.measurable, hin]) (hu.security ▸ hfull),
      fun hin hroom => hrow (State.logMeasurement · _ _) 0 fun u hu => ?_⟩
    rw [measureApply_taken (by rw [hu.get, hu.get, hu.measurable, hin]) (hu.security ▸ hroom)]
    simp only [hu.get, hu.now, hu.readBytes]
  case token =>
    have hrow := fun g st => exec_write_of (.debugTokenWrite q data tc) { token := tc } _ _ _ g st hadmits (by decide) (by decide)
      fun _ => rfl
    have hwrite (u : State) : u.writeObject { token := tc } n 0x1080 2 data = u.writeToken data tc :=
      (writeObject_wo (by decide)).trans (if_neg (by decide))
    simp only [hwrite] at hrow
    refine ⟨fun hok => hrow (fun u => (u.challengeUsed.put 0x1080 4 (t.now + leAt data 4 4 * 1000000000)).change 0x1080 3 (leAt data 2 2)) 0
      fun u hu => ?_, fun hbad => hrow State.challengeUsed 0x10 fun u hu => writeToken_refused ((hu.tokenOk _ _).trans hbad)⟩
    rw [writeToken_accepted ((hu.tokenOk _ _).trans hok), hu.now]
  case lock =>
    exact exec_cmd_of _ {} _ _ _ _ State.lockDebug 0 hadmits (by decide) (by decide) (by decide) (by decide) (fun _ => rfl) (fun _ => rfl)
      fun u _ => rfl

end Sys2Proof.Machine
end

section
/-! SUPPORT. What each SPDM request comes to, case by case (R441 to R443). -/

namespace Sys2Proof.Machine

open Sys2Proof

/-- Whether a request is of the subset's versions and verifies (R443). -/
def spdmServed (m : Spdm) : Prop := m.ok = true ∧ m.version.toNat ∈ [0x11, 0x12, 0x13]

section
variable {s : State} {src : Source} {m : Spdm} (hheard : s.silent src = false)

/-! ### Requests within the subset and outside it -/

section
variable (f : State → State)
include hheard

theorem spdmRequest_of_served (hserved : spdmServed m) : s.spdmRequest src m f = f s := by
  obtain ⟨hok, hversion⟩ := hserved
  simp only [State.spdmRequest, hheard, hok, List.contains_iff_mem.mpr hversion, Bool.not_true, Bool.or_false, Bool.false_eq_true, if_false]

theorem spdmRequest_of_not_served (hother : ¬ spdmServed m) : s.spdmRequest src m f = s.spdmError src 0x07 := by
  have hbad : (!m.ok || ! [0x11, 0x12, 0x13].contains m.version.toNat) = true := by
    rw [Bool.or_eq_true, Bool.not_eq_true', Bool.not_eq_true', ← Bool.not_eq_true, ← Bool.not_eq_true, List.contains_iff_mem,
      ← Classical.not_and_iff_not_or_not]
    exact hother
  simp only [State.spdmRequest, hheard, Bool.false_eq_true, if_false, if_pos hbad]

theorem spdmSlot0_of_served (hserved : spdmServed m) (hslot : m.param1 = 0) : s.spdmSlot0 src m f = f s := by
  rw [State.spdmSlot0, spdmRequest_of_served hheard _ hserved, if_neg (not_not_intro hslot)]

theorem spdmSlot0_of_not_served (hother : ¬ spdmServed m) : s.spdmSlot0 src m f = s.spdmError src 0x07 :=
  spdmRequest_of_not_served hheard _ hother
end

section
variable {x : Session} (hsession : s.session m.session = some x) (hsecure : x.secure = true)
include hheard hsession hsecure

theorem inSession_of_served (f : Session → State → State) (hserved : spdmServed m) : s.inSession src m f = f x s := by
  simp only [State.inSession, hsession, hsecure, if_true, spdmRequest_of_served hheard _ hserved]

theorem finish_of_secure :
    finish src m s =
      if m.ok = true then (s.updSession m.session fun x => { x with finished := true }).spdm src 0x65 []
      else (s.closeSession m.session).spdmError src 0x07 := by
  cases hok : m.ok <;> simp [finish, hsession, hsecure, hheard, hok]
end

/-! ### Responses -/

include hheard

theorem getVersion_of_ok (hok : m.ok = true) : getVersion src m s = s.spdm src 0x04 [0x11, 0x12, 0x13] := by
  simp only [getVersion, hheard, hok, Bool.not_true, Bool.false_eq_true, if_false]

theorem getMeasurements_of_served (hserved : spdmServed m) (hblock : m.param2.toNat ≤ 11 ∨ m.param2.toNat = 0xFF) :
    getMeasurements src m s =
      if bit m.param1.toNat 0 then (s.ownBytes 512).1.spdm src 0x60 (s.blocks m.param2.toNat ++ (s.ownBytes 512).2)
      else s.spdm src 0x60 (s.blocks m.param2.toNat) := by
  rw [getMeasurements, spdmRequest_of_served hheard _ hserved, if_neg (by omega)]
  cases bit m.param1.toNat 0
  · simp only [Bool.false_eq_true, if_false, List.append_nil]
  · rfl

theorem keyExchange_of_full (hserved : spdmServed m) (hfull : s.freeSession = none) : keyExchange src m s = s.spdmError src 0x0A := by
  simp only [keyExchange, spdmRequest_of_served hheard _ hserved, hfull]

theorem keyExchange_of_free {n : Nat} (hserved : spdmServed m) (hfree : s.freeSession = some n) :
    keyExchange src m s =
      let u := s.setSession n (some { source := { src with env := none }, level := s.levelOf src m.leaf, secure := true
                                      lastRequest := s.now, heartbeat := s.now })
      (u.ownBytes 512).1.spdm src 0x64 (toLE 1 100 ++ toLE 1 n ++ (u.ownBytes 512).2) := by
  simp only [keyExchange, spdmRequest_of_served hheard _ hserved, hfree]
end

theorem spdmHeartbeatTimeout_of_secure {s : State} {n : Nat} {x : Session} (hsession : s.session n = some x) (hsecure : x.secure = true) :
    spdmHeartbeatTimeout n s = { s with now := max s.now (x.heartbeat + 100 * 1000000000) }.closeSession n := by
  simp only [spdmHeartbeatTimeout, hsession, if_pos hsecure]

/-- Settles O38: each request is tested for the subset once, and its response is then its own. -/
theorem spdmRequestsAreAnsweredWithinTheSubset : Obligations.SpdmRequestsAreAnsweredWithinTheSubset := by
  intro src m s hheard
  refine ⟨fun hok => ?version,
    fun hgood => ⟨?capabilities, ?algorithms, ?digests, fun hslot => ⟨?certificate, ?challenge⟩, fun hblock => ?measurements,
      fun n hfree => ?newSession, fun hfull => ?noSession, fun x hx hsecure => ⟨?heartbeat, ?keyUpdate, ?endSession⟩⟩,
    fun x hx hsecure => ⟨fun hok => ?finished, fun hbad => ?closed⟩, fun hother => ?outside, fun n x hx hsecure => ?silence⟩
  case version => exact congrArg Host.Outcome.next (getVersion_of_ok hheard hok)
  case capabilities => exact congrArg Host.Outcome.next (spdmRequest_of_served hheard _ hgood)
  case algorithms => exact congrArg Host.Outcome.next (spdmRequest_of_served hheard _ hgood)
  case digests => exact congrArg Host.Outcome.next (spdmRequest_of_served hheard _ hgood)
  case certificate => exact congrArg Host.Outcome.next (spdmSlot0_of_served hheard _ hgood hslot)
  case challenge => exact congrArg Host.Outcome.next (spdmSlot0_of_served hheard _ hgood hslot)
  case measurements => exact congrArg Host.Outcome.next (getMeasurements_of_served hheard hgood hblock)
  case newSession => exact congrArg Host.Outcome.next (keyExchange_of_free hheard hgood hfree)
  case noSession => exact congrArg Host.Outcome.next (keyExchange_of_full hheard hgood hfull)
  case heartbeat => exact congrArg Host.Outcome.next (inSession_of_served hheard hx hsecure _ hgood)
  case keyUpdate => exact congrArg Host.Outcome.next (inSession_of_served hheard hx hsecure _ hgood)
  case endSession => exact congrArg Host.Outcome.next (inSession_of_served hheard hx hsecure _ hgood)
  case finished => exact congrArg Host.Outcome.next ((finish_of_secure hheard hx hsecure).trans (if_pos hok))
  case closed => exact congrArg Host.Outcome.next ((finish_of_secure hheard hx hsecure).trans (if_neg (Bool.eq_false_iff.mp hbad)))
  case outside =>
    have herror (f : State → State) := congrArg (Host.Outcome.next (φ := Fault) (ρ := Refusal)) (spdmRequest_of_not_served hheard f hother)
    have hslot (f : State → State) := congrArg (Host.Outcome.next (φ := Fault) (ρ := Refusal)) (spdmSlot0_of_not_served hheard f hother)
    simp only [List.forall_mem_cons]
    exact ⟨herror _, herror _, herror _, hslot _, hslot _, herror _, herror _, List.forall_mem_nil _⟩
  case silence => exact congrArg Host.Outcome.next (spdmHeartbeatTimeout_of_secure hx hsecure)

end Sys2Proof.Machine
end

section
/-! SUPPORT. What each service of the management protocol comes to, case by case (R43 to R45): a request that its session admits, and a unit of
a transfer. -/

namespace Sys2Proof.Machine

open Sys2Proof

section
variable {s t : State} {src : Source} {u : TchUnit} {n service : Nat}

/-! ### Units that reach their service -/

theorem request_admits {act : Found → Nat → State → State} (hadmits : s.found.1.admits src u = some (n, t))
    (hfits : headerFits service u = true) (henv : u.envelope = src.env.isSome) :
    s.request service src u act = act s.found.2 n t :=
  receive_admits (act := act s.found.2) hadmits hfits henv

theorem transferUnit_of_transfer {write : Bool} {act : Found → Nat → Transfer → State → State} {tr : Transfer}
    (hreaches : s.found.1.reaches src u = some (n, t)) (hfits : headerFits service u = true) (henv : u.envelope = src.env.isSome)
    (htransfer : t.transfer n u.transaction.toNat = some tr) (hwrite : tr.write = write) :
    s.transferUnit service src u write act = act s.found.2 n tr t := by
  simp only [State.transferUnit, receive_reaches hreaches hfits henv, htransfer, if_pos hwrite]

theorem transferUnit_of_none {write : Bool} {act : Found → Nat → Transfer → State → State}
    (hreaches : s.found.1.reaches src u = some (n, t)) (hfits : headerFits service u = true) (henv : u.envelope = src.env.isSome)
    (hnone : t.transfer n u.transaction.toNat = none) :
    s.transferUnit service src u write act = t.noTransfer src u := by
  simp only [State.transferUnit, receive_reaches hreaches hfits henv, hnone]

/-! ### READ and READ_SEG_INIT of a listed object -/

section
variable {r : ObjRow} (f : Found) (hrow : objRow u.index.toNat u.subindex.toNat = some r)
include hrow

theorem serveRead_of_listed :
    t.serveRead f n src u =
      let st := t.readStatus n u.index.toNat u.subindex.toNat u.type.toNat
      let x := t.readObject f r u.index.toNat u.subindex.toNat u.maquette
      if st ≠ 0 then t.answer n src u (replyTo src u st 0 [])
      else if 8 < (t.shown r u.index.toNat u.subindex.toNat u.maquette).length then t.answer n src u (replyTo src u 0x0D 0 [])
      else x.1.answer n src u (replyTo src u 0 0 x.2) := by
  simp only [State.serveRead, hrow]

theorem serveReadInit_of_listed :
    t.serveReadInit f n src u =
      let st := t.readStatus n u.index.toNat u.subindex.toNat u.type.toNat
      let x := t.readObject f r u.index.toNat u.subindex.toNat u.maquette
      let y := x.1.sendUnit src (replyTo src u 0 x.2.length [])
      if st ≠ 0 then t.refuse src u st
      else if x.2 = [] then y
      else (y.addTransfer n { txn := u.transaction.toNat, write := false, index := u.index.toNat, sub := u.subindex.toNat, total := x.2.length
                              data := x.2, next := 0, acked := 0, resends := 0, active := y.now }).pumpRead n u.transaction.toNat 4 := by
  simp only [State.serveReadInit, hrow, List.isEmpty_iff]
end

/-! ### WRITE and WRITE_SEG_INIT -/

theorem serveWrite_of_ok (f : Found)
    (hok : t.writeStatus n u.index.toNat u.subindex.toNat u.type.toNat false (expeditedSize u.data.length) = 0) :
    t.serveWrite f n src u =
      let w (x : State) := x.applyWrite f n u.index.toNat u.subindex.toNat u.data
      (w (t.answer n src u (replyTo src u (w t).2 0 []))).1 := by
  simp only [State.serveWrite, State.answerThen, if_neg (not_not_intro hok)]

theorem serveWrite_of_refused (f : Found)
    (hbad : t.writeStatus n u.index.toNat u.subindex.toNat u.type.toNat false (expeditedSize u.data.length) ≠ 0) :
    t.serveWrite f n src u = t.answer n src u
      (replyTo src u (t.writeStatus n u.index.toNat u.subindex.toNat u.type.toNat false (expeditedSize u.data.length)) 0 []) :=
  if_pos hbad

theorem serveWriteInit_of_ok
    (hok : t.writeStatus n u.index.toNat u.subindex.toNat u.type.toNat false (segmentedSize u.param.toNat) = 0) :
    t.serveWriteInit n src u = (t.sendUnit src (replyTo src u 0 0 [])).addTransfer n
      { txn := u.transaction.toNat, write := true, index := u.index.toNat, sub := u.subindex.toNat, total := u.param.toNat, data := []
        next := 0, acked := 0, resends := 0, active := t.now } :=
  if_neg (not_not_intro hok)

theorem serveWriteInit_of_refused
    (hbad : t.writeStatus n u.index.toNat u.subindex.toNat u.type.toNat false (segmentedSize u.param.toNat) ≠ 0) :
    t.serveWriteInit n src u
      = t.refuse src u (t.writeStatus n u.index.toNat u.subindex.toNat u.type.toNat false (segmentedSize u.param.toNat)) :=
  if_pos hbad
end

/-- Settles O39: a unit reaches its service, which answers the case that the clause's conditions choose. -/
theorem unitsAreServedByTheirService : Obligations.UnitsAreServedByTheirService := by
  intro src u s henv
  refine ⟨fun n t r hadmits hrow => ⟨fun hfits => ?read, fun hfits => ?write, fun hfits => ?readInit, fun hfits => ?writeInit⟩,
    fun n t hreaches => ⟨fun hfits tr htr hwrite => ?segment, fun hfits hnone => ?noWrite, fun hfits tr htr hread => ?segAck,
      fun hfits hnone => ?noRead⟩,
    fun n t hreaches => ⟨fun hfits => ?abort, fun hfits => ?eventAck⟩⟩
  case read =>
    have hserved : exec (.read src u) s = .next (t.serveRead s.found.2 n src u) :=
      congrArg Host.Outcome.next (request_admits hadmits hfits henv)
    rw [hserved, serveRead_of_listed _ hrow]
    refine ⟨fun hok hshort => ?value, fun hok hlong => ?long, fun hbad => ?refused⟩
    case value => simp only [hok, ne_eq, not_true, if_false, if_neg (Nat.not_lt.mpr hshort)]
    case long => simp only [hok, ne_eq, not_true, if_false, if_pos hlong]
    case refused => simp only [if_pos hbad]
  case write =>
    have hserved : exec (.write src u) s = .next (t.serveWrite s.found.2 n src u) :=
      congrArg Host.Outcome.next (request_admits hadmits hfits henv)
    rw [hserved]
    exact ⟨fun hok => congrArg Host.Outcome.next (serveWrite_of_ok _ hok), fun hbad => congrArg Host.Outcome.next (serveWrite_of_refused _ hbad)⟩
  case readInit =>
    have hserved : exec (.readSegInit src u) s = .next (t.serveReadInit s.found.2 n src u) :=
      congrArg Host.Outcome.next (request_admits hadmits hfits henv)
    rw [hserved, serveReadInit_of_listed _ hrow]
    refine ⟨fun hok hsome => ?value, fun hok hempty => ?empty, fun hbad => ?refused⟩
    case value => simp only [hok, ne_eq, not_true, if_false, if_neg hsome]
    case empty => simp only [hok, ne_eq, not_true, if_false, hempty, if_true, List.length_nil]
    case refused => simp only [if_pos hbad]
  case writeInit =>
    have hserved : exec (.writeSegInit src u) s = .next (t.serveWriteInit n src u) :=
      congrArg Host.Outcome.next (request_admits (act := fun _ n s => s.serveWriteInit n src u) hadmits hfits henv)
    rw [hserved]
    exact ⟨fun hok => congrArg Host.Outcome.next (serveWriteInit_of_ok hok),
      fun hbad => congrArg Host.Outcome.next (serveWriteInit_of_refused hbad)⟩
  case segment => exact congrArg Host.Outcome.next (transferUnit_of_transfer hreaches hfits henv htr hwrite)
  case noWrite => exact congrArg Host.Outcome.next (transferUnit_of_none hreaches hfits henv hnone)
  case segAck => exact congrArg Host.Outcome.next (transferUnit_of_transfer hreaches hfits henv htr hread)
  case noRead => exact congrArg Host.Outcome.next (transferUnit_of_none hreaches hfits henv hnone)
  case abort => exact congrArg Host.Outcome.next (receive_reaches hreaches hfits henv)
  case eventAck => exact congrArg Host.Outcome.next (receive_reaches hreaches hfits henv)

end Sys2Proof.Machine
end

section
/-! SUPPORT. What the timers of sessions come to, case by case: segments and events sent again, transfers and sessions that end (R41, R45, R48). -/

namespace Sys2Proof.Machine

open Sys2Proof

section
variable {s : State} {n txn k seq : Nat}

/-! ### Transfers and sessions -/

theorem segmentResendTimeout_of_unacked {t : Transfer} (htransfer : s.transfer n txn = some t) (hread : t.write = false)
    (hunacked : t.acked < t.next) :
    segmentResendTimeout n txn s =
      if 3 ≤ t.resends then s.abortTransfer n t 0x0B
      else (List.range (t.next - t.acked)).foldl (fun u i => u.sendSegment n t (t.acked + i))
        (s.updTransfer n txn fun t => { t with resends := t.resends + 1 }) := by
  simp only [segmentResendTimeout, htransfer, hread, Bool.false_or, decide_eq_true_eq, if_neg (Nat.not_le.mpr hunacked)]

theorem transferIdleTimeout_of_transfer {t : Transfer} (htransfer : s.transfer n txn = some t) :
    transferIdleTimeout n txn s = { s with now := max s.now (t.active + 1000000000) }.abortTransfer n t 0x0B := by
  simp only [transferIdleTimeout, htransfer]

theorem sessionIdleTimeout_of_session {x : Session} (hsession : s.session n = some x) :
    sessionIdleTimeout n s = { s with now := max s.now (x.lastRequest + 300 * 1000000000) }.closeSession n := by
  simp only [sessionIdleTimeout, hsession]

/-! ### Events -/

variable {x : Unacked} (hunacked : (s.unacked.find? fun x => x.subscriber = k && x.seq = seq) = some x)
include hunacked

theorem eventResendTimeout_dropped (hthree : 3 ≤ x.resends) :
    eventResendTimeout k seq s = { s with unacked := s.unacked.erase x } := by
  simp only [eventResendTimeout, hunacked, if_pos hthree]

theorem eventResendTimeout_again {e : Event} (hfewer : x.resends < 3) (hlogged : s.events.find? (fun e => e.seq = seq) = some e) :
    eventResendTimeout k seq s = { s.emit (.event k (eventUnit e)) with
      unacked := s.unacked.map fun y => if y = x then { y with resends := y.resends + 1, sent := s.now } else y } := by
  simp only [eventResendTimeout, hunacked, if_neg (Nat.not_le.mpr hfewer), hlogged]
end

/-- Settles O41: each timer's answer is the case of its meaning that the clause's conditions choose. -/
theorem sessionTimersResendAbortOrClose : Obligations.SessionTimersResendAbortOrClose := by
  intro s
  refine ⟨fun n txn t ht => ⟨fun hread hopen hfewer => ?again, fun hread hopen hthree => ?aborted, ?idle⟩, fun n x hx => ?closed,
    fun k seq x hx => ⟨fun hthree => ?dropped, fun e hfewer he => ?resent⟩⟩
  case again =>
    exact congrArg Host.Outcome.next ((segmentResendTimeout_of_unacked ht hread hopen).trans (if_neg (Nat.not_le.mpr hfewer)))
  case aborted => exact congrArg Host.Outcome.next ((segmentResendTimeout_of_unacked ht hread hopen).trans (if_pos hthree))
  case idle => exact congrArg Host.Outcome.next (transferIdleTimeout_of_transfer ht)
  case closed => exact congrArg Host.Outcome.next (sessionIdleTimeout_of_session hx)
  case dropped => exact congrArg Host.Outcome.next (eventResendTimeout_dropped hx hthree)
  case resent => exact congrArg Host.Outcome.next (eventResendTimeout_again hx hfewer he)

end Sys2Proof.Machine
end

section
/-! SUPPORT. What each row of a swap comes to, case by case: acknowledgements, time, the instant, and what waits for quiescence (R52 to R59,
R334, R431). -/

namespace Sys2Proof.Machine

open Sys2Proof

section
variable {s : State}

/-- The test that leaves a time-out without effect: no swap distributing or armed, or what else ends its wait. -/
theorem swapOpen_guard {b c : Bool} (hopen : [1, 2].contains s.swapState = true) (hb : b = false) (hc : c = false) :
    (! [1, 2].contains s.swapState || b || c) = false := by
  rw [hopen, hb, hc]; rfl

@[simp] theorem setSwapState_swap (v : Nat) : (s.setSwapState v).swap = s.swap := by
  rw [State.setSwapState, change_eq]

/-! ### Acknowledgements -/

section
variable {t : Nat} {crc : Bool}

theorem targetAck_image (hdistributing : s.swapState = 1) (hawaited : s.swap.image.contains t = true) :
    targetAck t .image crc s =
      if crc then State.pumpChanges { s with swap := { s.swap with image := s.swap.image.erase t } } else s.resendImage [t] := by
  cases crc <;> simp [targetAck, hdistributing, List.contains_iff_mem.mp hawaited]

theorem targetAck_go (harmed : s.swapState = 2) (hsent : s.swap.goSent = true) :
    targetAck t .go crc s = { s with swap := { s.swap with go := s.swap.go.erase t } } := by
  simp [targetAck, harmed, hsent]

theorem targetAck_swapped (hswapping : s.swapState = 3) (hawaited : s.swap.confirm.contains t = true) :
    targetAck t .swapped crc s = State.pumpChanges { s with swap := { s.swap with confirm := s.swap.confirm.erase t } } := by
  simp [targetAck, hswapping, List.contains_iff_mem.mp hawaited]
end

/-! ### The swap going on -/

theorem advanceSwap_of_distributed (hdistributing : s.swapState = 1) (hnone : s.swap.image = []) :
    s.advanceSwap = (s.setSwapState 2).sendGo := by
  simp [State.advanceSwap, hdistributing, hnone]

theorem advanceSwap_of_distributing (hdistributing : s.swapState = 1) (hsome : s.swap.image ≠ []) : s.advanceSwap = s := by
  simp [State.advanceSwap, hdistributing, hsome]

theorem advanceSwap_of_confirmed (hswapping : s.swapState = 3) (hnone : s.swap.confirm = []) :
    s.advanceSwap = ((s.count 0xF000 3 32 1).setSwapState 4).endSwap true := by
  simp [State.advanceSwap, hswapping, hnone]

theorem startChanges_of_none (hnone : s.changes = []) (k : Nat) : s.startChanges k = s := by
  cases k with
  | zero => rfl
  | succ k => simp only [State.startChanges, hnone, ite_self]

theorem pumpChanges_of_none (hnone : s.advanceSwap.changes = []) : s.pumpChanges = s.advanceSwap := by
  simp only [State.pumpChanges, hnone, List.any_nil, Bool.and_false, Bool.false_and, Bool.false_eq_true, if_false, startChanges_of_none]

/-- A fault's change ends an owner's swap that is still distributing (R53). -/
theorem pumpChanges_of_fault (hdistributing : s.swapState = 1) (hsome : s.swap.image ≠ []) (howner : s.swap.purpose = .owner)
    (hmanaged : s.unmanaged = false) (hfault : s.changes.any Change.ofFault = true) :
    s.pumpChanges =
      (s.abortSwap 0x06 []).startChanges ((s.abortSwap 0x06 []).changes.length + (s.abortSwap 0x06 []).tests.length + 1) := by
  simp only [State.pumpChanges, advanceSwap_of_distributing hdistributing hsome, hdistributing, howner, hmanaged, hfault, decide_true,
    Bool.and_true, Bool.not_false, if_true]

/-! ### Time -/

theorem targetAckTimeout_of_distributing (hdistributing : s.swapState = 1) : targetAckTimeout s = s.resendImage s.swap.image :=
  if_neg (not_not_intro hdistributing)

/-- GO at the quiescent point: every target is awaited, for 20 µs later (R55). -/
theorem sendGo_of_quiet (harmed : s.swapState = 2) (hunsent : s.swap.goSent = false) (hquiescent : s.swap.atQuiescent = true)
    (hquiet : s.swap.jobs.all s.jobQuiet = true) :
    s.sendGo = { s with swap := { s.swap with goSent := true, go := s.targets, instant := s.now + 20000 } } := by
  simp [State.sendGo, harmed, hunsent, hquiescent, hquiet]

theorem quiesceTimeout_of_waiting (hopen : [1, 2].contains s.swapState = true) (hjobs : s.swap.jobs ≠ []) (hunsent : s.swap.goSent = false) :
    quiesceTimeout s
      = (State.abortSwap { s with now := max s.now (s.swap.accepted + s.get 0xF000 0x06 * 1000000) } 0x03 []).pumpChanges :=
  if_neg (Bool.eq_false_iff.mp (swapOpen_guard hopen (List.isEmpty_eq_false_iff.mpr hjobs) hunsent))

theorem swapTooLate_of_unacknowledged (hopen : [1, 2].contains s.swapState = true) (hchosen : s.swap.atQuiescent = false)
    (hunacked : s.goAcked = false) :
    swapTooLate s = (State.abortSwap { s with now := max s.now (s.swap.instant - 100000) } 0x02 []).pumpChanges :=
  if_neg (Bool.eq_false_iff.mp (swapOpen_guard hopen hchosen hunacked))

theorem swapInstant_of_acknowledged (harmed : s.swapState = 2) (hacked : s.goAcked = true) :
    swapInstant s =
      let v := State.setSwapState { s with now := max s.now s.swap.instant } 3
      let u := if s.swap.purpose = .routes then v.applyEdits.routesActive else v.applyEdits
      { u with swap := { u.swap with confirm := u.targets } } := by
  simp only [swapInstant, harmed, hacked, ne_eq, not_true, decide_false, Bool.not_true, Bool.or_false, Bool.false_eq_true, if_false,
    setSwapState_swap]

/-! ### What waits for quiescence -/

theorem controlQuiesceTimeout_of_reset (hwaits : s.resetting.waitJobs = true) :
    controlQuiesceTimeout s = State.finishReset { s with now := max s.now (s.resetting.start + s.get 0x2540 0x01 * msNs) } :=
  if_pos hwaits

theorem controlQuiesceTimeout_of_control (hnone : s.resetting.waitJobs = false) {i : Item} (hrunning : s.runningControl = some i)
    (hquiesces : i.control = 3 ∨ i.control = 4) :
    controlQuiesceTimeout s =
      let u : State := { s with now := max s.now (i.started + s.jobGet i.job 0x06 * 1000) }
      ((u.updJob i.job fun b => { b with quiesce := false }).releaseQuiesce i.job).controlEnds i 0x08 := by
  have hguard : ¬ ((i.control ≠ 3 && i.control ≠ 4) = true) := by
    simp only [Bool.and_eq_true, decide_eq_true_eq]; omega
  rw [controlQuiesceTimeout, if_neg (Bool.eq_false_iff.mp hnone)]
  simp only [State.controlTimeout, hrunning, if_neg hguard]
end

/-- Settles O42: each row's answer is the case of its meaning that the clause's conditions choose. -/
theorem swapsAdvanceByAcknowledgementAndTime : Obligations.SwapsAdvanceByAcknowledgementAndTime := by
  intro s t crc
  refine ⟨fun hstate hawaited => ⟨?badImage, ?goodImage⟩, fun hstate hsent => ?go, fun hstate hawaited => ?confirmed,
    ⟨advanceSwap_of_distributed, advanceSwap_of_confirmed, pumpChanges_of_none, pumpChanges_of_fault⟩, fun hstate => ?resend,
    fun hstate hunsent hquiescent hquiet => ?quiet, fun hopen hjobs hunsent => ?limit, fun hopen hchosen hunacked => ?late,
    fun hstate hacked => ?instant, fun hwaits => ?reset, fun hnone i hrunning hquiesces => ?control⟩
  case badImage => exact congrArg (Host.Outcome.next ∘ State.continueReset) (targetAck_image hstate hawaited)
  case goodImage => exact congrArg (Host.Outcome.next ∘ State.continueReset) (targetAck_image hstate hawaited)
  case go => exact congrArg (Host.Outcome.next ∘ State.continueReset) (targetAck_go hstate hsent)
  case confirmed => exact congrArg (Host.Outcome.next ∘ State.continueReset) (targetAck_swapped hstate hawaited)
  case resend => exact congrArg (Host.Outcome.next ∘ State.continueReset) (targetAckTimeout_of_distributing hstate)
  case quiet =>
    exact congrArg (Host.Outcome.next ∘ State.continueReset ∘ State.tryQuiesced) (sendGo_of_quiet hstate hunsent hquiescent hquiet)
  case limit => exact congrArg Host.Outcome.next (quiesceTimeout_of_waiting hopen hjobs hunsent)
  case late => exact congrArg (Host.Outcome.next ∘ State.continueReset) (swapTooLate_of_unacknowledged hopen hchosen hunacked)
  case instant => exact congrArg Host.Outcome.next (swapInstant_of_acknowledged hstate hacked)
  case reset => exact congrArg Host.Outcome.next (controlQuiesceTimeout_of_reset hwaits)
  case control => exact congrArg Host.Outcome.next (controlQuiesceTimeout_of_control hnone hrunning hquiesces)

end Sys2Proof.Machine
end

section
/-! SUPPORT. What the commands of the arrays come to, case by case: passes streamed (R89 to R94, R109, R110), their end (R93, R123, R127, R345). -/

namespace Sys2Proof.Machine

open Sys2Proof

section
variable {s : State} {c i : Nat} {a : Active}

/-! ### Requests whose every place is reached -/

/-- A request is performed at once where none of its places is away (R241). -/
theorem viaHubs_of_reached {e : Nat} {reads writes : List Nat} {run : State → State}
    (hreached : s.awayPlace c (s.places reads writes) = none) :
    s.viaHubs c e reads writes run = run (s.requestDone c e (s.places reads writes)) := by
  simp only [State.viaHubs, hreached]

theorem viaHubsWith_of_reached {bad : List Mismatch} {reads writes : List Nat} {run : State → State}
    (hreached : s.awayPlace c (s.places reads writes) = none) :
    s.viaHubsWith c i a bad reads writes run = run (s.requestDone c 2 (s.places reads writes)) := by
  simp only [State.viaHubsWith, hreached, Option.isSome_none, Bool.false_and, Bool.false_eq_true, if_false]
  exact viaHubs_of_reached hreached

/-! ### A pass put into the arrays -/

section
variable {total : Nat} {parts : List (Part × Lines × List (List Nat) × Bool)} {kind : PairKind} {fa fb : Format}

theorem streamPass_of_refused {err : AccErr} (hrefused : (parts.findSome? fun y => y.2.1.err) = some err) :
    s.streamPass c i a total parts kind fa fb = s.refuseRead c 2 i a err := by
  simp only [State.streamPass, hrefused]

theorem streamPass_of_readable (hreadable : ∀ y ∈ parts, y.2.1.err = none) :
    s.streamPass c i a total parts kind fa fb =
      let rs := parts.map fun y => s.runPart kind fa fb y.1 y.2.1 y.2.2.1
      let poison := parts.any fun y => y.2.1.poison || y.2.2.2
      let fl := rs.foldl (fun f y => f.or y.flags) (ArithFlags.ofByte a.flags)
      (s.updCore c fun k => { k with
        acc := bufferOf (rs.flatMap (·.cells)), reloadBuffer := bufferOf (parts.flatMap fun x => startCells x.1 x.2.2.1)
        checkRow := bufferOf (rs.flatMap (·.row)), checkColumn := bufferOf (rs.flatMap (·.column)) }).putActive c 2 i { a with
          streamed := a.streamed + 1, passPoison := poison, flags := (if poison then { fl with poison := true } else fl).byte
          bad := rs.flatMap (·.bad), draining := decide (a.streamed + 1 = total) } := by
  have hnone : (parts.findSome? fun y => y.2.1.err) = none := List.findSome?_eq_none_iff.mpr hreadable
  simp only [State.streamPass, hnone]
end

/-! ### MM and MM_SEG -/

/-- The passes of a started MM (R91, R92). -/
def State.mmPassesOf (s : State) (c : Nat) (a : Active) (ta tb : Tensor) : List Pass :=
  mmPasses (s.widths c) (bit (a.q.cmd.word 2) 48) (ta.dim 0) (bits (a.q.cmd.word 4) 0 32) (ta.dim 1) (tb.dim 1)

/-- The tiles of a started MM_SEG, each one pass (R110). -/
def State.segTilesOf (s : State) (c : Nat) (a : Active) (tb : Tensor) : List (List Part) :=
  segTiles (s.widths c) (bit (a.q.cmd.word 2) 48) (tb.dim 1) (a.segments.map segmentOf)

/-- The state once the lines and the partial sums of a pass of an MM have been read. -/
def State.mmRead (s : State) (c : Nat) (ta tb : Tensor) (kind : PairKind) (psum : Nat) (p : Pass) (ups : List Upset) : State :=
  s.readRanges c (p.parts.flatMap fun x => (s.mmLines c ta tb p.k0 p.k1 x).reads ++ startsReads kind p.first psum (tb.dim 1) x) ups

/-- The parts of a pass of an MM with their lines, their start values and whether these are poisoned. -/
def State.mmParts (s : State) (c : Nat) (ta tb : Tensor) (kind : PairKind) (psum : Nat) (p : Pass) :
    List (Part × Lines × List (List Nat) × Bool) :=
  p.parts.map fun x =>
    let l := s.mmLines c ta tb p.k0 p.k1 x
    (x, { l with err := l.err <|> s.rangesErr c (startsReads kind p.first psum (tb.dim 1) x) },
      s.startsOf kind p.first psum (tb.dim 1) x, s.startsPoison kind p.first psum (tb.dim 1) x)

theorem executeMm_of_pass {ups : List Upset} {ta tb : Tensor} {kind : PairKind} {p : Pass}
    (hworking : (s.core c).working 2 0x20 = some (i, a)) (hfree : (s.core c).arraysFree = true)
    (hta : a.tensor (a.q.cmd.desc 0) = some ta) (htb : a.tensor (a.q.cmd.desc 12) = some tb)
    (hkind : pairKind ta.format tb.format = some kind)
    (hreached : s.awayPlace c (s.places [ta.base, tb.base] []) = none)
    (hpass : (s.mmPassesOf c a ta tb)[a.streamed]? = some p) :
    executeMm c ups s =
      let u := (s.requestDone c 2 (s.places [ta.base, tb.base] [])).mmRead c ta tb kind (a.q.cmd.word 3) p ups
      u.streamPass c i a (s.mmPassesOf c a ta tb).length (u.mmParts c ta tb kind (a.q.cmd.word 3) p) kind ta.format tb.format := by
  rw [State.mmPassesOf] at hpass
  simp only [executeMm, hworking, hfree, Bool.not_true, Bool.false_eq_true, if_false, hta, htb, hpass, hkind]
  exact viaHubs_of_reached hreached

/-- The lines of a part of a started MM_SEG: those of the segment it belongs to (R109). -/
def State.segLinesOf (s : State) (c : Nat) (a : Active) (ta tb tl : Tensor) (x : Part) : Lines :=
  s.segLines c ta tl (a.segOps ((a.segments.map segmentOf).getD x.seg (segmentOf [])) tb) (ta.dim 0) x

/-- The state once the lines of a pass of an MM_SEG have been read. -/
def State.segRead (s : State) (c : Nat) (a : Active) (ta tb tl : Tensor) (p : List Part) (ups : List Upset) : State :=
  s.readRanges c (p.flatMap fun x => (s.segLinesOf c a ta tb tl x).reads) ups

/-- The parts of a pass of an MM_SEG with their lines; it reloads nothing, so their start values are zero. -/
def State.segParts (s : State) (c : Nat) (a : Active) (ta tb tl : Tensor) (kind : PairKind) (p : List Part) :
    List (Part × Lines × List (List Nat) × Bool) :=
  p.map fun x => (x, s.segLinesOf c a ta tb tl x, s.startsOf kind true 0 0 x, false)

section
variable {ups : List Upset} {ta tb tl : Tensor}
  (hworking : (s.core c).working 2 0x21 = some (i, a)) (hfree : (s.core c).arraysFree = true)
  (hta : a.tensor (a.q.cmd.desc 0) = some ta) (htb : a.tensor (a.q.cmd.desc 12) = some tb)
  (htl : a.tensor (bits (a.q.cmd.word 4) 0 12) = some tl)
include hworking hfree hta htb htl

theorem executeMmSeg_of_no_tile
    (hempty : s.segTilesOf c a tb = []) :
    executeMmSeg c ups s = s.putActive c 2 i (a.finish s.now {}) := by
  rw [State.segTilesOf] at hempty
  simp only [executeMmSeg, hworking, hfree, Bool.not_true, Bool.false_eq_true, if_false, hta, htb, htl, hempty, List.isEmpty_nil, if_true]

theorem executeMmSeg_of_pass {kind : PairKind} {p : List Part} (hkind : pairKind ta.format tb.format = some kind)
    (hreached : s.awayPlace c (s.places [ta.base, tb.base, tl.base] []) = none)
    (hpass : (s.segTilesOf c a tb)[a.streamed]? = some p) :
    executeMmSeg c ups s =
      let u := (s.requestDone c 2 (s.places [ta.base, tb.base, tl.base] [])).segRead c a ta tb tl p ups
      u.streamPass c i a (s.segTilesOf c a tb).length
        (u.segParts c a ta tb tl kind p) kind ta.format tb.format := by
  have hsome : (s.segTilesOf c a tb).isEmpty = false := by
    cases htiles : s.segTilesOf c a tb with
    | nil => simp [htiles] at hpass
    | cons => rfl
  rw [State.segTilesOf] at hsome hpass
  simp only [executeMmSeg, hworking, hfree, Bool.not_true, Bool.false_eq_true, if_false, hta, htb, htl, hsome, hpass, hkind]
  exact viaHubs_of_reached hreached
end
end

/-- Settles O23: each command hands the parts of its next pass to streamPass, which takes them all or is refused by the first that may not be
read. -/
theorem matrixPassStreamsIntoTheArrays : Obligations.MatrixPassStreamsIntoTheArrays := by
  intro c s ups i a ta tb kind hfree hta htb hkind cmd quarter ps
  refine ⟨fun hworking hreached p hpass => ?mm, fun hworking tl htl => ⟨fun hempty => ?noTile, fun hreached p hpass => ?seg⟩⟩
  case mm =>
    have hstreams := executeMm_of_pass (ups := ups) hworking hfree hta htb hkind hreached hpass
    exact ⟨fun hreadable => congrArg Host.Outcome.next (hstreams.trans (streamPass_of_readable hreadable)),
      fun err hrefused => congrArg Host.Outcome.next (hstreams.trans (streamPass_of_refused hrefused))⟩
  case noTile => exact congrArg Host.Outcome.next (executeMmSeg_of_no_tile hworking hfree hta htb htl hempty)
  case seg =>
    have hstreams := executeMmSeg_of_pass (ups := ups) hworking hfree hta htb htl hkind hreached hpass
    exact ⟨fun hreadable => congrArg Host.Outcome.next (hstreams.trans (streamPass_of_readable hreadable)),
      fun err hrefused => congrArg Host.Outcome.next (hstreams.trans (streamPass_of_refused hrefused))⟩

end Sys2Proof.Machine
end

section
/-! SUPPORT. What PASS_END comes to, case by case: a pass dropped, drained to the partial-sum area, drained to the destination (R92 to R94, R123,
R127, R152, R345). -/

namespace Sys2Proof.Machine

open Sys2Proof

section
variable {s : State} {c i : Nat} {a : Active}

/-! ### The pass in the arrays -/

/-- The test that passEnd makes: a pass was streamed that is not drained yet, of a command that has not ended. -/
def inArrays (x : Nat × Active) : Bool := decide (x.2.drained < x.2.streamed) && !x.2.done

/-- The started execute commands of a core, numbered. -/
def State.executing (s : State) (c : Nat) : List (Nat × Active) :=
  (List.range ((s.core c).started 2).length).zip ((s.core c).started 2)

section
variable {bad : List Mismatch} {ups : List Upset}

theorem passEnd_of_empty (hempty : (s.executing c).find? inArrays = none) : passEnd c bad ups s = s := by
  unfold State.executing inArrays at hempty
  simp only [passEnd, hempty]

variable (hpass : (s.executing c).find? inArrays = some (i, a))
include hpass

theorem passEnd_of_stopping (hstopping : a.stopping = true) : passEnd c bad ups s = s.dropPass c i := by
  unfold State.executing inArrays at hpass
  simp only [passEnd, hpass, hstopping, if_true]

theorem passEnd_of_mm (hgoes : a.stopping = false) (hmm : a.q.cmd.opcode = 0x20) :
    passEnd c bad ups s = s.endMmPass c i a bad ups := by
  unfold State.executing inArrays at hpass
  simp only [passEnd, hpass, hgoes, Bool.false_eq_true, if_false, hmm, if_true]

theorem passEnd_of_mmSeg (hgoes : a.stopping = false) (hseg : a.q.cmd.opcode ≠ 0x20) :
    passEnd c bad ups s = s.endSegPass c i a bad ups := by
  unfold State.executing inArrays at hpass
  simp only [passEnd, hpass, hgoes, Bool.false_eq_true, if_false, hseg]
end

/-! ### What is left once a pass has been drained -/

section
variable {total : Nat} {r : Option AccErr} {fl : ArithFlags} {held : Tab (Option Nat)}

theorem afterDrain_of_refused {err : AccErr} (hrefused : r = some err) :
    s.afterDrain c i a total r fl held =
      let t := s.updCore c fun k => { k with acc := [] }
      t.putActive c 2 i (({ a with flags := ((ArithFlags.ofByte a.flags).or fl).byte } : Active).refuse t.now err) := by
  simp only [State.afterDrain, hrefused]

theorem afterDrain_of_more (hwritten : r = none) (hmore : a.drained + 1 ≠ total) :
    s.afterDrain c i a total r fl held =
      (s.updCore c fun k => { k with acc := [] }).putActive c 2 i
        { a with drained := a.drained + 1, flags := ((ArithFlags.ofByte a.flags).or fl).byte, held := held, passPoison := false, bad := [] } := by
  simp only [State.afterDrain, hwritten, if_neg hmore]

theorem afterDrain_of_last :
    s.afterDrain c i a (a.drained + 1) none fl held =
      let all := (ArithFlags.ofByte a.flags).or fl
      let w := s.updCore c fun k => { k with acc := [] }
      (w.leaveArea (w.freeKey c a.q) a.reserved).putActive c 2 i
        (({ a with drained := a.drained + 1, flags := all.byte, held := held, passPoison := false, bad := [] } : Active).finish w.now all) := by
  simp only [State.afterDrain, if_true]
end

/-! ### The drain of a pass of an MM and of an MM_SEG -/

section
variable {ta tb td : Tensor} {bad : List Mismatch} {ups : List Upset}

/-- The state and the command once the failed comparisons of the pass in the arrays are logged, its request performed (R345). -/
def State.passTaken (s : State) (c i : Nat) (a : Active) (td : Tensor) (bad : List Mismatch) : State × Active :=
  (s.requestDone c 2 (s.places ((a.fusion (a.q.cmd.desc 36)).tensors.map (·.base)) [td.base])).takeMismatches c i a a.drained (a.bad ++ bad)

/-- Drain a pass that is not the last of its tile, row by row, from the drain buffers to the partial-sum area (R92, R123). -/
def State.drainPartial (s : State) (c psum n : Nat) (kind : PairKind) (p : Pass) (poison : Bool) : State × Option AccErr :=
  let v := s.handOver c
  eachUntil (fun u (y : Nat × Part) => u.drainPsum c psum n kind y.2 y.1 (v.core c).drainBuffer poison) (rowOrder p.parts) v

variable (hta : a.tensor (a.q.cmd.desc 0) = some ta) (htb : a.tensor (a.q.cmd.desc 12) = some tb)
  (htd : a.tensor (a.q.cmd.desc 24) = some td)
  (hreached : s.awayPlace c (s.places ((a.fusion (a.q.cmd.desc 36)).tensors.map (·.base)) [td.base]) = none)
include hta htb htd hreached

section
variable {p : Pass} {kind : PairKind}
  (hpass : (s.mmPassesOf c a ta tb)[(s.passTaken c i a td bad).2.drained]? = some p) (hkind : pairKind ta.format tb.format = some kind)
include hpass hkind

theorem endMmPass_of_last (hlast : p.last = true) :
    s.endMmPass c i a bad ups =
      let x := s.passTaken c i a td bad
      x.1.drainOut c i x.2 td (a.fusion (a.q.cmd.desc 36)) (decide (kind = .integer)) (s.mmPassesOf c a ta tb).length p.parts
        (fun x r => x.i0 + r) ups := by
  rw [State.mmPassesOf, State.passTaken] at hpass
  simp only [State.endMmPass, hta, htb, htd]
  rw [viaHubsWith_of_reached hreached]
  simp only [hpass, hkind, hlast, if_true]
  rfl

theorem endMmPass_of_partial (hpartial : p.last = false) :
    s.endMmPass c i a bad ups =
      let x := s.passTaken c i a td bad
      let r := x.1.drainPartial c (a.q.cmd.word 3) (tb.dim 1) kind p x.2.passPoison
      r.1.afterDrain c i x.2 (s.mmPassesOf c a ta tb).length r.2 {} x.2.held := by
  rw [State.mmPassesOf, State.passTaken] at hpass
  simp only [State.endMmPass, hta, htb, htd]
  rw [viaHubsWith_of_reached hreached]
  simp only [hpass, hkind, hpartial, Bool.false_eq_true, if_false]
  rfl
end

theorem endSegPass_of_pass {p : List Part} (hpass : (s.segTilesOf c a tb)[(s.passTaken c i a td bad).2.drained]? = some p) :
    s.endSegPass c i a bad ups =
      let x := s.passTaken c i a td bad
      x.1.drainOut c i x.2 td (a.fusion (a.q.cmd.desc 36)) (decide (pairKind ta.format tb.format = some .integer)) (s.segTilesOf c a tb).length p
        (fun x r => ((a.segments.map segmentOf).getD x.seg (segmentOf [])).dest + x.i0 + r) ups := by
  rw [State.segTilesOf, State.passTaken] at hpass
  simp only [State.endSegPass, hta, htb, htd]
  rw [viaHubsWith_of_reached hreached]
  simp only [hpass]
  rfl
end
end

/-- Settles O24: the pass in the arrays is dropped or drained by the case its command is in, and afterDrain says what is left. -/
theorem passEndDrainsTheArrays : Obligations.PassEndDrainsTheArrays := by
  intro c s bad ups k l test
  refine ⟨fun hempty => ?empty, fun i a hpass => ⟨fun hstopping => ?stopping, ?drains⟩, fun v i b fl held => afterDrain_of_last⟩
  case empty => exact congrArg Host.Outcome.next (passEnd_of_empty hempty)
  case stopping => exact congrArg Host.Outcome.next (passEnd_of_stopping hpass hstopping)
  case drains =>
    intro ta tb td hgoes hta htb htd cmd n fu xs x b ps gs ts hreached
    refine ⟨fun p kind hmm hp hkind => ⟨fun hpartial => ?partialSums, fun hlast => ?last⟩, fun p hseg hp => ?seg⟩
    case partialSums =>
      have hdrains := (passEnd_of_mm (ups := ups) hpass hgoes hmm).trans (endMmPass_of_partial hta htb htd hreached hp hkind hpartial)
      refine ⟨fun hwritten hmore => ?_, fun err hrefused => ?_⟩
      · exact congrArg Host.Outcome.next (hdrains.trans (afterDrain_of_more hwritten hmore))
      · exact congrArg Host.Outcome.next (hdrains.trans (afterDrain_of_refused hrefused))
    case last =>
      exact congrArg Host.Outcome.next ((passEnd_of_mm hpass hgoes hmm).trans (endMmPass_of_last hta htb htd hreached hp hkind hlast))
    case seg => exact congrArg Host.Outcome.next ((passEnd_of_mmSeg hpass hgoes hseg).trans (endSegPass_of_pass hta htb htd hreached hp))

end Sys2Proof.Machine
end

section
/-! SUPPORT. What MM_W, ACC_IO and MM_F64 come to, case by case (R97, R124, R125, R188, R189). -/

namespace Sys2Proof.Machine

open Sys2Proof

section
variable {s : State} {c i : Nat} {a : Active}

/-! ### The end of a command that wrote -/

section
variable {e : Nat} {r : State × Option AccErr} {fl : ArithFlags}

theorem endMove_of_written (hwritten : r.2 = none) : endMove c e i a r fl = r.1.putActive c e i (a.finish r.1.now fl) := by
  simp only [endMove, hwritten]

theorem endMove_of_refused {err : AccErr} (hrefused : r.2 = some err) :
    endMove c e i a r fl = r.1.putActive c e i (({ a with flags := ((ArithFlags.ofByte a.flags).or fl).byte } : Active).refuse r.1.now err) := by
  simp only [endMove, hrefused]
end

/-! ### MM_W -/

/-- The places that an MM_W reaches: its rows, its carry, the tensors of its fused output, its destination (R97, R124, R131). -/
def State.mmwPlaces (s : State) (a : Active) (ta td : Tensor) : List Place :=
  s.places ((ta :: (a.tensor (a.q.cmd.desc 12)).toList ++ (a.fusion (a.q.cmd.desc 36)).tensors).map (·.base)) [td.base]

/-- The state once the operands of an MM_W have been read. -/
def State.mmwRead (s : State) (c : Nat) (a : Active) (lt : LatchSet) (ta td : Tensor) (ups : List Upset) : State :=
  let s0 := s.requestDone c 2 (s.mmwPlaces a ta td)
  s0.readRanges c ((s0.mmwLines c a lt ta td).reads ++ (a.fusion (a.q.cmd.desc 36)).reads) ups

/-- Stream the rows of an MM_W, its operands read, take the comparisons that fail and write the rows (R97, R131, R345). -/
def State.mmwStream (u : State) (c i : Nat) (a : Active) (lt : LatchSet) (ta td : Tensor) (wf : Format) (kind : PairKind)
    (bad : List Mismatch) : (State × Active) × State × Option AccErr × ArithFlags :=
  let carry := a.tensor (a.q.cmd.desc 12)
  let fu := a.fusion (a.q.cmd.desc 36)
  let l := u.mmwLines c a lt ta td
  let starts := u.mmwStarts carry (ta.dim 1) (td.dim 0)
  let vals := mmwValues kind ta.format wf l starts (ta.dim 1) (td.dim 0)
  let x := u.takeMismatches c i a 0 (u.mmwFails kind ta.format wf l starts vals (ta.dim 0) ++ a.bad ++ bad)
  let poison := (l.poison || (carry.any fun t => u.tensorPoison t) || u.fusionPoison fu) || x.2.passPoison
  let fl : ArithFlags := (vals.flatMap id).foldl (fun f x => f.or x.2) { poison := poison }
  (x, x.1.mmwWrite c td fu (decide (kind = .integer)) poison vals (ta.dim 1) (td.dim 0) fl)

section
variable {bad : List Mismatch} {ups : List Upset} {lt : LatchSet} {ta td : Tensor} {wf : Format} {kind : PairKind}
  (hworking : (s.core c).working 2 0x23 = some (i, a)) (hfree : (s.core c).arraysFree = true) (hlatch : (s.core c).latch = some lt)
  (hta : a.tensor (a.q.cmd.desc 0) = some ta) (htd : a.tensor (a.q.cmd.desc 24) = some td)
  (hwf : Format.ofCode lt.format = some wf) (hkind : pairKind ta.format wf = some kind)
  (hreached : s.awayPlace c (s.mmwPlaces a ta td) = none) {u : State} (hread : s.mmwRead c a lt ta td ups = u)
include hworking hfree hlatch hta htd hwf hreached hread

theorem executeMmW_of_unreadable {err : AccErr}
    (hrefused : ((u.mmwLines c a lt ta td).err <|> u.fusionErr c (a.fusion (a.q.cmd.desc 36))) = some err) :
    executeMmW c bad ups s = u.refuseRead c 2 i a err := by
  subst hread
  simp only [executeMmW, hworking, hlatch, hfree, Bool.not_true, Bool.false_eq_true, if_false, hta, htd, hwf]
  rw [viaHubsWith_of_reached hreached]
  simp only [State.mmwRead, State.mmwPlaces] at hrefused ⊢
  simp only [hrefused]

section
variable (hreadable : ((u.mmwLines c a lt ta td).err <|> u.fusionErr c (a.fusion (a.q.cmd.desc 36))) = none)
include hkind hreadable

theorem executeMmW_of_readable :
    executeMmW c bad ups s =
      let z := u.mmwStream c i a lt ta td wf kind bad
      endMove c 2 i z.1.2 (z.2.1.writeUpsets td.spans ups, z.2.2.1) z.2.2.2 := by
  subst hread
  simp only [executeMmW, hworking, hlatch, hfree, Bool.not_true, Bool.false_eq_true, if_false, hta, htd, hwf]
  rw [viaHubsWith_of_reached hreached]
  simp only [State.mmwRead, State.mmwPlaces] at hreadable ⊢
  simp only [hreadable, hkind]
  rfl

variable {x : State × Active} {r : State × Option AccErr × ArithFlags} (hstream : u.mmwStream c i a lt ta td wf kind bad = (x, r))
include hstream

theorem executeMmW_of_written (hwritten : r.2.1 = none) :
    executeMmW c bad ups s = (r.1.writeUpsets td.spans ups).putActive c 2 i (x.2.finish (r.1.writeUpsets td.spans ups).now r.2.2) := by
  rw [executeMmW_of_readable hworking hfree hlatch hta htd hwf hkind hreached hread hreadable, hstream]
  exact endMove_of_written hwritten

theorem executeMmW_of_unwritable {err : AccErr} (hrefused : r.2.1 = some err) :
    executeMmW c bad ups s = (r.1.writeUpsets td.spans ups).putActive c 2 i
      (({ x.2 with flags := ((ArithFlags.ofByte x.2.flags).or r.2.2).byte } : Active).refuse (r.1.writeUpsets td.spans ups).now err) := by
  rw [executeMmW_of_readable hworking hfree hlatch hta htd hwf hkind hreached hread hreadable, hstream]
  exact endMove_of_refused hrefused
end
end

/-! ### ACC_IO -/

/-- The ranges that an ACC_IO reloads: none where it only drains (R188). -/
def State.accReads (s : State) (c : Nat) (a : Active) : List (Nat × Nat) :=
  if bits (a.q.cmd.word 4) 0 2 = 0 then []
  else accRows (a.q.cmd.word 3) (min 1024 (wsum (s.widths c))) (bit (a.q.cmd.word 4) 2)

/-- What an ACC_IO that reloads takes from its tile (R188). -/
def State.accTile (s u : State) (c : Nat) (a : Active) : Tab Nat :=
  u.accLoaded (a.q.cmd.word 3) (min 1024 (wsum (s.widths c))) (bit (a.q.cmd.word 4) 2)

/-- What an ACC_IO that drains writes, its reload read before (R188). -/
def State.accWritten (s u : State) (c : Nat) (a : Active) : State × Option AccErr :=
  u.accDrain c (a.q.cmd.word 2) (min 1024 (wsum (s.widths c))) (bit (a.q.cmd.word 4) 2)

section
variable {ups : List Upset} {reads : List (Nat × Nat)} {u : State}
  (hworking : (s.core c).working 2 0x24 = some (i, a)) (hfree : (s.core c).arraysFree = true)
  (hreads : s.accReads c a = reads) (hread : s.readRanges c reads ups = u)
include hworking hfree hreads hread

/-- ACC_IO once its operands are found: the read of its reload, then its drain, then what the accumulators take. -/
theorem executeAccIo_eq :
    executeAccIo c ups s =
      match u.rangesErr c reads with
      | some err => u.refuseRead c 2 i a err
      | none =>
        let r := if bits (a.q.cmd.word 4) 0 2 = 1 then (u, none) else s.accWritten u c a
        match r.2 with
        | some err => r.1.putActive c 2 i (a.refuse r.1.now err)
        | none => (if bits (a.q.cmd.word 4) 0 2 = 0 then r.1 else r.1.updCore c fun k => { k with acc := s.accTile u c a }).putActive c 2 i
            (a.finish r.1.now { poison := reads.any fun x => u.anyPoison x.1 x.2 }) := by
  subst hreads hread
  simp only [executeAccIo, hworking, hfree, Bool.not_true, Bool.false_eq_true, if_false]
  rfl

theorem executeAccIo_of_unreadable {err : AccErr} (hrefused : u.rangesErr c reads = some err) :
    executeAccIo c ups s = u.refuseRead c 2 i a err := by
  simp only [executeAccIo_eq hworking hfree hreads hread, hrefused]

section
variable (hreadable : u.rangesErr c reads = none)
include hreadable

theorem executeAccIo_of_reload {loaded : Tab Nat} (hloaded : s.accTile u c a = loaded) (hdir : bits (a.q.cmd.word 4) 0 2 = 1) :
    executeAccIo c ups s = (u.updCore c fun k => { k with acc := loaded }).putActive c 2 i
      (a.finish u.now { poison := reads.any fun x => u.anyPoison x.1 x.2 }) := by
  have hreloads : bits (a.q.cmd.word 4) 0 2 ≠ 0 := by omega
  simp only [executeAccIo_eq hworking hfree hreads hread, hreadable, if_pos hdir, if_neg hreloads, hloaded]

variable {r : State × Option AccErr} (hdrain : s.accWritten u c a = r)
include hdrain

theorem executeAccIo_of_unwritable {err : AccErr} (hdrains : bits (a.q.cmd.word 4) 0 2 ≠ 1) (hrefused : r.2 = some err) :
    executeAccIo c ups s = r.1.putActive c 2 i (a.refuse r.1.now err) := by
  simp only [executeAccIo_eq hworking hfree hreads hread, hreadable, if_neg hdrains, hdrain, hrefused]

theorem executeAccIo_of_drain (hdir : bits (a.q.cmd.word 4) 0 2 = 0) (hwritten : r.2 = none) :
    executeAccIo c ups s = r.1.putActive c 2 i (a.finish r.1.now { poison := reads.any fun x => u.anyPoison x.1 x.2 }) := by
  have hdrains : bits (a.q.cmd.word 4) 0 2 ≠ 1 := by omega
  simp only [executeAccIo_eq hworking hfree hreads hread, hreadable, if_neg hdrains, hdrain, hwritten, if_pos hdir]

theorem executeAccIo_of_exchange {loaded : Tab Nat} (hloaded : s.accTile u c a = loaded) (hdir : bits (a.q.cmd.word 4) 0 2 = 2)
    (hwritten : r.2 = none) :
    executeAccIo c ups s = (r.1.updCore c fun k => { k with acc := loaded }).putActive c 2 i
      (a.finish r.1.now { poison := reads.any fun x => u.anyPoison x.1 x.2 }) := by
  have hdrains : bits (a.q.cmd.word 4) 0 2 ≠ 1 := by omega
  have hreloads : bits (a.q.cmd.word 4) 0 2 ≠ 0 := by omega
  simp only [executeAccIo_eq hworking hfree hreads hread, hreadable, if_neg hdrains, hdrain, hwritten, if_neg hreloads, hloaded]
end
end

/-! ### MM_F64 -/

/-- What an MM_F64 reads, and writes: its destination and its slice workspace (R189). -/
def State.f64Places (s : State) (a : Active) (ta tb td : Tensor) : List Place :=
  s.places [ta.base, tb.base] [td.base, a.q.cmd.word 3]

/-- The state once the operands of an MM_F64 have been read. -/
def State.f64Read (s : State) (c : Nat) (a : Active) (ta tb td : Tensor) (ups : List Upset) : State :=
  (s.requestDone c 2 (s.f64Places a ta tb td)).readRanges c (ta.spans ++ tb.spans) ups

/-- Why a line of an operand of an MM_F64 may not be read, if one may not. -/
def State.f64Err (u : State) (c : Nat) (ta tb : Tensor) : Option AccErr :=
  ((List.range (ta.dim 1)).findSome? fun r => u.lineErr c ta r) <|> ((List.range (tb.dim 1)).findSome? fun j => u.lineErr c tb j)

/-- The state and the command once the failed comparisons of an MM_F64 are logged, and the workspace filled with open bytes (R189; log 10). -/
def State.f64Work (u : State) (c i : Nat) (a : Active) (ta : Tensor) (bad : List Mismatch) : Active × State × Option AccErr :=
  let x := u.takeMismatches c i a 0 (a.bad ++ bad)
  (x.2, x.1.fillWork c (x.1.freeKey c a.q) (a.q.cmd.word 3) (bits (a.q.cmd.word 4) 0 4 * ta.dim 0 * 1280))

/-- What the tiles of an MM_F64 write after its workspace, from the operands as they stood (R125, R189; log 36). -/
def State.f64Written (u : State) (c i : Nat) (a : Active) (ta tb td : Tensor) (bad : List Mismatch) : State × Option AccErr × ArithFlags :=
  let cols := (List.range (tb.dim 1)).map fun j => (u.lineOf tb j 0 (ta.dim 0)).map fun e => f64 e.bits
  let w := u.f64Work c i a ta bad
  w.2.1.f64Tiles u c (bits (a.q.cmd.word 4) 0 4) ta tb td cols w.1.passPoison

section
variable {bad : List Mismatch} {ups : List Upset} {ta tb td : Tensor}
  (hworking : (s.core c).working 2 0x25 = some (i, a)) (hfree : (s.core c).arraysFree = true)
  (hta : a.tensor (a.q.cmd.desc 0) = some ta) (htb : a.tensor (a.q.cmd.desc 12) = some tb) (htd : a.tensor (a.q.cmd.desc 24) = some td)
  (hreached : s.awayPlace c (s.f64Places a ta tb td) = none) {u : State} (hread : s.f64Read c a ta tb td ups = u)
include hworking hfree hta htb htd hreached hread

/-- MM_F64 once its operands are found: their read, then the workspace, then the tiles. -/
theorem executeMmF64_eq :
    executeMmF64 c bad ups s =
      match u.f64Err c ta tb with
      | some err => u.refuseRead c 2 i a err
      | none =>
        let w := u.f64Work c i a ta bad
        match w.2.2 with
        | some err => w.2.1.putActive c 2 i (w.1.refuse w.2.1.now err)
        | none =>
          let r := u.f64Written c i a ta tb td bad
          endMove c 2 i w.1 ((r.1.writeUpsets td.spans ups).updCore c fun k => { k with acc := [] }, r.2.1) r.2.2 := by
  subst hread
  simp only [executeMmF64, hworking, hfree, Bool.not_true, Bool.false_eq_true, if_false, hta, htb, htd]
  exact viaHubsWith_of_reached hreached

theorem executeMmF64_of_unreadable {err : AccErr} (hrefused : u.f64Err c ta tb = some err) :
    executeMmF64 c bad ups s = u.refuseRead c 2 i a err := by
  simp only [executeMmF64_eq hworking hfree hta htb htd hreached hread, hrefused]

section
variable {b : Active} {w : State × Option AccErr} (hreadable : u.f64Err c ta tb = none) (hwork : u.f64Work c i a ta bad = (b, w))
include hreadable hwork

theorem executeMmF64_of_work_refused {err : AccErr} (hrefused : w.2 = some err) :
    executeMmF64 c bad ups s = w.1.putActive c 2 i (b.refuse w.1.now err) := by
  simp only [executeMmF64_eq hworking hfree hta htb htd hreached hread, hreadable, hwork, hrefused]

variable {r : State × Option AccErr × ArithFlags} {t : State} (hfilled : w.2 = none) (htiles : u.f64Written c i a ta tb td bad = r)
  (hleft : ((r.1.writeUpsets td.spans ups).updCore c fun k => { k with acc := [] }) = t)
include hfilled htiles hleft

theorem executeMmF64_of_work_filled : executeMmF64 c bad ups s = endMove c 2 i b (t, r.2.1) r.2.2 := by
  simp only [executeMmF64_eq hworking hfree hta htb htd hreached hread, hreadable, hwork, hfilled, htiles, hleft]

theorem executeMmF64_of_written (hwritten : r.2.1 = none) :
    executeMmF64 c bad ups s = t.putActive c 2 i (b.finish t.now r.2.2) :=
  (executeMmF64_of_work_filled hworking hfree hta htb htd hreached hread hreadable hwork hfilled htiles hleft).trans
    (endMove_of_written hwritten)

theorem executeMmF64_of_unwritable {err : AccErr} (hrefused : r.2.1 = some err) :
    executeMmF64 c bad ups s =
      t.putActive c 2 i (({ b with flags := ((ArithFlags.ofByte b.flags).or r.2.2).byte } : Active).refuse t.now err) :=
  (executeMmF64_of_work_filled hworking hfree hta htb htd hreached hread hreadable hwork hfilled htiles hleft).trans
    (endMove_of_refused hrefused)
end
end
end

/-- Settles O25: each command comes to the case that its reads and its writes choose. -/
theorem residentWideAndSplitProductsEnd : Obligations.ResidentWideAndSplitProductsEnd := by
  intro c s bad ups i a hfree cmd
  refine ⟨?mmW, ?accIo, ?mmF64⟩
  case mmW =>
    intro lt ta td wf kind hworking hlatch hta htd hwf hkind carry fu xs s0 u l starts vals x poison fl r t hreached
    have hread : s.mmwRead c a lt ta td ups = u := rfl
    have hstream : u.mmwStream c i a lt ta td wf kind bad = (x, r) := rfl
    refine ⟨fun hreadable hwritten => ?written, fun err hrefused => ?unreadable, fun err hreadable hrefused => ?unwritable⟩
    case written =>
      exact congrArg Host.Outcome.next (executeMmW_of_written hworking hfree hlatch hta htd hwf hkind hreached hread hreadable hstream hwritten)
    case unreadable =>
      exact congrArg Host.Outcome.next (executeMmW_of_unreadable hworking hfree hlatch hta htd hwf hreached hread hrefused)
    case unwritable =>
      exact congrArg Host.Outcome.next (executeMmW_of_unwritable hworking hfree hlatch hta htd hwf hkind hreached hread hreadable hstream hrefused)
  case accIo =>
    intro hworking dir wide w rl reads u loaded poison r
    have hreads : s.accReads c a = reads := rfl
    have hread : s.readRanges c reads ups = u := rfl
    have hdrain : s.accWritten u c a = r := rfl
    have hloaded : s.accTile u c a = loaded := rfl
    refine ⟨fun hreadable hdir hwritten => ?drain, fun hreadable hdir => ?reload, fun hreadable hdir hwritten => ?exchange,
      fun err hreadable hdrains hrefused => ?unwritable, fun err hrefused => ?unreadable⟩
    case drain => exact congrArg Host.Outcome.next (executeAccIo_of_drain hworking hfree hreads hread hreadable hdrain hdir hwritten)
    case reload => exact congrArg Host.Outcome.next (executeAccIo_of_reload hworking hfree hreads hread hreadable hloaded hdir)
    case exchange =>
      exact congrArg Host.Outcome.next (executeAccIo_of_exchange hworking hfree hreads hread hreadable hdrain hloaded hdir hwritten)
    case unwritable =>
      exact congrArg Host.Outcome.next (executeAccIo_of_unwritable hworking hfree hreads hread hreadable hdrain hdrains hrefused)
    case unreadable => exact congrArg Host.Outcome.next (executeAccIo_of_unreadable hworking hfree hreads hread hrefused)
  case mmF64 =>
    intro ta tb td hworking hta htb htd xs u errs sl cols x w r t hreached
    have hread : s.f64Read c a ta tb td ups = u := rfl
    have hwork : u.f64Work c i a ta bad = (x.2, w) := rfl
    have htiles : u.f64Written c i a ta tb td bad = r := rfl
    have hleft : ((r.1.writeUpsets td.spans ups).updCore c fun k => { k with acc := [] }) = t := rfl
    refine ⟨fun hreadable hfilled hwritten => ?written, fun err hreadable hfilled hrefused => ?unwritable,
      fun err hreadable hrefused => ?workRefused, fun err hrefused => ?unreadable⟩
    case written =>
      exact congrArg Host.Outcome.next
        (executeMmF64_of_written hworking hfree hta htb htd hreached hread hreadable hwork hfilled htiles hleft hwritten)
    case unwritable =>
      exact congrArg Host.Outcome.next
        (executeMmF64_of_unwritable hworking hfree hta htb htd hreached hread hreadable hwork hfilled htiles hleft hrefused)
    case workRefused =>
      exact congrArg Host.Outcome.next (executeMmF64_of_work_refused hworking hfree hta htb htd hreached hread hreadable hwork hrefused)
    case unreadable =>
      exact congrArg Host.Outcome.next (executeMmF64_of_unreadable hworking hfree hta htb htd hreached hread hrefused)

end Sys2Proof.Machine
end

section
/-! SUPPORT. Cores that the requests and the reads of a command leave as they are: of every core at most the record of its open step changes
(R212, R236). -/

namespace Sys2Proof.Machine

open Sys2Proof

section
variable (s : State)

/-! ### Operations that leave every core as it is -/

theorem foldl_cores {α : Type} {f : State → α → State} (hf : ∀ s x, (f s x).cores = s.cores) (l : List α) :
    (l.foldl f s).cores = s.cores := by
  induction l generalizing s with
  | nil => rfl
  | cons x r ih => exact (ih (f s x)).trans (hf s x)

@[simp] theorem change_cores (i j v : Nat) : (s.change i j v).cores = s.cores := by rw [change_eq]

@[simp] theorem fault_cores (f : FaultInfo) : (s.fault f).cores = s.cores := by rw [fault_eq]

@[simp] theorem setPoison_cores (g : Nat) (b : Bool) : (s.setPoison g b).cores = s.cores := by rw [setPoison_eq]

@[simp] theorem storeAt_cores (a : Nat) (bs : Bytes) (p : Bool) : (s.storeAt a bs p).cores = s.cores := by rw [storeAt_eq]

@[simp] theorem flipData_cores (g m : Nat) : (s.flipData g m).cores = s.cores := rfl

@[simp] theorem updChannel_cores (k l d : Nat) (f : Channel → Channel) : (s.updChannel k l d f).cores = s.cores := rfl

@[simp] theorem watch_cores : s.watch.cores = s.cores := rfl

@[simp] theorem addTxn_cores (t : Txn) : (s.addTxn t).cores = s.cores := rfl

@[simp] theorem setLayerField_cores (k l lo n v : Nat) : (s.setLayerField k l lo n v).cores = s.cores := change_cores _ _ _ _

@[simp] theorem showStack_cores (k : Nat) : (s.showStack k).cores = s.cores := change_cores _ _ _ _

@[simp] theorem setMirror_cores (e v : Nat) (m : Bool) : (s.setMirror e v m).cores = s.cores := change_cores _ _ _ _

@[simp] theorem appendRepair_cores (type tile : Nat) (bs : Bytes) : (s.appendRepair type tile bs).cores = s.cores := by
  unfold State.appendRepair State.appendSegment
  exact (apply_ite State.cores _ _ _).trans (ite_self _)

/-! ### The loss of layers and stacks -/

@[simp] theorem mirrorAfterLoss_cores (e p m : Nat) : (s.mirrorAfterLoss e p m).cores = s.cores := by
  unfold State.mirrorAfterLoss
  dsimp only
  split
  · split
    · exact setMirror_cores _ _ _ _
    · split
      · exact setMirror_cores _ _ _ _
      · rfl
  · split
    · exact (apply_ite State.cores _ _ _).trans (by simp)
    · rfl

@[simp] theorem mirrorsAfterLoss_cores : s.mirrorsAfterLoss.cores = s.cores :=
  foldl_cores s (fun s _ => mirrorAfterLoss_cores s _ _ _) _

@[simp] theorem losePartition_cores (h : Nat) : (s.losePartition h).cores = s.cores := by
  unfold State.losePartition; split <;> rfl

@[simp] theorem loseStack_cores (k : Nat) (cause : Byte) (n : Nat) : (s.loseStack k cause n).cores = s.cores := by
  unfold State.loseStack
  split
  · rfl
  · simp

@[simp] theorem layerGone_cores (k l : Nat) : (s.layerGone k l).cores = s.cores := by
  unfold State.layerGone
  split <;> simp

@[simp] theorem loseLayer_cores (k l cause n : Nat) : (s.loseLayer k l cause n).cores = s.cores := by
  unfold State.loseLayer
  split
  · rfl
  · dsimp only
    split <;> simp

/-! ### What transfers and reads meet -/

@[simp] theorem setChannel_cores (k l d : Nat) (x : Channel) : (s.setChannel k l d x).cores = s.cores := by
  simp [State.setChannel, State.showChannel]

@[simp] theorem linkFail_cores (k l d p : Nat) : (s.linkFail k l d p).cores = s.cores := by
  unfold State.linkFail
  dsimp only
  split
  · rfl
  · split
    · simp
    · split
      · simp
      · split <;> simp

@[simp] theorem chargePosition_cores (k l d p : Nat) : (s.chargePosition k l d p).cores = s.cores := by
  unfold State.chargePosition
  dsimp only
  split <;> simp

@[simp] theorem transit_cores (k l d slot n : Nat) (ts : List (BitVec 576)) : (s.transit k l d slot n ts).1.cores = s.cores := by
  induction n generalizing s ts with
  | zero => rfl
  | succ n ih =>
    unfold State.transit
    dsimp only
    split
    · rfl
    · exact chargePosition_cores s _ _ _ _
    · split
      · rfl
      · exact ih _ _

theorem cores_of_transit {s t : State} {k l d slot n : Nat} {ts : List (BitVec 576)} {r : Option Nat}
    (hsent : s.transit k l d slot n ts = (t, r)) : t.cores = s.cores := by
  have hcores := transit_cores s k l d slot n ts
  rwa [hsent] at hcores

@[simp] theorem rowOccasion_cores (g : Nat) : (s.rowOccasion g).cores = s.cores := by
  unfold State.rowOccasion
  dsimp only
  split
  · rfl
  · split <;> simp

@[simp] theorem badGranule_cores (g left : Nat) : (s.badGranule g left).cores = s.cores := by
  unfold State.badGranule
  split
  · split <;> simp
  · simp

@[simp] theorem lostGranule_cores (g left : Nat) (tag : Bool) : (s.lostGranule g left tag).cores = s.cores := by
  simp [State.lostGranule, State.logGranule]

/-! ### Requests -/

@[simp] theorem pruneTxns_cores (c : Nat) : (s.pruneTxns c).cores = s.cores := by
  unfold State.pruneTxns
  apply foldl_cores
  intro u x
  rfl

@[simp] theorem closeTxn_cores (c e : Nat) : (s.closeTxn c e).cores = s.cores := by
  unfold State.closeTxn
  split
  · simp
  · rfl

@[simp] theorem escapeSent_cores (h d : Nat) : (s.escapeSent h d).cores = s.cores := by
  unfold State.escapeSent
  split <;> rfl

@[simp] theorem requestDone_cores (c e : Nat) (xs : List Place) : (s.requestDone c e xs).cores = s.cores := by
  unfold State.requestDone
  split
  · simp
  · split <;> simp

/-! ### The commands of a core that reads -/

/-- The commands started on a core stand as they did. -/
def ActiveKept (c : Nat) (s t : State) : Prop := (t.core c).active = (s.core c).active

variable {s} {c : Nat}

theorem ActiveKept.trans {t u : State} (hst : ActiveKept c s t) (htu : ActiveKept c t u) : ActiveKept c s u := Eq.trans htu hst

theorem activeKept_of_cores {t : State} (hcores : t.cores = s.cores) : ActiveKept c s t := by
  simp only [ActiveKept, State.core, hcores]

/-- A core that differs from one that no entry names is read back from any table. -/
theorem core_updCore_named {f : Core → Core} (hnamed : f (s.core c) ≠ {}) : (s.updCore c f).core c = f (s.core c) := Tab.get_set_new hnamed

theorem activeKept_markCorrected : ActiveKept c s (s.markCorrected c) := by
  unfold State.markCorrected
  split
  case isTrue hopen =>
    rw [ActiveKept, core_updCore_named]
    intro hdefault
    have hclosed := congrArg Core.stepOpen hdefault
    simp [hopen] at hclosed
  case isFalse => rfl

theorem activeKept_storedError (g flips : Nat) : ActiveKept c s (s.storedError (some c) g flips) := by
  unfold State.storedError
  split
  case h_1 => rfl
  case h_2 left _ =>
    have hcounted : ((if left = 0 then s else s.flipData g left).bump (0x4500 + stackOf g) 0x05).cores = s.cores := by split <;> simp
    exact ((activeKept_of_cores hcounted).trans activeKept_markCorrected).trans (activeKept_of_cores (rowOccasion_cores _ _))
  case h_3 => exact activeKept_of_cores (lostGranule_cores _ _ _ _)
  case h_4 => exact activeKept_of_cores (lostGranule_cores _ _ _ _)

theorem activeKept_scratchError (g flips : Nat) : ActiveKept c s (s.scratchError (some c) g flips) := by
  have hmarked : ActiveKept c s (if (singleWords flips).length = 0 then s
      else (s.count (coreObj (spCore g) + 1) 0x07 64 (singleWords flips).length).markReader (some c)) := by
    split
    · rfl
    · exact (activeKept_of_cores (by simp)).trans activeKept_markCorrected
  unfold State.scratchError
  dsimp only
  split
  · exact hmarked
  · exact hmarked.trans (activeKept_of_cores (by simp))

/-- An upset that a read meets leaves the commands of its reader as they are; one of a write has no reader. -/
theorem activeKept_takeUpset {u : Upset} (hread : ofWrite u = false) : ActiveKept c s (s.takeUpset (some c) u) := by
  unfold State.takeUpset
  dsimp only
  split
  case h_1 => exact activeKept_scratchError _ _
  case h_2 => exact activeKept_storedError _ _
  case h_3 =>
    split
    next t hsent => exact activeKept_of_cores (cores_of_transit hsent)
    next t e hsent => exact activeKept_of_cores ((lostGranule_cores _ _ _ _).trans (cores_of_transit hsent))
  case h_4 hkind => simp [ofWrite, hkind] at hread
  case h_5 => rfl

theorem activeKept_foldl {α : Type} {f : State → α → State} (hf : ∀ s x, ActiveKept c s (f s x)) (l : List α) :
    ActiveKept c s (l.foldl f s) := by
  induction l generalizing s with
  | nil => rfl
  | cons x r ih => exact (hf s x).trans ih

/-- What a command of a core reads leaves the commands started on it as they are (R212, R213, R236, R249). -/
theorem activeKept_readRanges (read : List (Nat × Nat)) (ups : List Upset) : ActiveKept c s (s.readRanges c read ups) := by
  unfold State.readRanges State.takeUpsets State.findUpsets
  refine (activeKept_foldl (fun s r => activeKept_of_cores (memOnly_countRead s r.1 r.2).cores) read).trans
    (activeKept_foldl (fun s u => ?_) ups)
  dsimp only
  split
  next hmet => exact activeKept_takeUpset (by simp only [Bool.and_eq_true, Bool.not_eq_true'] at hmet; exact hmet.1)
  next => rfl
end

end Sys2Proof.Machine
end

section
/-! SUPPORT. What WLOAD comes to, case by case: the latch set element by element, and what is left alone (R96, R187). -/

namespace Sys2Proof.Machine

open Sys2Proof

/-! ### Tables written entry by entry -/

/-- A key reads what the entries that name it say, where one does. -/
theorem Tab.get_foldl_set {α β : Type} [DecidableEq α] {d w : α} {key : β → Nat} {val : β → α} {k : Nat} {l : List β} {t : Tab α}
    (hrising : Tab.rising t = true) (hagree : ∀ e ∈ l, key e = k → val e = w)
    (hnamed : Tab.get d t k = w ∨ ∃ e ∈ l, key e = k) :
    Tab.get d (l.foldl (fun x e => Tab.set d x (key e) (val e)) t) k = w := by
  induction l generalizing t with
  | nil => exact hnamed.resolve_right (by simp)
  | cons e r ih =>
    refine ih (Tab.set_rising hrising) (fun x hx => hagree x (List.mem_cons_of_mem e hx)) ?_
    by_cases hkey : key e = k
    · exact .inl (by rw [← hkey, Tab.get_set_same hrising, hagree e List.mem_cons_self hkey])
    · rw [Tab.get_set_other hrising (Ne.symm hkey)]
      refine hnamed.imp_right fun ⟨x, hx, hxk⟩ => ⟨x, (List.mem_cons.mp hx).resolve_left fun hxe => hkey (hxe ▸ hxk), hxk⟩

section
variable {s : State} {c i : Nat} {a : Active} {w : Tensor} {ups : List Upset}

/-! ### The latch set -/

/-- The elements of a weight tensor by their place in a latch set: 512 rows to a column (R96). -/
def State.latchCells (s : State) (w : Tensor) : List (Nat × Elem) :=
  (List.range (w.dim 1)).flatMap fun j => (List.range (w.dim 0)).map fun r => (j * 512 + r, s.readElem w { i0 := r, i1 := j })

/-- The latch set that a WLOAD loads (R96, R187). -/
def State.latchOf (s : State) (a : Active) (w : Tensor) : LatchSet :=
  { format := leAt (a.slotView w.slot).1 8 1, rows := w.dim 0, width := w.dim 1, poison := s.tensorPoison w
    elems := (s.latchCells w).foldl (fun x e => Tab.set 0 x e.1 e.2.bits) []
    scales := (s.latchCells w).foldl
      (fun x e => if e.1 % 32 = 0 then Tab.set 127 x (e.1 / 512 * 16 + e.1 % 512 / 32) e.2.scale else x) [] }

theorem mem_latchCells {x : Nat × Elem} :
    x ∈ s.latchCells w ↔ ∃ r j, r < w.dim 0 ∧ j < w.dim 1 ∧ x = (j * 512 + r, s.readElem w { i0 := r, i1 := j }) := by
  simp only [State.latchCells, List.mem_flatMap, List.mem_map, List.mem_range]
  constructor
  · rintro ⟨j, hj, r, hr, rfl⟩; exact ⟨r, j, hr, hj, rfl⟩
  · rintro ⟨r, j, hr, hj, rfl⟩; exact ⟨j, hj, r, hr, rfl⟩

/-- With at most 512 rows no two elements share a place, so each is latched as it was read. -/
theorem latchOf_elem_bits (hrows : w.dim 0 ≤ 512) {r j : Nat} (hr : r < w.dim 0) (hj : j < w.dim 1) :
    ((s.latchOf a w).elem r j).bits = (s.readElem w { i0 := r, i1 := j }).bits := by
  refine Tab.get_foldl_set (key := Prod.fst) (val := fun e => e.2.bits) (t := []) rfl (fun e he hplace => ?_)
    (.inr ⟨_, mem_latchCells.mpr ⟨r, j, hr, hj, rfl⟩, rfl⟩)
  obtain ⟨r', j', hr', hj', rfl⟩ := mem_latchCells.mp he
  have hsame : r' = r ∧ j' = j := by dsimp only at hplace; omega
  rw [hsame.1, hsame.2]

/-! ### WLOAD -/

/-- The state once the tensor of a WLOAD has been read. -/
def State.wloadRead (s : State) (c : Nat) (w : Tensor) (ups : List Upset) : State :=
  (s.requestDone c 2 (s.places [w.base] [])).readRanges c w.spans ups

/-- A core with a latch set and checksum column loaded. -/
def State.latched (u : State) (c : Nat) (a : Active) (w : Tensor) : State :=
  u.updCore c fun k => { k with latch := some (u.latchOf a w), checkColumn := u.latchSums w }

theorem started_ne_nil_of_working {k : Core} {e op : Nat} (hworking : k.working e op = some (i, a)) : k.started e ≠ [] := by
  intro hnone
  simp [Core.working, hnone] at hworking

theorem started_wloadRead : ((s.wloadRead c w ups).core c).started 2 = (s.core c).started 2 :=
  congrArg (Tab.get [] · 2) ((activeKept_of_cores (requestDone_cores s c 2 _)).trans (activeKept_readRanges _ _))

section
variable (hworking : (s.core c).working 2 0x22 = some (i, a)) (hfree : (s.core c).arraysFree = true)
  (hw : a.tensor (a.q.cmd.desc 0) = some w) (hreached : s.awayPlace c (s.places [w.base] []) = none)
include hworking hfree hw hreached

theorem executeWload_of_unreadable {err : AccErr}
    (hrefused : ((List.range (w.dim 1)).findSome? fun j => (s.wloadRead c w ups).lineErr c w j) = some err) :
    executeWload c ups s = (s.wloadRead c w ups).refuseRead c 2 i a err := by
  rw [State.wloadRead] at hrefused
  simp only [executeWload, hworking, hfree, Bool.not_true, Bool.false_eq_true, if_false, hw]
  rw [viaHubs_of_reached hreached]
  simp only [hrefused]
  rfl

theorem executeWload_of_readable (hreadable : ∀ j, j < w.dim 1 → (s.wloadRead c w ups).lineErr c w j = none) :
    executeWload c ups s =
      let u := s.wloadRead c w ups
      (u.latched c a w).putActive c 2 i (a.finish u.now { poison := u.tensorPoison w }) := by
  have hnone : ((List.range (w.dim 1)).findSome? fun j => (s.wloadRead c w ups).lineErr c w j) = none :=
    List.findSome?_eq_none_iff.mpr fun j hj => hreadable j (List.mem_range.mp hj)
  rw [State.wloadRead] at hnone
  simp only [executeWload, hworking, hfree, Bool.not_true, Bool.false_eq_true, if_false, hw]
  rw [viaHubs_of_reached hreached]
  simp only [hnone]
  rfl
end

section
variable {u : State} (hrising : Tab.rising u.cores = true)
include hrising

theorem core_latched : (u.latched c a w).core c = { u.core c with latch := some (u.latchOf a w), checkColumn := u.latchSums w } :=
  core_updCore_same u c _ hrising

/-- What a WLOAD that could read leaves of its core: the core with the latch set, one started command replaced. -/
theorem core_putActive_latched (b : Active) :
    ((u.latched c a w).putActive c 2 i b).core c =
      { u.core c with latch := some (u.latchOf a w), checkColumn := u.latchSums w
                      active := Tab.set [] (u.core c).active 2 (((u.core c).started 2).set i b) } := by
  have hlatched : Tab.rising (u.latched c a w).cores = true := updCore_rising u c _ hrising
  rw [State.putActive, core_setStarted_same _ c 2 _ hlatched, core_latched hrising]
  rfl

theorem core_putActive_latched_other (b : Active) {d : Nat} (hd : d ≠ c) :
    ((u.latched c a w).putActive c 2 i b).core d = u.core d :=
  (core_setStarted_other _ c d 2 _ (updCore_rising u c _ hrising) hd).trans (core_updCore_other u c d _ hrising hd)
end
end

/-- Settles O22: a latch set holds at most 512 rows to a column, so that no element is latched over another; and since what a command reads keeps
the commands started on its core, the one replaced is there. -/
theorem wloadLatchesEveryElement : Obligations.WloadLatchesEveryElement := by
  intro c s ups i a w hworking hfree hw hreached u
  refine ⟨fun hcanonical hrows hreadable => ?loaded, fun err hrefused => ?refused⟩
  case refused => exact congrArg Host.Outcome.next (executeWload_of_unreadable hworking hfree hw hreached hrefused)
  case loaded =>
    have hexec := executeWload_of_readable hworking hfree hw hreached hreadable
    have hcore := core_putActive_latched (c := c) (i := i) (a := a) (w := w) hcanonical.cores
      (a.finish u.now { poison := u.tensorPoison w })
    have hthere : ((u.core c).started 2).set i (a.finish u.now { poison := u.tensorPoison w }) ≠ [] := by
      have hstarted : (u.core c).started 2 = (s.core c).started 2 := started_wloadRead
      rw [Ne, List.set_eq_nil_iff, hstarted]
      exact started_ne_nil_of_working hworking
    refine ⟨_, u.latchOf a w, congrArg Host.Outcome.next hexec, congrArg Core.latch hcore, rfl, rfl, rfl, rfl,
      fun r j hr hj => latchOf_elem_bits hrows hr hj, congrArg Core.checkColumn hcore, ?_, rfl, rfl,
      fun d hd => core_putActive_latched_other hcanonical.cores _ hd⟩
    exact (congrArg (Core.started · 2) hcore).trans (Tab.get_set_new hthere)

end Sys2Proof.Machine
end

section
/-! SUPPORT. What LOOP comes to, case by case (R158), and the rule for the meaning of any sequencer opcode. -/

namespace Sys2Proof.Machine

open Sys2Proof

section
variable {s : State} {c i : Nat} {a : Active}

/-! ### The sequencer's command -/

/-- The meaning of a sequencer opcode runs on the command that the sequencer holds. -/
theorem withSeq_of_working {op : Nat} {f : Active → State → State} (hworking : (s.core c).working 0 op = some (i, a)) :
    s.withSeq c op f = f a s := by
  simp only [State.withSeq, hworking]

section
variable (hrising : Tab.rising s.cores = true)
include hrising

theorem core_seqDone : (s.seqDone c a).core c =
    { s.core c with active := Tab.set [] (s.core c).active 0 [{ a with done := true, start := s.now }] } :=
  core_setStarted_same s c 0 _ hrising

theorem started_seqDone : ((s.seqDone c a).core c).started 0 = [{ a with done := true, start := s.now }] :=
  started_setStarted s c 0 _ hrising (List.cons_ne_nil _ _)

theorem core_seqFail (e : CheckErr) : (s.seqFail c a e).core c =
    { s.core c with active := Tab.set [] (s.core c).active 0 [a.fail s.now e] } :=
  core_setStarted_same s c 0 _ hrising

theorem started_seqFail (e : CheckErr) : ((s.seqFail c a e).core c).started 0 = [a.fail s.now e] :=
  started_setStarted s c 0 _ hrising (List.cons_ne_nil _ _)

/-- A core changed as its sequencer's command is done. -/
theorem core_updCore_seqDone (f : Core → Core) : ((s.updCore c f).seqDone c a).core c =
    { f (s.core c) with active := Tab.set [] (f (s.core c)).active 0 [{ a with done := true, start := s.now }] } := by
  rw [core_seqDone (updCore_rising s c f hrising), core_updCore_same s c f hrising]
  rfl

theorem started_updCore_seqDone (f : Core → Core) :
    (((s.updCore c f).seqDone c a).core c).started 0 = [{ a with done := true, start := s.now }] :=
  started_seqDone (updCore_rising s c f hrising)
end

/-! ### LOOP -/

/-- LEVEL of a LOOP (R158). -/
def Active.loopLevel (a : Active) : Nat := bits (a.q.cmd.word 2) 0 3

/-- COUNT of a LOOP. -/
def Active.loopCount (a : Active) : Nat := bits (a.q.cmd.word 2) 32 32

/-- How far a LOOP jumps back, in bytes. -/
def Active.loopBack (a : Active) : Nat := 64 * bits (a.q.cmd.word 2) 8 13

/-- The slot of a LOOP's level. -/
def Core.loopSlot (k : Core) (a : Active) : LoopSlot := k.loops.getD (a.loopLevel - 1) {}

/-- Whether a slot of greater level than a LOOP's is held. -/
def Core.innerHeld (k : Core) (a : Active) : Prop := ∃ x ∈ k.loops.drop a.loopLevel, x.count ≠ 0

/-- Whether a LOOP's jump stays in its run. -/
def Core.loopFits (k : Core) (a : Active) : Prop := k.runStart + a.loopBack ≤ a.q.cmd.pc

/-- The loops that LOOP refuses: inside a loop that is open, in another's slot, or with a body that begins before the run. -/
def Core.loopRefused (k : Core) (a : Active) : Prop :=
  k.innerHeld a ∨ ((k.loopSlot a).count ≠ 0 ∧ (k.loopSlot a).pc ≠ a.q.cmd.pc)
    ∨ ((k.loopSlot a).count = 0 ∧ a.loopCount ≠ 1 ∧ ¬ k.loopFits a)
    ∨ ((k.loopSlot a).count ≠ 0 ∧ (k.loopSlot a).i + 1 ≠ (k.loopSlot a).count ∧ ¬ k.loopFits a)

section
variable {k : Core}

/-- The test that LOOP makes of the slots of greater level. -/
theorem anyHeld_iff : ((k.loops.drop a.loopLevel).any fun x => x.count ≠ 0) = true ↔ k.innerHeld a := by
  simp [Core.innerHeld]

/-- The test that LOOP makes of its jump. -/
theorem below_iff : decide (a.q.cmd.pc < k.runStart + a.loopBack) = true ↔ ¬ k.loopFits a := by
  simp [Core.loopFits]

/-- A slot set at one level leaves those of the other levels. -/
theorem loops_setLoop (l : Nat) (v : LoopSlot) {m : Nat} (hlow : 1 ≤ m) (hhigh : m ≤ 4) :
    (k.setLoop l v).loops.getD (m - 1) {} = if m = l then v else k.loops.getD (m - 1) {} := by
  have hlt : m - 1 < 4 := by omega
  have hlevel : m - 1 + 1 = m := by omega
  simp [Core.setLoop, List.getD_eq_getElem?_getD, hlt, hlevel]
end

/-- What a LOOP that goes on leaves of its core: one slot set, whatever else it changes beside the slots. -/
theorem core_seqDone_of_setLoop (hrising : Tab.rising s.cores = true) {f : Core → Core} {l : Nat} {v : LoopSlot}
    (hloops : (f (s.core c)).loops = ((s.core c).setLoop l v).loops) :
    let k := ((s.updCore c f).seqDone c a).core c
    k.pc = (f (s.core c)).pc ∧ k.prefetch = (f (s.core c)).prefetch ∧
      (∀ m, 1 ≤ m → m ≤ 4 → k.loops.getD (m - 1) {} = if m = l then v else (s.core c).loops.getD (m - 1) {}) ∧
      k.started 0 = [{ a with done := true, start := s.now }] := by
  have hcore := core_updCore_seqDone (c := c) (a := a) hrising f
  have hslots := (congrArg Core.loops hcore :).trans hloops
  exact ⟨(congrArg Core.pc hcore :), (congrArg Core.prefetch hcore :),
    fun m hlow hhigh => (congrArg (·.getD (m - 1) {}) hslots).trans (loops_setLoop l v hlow hhigh), started_updCore_seqDone hrising f⟩

section
variable (hworking : (s.core c).working 0 0x0A = some (i, a))
include hworking

theorem seqLoop_of_inner (hinner : (s.core c).innerHeld a) : seqLoop c s = s.seqFail c a { status := .loopNest } := by
  rw [seqLoop, withSeq_of_working hworking]
  exact if_pos (anyHeld_iff.mpr hinner)

section
variable (houter : ¬ (s.core c).innerHeld a)
include houter

/-! With the slot of its level empty -/

theorem seqLoop_of_once (hempty : ((s.core c).loopSlot a).count = 0) (hone : a.loopCount = 1) : seqLoop c s = s.seqDone c a := by
  rw [seqLoop, withSeq_of_working hworking]
  exact (if_neg (mt anyHeld_iff.mp houter)).trans <| (if_pos hempty).trans (if_pos hone)

theorem seqLoop_of_first (hempty : ((s.core c).loopSlot a).count = 0) (hmore : a.loopCount ≠ 1) (hfits : (s.core c).loopFits a) :
    seqLoop c s =
      (s.updCore c fun k => (k.setLoop a.loopLevel ⟨a.q.cmd.pc, a.loopCount, 1⟩).jump (a.q.cmd.pc - a.loopBack)).seqDone c a := by
  rw [seqLoop, withSeq_of_working hworking]
  exact (if_neg (mt anyHeld_iff.mp houter)).trans <| (if_pos hempty).trans <| (if_neg hmore).trans <|
    if_neg (mt below_iff.mp (not_not_intro hfits))

theorem seqLoop_of_first_below (hempty : ((s.core c).loopSlot a).count = 0) (hmore : a.loopCount ≠ 1)
    (hbelow : ¬ (s.core c).loopFits a) : seqLoop c s = s.seqFail c a { status := .loopNest } := by
  rw [seqLoop, withSeq_of_working hworking]
  exact (if_neg (mt anyHeld_iff.mp houter)).trans <| (if_pos hempty).trans <| (if_neg hmore).trans (if_pos (below_iff.mpr hbelow))

/-! With the slot of its level held -/

section
variable (hheld : ((s.core c).loopSlot a).count ≠ 0)
include hheld

theorem seqLoop_of_other (hother : ((s.core c).loopSlot a).pc ≠ a.q.cmd.pc) :
    seqLoop c s = s.seqFail c a { status := .loopNest } := by
  rw [seqLoop, withSeq_of_working hworking]
  exact (if_neg (mt anyHeld_iff.mp houter)).trans <| (if_neg hheld).trans (if_pos hother)

variable (hown : ((s.core c).loopSlot a).pc = a.q.cmd.pc)
include hown

theorem seqLoop_of_last (hlast : ((s.core c).loopSlot a).i + 1 = ((s.core c).loopSlot a).count) :
    seqLoop c s = (s.updCore c fun k => k.setLoop a.loopLevel {}).seqDone c a := by
  rw [seqLoop, withSeq_of_working hworking]
  exact (if_neg (mt anyHeld_iff.mp houter)).trans <| (if_neg hheld).trans <| (if_neg (not_not_intro hown)).trans (if_pos hlast)

section
variable (hmore : ((s.core c).loopSlot a).i + 1 ≠ ((s.core c).loopSlot a).count)
include hmore

theorem seqLoop_of_middle (hfits : (s.core c).loopFits a) :
    seqLoop c s =
      let slot := (s.core c).loopSlot a
      (s.updCore c fun k => (k.setLoop a.loopLevel { slot with i := slot.i + 1 }).jump (a.q.cmd.pc - a.loopBack)).seqDone c a := by
  rw [seqLoop, withSeq_of_working hworking]
  exact (if_neg (mt anyHeld_iff.mp houter)).trans <| (if_neg hheld).trans <| (if_neg (not_not_intro hown)).trans <|
    (if_neg hmore).trans (if_neg (mt below_iff.mp (not_not_intro hfits)))

theorem seqLoop_of_middle_below (hbelow : ¬ (s.core c).loopFits a) : seqLoop c s = s.seqFail c a { status := .loopNest } := by
  rw [seqLoop, withSeq_of_working hworking]
  exact (if_neg (mt anyHeld_iff.mp houter)).trans <| (if_neg hheld).trans <| (if_neg (not_not_intro hown)).trans <|
    (if_neg hmore).trans (if_pos (below_iff.mpr hbelow))
end
end
end

theorem seqLoop_of_refused (hrefused : (s.core c).loopRefused a) : seqLoop c s = s.seqFail c a { status := .loopNest } := by
  by_cases hinner : (s.core c).innerHeld a
  · exact seqLoop_of_inner hworking hinner
  obtain hinner' | ⟨hheld, hother⟩ | ⟨hempty, hmore, hbelow⟩ | ⟨hheld, hmore, hbelow⟩ := hrefused
  · exact absurd hinner' hinner
  · exact seqLoop_of_other hworking hinner hheld hother
  · exact seqLoop_of_first_below hworking hinner hempty hmore hbelow
  · by_cases hown : ((s.core c).loopSlot a).pc = a.q.cmd.pc
    · exact seqLoop_of_middle_below hworking hinner hheld hown hmore hbelow
    · exact seqLoop_of_other hworking hinner hheld hown
end
end

/-- Settles O5: the slots of greater level, the slot of the LOOP's own level and the body's place choose the case, and each case sets one slot at
most. -/
theorem loopRunsItsBodyCountTimes : Obligations.LoopRunsItsBodyCountTimes := by
  intro c s i a hcanonical hworking k w l count body slot hlow hhigh inner fits
  have hrising := hcanonical.cores
  refine ⟨fun houter hempty hone => ?once, fun houter hempty hmore hfits => ?first, fun houter hheld hown hmore hfits => ?middle,
    fun houter hheld hown hlast => ?last, fun hrefused => ?refused⟩
  case once =>
    have hcore := core_seqDone (c := c) (a := a) hrising
    exact ⟨_, congrArg Host.Outcome.next (seqLoop_of_once hworking houter hempty hone), (congrArg Core.pc hcore :), (congrArg Core.loops hcore :),
      started_seqDone hrising⟩
  case first =>
    exact ⟨_, congrArg Host.Outcome.next (seqLoop_of_first hworking houter hempty hmore hfits), core_seqDone_of_setLoop hrising rfl⟩
  case middle =>
    exact ⟨_, congrArg Host.Outcome.next (seqLoop_of_middle hworking houter hheld hown hmore hfits), core_seqDone_of_setLoop hrising rfl⟩
  case last =>
    exact ⟨_, congrArg Host.Outcome.next (seqLoop_of_last hworking houter hheld hown hlast), core_seqDone_of_setLoop hrising rfl⟩
  case refused =>
    have hcore := core_seqFail (c := c) (a := a) hrising { status := .loopNest }
    exact ⟨_, congrArg Host.Outcome.next (seqLoop_of_refused hworking hrefused), (congrArg Core.pc hcore :), (congrArg Core.loops hcore :),
      started_seqFail hrising _⟩

end Sys2Proof.Machine
end

section
/-! SUPPORT. What STEP_BEGIN and END come to, case by case (R154, R155, R176, R331). -/

namespace Sys2Proof.Machine

open Sys2Proof

section
variable {s : State} {c i : Nat} {a : Active}

/-! ### STEP_BEGIN -/

/-- The steps that STEP_BEGIN refuses (R154, R358). -/
def State.refusesStep (s : State) (c : Nat) (a : Active) : Prop :=
  (s.core c).stepOpen = true ∨ a.q.cmd.word 2 ≤ (s.core c).committed ∨ s.get (coreObj c + 2) 0x01 = 0
    ∨ (s.mirroredCommits (s.core c).job = true ∧ s.get (coreObj c + 2) 0x03 = 0)

/-- The core of a STEP_BEGIN as its step opens (R100, R154, R361). -/
def State.opened (s : State) (c : Nat) (a : Active) (k : Core) : Core :=
  { k with
    latch := none, step := a.q.cmd.word 2, stepOpen := true, flags := 0, stepArea := s.get (coreObj c + 2) 0x01
    regionMiB := s.get (coreObj c + 2) 0x02, mirrorArea := s.get (coreObj c + 2) 0x03
    record := { intervalImages := k.record.intervalImages, beginAt := { (s.core c).resumePoint with step := a.q.cmd.word 2 }, fresh := s.fresh
                trap := s.get (0x2100 + (s.core c).job) 0x01 } }

section
variable (hworking : (s.core c).working 0 0x04 = some (i, a))
include hworking

theorem stepBegin_of_refused (hrefused : s.refusesStep c a) : stepBegin c s = s.seqFail c a { status := .stepState } := by
  rw [stepBegin, withSeq_of_working hworking]
  refine if_pos ?_
  simpa only [State.refusesStep, Bool.and_eq_true, decide_eq_true_eq] using hrefused

theorem stepBegin_of_admitted (hadmitted : ¬ s.refusesStep c a) :
    stepBegin c s = ((s.updCore c (s.opened c a)).useKey (some [])).seqDone c a := by
  rw [stepBegin, withSeq_of_working hworking]
  refine if_neg ?_
  simpa only [State.refusesStep, Bool.and_eq_true, decide_eq_true_eq] using hadmitted
end

/-! ### END -/

/-- The state once a core has become idle (R155, R176). -/
def State.idled (s : State) (c : Nat) : State :=
  (s.updCore c fun k => { k with item := none, prefetch := [], hints := [] }).setCoreState c 0

section
variable (hworking : (s.core c).working 0 0x08 = some (i, a))
include hworking

theorem seqEnd_of_open (hopen : (s.core c).stepOpen = true) : seqEnd c s = s.seqFail c a { status := .stepState } := by
  rw [seqEnd, withSeq_of_working hworking]
  exact if_pos hopen

theorem seqEnd_of_no_item (hclosed : (s.core c).stepOpen = false) (hnone : (s.core c).item = none) :
    seqEnd c s = (s.idled c).seqDone c a := by
  rw [seqEnd, withSeq_of_working hworking]
  simp only [hclosed, Bool.false_eq_true, if_false, hnone, State.idled]

theorem seqEnd_of_item {st seq : Nat} (hclosed : (s.core c).stepOpen = false) (hitem : (s.core c).item = some (st, seq)) :
    seqEnd c s = ((s.finishItem st seq 0 0 (s.core c).flags).idled c).seqDone c a := by
  rw [seqEnd, withSeq_of_working hworking]
  simp only [hclosed, Bool.false_eq_true, if_false, hitem, State.idled]
end

/-! ### The end of an item -/

section
variable {st seq result word flags : Nat} {it : Item} (hitem : s.findItem st seq = some it) (hunformed : s.recordFormed it = false)
include hitem hunformed

theorem finishItem_of_ready (hready : s.intake.rebuilding = false) :
    s.finishItem st seq result word flags = s.itemDone st seq (s.completionRecord it result word flags) := by
  simp only [State.finishItem, hitem, hunformed, hready, Bool.false_eq_true, if_false]

theorem finishItem_of_rebuilding (hrebuilding : s.intake.rebuilding = true) :
    s.finishItem st seq result word flags =
      { s with intake := { s.intake with formed := s.intake.formed ++ [(st, seq, s.completionRecord it result word flags)] } } := by
  simp only [State.finishItem, hitem, hunformed, hrebuilding, Bool.false_eq_true, if_false, if_true]
end
end

/-- Settles O11: STEP_BEGIN opens the step in every case but the four it refuses. -/
theorem stepBeginOpensOrRefuses : Obligations.StepBeginOpensOrRefuses := by
  intro c s i a hworking k n area mirror
  refine ⟨fun hclosed hnew harea hmirror => ?opens, fun hrefused => congrArg Host.Outcome.next (stepBegin_of_refused hworking hrefused)⟩
  case opens =>
    have hadmitted : ¬ s.refusesStep c a := by
      rintro (hopen | hold | hnone | ⟨hmirrored, hnone⟩)
      · exact absurd hopen (Bool.eq_false_iff.mp hclosed)
      · exact absurd hold (Nat.not_le.mpr hnew)
      · exact harea hnone
      · exact hmirror hmirrored hnone
    exact congrArg Host.Outcome.next (stepBegin_of_admitted hworking hadmitted)

/-- Settles O13: END ends the core's item, where one runs, before the core idles. -/
theorem endCompletesTheItemOrRefuses : Obligations.EndCompletesTheItemOrRefuses := by
  intro c s i a hworking k idle
  refine ⟨fun hclosed hnone => congrArg Host.Outcome.next (seqEnd_of_no_item hworking hclosed hnone),
    fun st seq it hclosed hitem hfound hunformed => ?item, fun hopen => congrArg Host.Outcome.next (seqEnd_of_open hworking hopen)⟩
  case item =>
    have hends := seqEnd_of_item hworking hclosed hitem
    refine ⟨fun hready => congrArg Host.Outcome.next ?_, fun hrebuilding => congrArg Host.Outcome.next ?_⟩
    · rw [finishItem_of_ready hfound hunformed hready] at hends
      exact hends
    · rw [finishItem_of_rebuilding hfound hunformed hrebuilding] at hends
      exact hends

end Sys2Proof.Machine
end

section
/-! SUPPORT. What STEP_COMMIT comes to, case by case (R155, R347, R351, R355, R357, R367). -/

namespace Sys2Proof.Machine

open Sys2Proof

/-! ### Operations that leave cores, objects, items and time as they are -/

/-- t holds the cores, synchronisation objects, items and time of s. -/
structure WorkKept (s t : State) : Prop where
  cores : t.cores = s.cores
  sync : t.sync = s.sync
  items : t.items = s.items
  now : t.now = s.now

section
variable {s t u : State}

theorem WorkKept.refl (s : State) : WorkKept s s := ⟨rfl, rfl, rfl, rfl⟩

theorem WorkKept.trans (hst : WorkKept s t) (htu : WorkKept t u) : WorkKept s u :=
  ⟨htu.cores.trans hst.cores, htu.sync.trans hst.sync, htu.items.trans hst.items, htu.now.trans hst.now⟩

theorem MemOnly.workKept (h : MemOnly s t) : WorkKept s t := ⟨h.cores, h.sync, h.items, h.now⟩

theorem WorkKept.core (h : WorkKept s t) (c : Nat) : t.core c = s.core c := by
  simp only [State.core, h.cores]

theorem workKept_event (i j v : Nat) : WorkKept s (s.event i j v) := by
  rw [event_eq]; exact ⟨rfl, rfl, rfl, rfl⟩

theorem workKept_change (i j v : Nat) : WorkKept s (s.change i j v) := by
  rw [change_eq]; exact ⟨rfl, rfl, rfl, rfl⟩

theorem workKept_foldLogs (cs : List Nat) (j : Nat) : WorkKept s (s.foldLogs cs j) := by
  unfold State.foldLogs
  dsimp only
  split <;> exact ⟨rfl, rfl, rfl, rfl⟩

/-- A commit image is memory, and its health an object (R357, R358). -/
theorem workKept_commitMirror (j c : Nat) (r : ResumePoint) : WorkKept s (s.commitMirror j c r) := by
  unfold State.commitMirror
  dsimp only
  split
  · exact .refl s
  · split
    · exact workKept_change _ _ _
    · refine (workKept_change _ _ _).trans ((MemOnly.workKept (.foldl _ (fun u p => ?_) _ _)).trans
        (((memOnly_saveObjects _ _ _).trans (memOnly_putPlain _ _ _)).trans (memOnly_putPlain _ _ _)).workKept)
      split
      · exact memOnly_copyPages _ _ _ _
      · exact .refl u
end

/-! ### core_state -/

section
variable {s : State} {c d v : Nat} (hrising : Tab.rising s.cores = true)
include hrising

theorem core_setCoreState_same : (s.setCoreState c v).core c = { s.core c with state := v } := by
  unfold State.setCoreState
  split
  case isTrue hstate => rw [← hstate]
  case isFalse => rw [(workKept_event _ _ _).core, core_updCore_same s c _ hrising]

theorem core_setCoreState_other (hd : d ≠ c) : (s.setCoreState c v).core d = s.core d := by
  unfold State.setCoreState
  split
  · rfl
  · rw [(workKept_event _ _ _).core, core_updCore_other s c d _ hrising hd]
end

/-! ### The commit of a step -/

/-- A core whose step commits (R155, R367). -/
def Core.commitStep (k : Core) : Core :=
  { k with
    stepOpen := false, committed := k.step, commit := some { k.resumePoint with committed := k.step }, interval := k.interval + 1
    record := {}, foreign := false, again := none }

/-- The state once the commit image of a core is up to date and its step is closed. -/
def State.stepImaged (s : State) (c : Nat) : State :=
  let k := s.core c
  (s.commitMirror k.job c { k.resumePoint with committed := k.step }).updCore c fun x =>
    { x.commitStep with commit := some { k.resumePoint with committed := k.step } }

/-- The state once a step of a core has committed, before its job may quiesce. -/
def State.stepClosed (s : State) (c : Nat) : State :=
  let u := s.stepImaged c
  ((u.bump 0x4400 0x07).put (coreObj c + 2) 0x07 u.now).foldLogs (u.jobCores (s.core c).job) (s.core c).job

section
variable {s : State} {c d : Nat}

/-- A commit closes the step, and the core waits where its job is to quiesce (R157). -/
theorem commitStep_eq : s.commitStep c =
    if (s.stepClosed c).quiesceWanted (s.core c).job then (s.stepClosed c).setCoreState c 3 else s.stepClosed c := rfl

theorem workKept_stepImaged : WorkKept (s.updCore c Core.commitStep) (s.stepImaged c) := by
  have hmirror := workKept_commitMirror (s := s) (s.core c).job c { (s.core c).resumePoint with committed := (s.core c).step }
  refine ⟨?_, hmirror.sync, hmirror.items, hmirror.now⟩
  simp only [State.stepImaged, State.updCore, State.setCore, hmirror.cores, hmirror.core, Core.commitStep]

theorem workKept_stepClosed : WorkKept (s.updCore c Core.commitStep) (s.stepClosed c) :=
  workKept_stepImaged.trans <| ((memOnly_bump _ _ _).trans (memOnly_put _ _ _ _)).workKept.trans (workKept_foldLogs _ _)

section
variable (hrising : Tab.rising s.cores = true)
include hrising

theorem core_stepClosed_same : (s.stepClosed c).core c = (s.core c).commitStep :=
  (workKept_stepClosed.core c).trans (core_updCore_same s c _ hrising)

theorem core_stepClosed_other (hd : d ≠ c) : (s.stepClosed c).core d = s.core d :=
  (workKept_stepClosed.core d).trans (core_updCore_other s c d _ hrising hd)

theorem stepClosed_rising : Tab.rising (s.stepClosed c).cores = true := by
  rw [workKept_stepClosed.cores]
  exact updCore_rising s c _ hrising

theorem core_commitStep_same : ∃ state, (s.commitStep c).core c = { (s.core c).commitStep with state := state } := by
  rw [commitStep_eq]
  split
  · exact ⟨3, by rw [core_setCoreState_same (stepClosed_rising hrising), core_stepClosed_same hrising]⟩
  · exact ⟨_, core_stepClosed_same hrising⟩

theorem core_commitStep_other (hd : d ≠ c) : (s.commitStep c).core d = s.core d := by
  rw [commitStep_eq]
  split
  · rw [core_setCoreState_other (stepClosed_rising hrising) hd, core_stepClosed_other hrising hd]
  · exact core_stepClosed_other hrising hd
end

theorem commitStep_frame : (s.commitStep c).sync = s.sync ∧ (s.commitStep c).items = s.items ∧ (s.commitStep c).now = s.now := by
  have hkept := workKept_stepClosed (s := s) (c := c)
  rw [commitStep_eq]
  split
  · rw [setCoreState_eq]
    exact ⟨hkept.sync, hkept.items, hkept.now⟩
  · exact ⟨hkept.sync, hkept.items, hkept.now⟩
end

/-! ### The audit sampler (R347) -/

section
variable {s : State} {c : Nat}

/-- The audit sampler's free draw chooses the step (log 4). -/
def State.auditDrawn (s : State) : Prop := Config.auditDraw s.fresh % s.get 0x4400 0x01 = 0

theorem auditStep_of_suspect (hsuspect : (s.core c).record.suspect = true) : s.auditStep c = s := if_pos hsuspect

section
variable (hsound : (s.core c).record.suspect = false)
include hsound

theorem auditStep_of_drawn (hdrawn : s.auditDrawn) :
    s.auditStep c = State.updCore { s with fresh := s.fresh + 1 } c fun k => { k with record := { k.record with suspectAudit := true } } := by
  rw [State.auditStep, if_neg (Bool.eq_false_iff.mp hsound)]
  exact if_pos hdrawn

theorem auditStep_of_passed (hpassed : ¬ s.auditDrawn) : s.auditStep c = { s with fresh := s.fresh + 1 } := by
  rw [State.auditStep, if_neg (Bool.eq_false_iff.mp hsound)]
  exact if_neg hpassed
end
end

/-! ### STEP_COMMIT -/

section
variable {s : State} {c i : Nat} {a : Active} (hworking : (s.core c).working 0 0x05 = some (i, a))
include hworking

theorem stepCommit_of_replaying (hreplaying : ∃ r ∈ s.replays, r.core = c) : stepCommit c s = s := by
  rw [stepCommit, withSeq_of_working hworking]
  exact if_pos (by simpa using hreplaying)

section
variable (hfree : ∀ r ∈ s.replays, r.core ≠ c)
include hfree

theorem stepCommit_of_refused (hrefused : (s.core c).stepOpen = false ∨ a.q.cmd.word 2 ≠ (s.core c).step) :
    stepCommit c s = s.seqFail c a { status := .stepState } := by
  rw [stepCommit, withSeq_of_working hworking]
  exact (if_neg (by simpa using hfree)).trans (if_pos (by simpa using hrefused))

section
variable (hopen : (s.core c).stepOpen = true) (hnumber : a.q.cmd.word 2 = (s.core c).step)
include hopen hnumber

theorem stepCommit_of_poison (hpoison : (s.core c).record.poisonStored = true) : stepCommit c s = s.poisonCommit c a := by
  rw [stepCommit, withSeq_of_working hworking]
  exact (if_neg (by simpa using hfree)).trans <| (if_neg (by simp [hopen, hnumber])).trans (if_pos hpoison)

/-- A step without poison commits or is replayed as the audit sampler leaves it. -/
theorem stepCommit_of_clean (hclean : (s.core c).record.poisonStored = false) : stepCommit c s =
    let u := s.auditStep c
    if (u.core c).record.suspect || (s.core c).again = some (s.core c).step then u.queueReplay c else (u.commitStep c).seqDone c a := by
  rw [stepCommit, withSeq_of_working hworking]
  exact (if_neg (by simpa using hfree)).trans <| (if_neg (by simp [hopen, hnumber])).trans (if_neg (Bool.eq_false_iff.mp hclean))

section
variable (hclean : (s.core c).record.poisonStored = false)
include hclean

theorem stepCommit_of_suspect (hsuspect : (s.core c).record.suspect = true) : stepCommit c s = s.queueReplay c := by
  rw [stepCommit_of_clean hworking hfree hopen hnumber hclean, auditStep_of_suspect hsuspect]
  exact if_pos (by simp [hsuspect])

variable (hsound : (s.core c).record.suspect = false)
include hsound

theorem stepCommit_of_drawn (hrising : Tab.rising s.cores = true) (hdrawn : s.auditDrawn) :
    stepCommit c s =
      (State.updCore { s with fresh := s.fresh + 1 } c fun k => { k with record := { k.record with suspectAudit := true } }).queueReplay c := by
  rw [stepCommit_of_clean hworking hfree hopen hnumber hclean, auditStep_of_drawn hsound hdrawn]
  refine if_pos ?_
  rw [core_updCore_same { s with fresh := s.fresh + 1 } c _ hrising]
  simp [StepRecord.suspect]

variable (hpassed : ¬ s.auditDrawn)
include hpassed

theorem stepCommit_of_again (hagain : (s.core c).again = some (s.core c).step) :
    stepCommit c s = State.queueReplay { s with fresh := s.fresh + 1 } c := by
  rw [stepCommit_of_clean hworking hfree hopen hnumber hclean, auditStep_of_passed hsound hpassed]
  exact if_pos (by simp [hagain])

theorem stepCommit_of_sound (hfirst : (s.core c).again ≠ some (s.core c).step) :
    stepCommit c s = (State.commitStep { s with fresh := s.fresh + 1 } c).seqDone c a := by
  rw [stepCommit_of_clean hworking hfree hopen hnumber hclean, auditStep_of_passed hsound hpassed]
  have hcore : State.core { s with fresh := s.fresh + 1 } c = s.core c := rfl
  exact if_neg (by simp [hcore, hsound, hfirst])
end
end
end
end

/-- Settles O12: STEP_COMMIT goes by the poison, the suspicion and the draw of its step, and a commit writes beside its core only memory, objects of
the dictionary and logs. -/
theorem stepCommitClosesTheStep : Obligations.StepCommitClosesTheStep := by
  intro c s i a hcanonical hworking k drawn u
  refine ⟨fun hreplaying => ?replaying, fun hfree => ⟨fun hrefused => ?refused, fun hopen hnumber =>
    ⟨fun hpoison => ?poison, fun hclean hsuspect => ?suspect, fun hclean hsound hdrawn => ?drawn,
      fun hclean hsound hpassed hagain => ?again, fun hclean hsound hpassed hfirst => ?commits⟩⟩⟩
  case replaying => exact congrArg Host.Outcome.next (stepCommit_of_replaying hworking hreplaying)
  case refused => exact congrArg Host.Outcome.next (stepCommit_of_refused hworking hfree hrefused)
  case poison => exact congrArg Host.Outcome.next (stepCommit_of_poison hworking hfree hopen hnumber hpoison)
  case suspect => exact congrArg Host.Outcome.next (stepCommit_of_suspect hworking hfree hopen hnumber hclean hsuspect)
  case drawn =>
    exact congrArg Host.Outcome.next (stepCommit_of_drawn hworking hfree hopen hnumber hclean hsound hcanonical.cores hdrawn)
  case again => exact congrArg Host.Outcome.next (stepCommit_of_again hworking hfree hopen hnumber hclean hsound hpassed hagain)
  case commits =>
    have hrising : Tab.rising u.cores = true := hcanonical.cores
    have hcommitted : Tab.rising (u.commitStep c).cores = true :=
      (keeps_commitStep (keeps_useKey (x1 := some []) hcanonical)).cores
    obtain ⟨state, hcommit⟩ := core_commitStep_same (c := c) hrising
    obtain ⟨hsync, hitems, hnow⟩ := commitStep_frame (s := u) (c := c)
    have hcore := core_seqDone (c := c) (a := a) hcommitted
    rw [hcommit] at hcore
    have hstarted := started_seqDone (c := c) (a := a) hcommitted
    rw [hnow] at hstarted
    exact ⟨_, congrArg Host.Outcome.next (stepCommit_of_sound hworking hfree hopen hnumber hclean hsound hpassed hfirst),
      (congrArg Core.stepOpen hcore :), (congrArg Core.committed hcore :), (congrArg Core.interval hcore :), (congrArg Core.commit hcore :),
      (congrArg Core.record hcore :), hstarted, (congrArg Core.pc hcore :), (congrArg Core.loops hcore :), (congrArg Core.queues hcore :),
      (congrArg Core.flags hcore :),
      fun d hd => (core_setStarted_other _ c d 0 _ hcommitted hd).trans (core_commitStep_other hrising hd), hsync, hitems⟩

end Sys2Proof.Machine
end

section
/-! SUPPORT. What COMMAND_FETCH and COMMAND_DISPATCH come to, case by case (R141, R142, R143, R146, R159). -/

namespace Sys2Proof.Machine

open Sys2Proof

section
variable {s : State} {c : Nat}

theorem Status.code_ne_zero {st : Status} (hfails : st ≠ .ok) : st.code ≠ 0 := by
  cases st with
  | ok => exact absurd rfl hfails
  | _ => decide

/-! ### COMMAND_FETCH -/

/-- A core that fetches nothing now: it does not run, is 128 commands ahead, or has met a fetch that failed (R141). -/
def Core.fetchesNothing (k : Core) : Prop := k.runs = false ∨ 128 ≤ k.prefetch.length ∨ ∃ x ∈ k.prefetch, x.status ≠ 0

/-- The address of the next command to fetch. -/
def Core.fetchPc (k : Core) : Nat := (k.pc + 64 * k.prefetch.length) % 2 ^ 64

/-- The places that the next fetch of a core reaches. -/
def State.fetchPlaces (s : State) (c : Nat) : List Place :=
  s.places (if 2 ≤ spaceOf (s.core c).fetchPc then [] else [(s.core c).fetchPc]) []

/-- The state once a fetch's request is performed and what its read finds is taken. -/
def State.fetchRead (s : State) (c : Nat) (ups : List Upset) : State :=
  (s.requestDone c fetchPort (s.fetchPlaces c)).takeUpsets c [((s.core c).fetchPc, 64)] ups

/-- The state once a command that a fetch has given is counted as read, where it has not failed, and joins the prefetched ones. -/
def State.fetched (s : State) (c : Nat) (cmd : Cmd) : State := (if cmd.status = 0 then s.countRead cmd.pc 64 else s).prefetched c cmd

theorem fetched_of_ok {cmd : Cmd} (hok : cmd.status = 0) :
    s.fetched c cmd = (s.countRead cmd.pc 64).updCore c fun k => { k with prefetch := k.prefetch ++ [cmd] } := by
  rw [State.fetched, if_pos hok]
  exact if_neg fun h => h.1 hok

theorem fetched_of_failed {cmd : Cmd} (hfailed : cmd.status ≠ 0) : s.fetched c cmd = s.prefetched c cmd := by
  rw [State.fetched, if_neg hfailed]

section
variable {j pc : Nat}

theorem fetchCmd_of_ok (hok : s.fetchStatus c j pc = (.ok, 0)) :
    s.fetchCmd c j pc = { pc := pc, words := (List.range 8).map fun i => leAt (s.readBytes pc 64) (8 * i) 8 } := by
  simp only [State.fetchCmd, hok, ne_eq, not_true_eq_false, if_false]

theorem fetchCmd_of_failed {st : Status} {d : Nat} (hstatus : s.fetchStatus c j pc = (st, d)) (hfails : st ≠ .ok) :
    s.fetchCmd c j pc = { pc := pc, status := st.code + d * 256 } := by
  simp only [State.fetchCmd, hstatus]
  exact if_pos hfails
end

section
variable {ups : List Upset}

/-- The test that COMMAND_FETCH makes of its core. -/
theorem fetchesNothing_iff {k : Core} :
    ((!k.runs) = true ∨ 128 ≤ k.prefetch.length ∨ k.prefetch.any (·.status ≠ 0) = true) ↔ k.fetchesNothing := by
  simp [Core.fetchesNothing]

theorem commandFetch_of_nothing (hnothing : (s.core c).fetchesNothing) : commandFetch c ups s = s :=
  if_pos (fetchesNothing_iff.mpr hnothing)

section
variable (hfetches : ¬ (s.core c).fetchesNothing) (hreached : s.awayPlace c (s.fetchPlaces c) = none)
include hfetches hreached

theorem commandFetch_of_reached : commandFetch c ups s =
    (s.fetchRead c ups).fetched c ((s.fetchRead c ups).fetchCmd c (s.core c).job (s.core c).fetchPc) :=
  (if_neg (mt fetchesNothing_iff.mp hfetches)).trans (viaHubs_of_reached hreached)

theorem commandFetch_of_ok (hok : (s.fetchRead c ups).fetchStatus c (s.core c).job (s.core c).fetchPc = (.ok, 0)) :
    commandFetch c ups s =
      let u := s.fetchRead c ups
      let pc := (s.core c).fetchPc
      (u.countRead pc 64).updCore c fun k =>
        { k with prefetch := k.prefetch ++ [⟨pc, (List.range 8).map fun i => leAt (u.readBytes pc 64) (8 * i) 8, 0⟩] } := by
  rw [commandFetch_of_reached hfetches hreached, fetchCmd_of_ok hok]
  exact fetched_of_ok rfl

theorem commandFetch_of_failed {st : Status} {d : Nat}
    (hstatus : (s.fetchRead c ups).fetchStatus c (s.core c).job (s.core c).fetchPc = (st, d)) (hfails : st ≠ .ok) :
    commandFetch c ups s = (s.fetchRead c ups).prefetched c { pc := (s.core c).fetchPc, status := st.code + d * 256 } := by
  have hcode : st.code + d * 256 ≠ 0 := fun h => Status.code_ne_zero hfails (Nat.eq_zero_of_add_eq_zero_right h)
  rw [commandFetch_of_reached hfetches hreached, fetchCmd_of_failed hstatus hfails]
  exact fetched_of_failed hcode
end
end

/-! ### COMMAND_DISPATCH -/

section
variable {cmd : Cmd} {rest : List Cmd}

theorem commandDispatch_of_held (hheld : (s.core c).mayDispatch = false ∨ (s.core c).prefetch = []) : commandDispatch c s = s := by
  rcases hheld with hheld | hnone
  · simp only [commandDispatch, hheld, Bool.not_false, if_true]
  · simp only [commandDispatch, hnone, ite_self]

variable (hmay : (s.core c).mayDispatch = true) (hnext : (s.core c).prefetch = cmd :: rest)
include hmay hnext

theorem commandDispatch_of_failed_fetch (hfailed : cmd.status ≠ 0) :
    commandDispatch c s = s.stopAtHeader c cmd (cmd.status % 256) (cmd.status / 256) := by
  simp only [commandDispatch, hmay, Bool.not_true, Bool.false_eq_true, if_false, hnext, if_pos hfailed]

section
variable (hfetched : cmd.status = 0)
include hfetched

theorem commandDispatch_of_unknown (hunknown : engineOf cmd.opcode = none) :
    commandDispatch c s = s.stopAtHeader c cmd Status.badOpcode.code 0 := by
  simp only [commandDispatch, hmay, Bool.not_true, Bool.false_eq_true, if_false, hnext, if_neg (not_not_intro hfetched), hunknown]

section
variable {e : Nat} (hengine : engineOf cmd.opcode = some e)
include hengine

theorem commandDispatch_of_broken {w : Nat} (hbroken : cmd.headerFault = some w) :
    commandDispatch c s = s.stopAtHeader c cmd Status.format.code w := by
  simp only [commandDispatch, hmay, Bool.not_true, Bool.false_eq_true, if_false, hnext, if_neg (not_not_intro hfetched), hengine, hbroken]

/-- A sound command is put in its engine's queue unless that is full. -/
theorem commandDispatch_of_sound (hsound : cmd.headerFault = none) :
    commandDispatch c s =
      if e ≠ 0 ∧ 256 ≤ ((s.core c).queue e).length then s.bump (coreObj c) 0x09 else s.updCore c fun k => k.enqueue e cmd := by
  simp only [commandDispatch, hmay, Bool.not_true, Bool.false_eq_true, if_false, hnext, if_neg (not_not_intro hfetched), hengine, hsound]
end
end
end
end

/-- Settles O15: a fetch whose place is reached goes by the checks on its address, and one that fails has a code other than 0. -/
theorem commandFetchAppendsToPrefetch : Obligations.CommandFetchAppendsToPrefetch := by
  intro c s ups k pc xs
  refine ⟨fun hruns hroom hsound hreached => ?fetches, fun hnothing => congrArg Host.Outcome.next (commandFetch_of_nothing hnothing)⟩
  case fetches =>
    have hfetches : ¬ (s.core c).fetchesNothing := by
      rintro (hstopped | hfull | ⟨x, hx, hfailed⟩)
      · exact absurd hruns (Bool.eq_false_iff.mp hstopped)
      · exact absurd hroom (Nat.not_lt.mpr hfull)
      · exact hfailed (hsound x hx)
    exact ⟨fun hok => congrArg Host.Outcome.next (commandFetch_of_ok hfetches hreached hok),
      fun st d hstatus hfails => congrArg Host.Outcome.next (commandFetch_of_failed hfetches hreached hstatus hfails)⟩

/-- Settles O16: the next command is tested for its fetch, its opcode, its header and its engine's room, in that order. -/
theorem commandDispatchQueuesOrStalls : Obligations.CommandDispatchQueuesOrStalls := by
  intro c s k
  refine ⟨fun cmd rest hmay hnext hfetched => ⟨fun e hengine hsound => ⟨fun hroom => ?queues, fun hengine' hfull => ?stalls⟩,
      fun hunknown => ?unknown, fun e w hengine hbroken => ?broken⟩,
    fun cmd rest hmay hnext hfailed => congrArg Host.Outcome.next (commandDispatch_of_failed_fetch hmay hnext hfailed),
    fun hheld => congrArg Host.Outcome.next (commandDispatch_of_held hheld)⟩
  case queues =>
    have htakes : ¬ (e ≠ 0 ∧ 256 ≤ (k.queue e).length) := by omega
    refine congrArg Host.Outcome.next ((commandDispatch_of_sound hmay hnext hfetched hengine hsound).trans ((if_neg htakes).trans ?_))
    have hdrop : k.prefetch.drop 1 = rest := by rw [hnext]; rfl
    exact congrArg (s.setCore c) (by rw [← hdrop]; rfl)
  case stalls =>
    exact congrArg Host.Outcome.next ((commandDispatch_of_sound hmay hnext hfetched hengine hsound).trans (if_pos ⟨hengine', hfull⟩))
  case unknown => exact congrArg Host.Outcome.next (commandDispatch_of_unknown hmay hnext hfetched hunknown)
  case broken => exact congrArg Host.Outcome.next (commandDispatch_of_broken hmay hnext hfetched hengine hbroken)

end Sys2Proof.Machine
end

section
/-! SUPPORT. What COMMAND_START and COMMAND_COMPLETE come to, case by case (R144, R145, R147, R149, R152, R153). -/

namespace Sys2Proof.Machine

open Sys2Proof

section
variable {s : State} {c e : Nat} {q : Queued}

/-! ### The checks of a command that starts -/

/-- The started form of a queued command (R140, R286). -/
def State.startedForm (s : State) (c : Nat) (q : Queued) : Active :=
  { q := q, start := s.now, trap := s.get (0x2100 + (s.core c).job) 0x01
    deadline := if q.cmd.opcode = 0x51 ∨ q.cmd.opcode = 0x52 then some (s.now + s.waitDefault (s.core c).job) else none }

/-- The state once a start of MM, MM_SEG, ACC_IO or MM_F64 has invalidated its core's latches (R100). -/
def State.unlatched (s : State) (c op : Nat) : State :=
  if op ∈ [0x20, 0x21, 0x24, 0x25] then s.updCore c fun k => { k with latch := none } else s

/-- The state once the start of a command that streams the arrays has left Idle (R393). -/
def State.awakened (s : State) (op : Nat) : State := if op ∈ [0x20, 0x21, 0x23, 0x25] then s.leaveIdle else s

theorem startHead_of_passed {u : Setup}
    (hpassed : (s.popQueue c e).checkCommand c (s.core c).job q.loops q.cmd = .ok u) :
    s.startHead c e q =
      let t := ((s.popQueue c e).unlatched c q.cmd.opcode).awakened q.cmd.opcode
      t.addStarted c e { s.startedForm c q with slots := (t.slots c).keep u.slots, segments := u.segments, reserved := u.reserved } := by
  simp only [State.startHead, hpassed, State.unlatched, State.awakened, ← List.contains_iff_mem]
  rfl

theorem startHead_of_failed {err : CheckErr}
    (hfailed : (s.popQueue c e).checkCommand c (s.core c).job q.loops q.cmd = .error err) :
    s.startHead c e q =
      ((s.popQueue c e).countClosed err.addr err.status).addStarted c e ((s.startedForm c q).fail s.now err) := by
  simp only [State.startHead, hfailed]
  rfl

/-! ### The header wait -/

/-- The wait of a queued command's header (R148, R285). -/
def State.headerWait (s : State) (c e : Nat) (q : Queued) : Wait :=
  ⟨c, e, syncAddr (s.headerCore c (bit (q.cmd.word 0) 12)) (bits (q.cmd.word 0) 32 14), bits (q.cmd.word 0) 46 2,
    bits (q.cmd.word 1) 0 32, q.cmd.tag, s.now, s.now + s.waitDefault (s.core c).job, false, none⟩

section
variable {u : State}

theorem testWait_of_met (hmet : s.registerWait (s.headerWait c e q) = (u, some true)) :
    s.testWait c e q =
      (u.updHead c e fun q => { q with waiting := true, waitMet := true }).startHead c e { q with waiting := true, waitMet := true } := by
  rw [State.headerWait] at hmet
  simp only [State.testWait, hmet]

theorem testWait_of_unmet (hunmet : s.registerWait (s.headerWait c e q) = (u, some false)) :
    s.testWait c e q =
      let v := u.updHead c e fun q => { q with waiting := true }
      if e = 0 then v.setCoreState c 2 else v := by
  rw [State.headerWait] at hunmet
  simp only [State.testWait, hunmet]

theorem testWait_of_wrong_kind (hkind : s.registerWait (s.headerWait c e q) = (u, none)) :
    s.testWait c e q = (u.popQueue c e).addStarted c e
      (({ q := q } : Active).fail u.now { status := .syncKind, addr := (s.headerWait c e q).object }) := by
  rw [State.headerWait] at hkind ⊢
  simp only [State.testWait, hkind]
end

/-! ### COMMAND_START -/

/-- A command may start but for its header wait: its core runs, its engine has room, its tokens and its fence are met (R145, R147). -/
def Core.ready (k : Core) (e : Nat) (q : Queued) : Prop :=
  k.runs = true ∧ k.hasRoom e = true ∧ k.tokenMet q 48 = true ∧ k.tokenMet q 54 = true ∧ (q.cmd.fences = true → k.fenceMet q = true)

/-- The test that COMMAND_START makes before the header wait. -/
theorem not_ready_iff {k : Core} :
    ((!k.runs) = true ∨ (!k.hasRoom e) = true ∨ (!k.tokenMet q 48) = true ∨ (!k.tokenMet q 54) = true
      ∨ (q.cmd.fences && !k.fenceMet q) = true) ↔ ¬ k.ready e q := by
  simp only [Core.ready, Classical.not_and_iff_not_or_not, Classical.not_imp, Bool.not_eq_true', Bool.not_eq_true, Bool.and_eq_true]

section
variable {rest : List Queued} (hhead : (s.core c).queue e = q :: rest)
include hhead

theorem commandStart_of_unready (hunready : ¬ (s.core c).ready e q) : commandStart c e s = s := by
  simp only [commandStart, hhead]
  exact if_pos (not_ready_iff.mpr hunready)

section
variable (hready : (s.core c).ready e q)
include hready

theorem commandStart_of_ready : commandStart c e s =
    if q.cmd.waitEn && !q.waitMet then (if q.waiting then s else s.testWait c e q) else s.startHead c e q := by
  simp only [commandStart, hhead]
  exact if_neg (mt not_ready_iff.mp (not_not_intro hready))

theorem commandStart_of_met (hmet : q.cmd.waitEn = true → q.waitMet = true) : commandStart c e s = s.startHead c e q := by
  rw [commandStart_of_ready hhead hready]
  exact if_neg (by simpa using hmet)

variable (hwaits : q.cmd.waitEn = true) (hunmet : q.waitMet = false)
include hwaits hunmet

theorem commandStart_of_registered (hregistered : q.waiting = true) : commandStart c e s = s := by
  rw [commandStart_of_ready hhead hready]
  exact (if_pos (by simp [hwaits, hunmet])).trans (if_pos hregistered)

theorem commandStart_of_unregistered (hfirst : q.waiting = false) : commandStart c e s = s.testWait c e q := by
  rw [commandStart_of_ready hhead hready]
  exact (if_pos (by simp [hwaits, hunmet])).trans (if_neg (Bool.eq_false_iff.mp hfirst))
end

/-- What holds a command at the head of its queue. -/
theorem commandStart_of_held
    (hheld : (s.core c).runs = false ∨ (s.core c).hasRoom e = false ∨ (s.core c).tokenMet q 48 = false ∨ (s.core c).tokenMet q 54 = false
      ∨ (q.cmd.fences = true ∧ (s.core c).fenceMet q = false) ∨ (q.cmd.waitEn = true ∧ q.waitMet = false ∧ q.waiting = true)) :
    commandStart c e s = s := by
  by_cases hready : (s.core c).ready e q
  · obtain ⟨hruns, hroom, hfirst, hsecond, hfence⟩ := hready
    rcases hheld with h | h | h | h | ⟨hfences, h⟩ | ⟨hwaits, hunmet, hregistered⟩
    · simp [hruns] at h
    · simp [hroom] at h
    · simp [hfirst] at h
    · simp [hsecond] at h
    · simp [hfence hfences] at h
    · exact commandStart_of_registered hhead ⟨hruns, hroom, hfirst, hsecond, hfence⟩ hwaits hunmet hregistered
  · exact commandStart_of_unready hhead hready
end
end

/-! ### COMMAND_COMPLETE -/

section
variable {s : State} {c e : Nat} {a : Active} {rest : List Active}

/-- The state once a command of an engine has left it, counted as completed, with its flags in its core's (R126, R144). -/
def State.completed (s : State) (c e : Nat) (a : Active) (rest : List Active) : State :=
  (s.updCore c fun k => { k with
    active := Tab.set [] k.active e rest, completed := Tab.upd 0 k.completed e (· + 1)
    flags := ((ArithFlags.ofByte k.flags).or (ArithFlags.ofByte a.flags)).byte
    record := { k.record with completed := k.record.completed + 1 } }).bump (coreObj c) 0x08

theorem settleStop_of_no_restart {j : Nat} (hstays : (s.job j).freshAtStop = false) : s.settleStop j = s := by
  simp only [State.settleStop, hstays, Bool.false_and, Bool.false_eq_true, if_false]

theorem headerSignal_of_silent {cmd : Cmd} (hsilent : cmd.signalEn = false) : s.headerSignal c e cmd = s := by
  simp only [State.headerSignal, hsilent, Bool.not_false, if_true]

theorem commandComplete_of_empty (hempty : (s.core c).started e = []) : commandComplete c e s = s := by
  simp only [commandComplete, hempty]

variable (holdest : (s.core c).started e = a :: rest)
include holdest

theorem drop_started_of_oldest : ((s.core c).started e).drop 1 = rest := by rw [holdest]; rfl

theorem countCompletion_of_oldest : s.countCompletion c e a = s.completed c e a rest := by
  rw [← drop_started_of_oldest holdest]
  rfl

theorem commandComplete_of_unfinished (hunfinished : a.done = false) : commandComplete c e s = s := by
  simp only [commandComplete, holdest, hunfinished, Bool.not_false, if_true]

section
variable (hdone : a.done = true)
include hdone

theorem commandComplete_of_ok (hok : a.status = 0) :
    commandComplete c e s = ((s.completed c e a rest).headerSignal c e a.q.cmd).settleStop (s.core c).job := by
  rw [← countCompletion_of_oldest holdest]
  simp only [commandComplete, holdest, hdone, Bool.not_true, Bool.false_eq_true, if_false, hok, if_true]

section
variable (herror : a.status ≠ 0)
include herror

theorem commandComplete_of_stopped (hstopped : (s.core c).runs = false) :
    commandComplete c e s =
      ((s.updCore c fun k => { k with active := Tab.set [] k.active e rest }).laterError c).settleStop (s.core c).job := by
  simp only [commandComplete, holdest, hdone, Bool.not_true, Bool.false_eq_true, if_false, if_neg herror, hstopped, Bool.not_false, if_true]
  rw [← drop_started_of_oldest holdest]
  rfl

/-- An error on a core that runs stops it, or ends its job where the command withheld poison (R152, R356). -/
theorem commandComplete_of_running (hruns : (s.core c).runs = true) :
    commandComplete c e s =
      let r := errOf e a.q.cmd a a.start ((s.core c).laterErrors - 1)
      if a.q.cmd.opcode = 0x53 ∧ a.status = Status.poison.code ∧ a.desc = 0xFFFF then s.egressByCommand c 1 r
      else s.coreError c r false := by
  simp only [commandComplete, holdest, hdone, hruns, Bool.not_true, Bool.false_eq_true, if_false, if_neg herror]
end
end
end

/-- Settles O17: the tests are made in the order tokens, fence, room, wait, and the checks of the command last. -/
theorem commandStartTestsThenStarts : Obligations.CommandStartTestsThenStarts := by
  intro c e s q rest k op ready a s1 hhead
  refine ⟨fun hready hmet => ?starts, fun hready hwaits hunmet hfirst => ?tests,
    fun hheld => congrArg Host.Outcome.next (commandStart_of_held hhead hheld)⟩
  case starts =>
    have hstarts := commandStart_of_met hhead hready hmet
    exact ⟨fun u hpassed => congrArg Host.Outcome.next (hstarts.trans (startHead_of_passed hpassed)),
      fun err hfailed => congrArg Host.Outcome.next (hstarts.trans (startHead_of_failed hfailed))⟩
  case tests =>
    have htests := commandStart_of_unregistered hhead hready hwaits hunmet hfirst
    exact ⟨fun u hmet => congrArg Host.Outcome.next (htests.trans (testWait_of_met hmet)),
      fun u hwaiting => congrArg Host.Outcome.next (htests.trans ((testWait_of_unmet hwaiting).trans
        (ite_congr (propext Fin.val_eq_zero_iff) (fun _ => rfl) fun _ => rfl))),
      fun u hkind => congrArg Host.Outcome.next (htests.trans (testWait_of_wrong_kind hkind))⟩

/-- Settles O18: the oldest command is tested for its end, its status and its core's state, in that order. -/
theorem commandCompleteCountsOrStopsTheCore : Obligations.CommandCompleteCountsOrStopsTheCore := by
  intro c e s k
  refine ⟨fun hempty => congrArg Host.Outcome.next (commandComplete_of_empty hempty), fun a rest holdest => ?oldest,
    fun u j hstays => settleStop_of_no_restart hstays⟩
  case oldest =>
    intro left ok h kind r
    refine ⟨fun hunfinished => ?unfinished, fun hdone hok hsilent => ?silent, fun hdone hok hsignals => ?signals,
      fun hdone herror hstopped => ?stopped, fun hdone herror hruns hother => ?error, fun hdone hruns hop hpoison hdesc => ?egress⟩
    case unfinished => exact congrArg Host.Outcome.next (commandComplete_of_unfinished holdest hunfinished)
    case silent =>
      have hcompletes := commandComplete_of_ok holdest hdone hok
      rw [headerSignal_of_silent hsilent] at hcompletes
      exact congrArg Host.Outcome.next hcompletes
    case signals =>
      have hcompletes := commandComplete_of_ok holdest hdone hok
      rw [State.headerSignal, hsignals] at hcompletes
      exact congrArg Host.Outcome.next hcompletes
    case stopped => exact congrArg Host.Outcome.next (commandComplete_of_stopped holdest hdone herror hstopped)
    case error =>
      exact congrArg Host.Outcome.next ((commandComplete_of_running holdest hdone herror hruns).trans (if_neg hother))
    case egress =>
      have herror : a.status ≠ 0 := by omega
      exact congrArg Host.Outcome.next ((commandComplete_of_running holdest hdone herror hruns).trans (if_pos ⟨hop, hpoison, hdesc⟩))

end Sys2Proof.Machine
end

section
/-! SUPPORT. What each control operation comes to, case by case (R157, R162, R163, R334, R340, R370). -/

namespace Sys2Proof.Machine

open Sys2Proof

section
variable {s : State} {i : Item}

/-- The state once a control item runs: it is STARTED, and the module has left Rest (R334, R394). -/
def State.controlStarted (s : State) (i : Item) : State :=
  s.leaveRest.updItem 0 i.sequence fun x => { x with state := 2, started := s.now }

/-- The rest of a stop or checkpoint: the job is asked to quiesce, and the operation goes on where it has (R157, R334). -/
def State.quiescing (s : State) (j : Nat) : State := ((s.updJob j fun b => { b with quiesce := true }).askQuiesce j).tryQuiesced

/-- The job states that a JOB_START allows: stopped, or held where the job starts afresh (R163, R334). -/
def State.startable (u : State) (i : Item) : Prop := u.jobState i.job = 1 ∨ u.jobState i.job = 4 ∧ bit i.controlFlags 0 = false

/-- A JOB_START whose job's state allows it: restored where the flag asks and nothing forbids it, else started afresh (R20, R163, R278). -/
def State.startControl (u : State) (i : Item) : State :=
  if (u.jobCores i.job).any u.coreOut then u.controlEnds i Status.coreOutOfService.code
  else if bit i.controlFlags 0 && !(u.job i.job).mustFresh then (u.restoreJob i.job).1.controlEnds i (u.restoreJob i.job).2
  else match (u.freshJob i.job).2 with
    | some k => (u.freshJob i.job).1.endControl 0 i.sequence 0x10 k
    | none => (u.freshJob i.job).1.controlEnds i 0

section
variable (hnext : s.nextControl = some i)
include hnext

/-- The next control item runs the operation that it carries. -/
theorem withControl_of_next {op : Nat} {f : Item → State → State} (hop : i.control = op) :
    s.withControl op f = f i (s.controlStarted i) := by
  simp only [State.withControl, hnext, hop, ne_eq, not_true_eq_false, if_false]
  rfl

/-! ### JOB_CREATE, JOB_LAYOUT, JOB_DELETE -/

theorem jobCreate_of_next (hop : i.control = 0x01) :
    jobCreate s =
      let u := s.controlStarted i
      if u.jobGet i.job 0x01 = 1 then u.controlEnds i 0x09 else u.controlSwap i :=
  withControl_of_next hnext hop

theorem jobLayout_of_next (hop : i.control = 0x05) :
    jobLayout s =
      let u := s.controlStarted i
      if u.jobState i.job ≠ 1 then u.controlEnds i 0x09 else u.controlSwap i :=
  withControl_of_next hnext hop

theorem jobDelete_of_next (hop : i.control = 0x07) :
    jobDelete s =
      let u := s.controlStarted i
      if u.jobState i.job = 1 ∧ u.jobItems i.job = 0 then u.controlSwap i else u.controlEnds i 0x09 := by
  rw [jobDelete, withControl_of_next hnext hop]
  by_cases hstopped : (s.controlStarted i).jobState i.job = 1 <;>
    by_cases hnone : (s.controlStarted i).jobItems i.job = 0 <;> simp [hstopped, hnone]

/-! ### JOB_STOP, JOB_CHECKPOINT, JOB_DISCARD -/

theorem quiesceFor_of_next {op : Nat} (hop : i.control = op) :
    s.quiesceFor op =
      let u := s.controlStarted i
      if u.jobState i.job ≠ 2 then u.controlEnds i 0x09 else u.quiescing i.job :=
  withControl_of_next hnext hop

theorem jobDiscard_of_next (hop : i.control = 0x06) :
    jobDiscard s =
      let u := s.controlStarted i
      ((u.items.filter fun x => x.job = i.job && x.stream ≠ 0 && x.state = 1).foldl
        (fun v x => v.finishItem x.stream x.sequence 2 0 0) u).controlEnds i 0 :=
  withControl_of_next hnext hop

/-! ### JOB_START -/

theorem jobStart_of_deferred (hdeferred : s.startDeferred i.job = true) : jobStart s = s := by
  simp only [jobStart, hnext, hdeferred, if_true]

section
variable (hop : i.control = 0x02) (hgoes : s.startDeferred i.job = false)
include hop hgoes

theorem jobStart_of_next : jobStart s =
    let u := s.controlStarted i
    if u.jobState i.job ≠ 1 && u.jobState i.job ≠ 4 then u.controlEnds i 0x09
    else if u.jobState i.job = 4 && bit i.controlFlags 0 then u.controlEnds i 0x09 else u.startControl i := by
  simp only [jobStart, hnext, hgoes, Bool.false_eq_true, if_false]
  exact withControl_of_next hnext hop

theorem jobStart_of_unstartable (hstate : ¬ (s.controlStarted i).startable i) :
    jobStart s = (s.controlStarted i).controlEnds i 0x09 := by
  obtain ⟨hstopped, hheld⟩ := not_or.mp hstate
  rw [jobStart_of_next hnext hop hgoes]
  by_cases hfour : (s.controlStarted i).jobState i.job = 4
  · have hrestore : bit i.controlFlags 0 = true := by simpa [hfour] using hheld
    exact (if_neg (by simp [hfour])).trans (if_pos (by simp [hfour, hrestore]))
  · exact if_pos (by simp [hstopped, hfour])

theorem jobStart_of_startable (hstate : (s.controlStarted i).startable i) : jobStart s = (s.controlStarted i).startControl i := by
  rw [jobStart_of_next hnext hop hgoes]
  rcases hstate with hstopped | ⟨hheld, hfresh⟩
  · exact (if_neg (by simp [hstopped])).trans (if_neg (by simp [hstopped]))
  · exact (if_neg (by simp [hheld])).trans (if_neg (by simp [hfresh]))
end
end
end

section
variable {u : State} {i : Item}

theorem startControl_of_out (hout : (u.jobCores i.job).any u.coreOut = true) :
    u.startControl i = u.controlEnds i Status.coreOutOfService.code := if_pos hout

/-- The test that JOB_START makes for a restoration. -/
theorem not_restores (hfresh : bit i.controlFlags 0 = false ∨ (u.job i.job).mustFresh = true) :
    ¬ (bit i.controlFlags 0 && !(u.job i.job).mustFresh) = true := by
  rcases hfresh with h | h <;> simp [h]

section
variable (hin : (u.jobCores i.job).any u.coreOut = false)
include hin

theorem startControl_of_restore (hrestore : bit i.controlFlags 0 = true) (hmay : (u.job i.job).mustFresh = false) :
    u.startControl i = (u.restoreJob i.job).1.controlEnds i (u.restoreJob i.job).2 :=
  (if_neg (Bool.eq_false_iff.mp hin)).trans (if_pos (by simp [hrestore, hmay]))

variable (hfresh : bit i.controlFlags 0 = false ∨ (u.job i.job).mustFresh = true)
include hfresh

theorem startControl_of_fresh (hstarted : (u.freshJob i.job).2 = none) :
    u.startControl i = (u.freshJob i.job).1.controlEnds i 0 := by
  refine (if_neg (Bool.eq_false_iff.mp hin)).trans ((if_neg (not_restores hfresh)).trans ?_)
  simp only [hstarted]

theorem startControl_of_bad_entry {k : Nat} (hbad : (u.freshJob i.job).2 = some k) :
    u.startControl i = (u.freshJob i.job).1.endControl 0 i.sequence 0x10 k := by
  refine (if_neg (Bool.eq_false_iff.mp hin)).trans ((if_neg (not_restores hfresh)).trans ?_)
  simp only [hbad]
end
end

/-- Settles O53: the next control item runs by its own operation, which tests the state of its job. -/
theorem controlOperationsRunOnePerItemInOrder : Obligations.ControlOperationsRunOnePerItemInOrder := by
  intro s i hnext u j refused swapped quiescing
  refine ⟨fun hop => congrArg Host.Outcome.next (jobCreate_of_next hnext hop), fun hop => congrArg Host.Outcome.next (jobLayout_of_next hnext hop),
    fun hop => congrArg Host.Outcome.next (jobDelete_of_next hnext hop), fun hop => congrArg Host.Outcome.next (quiesceFor_of_next hnext hop),
    fun hop => congrArg Host.Outcome.next (quiesceFor_of_next hnext hop), fun hop => congrArg Host.Outcome.next (jobDiscard_of_next hnext hop),
    fun hop hgoes => ?start, fun hdeferred => congrArg Host.Outcome.next (jobStart_of_deferred hnext hdeferred), rfl⟩
  case start =>
    intro restore can
    refine ⟨fun hcannot => congrArg Host.Outcome.next (jobStart_of_unstartable hnext hop hgoes hcannot), fun hcan hout => ?out,
      fun hcan hin => ⟨fun hrestore hmay => ?restores, fun hfresh => ⟨fun hstarted => ?fresh, fun k hbad => ?badEntry⟩⟩⟩
    case out =>
      exact congrArg Host.Outcome.next ((jobStart_of_startable hnext hop hgoes hcan).trans (startControl_of_out hout))
    case restores =>
      exact congrArg Host.Outcome.next ((jobStart_of_startable hnext hop hgoes hcan).trans (startControl_of_restore hin hrestore hmay))
    case fresh =>
      exact congrArg Host.Outcome.next ((jobStart_of_startable hnext hop hgoes hcan).trans (startControl_of_fresh hin hfresh hstarted))
    case badEntry =>
      exact congrArg Host.Outcome.next ((jobStart_of_startable hnext hop hgoes hcan).trans (startControl_of_bad_entry hin hfresh hbad))

end Sys2Proof.Machine
end

section
/-! SUPPORT. What NOP, FENCE, HINT, DELAY and WAIT come to (R147, R160, R176, R177, R180, R284 to R286). -/

namespace Sys2Proof.Machine

open Sys2Proof

section
variable {s : State} {c i : Nat} {a : Active}

/-! ### HINT -/

/-- The announcement that a HINT makes: none where it is an end (R180). -/
def Active.hint (a : Active) (now : Nat) : Option Hint :=
  if bit (a.q.cmd.word 2) 2 then none
  else
    let start := now + bits (a.q.cmd.word 3) 0 32 * 1000
    some ⟨bits (a.q.cmd.word 2) 8 8, start, start + bits (a.q.cmd.word 3) 32 32 * 1000⟩

/-- A core whose announcement of a HINT's class is replaced. -/
def Core.announce (k : Core) (a : Active) (now : Nat) : Core :=
  { k with hints := Tab.set none k.hints (bits (a.q.cmd.word 2) 0 2) (a.hint now) }

theorem hint_of_announcement {now : Nat} (hgoes : bit (a.q.cmd.word 2) 2 = false) :
    a.hint now =
      let start := now + bits (a.q.cmd.word 3) 0 32 * 1000
      some ⟨bits (a.q.cmd.word 2) 8 8, start, start + bits (a.q.cmd.word 3) 32 32 * 1000⟩ :=
  if_neg (Bool.eq_false_iff.mp hgoes)

theorem seqHint_of_working (hworking : (s.core c).working 0 0x06 = some (i, a)) :
    seqHint c s = (s.updCore c fun k => k.announce a s.now).seqDone c a :=
  withSeq_of_working hworking

theorem started_updCore_seqDone_other {e : Nat} {f : Core → Core} (hrising : Tab.rising s.cores = true)
    (hactive : Tab.rising (f (s.core c)).active = true) (he : e ≠ 0) :
    (((s.updCore c f).seqDone c a).core c).started e = (f (s.core c)).started e := by
  rw [core_updCore_seqDone hrising, Core.started, Tab.get_set_other hactive he]
  rfl

theorem core_updCore_seqDone_other {d : Nat} {f : Core → Core} (hrising : Tab.rising s.cores = true) (hd : d ≠ c) :
    ((s.updCore c f).seqDone c a).core d = s.core d :=
  (core_setStarted_other _ c d 0 _ (updCore_rising s c f hrising) hd).trans (core_updCore_other s c d f hrising hd)

/-! ### NOP, FENCE and DELAY -/

theorem seqNop_of_working {op : Nat} (hworking : (s.core c).working 0 op = some (i, a)) : seqNop c op s = s.seqDone c a :=
  withSeq_of_working hworking

section
variable (hworking : (s.core c).working 0 0x09 = some (i, a))
include hworking

theorem seqDelay_of_first (hfirst : a.streamed = 0) :
    seqDelay c s = (s.updCore c fun k => { k with delay := bits (a.q.cmd.word 2) 0 32 }).setStarted c 0 [{ a with streamed := 1 }] := by
  rw [seqDelay, withSeq_of_working hworking]
  exact if_neg (not_not_intro hfirst)

theorem delayExpiry_of_counting (hcounting : a.streamed ≠ 0) :
    delayExpiry c s = ((s.updCore c fun k => { k with delay := 0 }).count (coreObj c) 0x0D 64 (s.core c).delay).seqDone c a := by
  rw [delayExpiry, withSeq_of_working hworking]
  exact if_neg hcounting
end

/-! ### WAIT -/

section
variable {w : Wait}

theorem registerWait_of_away (haway : s.stationUp (syncCore w.object) = false) :
    s.registerWait w = ({ s with waits := s.waits ++ [w] }, some false) := by
  simp only [State.registerWait, haway, Bool.not_false, if_true]

variable (hup : s.stationUp (syncCore w.object) = true)
include hup

theorem registerWait_of_met (hmet : waitHolds (s.syncGet (syncCore w.object) (syncIndex w.object)) w.kind w.target = some true) :
    s.registerWait w = (s, some true) := by
  simp only [State.registerWait, hup, Bool.not_true, Bool.false_eq_true, if_false, hmet]

theorem registerWait_of_unmet (hunmet : waitHolds (s.syncGet (syncCore w.object) (syncIndex w.object)) w.kind w.target = some false) :
    s.registerWait w = ({ s with waits := s.waits ++ [w] }, some false) := by
  simp only [State.registerWait, hup, Bool.not_true, Bool.false_eq_true, if_false, hunmet]

theorem registerWait_of_wrong_kind (hwrong : waitHolds (s.syncGet (syncCore w.object) (syncIndex w.object)) w.kind w.target = none) :
    s.registerWait w = (s.bump 0x7000 0x04, none) := by
  simp only [State.registerWait, hup, Bool.not_true, Bool.false_eq_true, if_false, hwrong]
end

/-- The wait that a WAIT registers (R177, R286). -/
def State.waitOf (s : State) (c : Nat) (a : Active) : Wait :=
  let cmd := a.q.cmd
  let us := bits (cmd.word 4) 0 32
  { core := c, engine := 0, object := cmd.word 2, kind := bits (cmd.word 3) 32 2, target := bits (cmd.word 3) 0 32, tag := cmd.tag
    start := s.now, deadline := s.now + (if us = 0 then s.waitDefault (s.core c).job else us * 1000), opcode := true }

section
variable (hworking : (s.core c).working 0 0x01 = some (i, a)) (hfirst : a.streamed = 0)
include hworking hfirst

theorem seqWait_of_met (hmet : s.registerWait (s.waitOf c a) = (s, some true)) : seqWait c s = s.seqDone c a := by
  rw [seqWait, withSeq_of_working hworking]
  refine (if_neg (not_not_intro hfirst)).trans ?_
  rw [State.waitOf] at hmet
  simp only [hmet]

theorem seqWait_of_outstanding {u : State} (hwaits : s.registerWait (s.waitOf c a) = (u, some false)) :
    seqWait c s = (u.setStarted c 0 [{ a with streamed := 1 }]).setCoreState c 2 := by
  rw [seqWait, withSeq_of_working hworking]
  refine (if_neg (not_not_intro hfirst)).trans ?_
  rw [State.waitOf] at hwaits
  simp only [hwaits]

theorem seqWait_of_wrong_kind {u : State} (hwrong : s.registerWait (s.waitOf c a) = (u, none)) :
    seqWait c s = u.seqFail c a { status := .syncKind, addr := a.q.cmd.word 2 } := by
  rw [seqWait, withSeq_of_working hworking]
  refine (if_neg (not_not_intro hfirst)).trans ?_
  rw [State.waitOf] at hwrong
  simp only [hwrong]
end
end

/-- Settles O4: each command's meaning is a single case of its own, run on the command that the sequencer holds. -/
theorem plainSequencerCommandsExecute : Obligations.PlainSequencerCommandsExecute := by
  intro c s i a
  exact ⟨fun hnop => congrArg Host.Outcome.next (seqNop_of_working hnop), fun hfence => congrArg Host.Outcome.next (seqNop_of_working hfence),
    fun hhint => congrArg Host.Outcome.next (seqHint_of_working hhint),
    fun hdelay hfirst => congrArg Host.Outcome.next (seqDelay_of_first hdelay hfirst),
    fun hdelay hcounting => congrArg Host.Outcome.next (delayExpiry_of_counting hdelay hcounting)⟩

/-- Settles O58: a HINT replaces one field of its core beside the command's own slot. -/
theorem hintOnlyAnnounces : Obligations.HintOnlyAnnounces := by
  intro c s i a hcanonical hhints hactive hworking w2 w3 start
  have hrising := hcanonical.cores
  have hcore := core_updCore_seqDone (c := c) (a := a) hrising fun k => k.announce a s.now
  have hexec : exec (.hint c) s = .next ((s.updCore c fun k => k.announce a s.now).seqDone c a) :=
    congrArg Host.Outcome.next (seqHint_of_working hworking)
  refine ⟨_, hexec, started_updCore_seqDone hrising _, fun hgoes => ?announced, fun n hn => ?otherClass, rfl, rfl, rfl, rfl, rfl, rfl, rfl, rfl,
    rfl, fun d hd => core_updCore_seqDone_other hrising hd, (congrArg Core.queues hcore :),
    fun e he => started_updCore_seqDone_other hrising hactive (Nat.ne_of_gt he), (congrArg Core.pc hcore :), (congrArg Core.loops hcore :),
    (congrArg Core.flags hcore :), (congrArg Core.stepOpen hcore :), (congrArg Core.step hcore :), (congrArg Core.record hcore :)⟩
  case announced =>
    exact (congrArg (Tab.get none ·.hints (bits w2 0 2)) hcore).trans ((Tab.get_set_same hhints).trans (hint_of_announcement hgoes))
  case otherClass => exact (congrArg (Tab.get none ·.hints n) hcore).trans (Tab.get_set_other hhints hn)

/-- Settles O6: the hub that the wait is registered with answers that it is met, that it stands, or that the object is of another kind. -/
theorem waitIsMetOutstandingOrOfWrongKind : Obligations.WaitIsMetOutstandingOrOfWrongKind := by
  intro c s i a hworking hfirst cmd obj v up kind target us limit w
  refine ⟨fun hup hmet => ?met, fun hunmet => ?outstanding, fun hup hwrong => ?wrongKind⟩
  case met => exact congrArg Host.Outcome.next (seqWait_of_met hworking hfirst (registerWait_of_met hup hmet))
  case outstanding =>
    have hstands : s.registerWait w = ({ s with waits := s.waits ++ [w] }, some false) := by
      cases hstation : up with
      | false => exact registerWait_of_away hstation
      | true => exact registerWait_of_unmet hstation (hunmet.resolve_left (by simp [hstation]))
    exact congrArg Host.Outcome.next (seqWait_of_outstanding hworking hfirst hstands)
  case wrongKind => exact congrArg Host.Outcome.next (seqWait_of_wrong_kind hworking hfirst (registerWait_of_wrong_kind hup hwrong))

end Sys2Proof.Machine
end

section
/-! SUPPORT. The bytes of a drained accumulator (R114, R188). -/

namespace Sys2Proof.Machine

open Sys2Proof

/-! ### Little-endian bytes -/

/-- n bytes of a number spell its low 8n bits. -/
theorem ofLE_toLE (n v : Nat) : ofLE (toLE n v) = v % 256 ^ n := by
  induction n generalizing v with
  | zero => simp [toLE, ofLE, Nat.mod_one]
  | succ n ih => rw [toLE, ofLE, ih, Nat.pow_succ', Nat.mod_mul, BitVec.toNat_ofNat]

theorem ofLE_toLE_of_lt {n v : Nat} (hfits : v < 256 ^ n) : ofLE (toLE n v) = v := (ofLE_toLE n v).trans (Nat.mod_eq_of_lt hfits)

/-! ### Accumulators -/

/-- A 48-bit value, extended to 64 bits and cut to 48 again, is the value. -/
theorem toSigned_ofSigned_mod {x : Int} (hlow : -(2 ^ 47) ≤ x) (hhigh : x < 2 ^ 47) : toSigned 48 (ofSigned 64 x % 2 ^ 48) = x := by
  have hsmall : (x % 2 ^ 64).toNat % 2 ^ 48 % 2 ^ 48 < 2 ^ (48 - 1) ↔ 0 ≤ x := by omega
  simp only [toSigned, ofSigned, hsmall]
  by_cases hx : 0 ≤ x
  · rw [if_pos hx]
    omega
  · rw [if_neg hx]
    omega

theorem ofSigned_lt (x : Int) : ofSigned 64 x < 256 ^ 8 := by
  simp only [ofSigned]
  omega

theorem drainedBytes_wide {x : Int} (hlow : -(2 ^ 47) ≤ x) (hhigh : x < 2 ^ 47) :
    drainedBytes true (ofSigned 64 x) = toLE 8 (ofSigned 64 x) := by
  rw [drainedBytes, if_pos rfl, toSigned_ofSigned_mod hlow hhigh]

theorem drainedBytes_narrow {v : Nat} (hfits : v < 2 ^ 32) : drainedBytes false v = toLE 4 v := by
  rw [drainedBytes, if_neg Bool.false_ne_true, Nat.mod_eq_of_lt hfits]

/-- Settles O26: the bytes drained spell the accumulator, which both forms hold without loss. -/
theorem accumulatorsSurviveDrainAndReload : Obligations.AccumulatorsSurviveDrainAndReload := by
  refine ⟨fun v hfits => ?narrow, fun x hlow hhigh => ?wide⟩
  case narrow =>
    rw [drainedBytes_narrow hfits]
    exact ⟨toLE_length 4 v, ofLE_toLE_of_lt hfits⟩
  case wide =>
    intro v
    rw [show drainedBytes true v = toLE 8 v from drainedBytes_wide hlow hhigh, ofLE_toLE_of_lt (ofSigned_lt x)]
    exact ⟨toLE_length 8 v, congrArg (ofSigned 64) (toSigned_ofSigned_mod hlow hhigh)⟩

end Sys2Proof.Machine
end

section
/-! SUPPORT. What TIMESTAMP comes to where its destination lies in a scratchpad (R181). -/

namespace Sys2Proof.Machine

open Sys2Proof

section
variable {s : State} {c i : Nat} {a : Active}

/-! ### What a request touches -/

/-- t differs from s in transactions on the armature, counters and free values taken at most. -/
def RequestOnly (s t : State) : Prop := t = { s with obj := t.obj, fresh := t.fresh, txns := t.txns, txnNext := t.txnNext }

theorem RequestOnly.trans {t u : State} (hst : RequestOnly s t) (htu : RequestOnly t u) : RequestOnly s u := by
  unfold RequestOnly at *
  rw [htu, hst]

theorem RequestOnly.refl (s : State) : RequestOnly s s := rfl

theorem requestOnly_txns (xs : Tab (Option Txn)) : RequestOnly s { s with txns := xs } := rfl

theorem requestOnly_addTxn (x : Txn) : RequestOnly s (s.addTxn x) := rfl

theorem requestOnly_pruneTxns (c : Nat) : RequestOnly s (s.pruneTxns c) := by
  unfold State.pruneTxns
  dsimp only
  generalize List.take _ _ = l
  induction l generalizing s with
  | nil => exact .refl s
  | cons x r ih => exact (requestOnly_txns _).trans ih

theorem requestOnly_closeTxn (c e : Nat) : RequestOnly s (s.closeTxn c e) := by
  unfold State.closeTxn
  split
  · exact (requestOnly_txns _).trans (requestOnly_pruneTxns c)
  · exact .refl s

theorem requestOnly_escapeSent (h d : Nat) : RequestOnly s (s.escapeSent h d) := by
  unfold State.escapeSent
  split
  · rfl
  · exact .refl s

/-- A request that is performed touches nothing that a command reads or writes in memory (R259, R275). -/
theorem requestOnly_requestDone (c e : Nat) (xs : List Place) : RequestOnly s (s.requestDone c e xs) := by
  unfold State.requestDone
  split
  · exact requestOnly_closeTxn c e
  · split
    · exact ((requestOnly_escapeSent _ _).trans (requestOnly_addTxn _)).trans (requestOnly_pruneTxns c)
    · exact .refl s

theorem RequestOnly.mem {t : State} (h : RequestOnly s t) : t.mem = s.mem := by rw [h]
theorem RequestOnly.now {t : State} (h : RequestOnly s t) : t.now = s.now := by rw [h]

/-! ### Clean bytes put into a scratchpad -/

/-- t is s with bytes put at d, beside what cores and poison hold. -/
structure BytesPut (s t : State) (d : Nat) (bs : Bytes) : Prop where
  mem : t.mem = (s.setBytes d bs).mem
  served : ∀ b, t.served b = s.served b
  now : t.now = s.now

theorem imagePage_eq {page : Nat} {t : State} (himaged : s.imagePage c page = some t) : t = { s with cores := t.cores } := by
  unfold State.imagePage at himaged
  dsimp only at himaged
  generalize List.any _ _ = held at himaged
  split at himaged
  · rw [← Option.some.inj himaged]
  · split at himaged
    · rw [← Option.some.inj himaged]
    · split at himaged
      · cases himaged
      · rw [← Option.some.inj himaged]
        rfl

theorem notePoison_eq (c d n : Nat) : s.notePoison c d n = { s with cores := (s.notePoison c d n).cores } := by
  unfold State.notePoison
  split <;> rfl

section
variable {d : Nat} {bs : Bytes} (hscratch : spaceOf d = 1)
include hscratch

theorem storePlaces_scratchpad : s.storePlaces [d] bs false = s.storeAt d bs false := by
  simp [State.storePlaces, State.countWritten, hscratch]

theorem writePlaces_scratchpad : s.writePlaces d = [d] := by
  simp [State.writePlaces, hscratch]

/-- A write of clean bytes that its checks let pass puts them where it says. -/
theorem putPiece_scratchpad {e : Nat} (hfree : s.reservedBy (if e = 2 then some c else none) d bs.length = none)
    (hreach : s.accessStatus c d = (.ok, 0)) (hroom : (s.imagePage c (d / 4096 * 4096)).isSome) :
    ∃ t, s.putPiece c e d bs false = (t, none) ∧ BytesPut s t d bs := by
  obtain ⟨v, himaged⟩ := Option.isSome_iff_exists.mp hroom
  have hput : s.putPiece c e d bs false = ((v.storeAt d bs false).notePoison c d bs.length, none) := by
    simp only [State.putPiece, hreach, hfree, writePlaces_scratchpad hscratch, himaged, storePlaces_scratchpad hscratch]
    simp [hscratch]
  refine ⟨_, hput, ?_⟩
  have hv := imagePage_eq himaged
  have hstored := storeAt_eq v d bs false
  rw [storeAt_clean_obj] at hstored
  rw [notePoison_eq, hstored, hv]
  exact ⟨rfl, fun b => served_congr _ _ rfl rfl rfl b, rfl⟩
end

section
variable {t : State} {d : Nat} {bs : Bytes} (hput : BytesPut s t d bs) (hwf : Memory.wf s.mem = true)
include hput hwf

theorem BytesPut.readByte_inside {b k : Nat} (hserved : s.served b = some (d + k)) (hk : k < bs.length) : t.readByte b = bs[k] := by
  have hinside : d ≤ d + k ∧ d + k < d + bs.length := by omega
  simp only [State.readByte, hput.served, hserved, hput.mem, setBytes_get s d bs hwf, if_pos hinside, Nat.add_sub_cancel_left,
    List.getD_eq_getElem?_getD, List.getElem?_eq_getElem hk, Option.getD_some]

theorem BytesPut.readByte_outside {b : Nat} (houtside : ∀ k, k < bs.length → s.served b ≠ some (d + k)) : t.readByte b = s.readByte b := by
  simp only [State.readByte, hput.served, hput.mem]
  cases hserved : s.served b with
  | none => rfl
  | some x =>
    have hother : ¬ (d ≤ x ∧ x < d + bs.length) := fun hin =>
      houtside (x - d) (by omega) (hserved.trans (congrArg some (by omega)))
    simp only [setBytes_get s d bs hwf, if_neg hother]

/-- The bytes put are read back where each address is served at itself. -/
theorem BytesPut.readBytes_same (hself : ∀ k, k < bs.length → s.served (d + k) = some (d + k)) : t.readBytes d bs.length = bs := by
  refine List.ext_getElem (by simp [State.readBytes]) fun k hk hk' => ?_
  simp only [State.readBytes, List.getElem_map, List.getElem_range]
  exact hput.readByte_inside hwf (hself k hk') hk'
end

/-- Addresses of a 16-byte unit lie in one space. -/
theorem spaceOf_add {d k : Nat} (haligned : d % 16 = 0) (hk : k < 16) : spaceOf (d + k) = spaceOf d := by
  simp only [spaceOf, bits]
  omega

/-! ### TIMESTAMP -/

/-- The 16 bytes that a TIMESTAMP writes (R181). -/
def State.stampBytes (s : State) (c : Nat) : Bytes := toLE 8 (s.now % 2 ^ 64) ++ toLE 8 (s.core c).flags

theorem stampBytes_length : (s.stampBytes c).length = 16 := by
  simp [State.stampBytes, toLE_length]

theorem seqTimestamp_of_written {t : State} (hworking : (s.core c).working 0 0x07 = some (i, a))
    (hreached : s.awayPlace c (s.places [] [a.q.cmd.word 2]) = none)
    (hwritten : (s.requestDone c 0 (s.places [] [a.q.cmd.word 2])).putBytes c 0 (a.q.cmd.word 2) (s.stampBytes c) false = (t, none)) :
    seqTimestamp c s = t.seqDone c a := by
  rw [State.stampBytes] at hwritten
  rw [seqTimestamp, withSeq_of_working hworking]
  dsimp only
  rw [viaHubs_of_reached hreached]
  simp only [hwritten]

/-- Bytes within one granule are put as one piece. -/
theorem putBytes_of_one_piece {e d : Nat} {bs : Bytes} {p : Bool} (hsome : bs ≠ []) (hone : d % 64 + bs.length ≤ 64) :
    s.putBytes c e d bs p = s.putPiece c e d bs p := by
  rw [State.putBytes, pieces_one 64 d bs hsome hone]
  rfl
end

/-- Settles O14: the 16 bytes lie in one granule of a scratchpad, which is written and read at its own address; a request touches neither memory,
cores nor time. -/
theorem timestampWritesSixteenBytes : Obligations.TimestampWritesSixteenBytes := by
  intro c s i a hcanonical hworking d u hreached hscratch haligned hreach hfree hroom
  have hrequest : RequestOnly s u := requestOnly_requestDone c 0 _
  have hwf : Memory.wf u.mem = true := hrequest.mem ▸ hcanonical.mem
  have hlength : (s.stampBytes c).length = 16 := stampBytes_length
  obtain ⟨w, hpiece, hput⟩ := putPiece_scratchpad (c := c) (e := 0) (bs := s.stampBytes c) hscratch (hlength ▸ hfree) hreach hroom
  have hwritten : u.putBytes c 0 d (s.stampBytes c) false = (w, none) :=
    (putBytes_of_one_piece (List.ne_nil_of_length_pos (by omega)) (by omega)).trans hpiece
  have hself (k : Nat) (hk : k < 16) : u.served (d + k) = some (d + k) :=
    served_self u _ (by rw [spaceOf_add haligned hk, hscratch]; exact Nat.one_ne_zero)
  have hdone : BytesPut u (w.seqDone c a) d (s.stampBytes c) := ⟨hput.mem, hput.served, hput.now⟩
  refine ⟨hrequest.mem, requestDone_cores s c 0 _, hrequest.now, _, congrArg Host.Outcome.next (seqTimestamp_of_written hworking hreached hwritten), ?bytes,
    ?others, ?started⟩
  case bytes => exact hlength ▸ hdone.readBytes_same hwf (hlength ▸ hself)
  case others => exact fun b houtside => hdone.readByte_outside hwf (hlength ▸ houtside)
  case started =>
    have hrising : Tab.rising w.cores = true := by
      have hkept : Canonical (u.putBytes c 0 d (s.stampBytes c) false).1 := keeps_putBytes (keeps_requestDone hcanonical)
      rw [hwritten] at hkept
      exact hkept.cores
    rw [started_seqDone hrising, hput.now, hrequest.now]

end Sys2Proof.Machine
end

section
/-! SUPPORT. What LOAD, STORE, COPY, SEND and GATHER come to, case by case (R182, R183, R195). -/

namespace Sys2Proof.Machine

open Sys2Proof

section
variable {s : State} {c i : Nat} {a : Active} {ups : List Upset} {src dst : Tensor}

/-! ### LOAD, STORE, COPY and SEND -/

/-- The state once a copy for an engine is requested and what its reads find is taken. -/
def State.copyRead (s : State) (c e : Nat) (src dst : Tensor) (ups : List Upset) : State :=
  (s.requestDone c e (s.places [src.base] [dst.base])).takeUpsets c src.spans ups

/-- The state once a SEND's message is formed and the core that it reaches marked (R353, R372). -/
def State.sendFormed (u : State) (c : Nat) (a : Active) (src dst : Tensor) : State :=
  (u.noteMessage c a.q (u.imageOf src)).markForeign c dst.base

/-- A tensor copied for a command of an engine, what its writes meet taken, and the command's end (R182, R195). -/
def State.copyEnds (u : State) (c e i : Nat) (a : Active) (src dst : Tensor) (ups : List Upset) : State :=
  let r := u.moveTensor c e a.q src dst
  endMove c e i a (r.1.writeUpsets dst.spans ups, r.2.1) { poison := r.2.2 }

section
variable (hsrc : a.tensor (a.q.cmd.desc 0) = some src) (hdst : a.tensor (a.q.cmd.desc 12) = some dst)
  (hreached : s.awayPlace c (s.places [src.base] [dst.base]) = none)
include hsrc hdst hreached

theorem accessMove_of_reached {op : Nat} (hworking : (s.core c).working 1 op = some (i, a)) :
    accessMove c op ups s = (s.copyRead c 1 src dst ups).copyEnds c 1 i a src dst ups := by
  simp only [accessMove, hworking, hsrc, hdst]
  exact viaHubs_of_reached hreached

theorem executeSend_of_reached (hworking : (s.core c).working 5 0x50 = some (i, a)) :
    executeSend c ups s = ((s.copyRead c 5 src dst ups).sendFormed c a src dst).copyEnds c 5 i a src dst ups := by
  simp only [executeSend, hworking, hsrc, hdst]
  exact viaHubs_of_reached hreached
end

section
variable {u : State} {e : Nat}

theorem copyEnds_of_written (hwritten : (u.moveTensor c e a.q src dst).2.1 = none) :
    u.copyEnds c e i a src dst ups =
      let r := u.moveTensor c e a.q src dst
      let t := r.1.writeUpsets dst.spans ups
      t.putActive c e i (a.finish t.now { poison := r.2.2 }) :=
  endMove_of_written hwritten

theorem copyEnds_of_refused {err : AccErr} (hrefused : (u.moveTensor c e a.q src dst).2.1 = some err) :
    u.copyEnds c e i a src dst ups =
      let r := u.moveTensor c e a.q src dst
      let t := r.1.writeUpsets dst.spans ups
      t.putActive c e i (({ a with flags := ((ArithFlags.ofByte a.flags).or { poison := r.2.2 }).byte } : Active).refuse t.now err) :=
  endMove_of_refused hrefused
end

/-! ### GATHER -/

/-- The list entries that a GATHER reads: address and bytes (R183). -/
def Active.listedRange (a : Active) (list : Tensor) : Nat × Nat :=
  ((list.elemPlace { i0 := bits (a.q.cmd.word 3) 0 32 }).1, 4 * bits (a.q.cmd.word 3) 32 32)

/-- The state once a GATHER is requested. -/
def State.gatherAsked (s : State) (c : Nat) (src dst list : Tensor) : State :=
  s.requestDone c 1 (s.places [src.base, list.base] [dst.base])

/-- The state once a GATHER has read its list and taken what its reads find. -/
def State.gatherRead (s : State) (c : Nat) (a : Active) (src dst list : Tensor) (ups : List Upset) : State :=
  ((s.gatherAsked c src dst list).countRead (a.listedRange list).1 (a.listedRange list).2).takeUpsets c (a.listedRange list :: src.spans) ups

/-- The rows that a GATHER lists: row of the destination, list entry, poison of the entry. -/
def State.listedRows (u : State) (a : Active) (list : Tensor) : List (Nat × Int × Bool) :=
  (List.range (bits (a.q.cmd.word 3) 32 32)).map fun n =>
    (n, u.listEntry list (bits (a.q.cmd.word 3) 0 32 + n), u.elemPoison list { i0 := bits (a.q.cmd.word 3) 0 32 + n })

/-- The rows before the first list entry that names no row of the source. -/
def State.goodRows (u : State) (a : Active) (src list : Tensor) : List (Nat × Int × Bool) :=
  (u.listedRows a list).takeWhile fun x => decide (0 ≤ x.2.1 ∧ x.2.1 < (src.dim 1 : Int))

/-- The rows from the first bad list entry on. -/
def State.badRows (u : State) (a : Active) (src list : Tensor) : List (Nat × Int × Bool) :=
  (u.listedRows a list).drop (u.goodRows a src list).length

/-- The good rows of a GATHER copied in order, up to a refusal. -/
def State.gatherRows (u : State) (c : Nat) (a : Active) (src dst list : Tensor) : State × Option AccErr :=
  eachUntil (fun s x => s.moveRun c 1 (u.openKey c a.q (src.overlaps dst)) x.2.2 src dst { i1 := x.2.1.toNat } { i1 := x.1 })
    (u.goodRows a src list) u

/-- The state once a GATHER has copied its rows and taken what its writes meet. -/
def State.gathered (u : State) (c : Nat) (a : Active) (src dst list : Tensor) (ups : List Upset) : State :=
  ((u.gatherRows c a src dst list).1.writeUpsets dst.spans ups).useKey (u.openKey c a.q (src.overlaps dst))

/-- Whether a list entry or a row that a GATHER copies holds poison (R183). -/
def State.gatherPoison (u : State) (a : Active) (src list : Tensor) : Bool :=
  (u.listedRows a list).any (·.2.2) || (u.goodRows a src list).any fun x => u.runPoison src { i1 := x.2.1.toNat }

/-- The end of a GATHER that may read its list: at its first bad entry, or as its rows ended (R183). -/
def State.gatherEnds (u : State) (c i : Nat) (a : Active) (src dst list : Tensor) (ups : List Upset) : State :=
  let t := u.gathered c a src dst list ups
  match (u.gatherRows c a src dst list).2, u.badRows a src list with
  | none, x :: _ => t.putActive c 1 i (a.fail t.now { status := .addrRange, entry := bits (a.q.cmd.word 3) 0 32 + x.1 })
  | _, _ => endMove c 1 i a (t, (u.gatherRows c a src dst list).2) { poison := u.gatherPoison a src list }

section
variable {list : Tensor} (hworking : (s.core c).working 1 0x11 = some (i, a)) (hsrc : a.tensor (a.q.cmd.desc 0) = some src)
  (hdst : a.tensor (a.q.cmd.desc 12) = some dst) (hlist : a.tensor (a.q.cmd.desc 24) = some list)
  (hreached : s.awayPlace c (s.places [src.base, list.base] [dst.base]) = none)
include hworking hsrc hdst hlist hreached

theorem accessGather_of_unreadable {err : AccErr}
    (hrefused : (s.gatherAsked c src dst list).readErr c (a.listedRange list).1 (a.listedRange list).2 = some err) :
    accessGather c ups s = (s.gatherAsked c src dst list).refuseRead c 1 i a err := by
  simp only [accessGather, hworking, hsrc, hdst, hlist]
  rw [viaHubs_of_reached hreached]
  rw [State.gatherAsked, Active.listedRange] at hrefused
  simp only [hrefused]
  rfl

theorem accessGather_of_readable
    (hreadable : (s.gatherAsked c src dst list).readErr c (a.listedRange list).1 (a.listedRange list).2 = none) :
    accessGather c ups s = (s.gatherRead c a src dst list ups).gatherEnds c i a src dst list ups := by
  simp only [accessGather, hworking, hsrc, hdst, hlist]
  rw [viaHubs_of_reached hreached]
  rw [State.gatherAsked, Active.listedRange] at hreadable
  simp only [hreadable]
  rfl
end

section
variable {u : State} {list : Tensor}

theorem gatherEnds_of_written (hwritten : (u.gatherRows c a src dst list).2 = none) (hgood : u.badRows a src list = []) :
    u.gatherEnds c i a src dst list ups =
      let t := u.gathered c a src dst list ups
      t.putActive c 1 i (a.finish t.now { poison := u.gatherPoison a src list }) := by
  simp only [State.gatherEnds, hwritten, hgood]
  exact endMove_of_written rfl

theorem gatherEnds_of_bad_entry {x : Nat × Int × Bool} {xs : List (Nat × Int × Bool)}
    (hwritten : (u.gatherRows c a src dst list).2 = none) (hbad : u.badRows a src list = x :: xs) :
    u.gatherEnds c i a src dst list ups =
      let t := u.gathered c a src dst list ups
      t.putActive c 1 i (a.fail t.now { status := .addrRange, entry := bits (a.q.cmd.word 3) 0 32 + x.1 }) := by
  simp only [State.gatherEnds, hwritten, hbad]

theorem gatherEnds_of_refused {err : AccErr} (hrefused : (u.gatherRows c a src dst list).2 = some err) :
    u.gatherEnds c i a src dst list ups =
      let t := u.gathered c a src dst list ups
      t.putActive c 1 i
        (({ a with flags := ((ArithFlags.ofByte a.flags).or { poison := u.gatherPoison a src list }).byte } : Active).refuse t.now err) := by
  simp only [State.gatherEnds, hrefused]
  exact endMove_of_refused rfl
end
end

/-- Settles O19: each command hands its tensors to copyEnds, which ends as the copy ended. -/
theorem accessCommandsCopyThenEnd : Obligations.AccessCommandsCopyThenEnd := by
  intro c s ups i a src dst hsrc hdst hreached
  have hmove {op : Nat} (hworking : (s.core c).working 1 op = some (i, a)) :
      accessMove c op ups s = (s.copyRead c 1 src dst ups).copyEnds c 1 i a src dst ups :=
    accessMove_of_reached hsrc hdst hreached hworking
  refine ⟨⟨fun hwritten => ?written, fun err hrefused => ?refused⟩, fun hworking => ⟨fun hwritten => ?sent, fun err hrefused => ?unsent⟩⟩
  case written =>
    have hends {op : Nat} (hworking : (s.core c).working 1 op = some (i, a)) := (hmove hworking).trans (copyEnds_of_written hwritten)
    exact ⟨fun hload => congrArg Host.Outcome.next (hends hload), fun hstore => congrArg Host.Outcome.next (hends hstore),
      fun hcopy => congrArg Host.Outcome.next (hends hcopy)⟩
  case refused =>
    have hends {op : Nat} (hworking : (s.core c).working 1 op = some (i, a)) := (hmove hworking).trans (copyEnds_of_refused hrefused)
    exact ⟨fun hload => congrArg Host.Outcome.next (hends hload), fun hstore => congrArg Host.Outcome.next (hends hstore),
      fun hcopy => congrArg Host.Outcome.next (hends hcopy)⟩
  case sent =>
    exact congrArg Host.Outcome.next ((executeSend_of_reached hsrc hdst hreached hworking).trans (copyEnds_of_written hwritten))
  case unsent =>
    exact congrArg Host.Outcome.next ((executeSend_of_reached hsrc hdst hreached hworking).trans (copyEnds_of_refused hrefused))

/-- Settles O20: a GATHER that may read its list ends by the refusal of its rows, or by its first bad entry. -/
theorem gatherCopiesTheListedRows : Obligations.GatherCopiesTheListedRows := by
  intro c s ups i a src dst list hworking hsrc hdst hlist hreached s0 first listed
  refine ⟨fun err hrefused => ?unreadable, fun hreadable => ?readable⟩
  case unreadable => exact congrArg Host.Outcome.next (accessGather_of_unreadable hworking hsrc hdst hlist hreached hrefused)
  case readable =>
    have hends := accessGather_of_readable (ups := ups) hworking hsrc hdst hlist hreached hreadable
    exact ⟨fun hwritten hgood => congrArg Host.Outcome.next (hends.trans (gatherEnds_of_written hwritten hgood)),
      fun x xs hwritten hbad => congrArg Host.Outcome.next (hends.trans (gatherEnds_of_bad_entry hwritten hbad)),
      fun err hrefused => congrArg Host.Outcome.next (hends.trans (gatherEnds_of_refused hrefused))⟩

end Sys2Proof.Machine
end

section
/-! SUPPORT. What FUSE_OUT, VOP, VRED and VTAB come to, case by case (R138, R190 to R194). -/

namespace Sys2Proof.Machine

open Sys2Proof

section
variable {s u : State} {c i : Nat} {a : Active} {ups : List Upset}

/-! ### Results written run by run -/

/-- A computing command's results written: the state once what its writes meet is taken, the first refusal, the flags. -/
def writtenRuns (r : State × Option AccErr × ArithFlags) (dst : Tensor) (ups : List Upset) : State × Option AccErr × ArithFlags :=
  (r.1.writeUpsets dst.spans ups, r.2)

/-- The end of a computing command whose results are written (R127, R140, R168). -/
def runsEnd (c e i : Nat) (a : Active) (w : State × Option AccErr × ArithFlags) : State := endMove c e i a (w.1, w.2.1) w.2.2

section
variable {e : Nat} {w : State × Option AccErr × ArithFlags}

theorem runsEnd_of_written (hwritten : w.2.1 = none) : runsEnd c e i a w = w.1.putActive c e i (a.finish w.1.now w.2.2) :=
  endMove_of_written hwritten

theorem runsEnd_of_refused {err : AccErr} (hrefused : w.2.1 = some err) :
    runsEnd c e i a w = w.1.putActive c e i (({ a with flags := ((ArithFlags.ofByte a.flags).or w.2.2).byte } : Active).refuse w.1.now err) :=
  endMove_of_refused hrefused
end

/-! ### FUSE_OUT -/

/-- The places that a FUSE_OUT reaches. -/
def State.fusePlaces (s : State) (src dst : Tensor) (fu : Fusion) : List Place :=
  s.places ((src :: fu.tensors).map (·.base)) [dst.base]

/-- The state once the source and the setting of a FUSE_OUT have been read. -/
def State.fuseRead (s : State) (c : Nat) (src dst : Tensor) (fu : Fusion) (ups : List Upset) : State :=
  (s.requestDone c 3 (s.fusePlaces src dst fu)).readRanges c (src.spans ++ fu.reads) ups

/-- One run of a FUSE_OUT's destination, computed from the source as it stands in a state, with the setting's table and poison (R138, R190). -/
def State.fuseRun (s : State) (src dst : Tensor) (fu : Fusion) (tab : List TabEntry) (fp : Bool) (k : Idx) : List Computed :=
  (List.range (dst.dim 0)).map fun e =>
    let y := s.fuseElem fu tab src { k with i0 := e }
    { value := y.1, flags := y.2, poison := fp || s.elemPoison src { k with i0 := e } }

/-- The runs of a FUSE_OUT computed and written; poison of its setting is poison of the result (R128). -/
def State.fuseRuns (u : State) (c : Nat) (a : Active) (src dst : Tensor) (fu : Fusion) (ups : List Upset) : State × Option AccErr × ArithFlags :=
  let fp := u.fusionPoison fu
  let r := u.putComputed c 3 dst fu.setting.round fu.setting.sat (u.openKey c a.q (src.overlaps dst)) src.runSpans fun s k =>
    s.fuseRun src dst fu ((fu.table.map fun t => u.tableEntries t).getD []) fp k
  writtenRuns (r.1, r.2.1, { r.2.2 with poison := r.2.2.poison || fp }) dst ups

section
variable {src dst : Tensor} {fu : Fusion} (hworking : (s.core c).working 3 0x30 = some (i, a))
  (hsrc : a.tensor (a.q.cmd.desc 0) = some src) (hdst : a.tensor (a.q.cmd.desc 12) = some dst)
  (hfu : readFusion a.slotView a.q.loops (a.q.cmd.desc 24) = .ok fu) (hreached : s.awayPlace c (s.fusePlaces src dst fu) = none)
include hworking hsrc hdst hfu hreached

theorem fuseOut_of_unreadable {err : AccErr} (hrefused : (s.fuseRead c src dst fu ups).fusionErr c fu = some err) :
    fuseOut c ups s = (s.fuseRead c src dst fu ups).refuseRead c 3 i a err := by
  simp only [fuseOut, hworking, hsrc, hdst, hfu]
  rw [viaHubs_of_reached hreached]
  rw [State.fuseRead, State.fusePlaces] at hrefused ⊢
  simp only [hrefused]

theorem fuseOut_of_readable (hreadable : (s.fuseRead c src dst fu ups).fusionErr c fu = none) :
    fuseOut c ups s = runsEnd c 3 i a ((s.fuseRead c src dst fu ups).fuseRuns c a src dst fu ups) := by
  simp only [fuseOut, hworking, hsrc, hdst, hfu]
  rw [viaHubs_of_reached hreached]
  rw [State.fuseRead, State.fusePlaces] at hreadable
  simp only [hreadable]
  rfl
end

/-! ### VOP -/

/-- The sources of a VOP, those it has (R191). -/
def Active.vopSources (a : Active) (s0 : Tensor) : List Tensor :=
  [s0] ++ (a.tensor (a.q.cmd.desc 12)).toList ++ (a.tensor (a.q.cmd.desc 24)).toList

/-- The immediate of a VOP, where its operation takes one. -/
def Active.vopImmediate (a : Active) (d : Domain) : VecVal × ArithFlags :=
  if (vecSources 0x40 (bits (a.q.cmd.word 2) 48 6)).1 then d.immediate (a.q.cmd.word 3) else (.int 0, {})

/-- The places that a VOP reaches. -/
def State.vopPlaces (s : State) (a : Active) (s0 dst : Tensor) : List Place := s.places ((a.vopSources s0).map (·.base)) [dst.base]

/-- The state once the sources of a VOP have been read. -/
def State.vopRead (s : State) (c : Nat) (a : Active) (s0 dst : Tensor) (ups : List Upset) : State :=
  (s.requestDone c 4 (s.vopPlaces a s0 dst)).readRanges c ((a.vopSources s0).flatMap Tensor.spans) ups

/-- The runs of a VOP computed and written (R191, R192). -/
def State.vopRuns (u : State) (c : Nat) (a : Active) (s0 dst : Tensor) (d : Domain) (ups : List Upset) : State × Option AccErr × ArithFlags :=
  let w := a.q.cmd.word 2
  let free := u.openKey c a.q ((a.vopSources s0).any fun t => t.clash dst)
  let reads (k : Idx) := (a.vopSources s0).flatMap fun t => t.runSpans (t.broadcast k)
  writtenRuns (u.putComputed c 4 dst a.q.cmd.vecRound (bit w 58) free reads fun s k => (List.range (dst.dim 0)).map fun e =>
    s.vopElem d (bits w 48 6) s0 (a.tensor (a.q.cmd.desc 12)) (a.tensor (a.q.cmd.desc 24)) (a.vopImmediate d) { k with i0 := e }) dst ups

theorem vectorVop_of_reached {s0 dst : Tensor} {d : Domain} (hworking : (s.core c).working 4 0x40 = some (i, a))
    (hs0 : a.tensor (a.q.cmd.desc 0) = some s0) (hdst : a.tensor (a.q.cmd.desc 36) = some dst)
    (hdomain : Domain.ofField (bits (a.q.cmd.word 2) 54 2) = some d) (hreached : s.awayPlace c (s.vopPlaces a s0 dst) = none) :
    vectorVop c ups s = runsEnd c 4 i a ((s.vopRead c a s0 dst ups).vopRuns c a s0 dst d ups) := by
  simp only [vectorVop, hworking, hs0, hdst, hdomain]
  exact viaHubs_of_reached hreached

/-! ### VRED -/

/-- The state once the source of a VRED has been read. -/
def State.vredRead (s : State) (c : Nat) (src dst : Tensor) (ups : List Upset) : State :=
  (s.requestDone c 4 (s.places [src.base] [dst.base])).readRanges c src.spans ups

/-- The element that a VRED computes of one run, where its domain has the operation (R193). -/
def State.vredElem (s : State) (d : Domain) (op : Nat) (src : Tensor) (k : Idx) : List Computed :=
  let idx := (List.range (src.dim 0)).map fun e => { k with i0 := e }
  match d.reduce op (idx.map (s.vecElem d src)) with
  | some y => [{ value := y.1.num, flags := y.2, poison := idx.any (s.elemPoison src) }]
  | none => []

/-- The elements of a VRED computed and written (R193). -/
def State.vredRuns (u : State) (c : Nat) (a : Active) (src dst : Tensor) (d : Domain) (ups : List Upset) : State × Option AccErr × ArithFlags :=
  let w := a.q.cmd.word 2
  writtenRuns (u.putComputed c 4 dst a.q.cmd.vecRound (bit w 58) (u.openKey c a.q (src.clash dst)) src.runSpans fun s k =>
    s.vredElem d (bits w 48 6) src k) dst ups

theorem vectorVred_of_reached {src dst : Tensor} {d : Domain} (hworking : (s.core c).working 4 0x41 = some (i, a))
    (hsrc : a.tensor (a.q.cmd.desc 0) = some src) (hdst : a.tensor (a.q.cmd.desc 36) = some dst)
    (hdomain : Domain.ofField (bits (a.q.cmd.word 2) 54 2) = some d) (hreached : s.awayPlace c (s.places [src.base] [dst.base]) = none) :
    vectorVred c ups s = runsEnd c 4 i a ((s.vredRead c src dst ups).vredRuns c a src dst d ups) := by
  simp only [vectorVred, hworking, hsrc, hdst, hdomain]
  exact viaHubs_of_reached hreached

/-! ### VTAB -/

/-- The state once the index tensor and the table of a VTAB have been read. -/
def State.vtabRead (s : State) (c : Nat) (ix tab dst : Tensor) (ups : List Upset) : State :=
  (s.requestDone c 4 (s.places [ix.base, tab.base] [dst.base])).readRanges c (ix.spans ++ tab.spans) ups

/-- The key where a VTAB's destination overlaps what it reads, so that what it writes is open (log 15). -/
def State.vtabKey (u : State) (c : Nat) (a : Active) (ix tab dst : Tensor) : Option (List Nat) :=
  u.openKey c a.q (tab.overlaps dst || ix.clash dst)

/-- The runs of a VTAB written, up to a refusal or a bad index: the state, either of them, and whether a run held poison (R194). -/
def State.vtabRuns (u : State) (c : Nat) (a : Active) (ix tab dst : Tensor) : State × Option AccErr × Option Nat × Bool :=
  dst.runs.foldl (fun (st : State × Option AccErr × Option Nat × Bool) k =>
    match st.2.1, st.2.2.1 with
    | none, none => let w := st.1.vtabRun c ix tab dst (u.vtabKey c a ix tab dst) k; (w.1, w.2.1, w.2.2.1, st.2.2.2 || w.2.2.2)
    | _, _ => st) (u, none, none, false)

/-- The state once a VTAB has written its runs and taken what its writes meet. -/
def State.vtabWritten (u : State) (c : Nat) (a : Active) (ix tab dst : Tensor) (ups : List Upset) : State :=
  ((u.vtabRuns c a ix tab dst).1.writeUpsets dst.spans ups).useKey (u.vtabKey c a ix tab dst)

/-- The end of a VTAB: at its first bad index, or as its runs ended (R194). -/
def State.vtabEnds (u : State) (c i : Nat) (a : Active) (ix tab dst : Tensor) (ups : List Upset) : State :=
  let r := u.vtabRuns c a ix tab dst
  let t := u.vtabWritten c a ix tab dst ups
  match r.2.1, r.2.2.1 with
  | none, some e => t.putActive c 4 i (a.fail t.now { status := .addrRange, entry := e })
  | err, _ => endMove c 4 i a (t, err) { poison := r.2.2.2 }

section
variable {ix tab dst : Tensor}

theorem vectorVtab_of_reached (hworking : (s.core c).working 4 0x42 = some (i, a)) (hix : a.tensor (a.q.cmd.desc 0) = some ix)
    (htab : a.tensor (a.q.cmd.desc 12) = some tab) (hdst : a.tensor (a.q.cmd.desc 36) = some dst)
    (hreached : s.awayPlace c (s.places [ix.base, tab.base] [dst.base]) = none) :
    vectorVtab c ups s = (s.vtabRead c ix tab dst ups).vtabEnds c i a ix tab dst ups := by
  simp only [vectorVtab, hworking, hix, htab, hdst]
  exact viaHubs_of_reached hreached

theorem vtabEnds_of_written (hwritten : (u.vtabRuns c a ix tab dst).2.1 = none) (hgood : (u.vtabRuns c a ix tab dst).2.2.1 = none) :
    u.vtabEnds c i a ix tab dst ups =
      let t := u.vtabWritten c a ix tab dst ups
      t.putActive c 4 i (a.finish t.now { poison := (u.vtabRuns c a ix tab dst).2.2.2 }) := by
  simp only [State.vtabEnds, hwritten, hgood]
  exact endMove_of_written rfl

theorem vtabEnds_of_bad_index {e : Nat} (hwritten : (u.vtabRuns c a ix tab dst).2.1 = none)
    (hbad : (u.vtabRuns c a ix tab dst).2.2.1 = some e) :
    u.vtabEnds c i a ix tab dst ups =
      let t := u.vtabWritten c a ix tab dst ups
      t.putActive c 4 i (a.fail t.now { status := .addrRange, entry := e }) := by
  simp only [State.vtabEnds, hwritten, hbad]

theorem vtabEnds_of_refused {err : AccErr} (hrefused : (u.vtabRuns c a ix tab dst).2.1 = some err) :
    u.vtabEnds c i a ix tab dst ups =
      let t := u.vtabWritten c a ix tab dst ups
      t.putActive c 4 i (({ a with
        flags := ((ArithFlags.ofByte a.flags).or { poison := (u.vtabRuns c a ix tab dst).2.2.2 }).byte } : Active).refuse t.now err) := by
  simp only [State.vtabEnds, hrefused]
  exact endMove_of_refused rfl
end
end

/-- Settles O21: each command writes its runs, and ends by what their writing answered. -/
theorem computingCommandsWriteThenEnd : Obligations.ComputingCommandsWriteThenEnd := by
  intro c s ups i a cmd w kept
  refine ⟨?fuseOut, ?vop, ?vred, ?vtab⟩
  case fuseOut =>
    intro src dst fu hworking hsrc hdst hfu xs u tab fp r t fl hreached
    have hends (hreadable : u.fusionErr c fu = none) := fuseOut_of_readable (ups := ups) hworking hsrc hdst hfu hreached hreadable
    exact ⟨fun hreadable hwritten => congrArg Host.Outcome.next ((hends hreadable).trans (runsEnd_of_written hwritten)),
      fun err hreadable hrefused => congrArg Host.Outcome.next ((hends hreadable).trans (runsEnd_of_refused hrefused)),
      fun err hrefused => congrArg Host.Outcome.next (fuseOut_of_unreadable hworking hsrc hdst hfu hreached hrefused)⟩
  case vop =>
    intro s0 dst d hworking hs0 hdst hdomain s1 s2 imm srcs xs u r t hreached
    have hends := vectorVop_of_reached (ups := ups) hworking hs0 hdst hdomain hreached
    exact ⟨fun hwritten => congrArg Host.Outcome.next (hends.trans (runsEnd_of_written hwritten)),
      fun err hrefused => congrArg Host.Outcome.next (hends.trans (runsEnd_of_refused hrefused))⟩
  case vred =>
    intro src dst d hworking hsrc hdst hdomain xs u r t hreached
    have hends := vectorVred_of_reached (ups := ups) hworking hsrc hdst hdomain hreached
    exact ⟨fun hwritten => congrArg Host.Outcome.next (hends.trans (runsEnd_of_written hwritten)),
      fun err hrefused => congrArg Host.Outcome.next (hends.trans (runsEnd_of_refused hrefused))⟩
  case vtab =>
    intro ix tab dst hworking hix htab hdst xs u free r t hreached
    have hends := vectorVtab_of_reached (ups := ups) hworking hix htab hdst hreached
    exact ⟨fun hwritten hgood => congrArg Host.Outcome.next (hends.trans (vtabEnds_of_written hwritten hgood)),
      fun e hwritten hbad => congrArg Host.Outcome.next (hends.trans (vtabEnds_of_bad_index hwritten hbad)),
      fun err hrefused => congrArg Host.Outcome.next (hends.trans (vtabEnds_of_refused hrefused))⟩

end Sys2Proof.Machine
end

section
/-! SUPPORT. What SIGNAL comes to, case by case (R178, R281, R282, R288). -/

namespace Sys2Proof.Machine

open Sys2Proof

section
variable {s : State} {c i : Nat} {a : Active}

/-- The kind of object that a SIGNAL is meant for. -/
def Active.signalKind (a : Active) : Nat := bits (a.q.cmd.word 3) 32 2

/-- The value that a SIGNAL carries: an arrival counts one (R178). -/
def Active.signalValue (a : Active) : Nat := if a.signalKind = 1 then 1 else bits (a.q.cmd.word 3) 0 32

/-- The generation that a SIGNAL to a barrier carries: its own, or the one its core expects (R178, R282). -/
def Core.signalGen (k : Core) (a : Active) : Option Nat :=
  if a.signalKind ≠ 1 then none else some (if bit (a.q.cmd.word 3) 50 then bits (a.q.cmd.word 3) 34 16 else k.expectedGen)

/-- The state once a SIGNAL is on its way. -/
def State.signalGoing (s : State) (c : Nat) (a : Active) : State := s.setStarted c 0 [{ a with streamed := 1 }]

/-- The access that a SIGNAL makes to a window (R217, R288). -/
def State.signalAccess (s : State) (c : Nat) (a : Active) : WinAccess := s.accessOf (s.core c).job (a.q.cmd.word 2) 8 4

/-- A SIGNAL put in flight to an object, with the tag of its step or the window it went through. -/
def State.signalSent (u : State) (c : Nat) (a : Active) (gen : Option Nat) (obj : Nat) (tag : Option (Nat × Nat)) (win : Option WinAccess) : State :=
  u.sendSignal c (syncCore obj) (syncIndex obj) a.signalKind a.signalValue gen (.opcode c) tag win

/-- The message of a SIGNAL to another module queued on a connection (R281, R311). -/
def State.signalQueued (u : State) (j n : Nat) (a : Active) (gen : Option Nat) : State × Nat :=
  u.queueMessage n 0x25 (u.jobGet j 0x04) (u.jobGet j 0x05) (winPrefix (a.q.cmd.word 2) (if a.signalKind = 1 then 0 else a.signalValue) a.signalKind
    (if a.signalKind = 1 then 1 else 0) (gen.getD 0))

variable (hworking : (s.core c).working 0 0x02 = some (i, a))
include hworking

theorem seqSignal_of_sent (hsent : a.streamed ≠ 0) : seqSignal c s = s := by
  rw [seqSignal, withSeq_of_working hworking]
  exact if_pos hsent

variable (hunsent : a.streamed = 0)
include hunsent

theorem seqSignal_of_object (hobject : spaceOf (a.q.cmd.word 2) = 2) :
    seqSignal c s = (s.signalGoing c a).signalSent c a ((s.core c).signalGen a) (a.q.cmd.word 2) (some (s.tagOf c)) none := by
  rw [seqSignal, withSeq_of_working hworking]
  exact (if_neg (not_not_intro hunsent)).trans (if_pos hobject)

variable (hwindow : spaceOf (a.q.cmd.word 2) ≠ 2)
include hwindow

/-! Through a window of this module -/

section
variable (hown : winModule (a.q.cmd.word 2) = s.moduleNo) {u : State}
include hown

theorem seqSignal_of_admitted {o : Nat} (hadmitted : (s.signalGoing c a).windowSignal (s.signalAccess c a) = (u, .inl o)) :
    seqSignal c s = u.signalSent c a ((s.core c).signalGen a) o none (some (s.signalAccess c a)) := by
  rw [seqSignal, withSeq_of_working hworking]
  refine (if_neg (not_not_intro hunsent)).trans <| (if_neg hwindow).trans <| (if_pos hown).trans ?_
  rw [State.signalGoing, State.signalAccess] at hadmitted
  simp only [hadmitted]
  rfl

theorem seqSignal_of_refused {reason off : Nat}
    (hrefused : (s.signalGoing c a).windowSignal (s.signalAccess c a) = (u, .inr (reason, off))) :
    seqSignal c s = u.seqFail c a (refusedError (a.q.cmd.word 2) reason off) := by
  rw [seqSignal, withSeq_of_working hworking]
  refine (if_neg (not_not_intro hunsent)).trans <| (if_neg hwindow).trans <| (if_pos hown).trans ?_
  rw [State.signalGoing, State.signalAccess] at hrefused
  simp only [hrefused]
end

/-! To another module -/

section
variable (hother : winModule (a.q.cmd.word 2) ≠ s.moduleNo) {u : State}
include hother

theorem seqSignal_of_unreachable (hnone : s.connTo (winModule (a.q.cmd.word 2)) = (u, none)) :
    seqSignal c s = u.seqFail c a { status := .remoteUnreachable, addr := a.q.cmd.word 2 } := by
  rw [seqSignal, withSeq_of_working hworking]
  refine (if_neg (not_not_intro hunsent)).trans <| (if_neg hwindow).trans <| (if_neg hother).trans ?_
  simp only [hnone]

theorem seqSignal_of_connected {n : Nat} (hconn : s.connTo (winModule (a.q.cmd.word 2)) = (u, some n)) :
    seqSignal c s =
      let q := u.signalQueued (s.core c).job n a ((s.core c).signalGen a)
      q.1.setStarted c 0 [{ a with streamed := 1, messages := [{ offset := 0, length := 8, conn := n, psn := q.2 }] }] := by
  rw [seqSignal, withSeq_of_working hworking]
  refine (if_neg (not_not_intro hunsent)).trans <| (if_neg hwindow).trans <| (if_neg hother).trans ?_
  simp only [hconn]
  rfl
end
end

/-- Settles O27: the address of a SIGNAL chooses its way, and the window's checks or the connection choose its end. -/
theorem signalGoesToItsObject : Obligations.SignalGoesToItsObject := by
  intro c s i a hworking w3 k obj kind value gen going
  refine ⟨fun hsent => congrArg Host.Outcome.next (seqSignal_of_sent hworking hsent),
    fun hunsent hobject => congrArg Host.Outcome.next (seqSignal_of_object hworking hunsent hobject),
    fun hunsent hwindow hown => ⟨fun u o hadmitted => ?admitted, fun u reason off hrefused => ?refused⟩,
    fun hunsent hwindow hother => ⟨fun u hnone => ?unreachable, fun u n hconn => ?connected⟩⟩
  case admitted => exact congrArg Host.Outcome.next (seqSignal_of_admitted hworking hunsent hwindow hown hadmitted)
  case refused => exact congrArg Host.Outcome.next (seqSignal_of_refused hworking hunsent hwindow hown hrefused)
  case unreachable => exact congrArg Host.Outcome.next (seqSignal_of_unreachable hworking hunsent hwindow hother hnone)
  case connected => exact congrArg Host.Outcome.next (seqSignal_of_connected hworking hunsent hwindow hother hconn)

end Sys2Proof.Machine
end

section
/-! SUPPORT. What MCAST and REDUCE come to, case by case, and their deadlines (R195, R196, R264, R266, R267). -/

namespace Sys2Proof.Machine

open Sys2Proof

section
variable {s : State} {c i : Nat} {a : Active} {ups : List Upset} {src : Tensor}

/-! ### The source of a group's command -/

/-- The state once a group's command is requested: its source is all that it reads. -/
def State.sourceAsked (s : State) (c : Nat) (src : Tensor) : State := s.requestDone c 5 (s.places [src.base] [])

/-- The state once the source of a group's command has been read. -/
def State.sourceRead (s : State) (c : Nat) (src : Tensor) (ups : List Upset) : State := (s.sourceAsked c src).readRanges c src.spans ups

/-- The state once a group's command has formed its message and counted its operation under a key (R353, R367). -/
def State.operationCounted (u : State) (c : Nat) (a : Active) (src : Tensor) (key : Nat) : State :=
  (u.noteMessage c a.q (u.imageOf src)).updCore c fun k => { k with groupOps := Tab.upd 0 k.groupOps key (· + 1) }

/-- The number of the operation that a core issues next under a key. -/
def State.nextOperation (u : State) (c key : Nat) : Nat := Tab.get 0 (u.core c).groupOps key

/-! ### MCAST -/

/-- The operation that an MCAST opens, every member still to be written, the root last (R264, R266). -/
def State.mcastOp (u : State) (c : Nat) (a : Active) (src dst : Tensor) (ms root par : Nat) : GroupOp :=
  { mcast := true, group := a.q.cmd.group, number := u.nextOperation c a.q.cmd.group, job := (u.core c).job, root := root, members := ms
    parents := par, op := 0, contributions := []
    data := u.mcastData (u.openKey c a.q (src.overlaps (dst.onCore c))) src dst
    toWrite := groupMembers ms c, refusal := 0, detail := 0, address := 0 }

/-- The state once the operation of an MCAST is in its contexts. -/
def State.mcastOpened (u : State) (c : Nat) (a : Active) (src dst : Tensor) (ms root par : Nat) : State :=
  let v := u.operationCounted c a src a.q.cmd.group
  { v.useKey (u.openKey c a.q (src.overlaps (dst.onCore c))) with ops := v.ops ++ [u.mcastOp c a src dst ms root par] }

section
variable {dst : Tensor} {ms root op par : Nat} (hunsent : (s.core c).unsent 5 0x51 = some (i, a))
  (hsrc : a.tensor (a.q.cmd.desc 0) = some src) (hdst : a.tensor (a.q.cmd.desc 12) = some dst)
  (hgroup : s.group true a.q.cmd.group = some (ms, root, op, par)) (hreached : s.awayPlace c (s.places [src.base] []) = none)
include hunsent hsrc hdst hgroup hreached

theorem executeMcast_of_unreadable {err : AccErr} (hrefused : (s.sourceAsked c src).tensorErr c src = some err) :
    executeMcast c ups s = (s.sourceAsked c src).refuseRead c 5 i a err := by
  simp only [executeMcast, hunsent, hsrc, hdst, hgroup]
  rw [viaHubs_of_reached hreached]
  rw [State.sourceAsked] at hrefused ⊢
  simp only [hrefused]

theorem executeMcast_of_readable (hreadable : (s.sourceAsked c src).tensorErr c src = none) :
    executeMcast c ups s =
      let u := s.sourceRead c src ups
      let n := u.nextOperation c a.q.cmd.group
      ((u.mcastOpened c a src dst ms root par).putActive c 5 i { a with streamed := 1, operation := some n }).advanceMcast a.q.cmd.group n := by
  simp only [executeMcast, hunsent, hsrc, hdst, hgroup]
  rw [viaHubs_of_reached hreached]
  rw [State.sourceAsked] at hreadable
  simp only [hreadable]
  rfl
end

section
variable {g n : Nat} {o : GroupOp}

/-- One member of an operation written, where the operation is still in its contexts. -/
def State.writeNext (s : State) (g n m : Nat) : State :=
  match s.opOf true g n with
  | some o => s.writeMember o m
  | none => s

/-- Every member of an operation that its data comes to written, in turn (R266). -/
def State.mcastCarried (s : State) (g n : Nat) (o : GroupOp) : State :=
  (o.toWrite.filter (s.mcastComes o)).foldl (fun s m => s.writeNext g n m) s

/-- The command of an MCAST that every member has acknowledged: as the first refusal says, or finished (R266). -/
def GroupOp.mcastEnd (o : GroupOp) (b : Active) (now : Nat) : Active :=
  let f : ArithFlags := { poison := o.data.any (·.2.2) }
  if o.refusal = 0 then b.finish now f
  else { b with done := true, status := o.refusal, detail := o.detail, addr := o.address, flags := f.byte, start := now }

/-- The end of an operation whose members are all written, where it is still in its contexts. -/
def State.mcastSettled (s : State) (g n : Nat) : State :=
  match s.opOf true g n with
  | some o => if o.toWrite.isEmpty then s.endMcast o else s
  | none => s

theorem advanceMcast_of_op (hop : s.opOf true g n = some o) : s.advanceMcast g n = (s.mcastCarried g n o).mcastSettled g n := by
  simp only [State.advanceMcast, hop]
  rfl

theorem mcastSettled_of_waiting (hop : s.opOf true g n = some o) (hwaiting : o.toWrite ≠ []) : s.mcastSettled g n = s := by
  simp only [State.mcastSettled, hop]
  exact if_neg (mt List.isEmpty_iff.mp hwaiting)

theorem mcastSettled_of_whole (hop : s.opOf true g n = some o) (hwhole : o.toWrite = []) : s.mcastSettled g n = s.endMcast o := by
  simp only [State.mcastSettled, hop]
  exact if_pos (List.isEmpty_iff.mpr hwhole)

theorem endMcast_of_started {j : Nat} {b : Active} (hstarted : s.groupOn 0x51 o.root o.group o.number = some (j, b)) :
    s.endMcast o = (s.dropOp o).putActive o.root 5 j (o.mcastEnd b s.now) := by
  simp only [State.endMcast, hstarted]
  rfl
end

/-! ### REDUCE -/

/-- The elements of a REDUCE's source, run by run. -/
def Tensor.elements (src : Tensor) : List Idx := src.runs.flatMap fun r => (List.range (src.dim 0)).map fun e => { r with i0 := e }

/-- What a REDUCE contributes: its elements as INT64, or rounded to FP32, with their poison (R196, R267). -/
def State.contributionOf (u : State) (c : Nat) (src : Tensor) : Contribution :=
  { core := c, format := src.format.bits, taken := false, poison := src.elements.map (u.elemPoison src)
    values := src.elements.map fun e => if src.format = .int64 then (u.readElem src e).bits else (rn32 (u.readNum src e)).bits }

/-- The operation that a REDUCE names (R196). -/
def Active.reduceOp (a : Active) : Nat := bits (a.q.cmd.word 2) 32 4

/-- The state once the operation that a REDUCE contributes to is in its contexts, with its number. -/
def State.reduceOpened (u : State) (c i : Nat) (a : Active) (src : Tensor) : State :=
  let g := a.q.cmd.group
  let n := u.nextOperation c (reduceKey g)
  ((u.operationCounted c a src (reduceKey g)).putActive c 5 i { a with streamed := 1, operation := some n }).openOp (u.core c).job g n a.reduceOp

/-- An operation with one more contribution; the root's command gives its operation (R267; log 39). -/
def GroupOp.contributed (o : GroupOp) (c : Nat) (a : Active) (x : Contribution) : GroupOp :=
  { o with contributions := o.contributions ++ [x], op := if o.root = c then a.reduceOp else o.op }

/-- A contribution made to an operation in its contexts, which is carried as far as its inputs allow, and the operations after it (R268). -/
def State.contribute (v : State) (c : Nat) (a : Active) (n : Nat) (x : Contribution) : State :=
  match v.opOf false a.q.cmd.group n with
  | none => v
  | some o => (List.range 23).foldl (fun s d => s.advanceOp a.q.cmd.group (n + d)) (v.putOp (o.contributed c a x))

section
variable (hunsent : (s.core c).unsent 5 0x52 = some (i, a)) (hsrc : a.tensor (a.q.cmd.desc 0) = some src)
  (hreached : s.awayPlace c (s.places [src.base] []) = none)
include hunsent hsrc hreached

theorem executeReduce_of_unreadable {err : AccErr} (hrefused : (s.sourceAsked c src).tensorErr c src = some err) :
    executeReduce c ups s = (s.sourceAsked c src).refuseRead c 5 i a err := by
  simp only [executeReduce, hunsent, hsrc]
  rw [viaHubs_of_reached hreached]
  rw [State.sourceAsked] at hrefused ⊢
  simp only [hrefused]

theorem executeReduce_of_readable (hreadable : (s.sourceAsked c src).tensorErr c src = none) :
    executeReduce c ups s =
      let u := s.sourceRead c src ups
      (u.reduceOpened c i a src).contribute c a (u.nextOperation c (reduceKey a.q.cmd.group)) (u.contributionOf c src) := by
  simp only [executeReduce, hunsent, hsrc]
  rw [viaHubs_of_reached hreached]
  rw [State.sourceAsked] at hreadable
  simp only [hreadable]
  rfl
end

theorem contribute_of_op {n : Nat} {x : Contribution} {o : GroupOp} (hop : s.opOf false a.q.cmd.group n = some o) :
    s.contribute c a n x = (List.range 23).foldl (fun s d => s.advanceOp a.q.cmd.group (n + d)) (s.putOp (o.contributed c a x)) := by
  simp only [State.contribute, hop]

/-- The state once the partial of a member is taken by its parent (R196, R259). -/
def State.partialMoved (v : State) (o : GroupOp) (m : Nat) : State :=
  (v.putOp { o with contributions := o.contributions.map fun x => if x.core = m then { x with taken := true } else x }).escapeSent
    (v.tileOf m) (v.tileOf (o.parent m))

/-- The request that a member's parent did not answer before is answered with the partial (R259). -/
def State.requestAnswered (w : State) (o : GroupOp) (m : Nat) : State :=
  if (w.txnOf m 5).any fun x => x.2.address = spAddr (o.parent m) 0 then w.closeTxn m 5 else w

/-- The REDUCE of a member whose partial is taken is done. -/
def State.memberDone (w : State) (g n m : Nat) : State :=
  match w.groupOn 0x52 m g n with
  | some (j, b) => w.putActive m 5 j (b.finish w.now {})
  | none => w

section
variable {g n m : Nat} {o : GroupOp}

theorem takePartial_of_taken (hop : s.opOf false g n = some o) (hmember : m ≠ o.root) (hgiven : ((o.of m).any fun x => !x.taken) = true)
    (htaken : s.partialTaken o m = true) : s.takePartial g n m = ((s.partialMoved o m).requestAnswered o m).memberDone g n m := by
  simp only [State.takePartial, hop]
  exact (if_neg (by simp [hmember, hgiven])).trans ((if_neg (by simp [htaken])).trans rfl)

theorem requestAnswered_of_none (hnone : s.txnOf m 5 = none) : s.requestAnswered o m = s := by
  simp only [State.requestAnswered, hnone]
  rfl

theorem memberDone_of_started {j : Nat} {b : Active} (hstarted : s.groupOn 0x52 m g n = some (j, b)) :
    s.memberDone g n m = s.putActive m 5 j (b.finish s.now {}) := by
  simp only [State.memberDone, hstarted]
end

/-! ### Deadlines -/

theorem mcastTimeout_of_working (hworking : (s.core c).working 5 0x51 = some (i, a)) :
    mcastTimeout c s =
      let u : State := { s with now := max s.now (a.deadline.getD s.now)
                                ops := s.ops.filter fun o => !o.mcast || o.group ≠ a.q.cmd.group || some o.number ≠ a.operation }
      u.putActive c 5 i (a.fail u.now { status := .waitTimeout, detail := 2 }) := by
  simp only [mcastTimeout, hworking]

theorem reduceDeadline_of_working (hworking : (s.core c).working 5 0x52 = some (i, a)) :
    reduceDeadline c s =
      let u : State := { s with now := max s.now (a.deadline.getD s.now)
                                ops := s.ops.filter fun o => o.mcast || o.group ≠ a.q.cmd.group || some o.number ≠ a.operation }
      u.putActive c 5 i (a.fail u.now { status := .waitTimeout, detail := 2 }) := by
  simp only [reduceDeadline, hworking]
end

/-- Settles O28: MCAST hands its operation to advanceMcast and REDUCE its contribution to advanceOp; each goes as far as its inputs allow. -/
theorem groupTransfersReachEveryMember : Obligations.GroupTransfersReachEveryMember := by
  intro c s ups i a cmd g
  refine ⟨fun src dst ms root op par hunsent hsrc hdst hgroup hreached => ⟨fun err hrefused => ?mcastRefused, fun hreadable => ?mcast⟩,
    ?carried, fun src hunsent hsrc hreached => ⟨fun err hrefused => ?reduceRefused, fun hreadable => ?reduce⟩, ?taken,
    fun hworking => ?mcastTimeout, fun hworking => ?reduceDeadline⟩
  case mcastRefused =>
    exact congrArg Host.Outcome.next (executeMcast_of_unreadable hunsent hsrc hdst hgroup hreached hrefused)
  case mcast => exact congrArg Host.Outcome.next (executeMcast_of_readable hunsent hsrc hdst hgroup hreached hreadable)
  case carried =>
    intro v n o hop w o' hleft
    exact ⟨fun hwaiting => (advanceMcast_of_op hop).trans (mcastSettled_of_waiting hleft hwaiting),
      fun j b hwhole hstarted =>
        (advanceMcast_of_op hop).trans ((mcastSettled_of_whole hleft hwhole).trans (endMcast_of_started hstarted))⟩
  case reduceRefused => exact congrArg Host.Outcome.next (executeReduce_of_unreadable hunsent hsrc hreached hrefused)
  case reduce =>
    intro u n idx wide x v v' o hop o'
    exact congrArg Host.Outcome.next ((executeReduce_of_readable hunsent hsrc hreached hreadable).trans (contribute_of_op hop))
  case taken =>
    intro v n m j b o hop hmember hgiven htaken _ w hquiet hstarted
    have hanswered : (v.partialMoved o m).requestAnswered o m = v.partialMoved o m := requestAnswered_of_none hquiet
    have htakes := takePartial_of_taken hop hmember hgiven htaken
    rw [hanswered] at htakes
    exact htakes.trans (memberDone_of_started hstarted)
  case mcastTimeout => exact congrArg Host.Outcome.next (mcastTimeout_of_working hworking)
  case reduceDeadline => exact congrArg Host.Outcome.next (reduceDeadline_of_working hworking)

end Sys2Proof.Machine
end

section
/-! SUPPORT. What RWRITE and RREAD come to, case by case: in a window of this module, and by messages to another (R26, R168, R197, R311). -/

namespace Sys2Proof.Machine

open Sys2Proof

section
variable {s : State} {c i : Nat} {a : Active} {ups : List Upset} {t : Tensor}

/-! ### RWRITE -/

/-- The places that an RWRITE reaches: its source, and its window's target where that is the module's own (R26). -/
def State.rwritePlaces (s : State) (a : Active) (t : Tensor) : List Place :=
  s.places [t.base] (s.ownTarget (winModule (a.q.cmd.word 3) = s.moduleNo) (a.q.cmd.word 3))

/-- The state once an RWRITE is requested. -/
def State.rwriteAsked (s : State) (c : Nat) (a : Active) (t : Tensor) : State := s.requestDone c 5 (s.rwritePlaces a t)

/-- The state once the source of an RWRITE has been read. -/
def State.rwriteRead (s : State) (c : Nat) (a : Active) (t : Tensor) (ups : List Upset) : State :=
  (s.rwriteAsked c a t).readRanges c t.imageRanges ups

/-- An RWRITE that has begun its messages: poison in its source is withheld, and ends it (R168). -/
def State.rwriteBegun (v : State) (a : Active) (t : Tensor) : Active :=
  { a with
    streamed := 1, flags := if (v.firstPoison t).isSome then 16 else 0
    status := if (v.firstPoison t).isSome then Status.poison.code else 0, addr := (v.firstPoison t).getD 0 }

/-- The parts of an RWRITE under a payload limit (R311). -/
def State.partsUnder (v : State) (a : Active) (t : Tensor) (limit : Nat) : List (Nat × Bytes) := v.writeParts t (a.q.cmd.word 3) (cutSize limit)

/-- The payload of the message of one part of an RWRITE (R311). -/
def Active.partMessage (a : Active) (p : Nat × Bytes) : Bytes := winPrefix (a.q.cmd.word 3 + p.1) 0 0 0 0 ++ p.2

/-- The state once the messages of an RWRITE are formed (R353). -/
def State.partsFormed (v : State) (c : Nat) (a : Active) (t : Tensor) (limit : Nat) : State :=
  (v.partsUnder a t limit).foldl (fun s p => s.noteMessage c a.q (a.partMessage p) limit) v

/-- MODE of an RWRITE. -/
def Active.writeMode (a : Active) : Nat := bits (a.q.cmd.word 4) 0 2

/-- The payload limit of a connection. -/
def State.connLimit (v : State) (n : Nat) : Nat := ((v.conn n).map (·.limit)).getD 8208

/-- The messages of an RWRITE of a job queued on a connection. -/
def State.partsQueued (v : State) (c j n : Nat) (a : Active) (t : Tensor) : State × List Pending :=
  let u := v.partsFormed c a t (v.connLimit n)
  u.queueAll n (0x20 + a.writeMode) (u.jobGet j 0x04) (u.jobGet j 0x05)
    ((v.partsUnder a t (v.connLimit n)).map fun p => (p.1, p.2.length, a.partMessage p))

/-- The parts of an RWRITE of a job written through a window of the module's own, up to a refusal (R26). -/
def State.partsWritten (v : State) (c j : Nat) (a : Active) (t : Tensor) (ups : List Upset) : State × Option CheckErr :=
  (v.partsFormed c a t 8208).writeOwn j (a.q.cmd.word 3) (1 + a.writeMode) (some c) ups (v.partsUnder a t 8208)

/-- The end of an RWRITE in a window of the module's own: as its parts were written, but with POISON where poison was withheld (R168, R220). -/
def State.rwriteOwnEnds (v : State) (c i j : Nat) (a : Active) (t : Tensor) (ups : List Upset) : State :=
  let b := v.rwriteBegun a t
  match v.partsWritten c j a t ups with
  | (w, some e) => w.putActive c 5 i (if b.status ≠ 0 then { b with done := true, start := w.now } else b.fail w.now e)
  | (w, none) => w.putActive c 5 i (b.settle w.now)

section
variable (hunsent : (s.core c).unsent 5 0x53 = some (i, a)) (ht : a.tensor (a.q.cmd.desc 0) = some t)
  (hreached : s.awayPlace c (s.rwritePlaces a t) = none)
include hunsent ht hreached

theorem executeRwrite_of_unreadable {err : AccErr} (hrefused : (s.rwriteAsked c a t).rangesErr c t.imageRanges = some err) :
    executeRwrite c ups s = (s.rwriteAsked c a t).refuseRead c 5 i a err := by
  simp only [executeRwrite, hunsent, ht]
  refine (viaHubs_of_reached hreached).trans ?_
  rw [State.rwriteAsked, State.rwritePlaces] at hrefused ⊢
  simp only [hrefused]

variable (hreadable : (s.rwriteAsked c a t).rangesErr c t.imageRanges = none)
include hreadable

theorem executeRwrite_of_own (hown : winModule (a.q.cmd.word 3) = s.moduleNo) :
    executeRwrite c ups s = (s.rwriteRead c a t ups).rwriteOwnEnds c i (s.core c).job a t ups := by
  simp only [executeRwrite, hunsent, ht]
  refine (viaHubs_of_reached hreached).trans ?_
  rw [State.rwriteAsked, State.rwritePlaces] at hreadable
  simp only [hreadable, if_pos hown]
  rfl

section
variable (hother : winModule (a.q.cmd.word 3) ≠ s.moduleNo) {v : State}
include hother

theorem executeRwrite_of_unreachable (hnone : (s.rwriteRead c a t ups).connTo (winModule (a.q.cmd.word 3)) = (v, none)) :
    executeRwrite c ups s =
      let u := v.partsFormed c a t 8208
      u.putActive c 5 i ({ v.rwriteBegun a t with status := 0 }.fail u.now { status := .remoteUnreachable, addr := a.q.cmd.word 3 }) := by
  simp only [executeRwrite, hunsent, ht]
  refine (viaHubs_of_reached hreached).trans ?_
  rw [State.rwriteRead] at hnone
  rw [State.rwriteAsked, State.rwritePlaces] at hreadable hnone
  simp only [hreadable, if_neg hother, hnone]
  rfl

theorem executeRwrite_of_connected {n : Nat} (hconn : (s.rwriteRead c a t ups).connTo (winModule (a.q.cmd.word 3)) = (v, some n)) :
    executeRwrite c ups s =
      let q := v.partsQueued c (s.core c).job n a t
      q.1.putActive c 5 i ({ v.rwriteBegun a t with messages := q.2 }.settle (v.partsFormed c a t (v.connLimit n)).now) := by
  simp only [executeRwrite, hunsent, ht]
  refine (viaHubs_of_reached hreached).trans ?_
  rw [State.rwriteRead] at hconn
  rw [State.rwriteAsked, State.rwritePlaces] at hreadable hconn
  simp only [hreadable, if_neg hother, hconn]
  rfl
end
end

section
variable {j : Nat} {w : State}

theorem rwriteOwnEnds_of_written (hwritten : s.partsWritten c j a t ups = (w, none)) :
    s.rwriteOwnEnds c i j a t ups = w.putActive c 5 i ((s.rwriteBegun a t).settle w.now) := by
  simp only [State.rwriteOwnEnds, hwritten]

theorem rwriteOwnEnds_of_refused {e : CheckErr} (hrefused : s.partsWritten c j a t ups = (w, some e)) :
    s.rwriteOwnEnds c i j a t ups =
      let b := s.rwriteBegun a t
      w.putActive c 5 i (if b.status ≠ 0 then { b with done := true, start := w.now } else b.fail w.now e) := by
  simp only [State.rwriteOwnEnds, hrefused]
end

/-! ### RREAD -/

/-- The places that an RREAD reaches: its window's source, where that is the module's own, and its destination (R26). -/
def State.rreadPlaces (s : State) (a : Active) (t : Tensor) : List Place :=
  s.places (s.ownTarget (winModule (a.q.cmd.word 3) = s.moduleNo) (a.q.cmd.word 3)) [t.base]

/-- The state once an RREAD is requested. -/
def State.rreadAsked (s : State) (c : Nat) (a : Active) (t : Tensor) : State := s.requestDone c 5 (s.rreadPlaces a t)

/-- The parts of an RREAD under a payload limit: image offset and length (R311). -/
def Active.partsAsked (a : Active) (t : Tensor) (limit : Nat) : List (Nat × Nat) := readParts t.imageLen (a.q.cmd.word 3) (cutSize limit)

/-- The payload of the message that asks for one part of an RREAD (R311). -/
def Active.askMessage (a : Active) (p : Nat × Nat) : Bytes := winPrefix (a.q.cmd.word 3 + p.1) p.2 0 0 0

/-- The state once the messages of an RREAD are formed (R353). -/
def State.asksFormed (v : State) (c : Nat) (a : Active) (t : Tensor) (limit : Nat) : State :=
  (a.partsAsked t limit).foldl (fun s p => s.noteMessage c a.q (a.askMessage p) limit) v

/-- The messages of an RREAD of a job queued on a connection. -/
def State.asksQueued (v : State) (c j n : Nat) (a : Active) (t : Tensor) : State × List Pending :=
  let u := v.asksFormed c a t (v.connLimit n)
  u.queueAll n 0x23 (u.jobGet j 0x04) (u.jobGet j 0x05) ((a.partsAsked t (v.connLimit n)).map fun p => (p.1, p.2, a.askMessage p))

/-- The parts of an RREAD of a job read through a window of the module's own, up to a refusal (R26). -/
def State.partsRead (v : State) (c j : Nat) (a : Active) (t : Tensor) (ups : List Upset) : State × Option CheckErr :=
  (v.asksFormed c a t 8208).readOwn c j t (a.q.cmd.word 3) ups (a.partsAsked t 8208)

/-- The end of an RREAD in a window of the module's own: as its parts were read (R220). -/
def State.rreadOwnEnds (v : State) (c i j : Nat) (a : Active) (t : Tensor) (ups : List Upset) : State :=
  let b : Active := { a with streamed := 1 }
  match v.partsRead c j a t ups with
  | (w, some e) => w.putActive c 5 i (b.fail w.now e)
  | (w, none) => w.putActive c 5 i (b.finish w.now {})

section
variable (hunsent : (s.core c).unsent 5 0x54 = some (i, a)) (ht : a.tensor (a.q.cmd.desc 12) = some t)
  (hreached : s.awayPlace c (s.rreadPlaces a t) = none)
include hunsent ht hreached

theorem executeRread_of_own (hown : winModule (a.q.cmd.word 3) = s.moduleNo) :
    executeRread c ups s = (s.rreadAsked c a t).rreadOwnEnds c i (s.core c).job a t ups := by
  simp only [executeRread, hunsent, ht]
  refine (viaHubs_of_reached hreached).trans ?_
  simp only [if_pos hown]
  rfl

section
variable (hother : winModule (a.q.cmd.word 3) ≠ s.moduleNo) {v : State}
include hother

theorem executeRread_of_unreachable (hnone : (s.rreadAsked c a t).connTo (winModule (a.q.cmd.word 3)) = (v, none)) :
    executeRread c ups s =
      let u := v.asksFormed c a t 8208
      u.putActive c 5 i (({ a with streamed := 1 } : Active).fail u.now { status := .remoteUnreachable, addr := a.q.cmd.word 3 }) := by
  simp only [executeRread, hunsent, ht]
  refine (viaHubs_of_reached hreached).trans ?_
  rw [State.rreadAsked, State.rreadPlaces] at hnone
  simp only [if_neg hother, hnone]
  rfl

theorem executeRread_of_connected {n : Nat} (hconn : (s.rreadAsked c a t).connTo (winModule (a.q.cmd.word 3)) = (v, some n)) :
    executeRread c ups s =
      let q := v.asksQueued c (s.core c).job n a t
      q.1.putActive c 5 i { a with streamed := 1, messages := q.2 } := by
  simp only [executeRread, hunsent, ht]
  refine (viaHubs_of_reached hreached).trans ?_
  rw [State.rreadAsked, State.rreadPlaces] at hconn
  simp only [if_neg hother, hconn]
  rfl
end
end

section
variable {j : Nat} {w : State}

theorem rreadOwnEnds_of_read (hread : s.partsRead c j a t ups = (w, none)) :
    s.rreadOwnEnds c i j a t ups = w.putActive c 5 i (({ a with streamed := 1 } : Active).finish w.now {}) := by
  simp only [State.rreadOwnEnds, hread]

theorem rreadOwnEnds_of_refused {e : CheckErr} (hrefused : s.partsRead c j a t ups = (w, some e)) :
    s.rreadOwnEnds c i j a t ups = w.putActive c 5 i (({ a with streamed := 1 } : Active).fail w.now e) := by
  simp only [State.rreadOwnEnds, hrefused]
end
end

/-- Settles O29: the module of the window chooses between an access of its own and messages, and each ends as its parts do. -/
theorem remoteTransfersUseWindowsOrMessages : Obligations.RemoteTransfersUseWindowsOrMessages := by
  intro c s ups i a t remote j mode own
  refine ⟨?rwrite, ?rread⟩
  case rwrite =>
    intro hunsent ht xs s0 hreached
    refine ⟨fun err hrefused => ?refused,
      fun hreadable => ⟨fun hown => ?own, fun hother v hnone => ?unreachable, fun hother v n hconn => ?connected⟩⟩
    case refused => exact congrArg Host.Outcome.next (executeRwrite_of_unreadable hunsent ht hreached hrefused)
    case own =>
      have hends := executeRwrite_of_own (ups := ups) hunsent ht hreached hreadable hown
      exact ⟨fun hdone => congrArg Host.Outcome.next (hends.trans (rwriteOwnEnds_of_written (Prod.ext rfl hdone))),
        fun e hrefused => congrArg Host.Outcome.next (hends.trans (rwriteOwnEnds_of_refused (Prod.ext rfl hrefused)))⟩
    case unreachable => exact congrArg Host.Outcome.next (executeRwrite_of_unreachable hunsent ht hreached hreadable hother hnone)
    case connected => exact congrArg Host.Outcome.next (executeRwrite_of_connected hunsent ht hreached hreadable hother hconn)
  case rread =>
    intro hunsent ht xs s0 b parts sent hreached
    refine ⟨fun hown => ?own, fun hother v hnone => ?unreachable, fun hother v n hconn => ?connected⟩
    case own =>
      have hends := executeRread_of_own (ups := ups) hunsent ht hreached hown
      exact ⟨fun hdone => congrArg Host.Outcome.next (hends.trans (rreadOwnEnds_of_read (Prod.ext rfl hdone))),
        fun e hrefused => congrArg Host.Outcome.next (hends.trans (rreadOwnEnds_of_refused (Prod.ext rfl hrefused)))⟩
    case unreachable => exact congrArg Host.Outcome.next (executeRread_of_unreachable hunsent ht hreached hother hnone)
    case connected => exact congrArg Host.Outcome.next (executeRread_of_connected hunsent ht hreached hother hconn)

end Sys2Proof.Machine
end

section
/-! SUPPORT. What the transitions of scratchpad groups, held layouts and the entry of Idle come to, case by case (R200, R210, R211, R393). -/

namespace Sys2Proof.Machine

open Sys2Proof

section
variable {s : State} {c : Nat}

/-! ### Waking groups -/

@[simp] theorem change_entering (i j v : Nat) : (s.change i j v).entering = s.entering := by rw [change_eq]

@[simp] theorem setGroups_entering (f : Nat → Nat → Nat) : (s.setGroups c f).entering = s.entering := change_entering _ _ _

@[simp] theorem groupWakeEnd_entering : (groupWakeEnd c s).entering = s.entering := setGroups_entering _

theorem lowerWoken_of_upper (hupper : s.entering.all (decide <| · < 3) = true) : s.lowerWoken c = s := by
  rw [State.lowerWoken]
  split
  next goal hentering =>
    have hlow : goal < 3 := by simpa [hentering] using hupper
    exact if_neg (Nat.not_le.mpr hlow)
  next => rfl

theorem lowerWoken_of_lower {goal : Nat} (hentering : s.entering = some goal) (hlower : 3 ≤ goal) :
    s.lowerWoken c = s.lowerGroups c goal := by
  simp only [State.lowerWoken, hentering, if_pos hlower]

/-! ### Held layouts -/

/-- The test of SP_LAYOUT_APPLY: a layout is held, and its core is idle, fenced or out of service. -/
theorem layoutApplies_iff :
    (s.layoutHeld c && s.layoutFree c) = true ↔ s.get (coreObj c + 1) 1 ≠ s.layoutApplied c ∧ (s.core c).state ∈ [0, 5, 6] := by
  rw [Bool.and_eq_true, State.layoutHeld, decide_eq_true_iff, State.layoutFree, List.contains_iff_mem]

theorem spLayoutApply_of_held (hheld : s.get (coreObj c + 1) 1 ≠ s.layoutApplied c) (hfree : (s.core c).state ∈ [0, 5, 6]) :
    spLayoutApply c s = s.applyLayout c :=
  if_pos (layoutApplies_iff.mpr ⟨hheld, hfree⟩)

theorem spLayoutApply_of_kept (hkept : s.get (coreObj c + 1) 1 = s.layoutApplied c ∨ ¬ (s.core c).state ∈ [0, 5, 6]) :
    spLayoutApply c s = s :=
  if_neg fun happlies =>
    have ⟨hheld, hfree⟩ := layoutApplies_iff.mp happlies
    hkept.elim hheld fun hbusy => hbusy hfree

/-! ### Idle -/

theorem idleEntry_of_quiet (hrun : s.powerState = 0) (hstill : s.entering = none) (hquiet : (s.cores.any fun e => e.2.streams) = false) :
    idleEntry s = s.setPowerState 1 := by
  rw [idleEntry, if_neg]
  simp [hrun, hstill, hquiet]
end

/-- Settles O44: draining and scrubbing have one case each, and the power state under way, the layout's test and Idle's choose the rest. -/
theorem groupsDrainWakeAndAreScrubbed : Obligations.GroupsDrainWakeAndAreScrubbed := by
  intro c ups s
  refine ⟨rfl, ⟨fun hupper => ?wakesOn, fun goal hentering hlower => ?wakesLower⟩, fun hheld hfree => ?applies, fun hkept => ?keeps, rfl,
    fun hrun hstill hquiet => congrArg Host.Outcome.next (idleEntry_of_quiet hrun hstill hquiet)⟩
  case wakesOn =>
    have hwoken : (groupWakeEnd c s).lowerWoken c = groupWakeEnd c s :=
      lowerWoken_of_upper (by rwa [groupWakeEnd_entering])
    exact congrArg (Host.Outcome.next ∘ State.settlePower) hwoken
  case wakesLower =>
    have hwoken : (groupWakeEnd c s).lowerWoken c = (groupWakeEnd c s).lowerGroups c goal :=
      lowerWoken_of_lower (groupWakeEnd_entering.trans hentering) hlower
    exact congrArg (Host.Outcome.next ∘ State.settlePower) hwoken
  case applies => exact congrArg Host.Outcome.next (spLayoutApply_of_held hheld hfree)
  case keeps => exact congrArg Host.Outcome.next (spLayoutApply_of_kept hkept)

end Sys2Proof.Machine
end

section
/-! SUPPORT. What the rows of vertical channels, stacks, mirrors and journal partitions come to, case by case (R229 to R233, R245, R247). -/

namespace Sys2Proof.Machine

open Sys2Proof

section
variable {s : State} {k l d p : Nat}

/-- Whether a layer of a stack serves (R232, R233). -/
def State.layerServes (s : State) (k l : Nat) : Prop := s.stackLost k = false ∧ s.layerLost k l = false

/-- The test that a row of a stack's layer makes first: the stack or the layer is lost. -/
theorem layerOut_iff : (s.stackLost k || s.layerLost k l) = true ↔ ¬ s.layerServes k l := by
  rw [State.layerServes, ← Bool.or_eq_false_iff, Bool.not_eq_false]

/-! ### A failed position -/

/-- Whether a position of a direction is in use: the width reaches it, and no spare is in training for it (R229, R231). -/
def Channel.inUse (c : Channel) (p : Nat) : Prop := p < c.positions ∧ (c.pending.any (·.1 = p)) = false

/-- A direction whose link for a position has failed. -/
def Channel.failAt (c : Channel) (p : Nat) : Channel :=
  { c with failed := c.failed ++ [c.linkOf p], charges := Tab.set [] c.charges p [] }

/-- The action logged of a failed position: whether its direction's width is as it was (R364). -/
def Channel.failAction (c : Channel) (p : Nat) : Nat := if (c.failAt p).half = c.half then 0x01 else 0x02

/-- A direction that trains its next spare for a position where one is left, held where another is in training (R229, R230). -/
def Channel.trainSpare (c : Channel) (p : Nat) : Channel :=
  c.spare.elim c fun x => { c with pending := c.pending ++ [(p, x)], held := c.held || !c.pending.isEmpty }

theorem trainSpare_of_some {c : Channel} {x : Nat} (hspare : c.spare = some x) :
    c.trainSpare p = { c with pending := c.pending ++ [(p, x)], held := c.held || !c.pending.isEmpty } := by
  rw [Channel.trainSpare, hspare, Option.elim_some]

theorem trainSpare_of_none {c : Channel} (hspare : c.spare = none) : c.trainSpare p = c := by
  rw [Channel.trainSpare, hspare, Option.elim_none]

/-- The entry of the fault log that a failed position makes (R364). -/
def State.logLinkFail (s : State) (k l d p action : Nat) : State :=
  s.fault { cls := 0x03, action := action, tile := s.stackTile k, stack := k, layer := l
            detail := toLE 1 d ++ toLE 2 p ++ toLE 2 ((s.channel k l d).linkOf p) }

/-- A direction falls to half width: the fall is logged, and its positions are filled anew and held (R231). -/
def State.narrow (s : State) (k l d : Nat) (c : Channel) (cause : Nat) : State :=
  (s.fault { cls := 0x04, action := 0x02, tile := s.stackTile k, stack := k, layer := l, detail := toLE 1 d ++ toLE 2 c.good
             cause := cause }).setChannel k l d { c.halve with held := true }

/-- The width that takes the layer with it (R231, R232). -/
theorem widthOf_eq_two_iff {good : Nat} : widthOf good = 2 ↔ good < 256 := by
  rw [widthOf]
  split
  next hfull => exact iff_of_false (by decide) (by omega)
  next =>
    split
    next hhalf => exact iff_of_false (by decide) (by omega)
    next hnone => exact iff_of_true rfl (by omega)

/-- The test of COIL_LINK_FAIL: the position carries nothing that can fail. -/
theorem linkIdle_iff {c : Channel} :
    (s.stackLost k || s.layerLost k l || decide (c.positions ≤ p) || c.pending.any (·.1 = p)) = true
      ↔ ¬ (s.layerServes k l ∧ c.inUse p) := by
  rw [Bool.or_assoc, Bool.or_eq_true, layerOut_iff, Bool.or_eq_true, decide_eq_true_iff, Channel.inUse, Classical.not_and_iff_not_or_not,
    Classical.not_and_iff_not_or_not, Nat.not_lt, Bool.not_eq_false]

theorem linkFail_of_idle (hidle : ¬ (s.layerServes k l ∧ (s.channel k l d).inUse p)) : s.linkFail k l d p = s :=
  if_pos (linkIdle_iff.mpr hidle)

section
variable (hfails : s.layerServes k l ∧ (s.channel k l d).inUse p)
include hfails

theorem linkFail_of_lost (hlost : ((s.channel k l d).failAt p).good < 256) :
    s.linkFail k l d p =
      ((s.logLinkFail k l d p ((s.channel k l d).failAction p)).updChannel k l d fun _ => (s.channel k l d).failAt p).loseLayer k l 0
        s.faultNext :=
  (if_neg (mt linkIdle_iff.mp (not_not_intro hfails))).trans (if_pos (widthOf_eq_two_iff.mpr hlost))

section
variable (hkept : 256 ≤ ((s.channel k l d).failAt p).good)
include hkept

theorem linkFail_of_halved (hnow : ((s.channel k l d).failAt p).half = true) (hbefore : (s.channel k l d).half = false) :
    s.linkFail k l d p = (s.logLinkFail k l d p 0x02).narrow k l d ((s.channel k l d).failAt p) s.faultNext := by
  have haction : (s.channel k l d).failAction p = 0x02 := if_neg (by rw [hnow, hbefore]; exact Bool.noConfusion)
  have hfalls : (((s.channel k l d).failAt p).half && !(s.channel k l d).half) = true := by rw [hnow, hbefore]; rfl
  calc s.linkFail k l d p
      = (s.logLinkFail k l d p ((s.channel k l d).failAction p)).narrow k l d ((s.channel k l d).failAt p) s.faultNext :=
        (if_neg (mt linkIdle_iff.mp (not_not_intro hfails))).trans <|
          (if_neg (mt widthOf_eq_two_iff.mp (Nat.not_lt.mpr hkept))).trans (if_pos hfalls)
    _ = _ := by rw [haction]

theorem linkFail_of_sameWidth (hwidth : ((s.channel k l d).failAt p).half = (s.channel k l d).half) :
    s.linkFail k l d p = (s.logLinkFail k l d p 0x01).setChannel k l d (((s.channel k l d).failAt p).trainSpare p) := by
  have haction : (s.channel k l d).failAction p = 0x01 := if_pos hwidth
  have hstays : ¬ (((s.channel k l d).failAt p).half && !(s.channel k l d).half) = true := by simp [hwidth]
  calc s.linkFail k l d p
      = (s.logLinkFail k l d p ((s.channel k l d).failAction p)).setChannel k l d (((s.channel k l d).failAt p).trainSpare p) := by
        refine (if_neg (mt linkIdle_iff.mp (not_not_intro hfails))).trans <|
          (if_neg (mt widthOf_eq_two_iff.mp (Nat.not_lt.mpr hkept))).trans <| (if_neg hstays).trans ?_
        rw [Channel.trainSpare]
        cases hspare : ((s.channel k l d).failAt p).spare <;>
        · rw [Channel.failAt] at hspare
          rw [hspare]
          rfl
    _ = _ := by rw [haction]
end
end

/-! ### A trained spare -/

section
variable (hserves : s.layerServes k l)
include hserves

theorem swapSpare_of_pending {q x : Nat} {r : List (Nat × Nat)} (hpending : (s.channel k l d).pending = (q, x) :: r) :
    s.swapSpare k l d =
      let c := s.channel k l d
      (s.setChannel k l d { c.assign q x with pending := r, held := c.held && !r.isEmpty }).bump (0x4500 + k) 0x04 := by
  refine (if_neg (mt layerOut_iff.mp (not_not_intro hserves))).trans ?_
  rw [hpending]

theorem swapSpare_of_held (hpending : (s.channel k l d).pending = []) (hheld : (s.channel k l d).held = true) :
    s.swapSpare k l d = s.updChannel k l d fun c => { c with held := false } := by
  refine (if_neg (mt layerOut_iff.mp (not_not_intro hserves))).trans ?_
  rw [hpending]
  exact if_pos hheld

/-! ### Losses -/

theorem loseLayer_of_serving (cause follows : Nat) :
    s.loseLayer k l cause follows =
      let h := s.stackTile k
      let u := s.fault { cls := 0x05, action := 0x08, tile := h, stack := k, layer := l, detail := toLE 1 cause, cause := follows }
      let u := (u.layerGone k l).appendRepair 0x06 h (toLE 1 l ++ toLE 1 cause)
      let u := (u.showStack k).mirrorsAfterLoss
      if (u.layersUp k).isEmpty then u.loseStack k 2 s.faultNext else u :=
  if_neg fun hgone => absurd hserves (layerOut_iff.mp ((Bool.or_comm _ _).trans hgone))
end

section
variable (hlost : s.stackLost k = true)
include hlost

theorem loseStack_of_lost (cause : Byte) (follows : Nat) : s.loseStack k cause follows = s := if_pos hlost

theorem loseLayer_of_lost (cause follows : Nat) : s.loseLayer k l cause follows = s := if_pos (by rw [hlost, Bool.or_true])
end

theorem dramScrub_of_serving (hserves : s.stackLost k = false) (ups : List Upset) :
    dramScrub k ups s =
      let here (u : Upset) : Bool := spaceOf u.addr.toNat = 0 && stackOf u.addr.toNat = k && !s.locationLost u.addr.toNat
      ((ups.filter here).foldl (fun v x => v.takeUpset none x) s).bump (0x4500 + k) 0x0A :=
  if_neg (Bool.not_eq_true _ ▸ hserves)

/-! ### Mirrors and journal partitions -/

theorem mirrorResyncDone_of_copying {e q m n : Nat} (hentry : mirrorEntry (s.get 0x2700 (e + 1)) = some (q, m, n)) (hcopying : s.mirrorState e = 3) :
    mirrorResyncDone e s = (if s.mirrorSurvivor e then s.copyMem m q n else s.copyMem q m n).setMirror e 1 false := by
  rw [mirrorResyncDone, hentry]
  exact if_neg (not_not_intro hcopying)

/-- The records of a pair are written to another pair: what is read of the partition left and what is written to both is counted (R245). -/
def State.moveRecords (s : State) (p g : Nat) (moved : List Item) : State :=
  moved.foldl (fun u i => [g, g + 12].foldl (fun u q => u.countWritten (u.partitionAddr q) i.recordBytes)
    (u.count (0x4500 + u.stackOn ((p + 12) % 24)) 0x0B 64 i.recordBytes)) s

theorem journalPartitionCopy_of_lost {g : Nat} (hlost : s.partitionLost p = true) (hfirst : Tab.get false s.intake.copied p = false)
    (hpartner : s.partitionLost ((p + 12) % 24) = false) (hpair : s.choosePair = some g) :
    journalPartitionCopy p s =
      let moved := s.items.filter fun i => i.pair = p % 12
      let u := s.moveRecords p g moved
      State.fault
        { u with items := u.items.map fun i => if i.pair = p % 12 then { i with pair := g } else i
                 intake := { u.intake with nextPair := (g + 1) % 12, copied := Tab.set false u.intake.copied p true } }
        { cls := 0x16, action := 0x01, detail := toLE 1 p ++ toLE 1 g ++ toLE 4 moved.length } := by
  refine (if_neg (by simp [hlost, hfirst, hpartner])).trans ?_
  rw [hpair]
  rfl
end

/-- Settles O45: a failed position, a trained spare and a loss each have a case for what their direction, layer or stack was. -/
theorem stacksSwapSparesNarrowLoseAndReformat : Obligations.StacksSwapSparesNarrowLoseAndReformat := by
  intro s k l dir pos cause ups d p old c serves inUse logged
  refine ⟨fun hserves hinUse => ⟨fun hkept hwidth => ?same, fun hkept hnow hbefore => ?halved, fun hlost => ?narrow⟩, fun hidle => ?idle,
    fun hserves => ⟨fun q x r hpending => ?swapped, fun hpending hheld => ?released⟩, fun hserves => ?scrubbed, rfl,
    fun e q m n hentry hcopying => ?resynced, fun q g hlost hfirst hpartner hpair => ?moved, rfl, fun hserves => ?layer,
    fun hlost => ?gone⟩
  case same =>
    have hends := linkFail_of_sameWidth ⟨hserves, hinUse⟩ hkept hwidth
    exact ⟨fun x hspare => congrArg (Host.Outcome.next ∘ State.endLost) (hends.trans (congrArg _ (trainSpare_of_some hspare))),
      fun hspare => congrArg (Host.Outcome.next ∘ State.endLost) (hends.trans (congrArg _ (trainSpare_of_none hspare)))⟩
  case halved => exact congrArg (Host.Outcome.next ∘ State.endLost) (linkFail_of_halved ⟨hserves, hinUse⟩ hkept hnow hbefore)
  case narrow => exact congrArg (Host.Outcome.next ∘ State.endLost) (linkFail_of_lost ⟨hserves, hinUse⟩ hlost)
  case idle => exact congrArg (Host.Outcome.next ∘ State.endLost) (linkFail_of_idle hidle)
  case swapped => exact congrArg Host.Outcome.next (swapSpare_of_pending hserves hpending)
  case released => exact congrArg Host.Outcome.next (swapSpare_of_held hserves hpending hheld)
  case scrubbed => exact congrArg Host.Outcome.next (dramScrub_of_serving hserves ups)
  case resynced => exact congrArg Host.Outcome.next (mirrorResyncDone_of_copying hentry hcopying)
  case moved => exact congrArg Host.Outcome.next (journalPartitionCopy_of_lost hlost hfirst hpartner hpair)
  case layer => exact congrArg (Host.Outcome.next ∘ State.endLost) (loseLayer_of_serving hserves cause.toNat _)
  case gone =>
    exact ⟨congrArg (Host.Outcome.next ∘ State.endLost) (loseLayer_of_lost hlost cause.toNat _),
      congrArg (Host.Outcome.next ∘ State.endLost) (loseStack_of_lost hlost 1 _)⟩

end Sys2Proof.Machine
end

section
/-! SUPPORT. What the rows of links, hubs and requests come to, case by case (R241, R242, R253 to R255, R259, R263). -/

namespace Sys2Proof.Machine

open Sys2Proof

section
variable {s : State} {l d : Nat} {f : Flit}

/-! ### Flits -/

/-- Whether flits come over a direction: its link up and not held, both its hubs out of reset (R241, R253, R254). -/
def State.sideLive (s : State) (l d : Nat) : Prop :=
  s.linkDown l = false ∧ (s.linkSide l d).held = false ∧ s.hub (linkHubs l d).1 ≠ 1 ∧ s.hub (linkHubs l d).2 ≠ 1

/-- The flit of a SEQ that a direction's sender keeps for a resend (R253). -/
def State.keptFlit (s : State) (l d : Nat) (f : Flit) : Option Flit := (s.linkSide l d).buffer.find? fun g => g.seq = f.seq

/-- A flit is sent for the first time: its escape packet and its request are counted with its head (R253, R256, R275). -/
def State.sendFirst (s : State) (l d : Nat) (g : Flit) : State :=
  let first : Bool := carries g && g.head
  let a := if first && g.escape then s.bump 0x4603 4 else s
  let b := if first && g.vc.val = 0 && decide (g.src.toNat < 24)
    then { a with requests := Tab.upd [] a.requests g.src.toNat (· ++ [g.txn.toNat]) } else a
  b.sendFlit l d (entryPort g) g

/-- The test of FLIT_RECEIVE: nothing comes over the direction. -/
theorem sideDead_iff :
    (s.linkDown l || (s.linkSide l d).held || s.hub (linkHubs l d).1 = 1 || s.hub (linkHubs l d).2 = 1) = true ↔ ¬ s.sideLive l d := by
  simp only [State.sideLive, Bool.or_eq_true, decide_eq_true_iff, ← Bool.not_eq_true, Classical.not_and_iff_not_or_not, Classical.not_not, or_assoc, ne_eq]

theorem flitReceive_of_dead (hdead : ¬ s.sideLive l d) : flitReceive l d f s = s := if_pos (sideDead_iff.mpr hdead)

section
variable (hlive : s.sideLive l d)
include hlive

theorem flitReceive_of_kept {g : Flit} (hkept : s.keptFlit l d f = some g) :
    flitReceive l d f s = s.flitIn l d { g with crcOk := f.crcOk } := by
  refine (if_neg (mt sideDead_iff.mp (not_not_intro hlive))).trans ?_
  rw [State.keptFlit] at hkept
  rw [hkept]

section
variable (hkept : s.keptFlit l d f = none)
include hkept

theorem flitReceive_of_new (hseq : f.seq.toNat = (s.linkSide l d).next) (hopen : s.sideOpen l d = true) {g x : Flit}
    (hinjected : s.injected l d f = some g) (hlast : ((s.sendFirst l d g).linkSide l d).buffer.getLast? = some x) :
    flitReceive l d f s = (s.sendFirst l d g).flitIn l d { x with crcOk := f.crcOk } := by
  refine (if_neg (mt sideDead_iff.mp (not_not_intro hlive))).trans ?_
  rw [State.keptFlit] at hkept
  rw [hkept]
  refine (if_neg (by simp [hseq, hopen])).trans ?_
  rw [hinjected]
  rw [State.sendFirst] at hlast
  simp only [hlast]
  rfl

theorem flitReceive_of_stray (hstray : f.seq.toNat ≠ (s.linkSide l d).next ∨ s.sideOpen l d = false ∨ s.injected l d f = none) :
    flitReceive l d f s = s := by
  refine (if_neg (mt sideDead_iff.mp (not_not_intro hlive))).trans ?_
  rw [State.keptFlit] at hkept
  rw [hkept]
  refine ite_eq_left_iff.mpr fun hsent => ?_
  obtain ⟨hseq, hopen⟩ : f.seq.toNat = (s.linkSide l d).next ∧ s.sideOpen l d = true := by simpa using hsent
  have hinjected := (hstray.resolve_left (not_not_intro hseq)).resolve_left (by simp [hopen])
  rw [hinjected]
end
end

theorem flitIn_of_bad (hbad : f.crcOk = false ∨ f.seq.toNat ≠ (s.linkSide l d).expect) : s.flitIn l d f = s :=
  if_pos (by simpa using hbad)

theorem flitIn_of_expected (hcrc : f.crcOk = true) (hseq : f.seq.toNat = (s.linkSide l d).expect) :
    s.flitIn l d f =
      let u := ((s.updLink l d fun k => { k with expect := (k.expect + 1) % 256 }).updLink l (1 - d)
        fun k => (k.acked f.ack.toNat).credited f.credit.toNat).drain l (1 - d)
      if carries f then u.placeFlit (linkHubs l d).2 (inPort l d) f else u :=
  if_neg (by simp [hcrc, hseq])

/-! ### Links -/

theorem linkRetryTimeout_of_waiting (hbuffer : (s.linkSide l d).buffer ≠ []) (hfree : (s.linkSide l d).held = false) (hup : s.linkDown l = false) :
    linkRetryTimeout l d s =
      let recent := ((s.linkSide l d).retries.filter fun t => decide (s.now < t + 1000000)) ++ [s.now]
      (s.bump 0x4601 (l + 1)).updLink l d fun k =>
        { k with retries := if 4 ≤ recent.length then [] else recent, held := decide (4 ≤ recent.length) } :=
  if_neg (by simp [hbuffer, hfree, hup])

theorem linkDownReport_of_down (hdown : s.linkDown l = true) : linkDownReport l s = (s.reroute l).pumpChanges := by
  rw [linkDownReport, if_pos hdown]

theorem linkDownReport_of_up (hup : s.linkDown l = false) : linkDownReport l s = s.pumpChanges := by
  rw [linkDownReport, if_neg (Bool.not_eq_true _ ▸ hup)]
end

/-! ### Hubs -/

section
variable {s : State} {h : Nat}

/-- The test of HUB_RESET: a controller is left, the hub serves, and no reset of it is asked for. -/
theorem resetRefused_iff :
    (s.unmanaged || s.hub h ≠ 0 || Tab.get 0 s.hubResets h ≠ 0) = true
      ↔ s.unmanaged = true ∨ s.hub h ≠ 0 ∨ Tab.get 0 s.hubResets h ≠ 0 := by
  simp only [Bool.or_eq_true, decide_eq_true_iff, or_assoc]

theorem askReset_of_serving (hmanaged : s.unmanaged = false) (hserves : s.hub h = 0) (hfree : Tab.get 0 s.hubResets h = 0) (cause : Nat) :
    s.askReset h cause =
      State.askRoutes { s with hubResets := Tab.set 0 s.hubResets h (1 + cause + 512 * s.get (0x4500 + s.stackOn h) 9) } :=
  if_neg fun hrefused => by simpa [hmanaged, hserves, hfree] using resetRefused_iff.mp hrefused

theorem askReset_of_refused (hrefused : s.unmanaged = true ∨ s.hub h ≠ 0 ∨ Tab.get 0 s.hubResets h ≠ 0) (cause : Nat) :
    s.askReset h cause = s :=
  if_pos (resetRefused_iff.mpr hrefused)

theorem enterReset_of_asked (hserves : s.hub h = 0) (hasked : Tab.get 0 s.hubResets h ≠ 0) :
    s.enterReset h = State.hubRefresh { s with hubs := Tab.set 0 s.hubs h 1 } h true :=
  if_pos (by simp [hserves, hasked])
end

/-! ### Requests -/

section
variable {s : State} {r : Nat} {t : Txn} (htxn : s.txn r = some t)
include htxn

theorem retryBackoffExpiry_of_backedOff (hphase : t.phase = 1) : retryBackoffExpiry r s = s.atHub r t := by
  rw [retryBackoffExpiry, htxn]
  exact if_pos hphase

theorem transactionArrival_of_sent (hphase : t.phase = 0) : transactionArrival r s = s.atHub r t := by
  rw [transactionArrival, htxn]
  exact if_pos hphase

theorem transactionArrival_of_answered (hphase : t.phase = 2) : transactionArrival r s = s.bump 0x4603 2 := by
  rw [transactionArrival, htxn]
  exact (if_neg (by omega)).trans (if_pos hphase)

section
variable (hphase : t.phase = 0)
include hphase

theorem armatureResendTimeout_of_few (hfew : t.resends < 3) :
    armatureResendTimeout r s = (s.setTxn r (some { t with resends := t.resends + 1 })).bump 0x4603 1 := by
  rw [armatureResendTimeout, htxn]
  exact (if_neg (not_not_intro hphase)).trans (if_pos hfew)

theorem armatureResendTimeout_of_spent (hspent : 3 ≤ t.resends) :
    armatureResendTimeout r s = (s.failWaiting t (giveUpStatus t.address)).setTxn r none := by
  rw [armatureResendTimeout, htxn]
  exact (if_neg (not_not_intro hphase)).trans (if_neg (Nat.not_lt.mpr hspent))
end
end

/-- Settles O46: the sender's buffer and its next SEQ choose what a flit is; links, hubs and requests have a case for each state they are in. -/
theorem linksDeliverInOrderAndHubsResetOrReroute : Obligations.LinksDeliverInOrderAndHubsResetOrReroute := by
  intro s l dir f h r d k live kept
  refine ⟨fun hlive g hkept => ?again, fun hlive hkept hseq hopen g hinjected => ?first, fun hnone => ?none, flitIn_of_bad, flitIn_of_expected,
    fun hbuffer hfree hup => ?retried, fun wires hheld => ?mapped, fun hdown => ?down, fun hup => ?up,
    fun cause => ⟨fun hmanaged hserves hfree => ?asked, fun hrefused => ?refused⟩, enterReset_of_asked, fun ok hreset => ?ended,
    fun t htxn => ⟨fun hphase => ?backedOff, fun hphase => ?arrived, fun hphase => ?answered, fun hphase hfew => ?resent,
      fun hphase hspent => ?givenUp⟩⟩
  case again => exact congrArg Host.Outcome.next (flitReceive_of_kept hlive hkept)
  case first =>
    intro first a b u x hlast
    exact congrArg Host.Outcome.next (flitReceive_of_new hlive hkept hseq hopen hinjected hlast)
  case none =>
    by_cases hlive : s.sideLive l d
    · obtain ⟨hkept, hstray⟩ := hnone.resolve_left (not_not_intro hlive)
      exact congrArg Host.Outcome.next (flitReceive_of_stray hlive hkept hstray)
    · exact congrArg Host.Outcome.next (flitReceive_of_dead hlive)
  case retried => exact congrArg Host.Outcome.next (linkRetryTimeout_of_waiting hbuffer hfree hup)
  case mapped =>
    have htested : ¬ (!k.held) = true := by rw [hheld]; exact Bool.false_ne_true
    exact congrArg Host.Outcome.next (if_neg htested)
  case down => exact congrArg Host.Outcome.next (linkDownReport_of_down hdown)
  case up => exact congrArg Host.Outcome.next (linkDownReport_of_up hup)
  case asked => exact congrArg (Host.Outcome.next ∘ State.pumpChanges) (askReset_of_serving hmanaged hserves hfree cause.toNat)
  case refused => exact congrArg (Host.Outcome.next ∘ State.pumpChanges) (askReset_of_refused hrefused cause.toNat)
  case ended => exact congrArg (Host.Outcome.next ∘ State.pumpChanges) (if_neg (not_not_intro hreset))
  case backedOff => exact congrArg Host.Outcome.next (retryBackoffExpiry_of_backedOff htxn hphase)
  case arrived => exact congrArg Host.Outcome.next (transactionArrival_of_sent htxn hphase)
  case answered => exact congrArg Host.Outcome.next (transactionArrival_of_answered htxn hphase)
  case resent => exact congrArg Host.Outcome.next (armatureResendTimeout_of_few htxn hphase hfew)
  case givenUp => exact congrArg Host.Outcome.next (armatureResendTimeout_of_spent htxn hphase hspent)

end Sys2Proof.Machine
end

section
/-! SUPPORT. When a wait holds, what a wake notice releases, and what a deadline ends (R152, R284 to R287). -/

namespace Sys2Proof.Machine

open Sys2Proof

/-! ### When a wait holds (R284) -/

/-- The difference of two numbers, read as a signed number of w + 1 bits, is not negative where its lowest w + 1 bits lie in the lower half. -/
theorem zero_le_toInt_sub_iff (w v t : Nat) :
    0 ≤ (BitVec.ofNat (w + 1) v - BitVec.ofNat (w + 1) t).toInt ↔
      (v % 2 ^ (w + 1) + 2 ^ (w + 1) - t % 2 ^ (w + 1)) % 2 ^ (w + 1) < 2 ^ w := by
  have hbelow : t % 2 ^ (w + 1) ≤ 2 ^ (w + 1) := Nat.le_of_lt (Nat.mod_lt t (Nat.two_pow_pos _))
  rw [BitVec.toInt_pos_iff, BitVec.toNat_sub', BitVec.toNat_ofNat, BitVec.toNat_ofNat, Nat.add_sub_assoc hbelow]
  omega

section
variable {v : Nat} (target : Nat)

theorem waitHolds_of_wrong_kind {kind : Nat} (hwrong : imgKind v ≠ kind) : waitHolds v kind target = none := if_pos hwrong

theorem waitHolds_of_counter (hkind : imgKind v = 0) :
    waitHolds v 0 target = some (decide (0 ≤ (BitVec.ofNat 32 v - BitVec.ofNat 32 target).toInt)) :=
  (if_neg (not_not_intro hkind)).trans (congrArg some (decide_eq_decide.mpr (zero_le_toInt_sub_iff 31 v target).symm))

theorem waitHolds_of_barrier (hkind : imgKind v = 1) :
    waitHolds v 1 target = some (decide (0 ≤ (BitVec.ofNat 16 (bits v 32 16) - BitVec.ofNat 16 target).toInt)) := by
  have hgen : imgGen v % 2 ^ 16 = imgGen v := Nat.mod_mod _ _
  have hsigned := zero_le_toInt_sub_iff 15 (imgGen v) target
  rw [hgen] at hsigned
  exact (if_neg (not_not_intro hkind)).trans (congrArg some (decide_eq_decide.mpr hsigned.symm))

theorem waitHolds_of_flag (hkind : imgKind v = 2) : waitHolds v 2 target = some (decide (v % 2 = target)) :=
  if_neg (not_not_intro hkind)
end

/-! ### Wake notices (R284, R285, R351) -/

section
variable {s : State} {c e : Nat}

/-- The state once a wake notice has left the list, and a notice for the sequencer has ended its core's state "sequencer waiting" (R164, R285). -/
def State.woken (s : State) (c e : Nat) (w : Wake) : State :=
  let r : State := { s with wakes := s.wakes.erase w }
  if e = 0 then r.seqResume c else r

theorem wakeNotice_of_lent (hlent : s.lent c = true) : wakeNotice c e s = s := if_pos hlent

theorem wakeNotice_of_none (hnone : (s.wakes.find? fun w => w.core = c && w.engine = e) = none) : wakeNotice c e s = s := by
  simp only [wakeNotice, hnone, ite_self]

section
variable {w : Wake} (hhome : s.lent c = false) (hfirst : (s.wakes.find? fun w => w.core = c && w.engine = e) = some w)
include hhome hfirst

theorem wakeNotice_of_opcode {i : Nat} {a : Active} (hopcode : w.opcode = true)
    (hworking : ((s.woken c e w).core c).working 0 0x01 = some (i, a)) :
    wakeNotice c e s =
      if w.ok then (s.woken c e w).seqDone c a else (s.woken c e w).seqFail c a { status := .syncKind, addr := w.object } := by
  rw [wakeNotice, if_neg (Bool.eq_false_iff.mp hhome), hfirst]
  exact (if_pos hopcode).trans (withSeq_of_working hworking)

variable (hheader : w.opcode = false)
include hheader

theorem wakeNotice_of_header_met (hmet : w.ok = true) :
    wakeNotice c e s = (s.woken c e w).updHead c e fun q => { q with waitMet := true } := by
  rw [wakeNotice, if_neg (Bool.eq_false_iff.mp hhome), hfirst]
  exact (if_neg (Bool.eq_false_iff.mp hheader)).trans (if_pos hmet)

theorem wakeNotice_of_header_wrong_kind {q : Queued} {rest : List Queued} (hwrong : w.ok = false)
    (hqueue : ((s.woken c e w).core c).queue e = q :: rest) :
    wakeNotice c e s = ((s.woken c e w).popQueue c e).addStarted c e
      (({ q := q } : Active).fail (s.woken c e w).now { status := .syncKind, addr := w.object }) := by
  rw [wakeNotice, if_neg (Bool.eq_false_iff.mp hhome), hfirst]
  refine (if_neg (Bool.eq_false_iff.mp hheader)).trans <| (if_neg (Bool.eq_false_iff.mp hwrong)).trans ?_
  rw [State.woken] at hqueue
  simp only [hqueue]
  rfl
end

/-! ### Deadlines (R152, R286, R287) -/

/-- The error record of a wait that times out: the object by address, the waiter by engine, tag and PC (R287). -/
def State.timeoutError (s : State) (c e : Nat) (w : Wait) : ErrInfo :=
  let cmd := s.waiter w
  { word := statusWord cmd.opcode (if w.opcode then 1 else 0) e cmd.tag 0 Status.waitTimeout.code, pc := cmd.pc, addr := w.object
    stamp := s.now, later := (s.core c).laterErrors, header := cmd.word 0 }

/-- The state once a wait is taken away and its record kept among the last 64 timeouts (R287). -/
def State.timeoutLogged (s : State) (c : Nat) (w : Wait) (r : ErrInfo) : State :=
  let log := s.timeouts ++ [ofLE (r.bytes c (s.core c).job (s.core c).openStep)]
  { s with waits := s.waits.erase w, timeouts := log.drop (log.length - 64) }

/-- The outstanding waits of an engine that a deadline can end: their clock runs, and their object's unit is reached (R271, R286). -/
def State.mayTimeOut (s : State) (c e : Nat) (w : Wait) : Bool :=
  w.core = c && w.engine = e && w.frozen.isNone && s.stationUp (syncCore w.object)

theorem waitDeadline_of_none (hnone : s.waits.find? (s.mayTimeOut c e) = none) : waitDeadline c e s = s := by
  unfold State.mayTimeOut at hnone
  simp only [waitDeadline, hnone]

theorem waitDeadline_of_due {w : Wait} (hfirst : s.waits.find? (s.mayTimeOut c e) = some w) :
    waitDeadline c e s =
      let u : State := { s with now := max s.now w.deadline }
      let r := u.timeoutError c e w
      (((u.timeoutLogged c w r).bump 0x7000 0x02).seqResume c).coreError c r false := by
  unfold State.mayTimeOut at hfirst
  simp only [waitDeadline, hfirst]
  rfl
end

/-- Settles O7: each kind's comparison of the model is the sign of the difference at the field's width. -/
theorem waitTargetsCompareAsSigned : Obligations.WaitTargetsCompareAsSigned := by
  intro v target
  exact ⟨waitHolds_of_counter target, waitHolds_of_barrier target, waitHolds_of_flag target, fun _ => waitHolds_of_wrong_kind target⟩

/-- Settles O8: the oldest notice's own fields choose what it releases. -/
theorem wakeNoticeReleasesTheWaiter : Obligations.WakeNoticeReleasesTheWaiter := by
  intro c e s
  refine ⟨fun w hhome hfirst => ?released, fun hnothing => ?nothing⟩
  case released =>
    intro r u
    have hwoken : s.woken c e w = u := ite_congr (propext (Fin.val_eq_zero_iff (a := e))) (fun _ => rfl) fun _ => rfl
    refine ⟨fun hopcode i a hworking => ?opcode, fun hheader hmet => ?met, fun hheader hwrong q rest hqueue => ?wrongKind⟩
    case opcode =>
      have hended := wakeNotice_of_opcode hhome hfirst hopcode (hwoken ▸ hworking)
      rw [hwoken] at hended
      exact ⟨fun hmet => congrArg Host.Outcome.next (hended.trans (if_pos hmet)),
        fun hwrong => congrArg Host.Outcome.next (hended.trans (if_neg (Bool.eq_false_iff.mp hwrong)))⟩
    case met =>
      exact congrArg Host.Outcome.next (hwoken ▸ wakeNotice_of_header_met hhome hfirst hheader hmet)
    case wrongKind =>
      have hended := wakeNotice_of_header_wrong_kind hhome hfirst hheader hwrong (hwoken ▸ hqueue)
      rw [hwoken] at hended
      exact congrArg Host.Outcome.next hended
  case nothing => exact congrArg Host.Outcome.next (hnothing.elim wakeNotice_of_lent wakeNotice_of_none)

/-- Settles O9: the wait that a deadline ends is the oldest one that may time out; with none the row changes nothing. -/
theorem waitDeadlineStopsTheCore : Obligations.WaitDeadlineStopsTheCore := by
  intro c e s due
  exact ⟨fun w hfirst => ⟨congrArg Host.Outcome.next (waitDeadline_of_due hfirst), rfl⟩,
    fun hnone => congrArg Host.Outcome.next (waitDeadline_of_none hnone)⟩

end Sys2Proof.Machine
end

section
/-! SUPPORT. What the signals that stand at an object unit's ports come to (R152, R178, R279 to R285). -/

namespace Sys2Proof.Machine

open Sys2Proof

/-! ### One signal at an image (R279) -/

section
variable {v kind : Nat} (value : Nat) (gen : Option Nat)

theorem applySignal_of_wrong_kind (hwrong : imgKind v ≠ kind) : applySignal v kind value gen = (v, .kindError) := if_pos hwrong

theorem applySignal_counter (himage : imgKind v = 0) (hkind : kind = 0) :
    applySignal v kind value gen = ((v + value) % 2 ^ 32, .ok) := by
  subst hkind; exact if_neg (not_not_intro himage)

theorem applySignal_barrier (himage : imgKind v = 1) (hkind : kind = 1) : applySignal v kind value gen = arrive v gen := by
  subst hkind; exact if_neg (not_not_intro himage)

theorem applySignal_flag (himage : imgKind v = 2) (hkind : kind = 2) :
    applySignal v kind value gen = (2 * 2 ^ 62 + (if value = 0 then 0 else 1), .ok) := by
  subst hkind; exact if_neg (not_not_intro himage)
end

/-! ### One signal at its object unit -/

section
variable {s : State} {c index kind value : Nat} {gen : Option Nat} {tag : Option (Nat × Nat)}

/-- The state once a signal has set its object's image and is in the object log (R279, R367). -/
def State.signalSet (s : State) (c index kind value : Nat) (gen : Option Nat) (tag : Option (Nat × Nat)) : State :=
  (s.syncSet c index (applySignal (s.syncGet c index) kind value gen).1).logSignal c index kind value gen tag (s.syncGet c index)

theorem applyAt_of_ok (hok : (applySignal (s.syncGet c index) kind value gen).2 = .ok) :
    s.applyAt c index kind value gen tag = ((s.signalSet c index kind value gen tag).bump 0x7000 0x01, .ok) := by
  simp only [State.applyAt, hok]
  rfl

theorem applyAt_of_kindError (hwrong : (applySignal (s.syncGet c index) kind value gen).2 = .kindError) :
    s.applyAt c index kind value gen tag = (s.bump 0x7000 0x04, .kindError) := by
  simp only [State.applyAt, hwrong]

theorem applyAt_of_overrun (hover : (applySignal (s.syncGet c index) kind value gen).2 = .overrun) :
    s.applyAt c index kind value gen tag = (s.bump 0x7000 0x03, .overrun) := by
  simp only [State.applyAt, hover]

section
variable (hsync : Tab.wf 0 s.sync = true)
include hsync

theorem syncGet_signalSet :
    (s.signalSet c index kind value gen tag).syncGet c index = (applySignal (s.syncGet c index) kind value gen).1 := by
  simp only [State.signalSet, State.syncGet, logSignal_frame]
  exact Tab.get_set_same (Tab.risingFrom_of_wfFrom hsync)

theorem sync_signalSet_other {k : Nat} (hother : k ≠ syncKey c index) :
    Tab.get 0 (s.signalSet c index kind value gen tag).sync k = Tab.get 0 s.sync k := by
  simp only [State.signalSet, logSignal_frame]
  exact Tab.get_set_other (Tab.risingFrom_of_wfFrom hsync) hother
end
end

/-! ### A cycle of an object unit (R280, R285) -/

section
variable {s : State} {c : Nat}

/-- Of no object changed no wait is evaluated. -/
theorem evalWaits_nil : s.evalWaits c [] = s := by
  unfold State.evalWaits
  generalize s.waits = ws
  induction ws with
  | nil => rfl
  | cons w ws ih => rwa [List.foldl_cons, if_neg (by simp)]

theorem takeSignals_of_none {ps : List Nat} (hnone : ∀ p ∈ ps, takeSignal c p s.signals = none) : s.takeSignals c ps = (s, []) := by
  unfold State.takeSignals
  induction ps with
  | nil => rfl
  | cons p ps ih =>
    rw [List.foldl_cons, hnone p List.mem_cons_self]
    exact ih fun q hq => hnone q (List.mem_cons_of_mem p hq)

theorem setPositions_lt {n v p : Nat} (hp : p ∈ setPositions n v) : p < n := List.mem_range.mp (List.mem_filter.mp hp).1

/-- Of ports at which nothing stands a cycle takes nothing, and changes nothing. -/
theorem signalArrival_of_none {ports : Nat} (hnone : ∀ p < 5, takeSignal c p s.signals = none) : signalArrival c ports s = s := by
  have htaken : s.takeSignals c (setPositions 5 ports) = (s, []) := takeSignals_of_none fun p hp => hnone p (setPositions_lt hp)
  simp only [signalArrival, State.signalCycle, htaken, List.foldl_nil]
  exact evalWaits_nil

/-- The choice of one port. -/
theorem setPositions_port (p : Fin 5) : setPositions 5 (BitVec.ofNat 5 (2 ^ p.val)).toNat = [p.val] := by
  revert p; decide

theorem takeSignal_core {p : Nat} {l : List Signal} {g : Signal} (htaken : takeSignal c p l = some g) : g.core = c := by
  have hfound := List.find?_some htaken
  simp only [Bool.and_eq_true, decide_eq_true_eq] at hfound
  exact hfound.1

section
variable {p : Nat} {g : Signal} (htaken : takeSignal c p s.signals = some g) (hdirect : g.win = none)
include htaken hdirect

/-- One port's oldest signal, sent through no window, is applied at its object unit. -/
theorem takeSignals_of_one :
    s.takeSignals c [p] =
      let r := State.applyAt { s with signals := s.signals.erase g } c g.index g.kind g.value g.gen g.tag
      (r.1, [(g, r.2)]) := by
  have hcore := takeSignal_core htaken
  simp only [State.takeSignals, List.foldl_cons, List.foldl_nil, htaken, State.applySent, hdirect, Option.any_none, Bool.false_eq_true,
    if_false, List.nil_append, hcore]

/-- Where no wait names an object of the core, the one signal's result reaches its sender and nothing else follows. -/
theorem signalArrival_of_one {ports : Nat} (hports : setPositions 5 ports = [p]) (hquiet : ∀ w ∈ s.waits, syncCore w.object ≠ c)
    {u : State} {r : SignalResult}
    (happlied : State.applyAt { s with signals := s.signals.erase g } c g.index g.kind g.value g.gen g.tag = (u, r)) :
    signalArrival c ports s = u.signalResult g r := by
  have hwaits : u.waits = s.waits := by rw [← show _ = u from congrArg Prod.fst happlied, applyAt_waits]
  have htakes := takeSignals_of_one htaken hdirect
  rw [happlied] at htakes
  simp only [signalArrival, State.signalCycle, hports, htakes, evalWaits_none u c _ (hwaits ▸ hquiet), List.foldl_cons, List.foldl_nil]
end
end

/-! ### What reaches the sender (R152, R178, R283) -/

section
variable {u : State} {g : Signal}

theorem signalResult_header_ok {d e : Nat} {cmd : Cmd} (hsource : g.source = .header d e cmd) : u.signalResult g .ok = u := by
  simp only [State.signalResult, hsource, if_true]

theorem signalResult_header_failed {d e : Nat} {cmd : Cmd} {r : SignalResult} (hsource : g.source = .header d e cmd) (hfailed : r ≠ .ok) :
    u.signalResult g r = u.signalFailed d e cmd r.status (syncAddr g.core g.index) := by
  simp only [State.signalResult, hsource, if_neg hfailed]

section
variable {d i : Nat} {a : Active} (hsource : g.source = .opcode d) (hworking : (u.core d).working 0 0x02 = some (i, a))
include hsource hworking

theorem signalResult_opcode_ok : u.signalResult g .ok = u.seqDone d a := by
  simp only [State.signalResult, hsource]
  exact withSeq_of_working hworking

theorem signalResult_opcode_failed {r : SignalResult} (hfailed : r ≠ .ok) (happlied : r ≠ .refused) :
    u.signalResult g r = u.seqFail d a { status := r.status, addr := syncAddr g.core g.index } := by
  cases r with
  | ok => exact absurd rfl hfailed
  | refused => exact absurd rfl happlied
  | kindError => simp only [State.signalResult, hsource]; exact withSeq_of_working hworking
  | overrun => simp only [State.signalResult, hsource]; exact withSeq_of_working hworking
end
end

/-- Settles O10: one port's oldest signal is applied at its object, and the result that the image's rule gives reaches its sender. -/
theorem signalArrivalAppliesTheOldestOfAPort : Obligations.SignalArrivalAppliesTheOldestOfAPort := by
  intro c ports s
  refine ⟨rfl, fun p g hcanonical hports htaken hdirect hquiet => ?one, fun hnone => congrArg Host.Outcome.next (signalArrival_of_none hnone)⟩
  intro v y u set
  have hcore : g.core = c.val := takeSignal_core htaken
  have harrival {x : State} {r : SignalResult} (happlied : u.applyAt c g.index g.kind g.value g.gen g.tag = (x, r)) :
      exec (.signalArrival c ports) s = .next (x.signalResult g r) :=
    congrArg Host.Outcome.next (signalArrival_of_one htaken hdirect (hports ▸ setPositions_port p) hquiet happlied)
  have hok (hy : y.2 = .ok) := harrival (applyAt_of_ok hy)
  have hkindError (hy : y.2 = .kindError) := harrival (applyAt_of_kindError hy)
  have hoverrun (hy : y.2 = .overrun) := harrival (applyAt_of_overrun hy)
  refine ⟨applySignal_counter _ _, applySignal_barrier _ _, applySignal_flag _ _, applySignal_of_wrong_kind _ _,
    ⟨syncGet_signalSet (s := u) hcanonical.sync, fun k => sync_signalSet_other (s := u) hcanonical.sync⟩,
    fun d e cmd hsource => ?header, fun d i a hsource => ?opcode⟩
  case header =>
    have hfailed (x : State) {r : SignalResult} (hr : r ≠ .ok) := hcore ▸ signalResult_header_failed (u := x) hsource hr
    exact ⟨fun hy => (hok hy).trans (congrArg _ (signalResult_header_ok hsource)),
      fun hy => (hkindError hy).trans (congrArg _ (hfailed _ (by decide))),
      fun hy => (hoverrun hy).trans (congrArg _ (hfailed _ (by decide)))⟩
  case opcode =>
    have hfailed {x : State} (hworking : (x.core d).working 0 0x02 = some (i, a)) {r : SignalResult} (hr : r ≠ .ok) (hr' : r ≠ .refused) :=
      hcore ▸ signalResult_opcode_failed hsource hworking hr hr'
    exact ⟨fun hy hworking => (hok hy).trans (congrArg _ (signalResult_opcode_ok hsource hworking)),
      fun hy hworking => (hkindError hy).trans (congrArg _ (hfailed (x := u.bump 0x7000 0x04) hworking (by decide) (by decide))),
      fun hy hworking => (hoverrun hy).trans (congrArg _ (hfailed (x := u.bump 0x7000 0x03) hworking (by decide) (by decide)))⟩

end Sys2Proof.Machine
end

section
/-! SUPPORT. What a manual setting comes to: refused or applied, and always logged (R36, R290, R291). -/

namespace Sys2Proof.Machine

open Sys2Proof

/-! ### The log of manual settings (R291) -/

/-- Logging a manual setting touches the log, its count and what its event touches: no object and no wait. -/
theorem logManual_frame (s : State) (session addr old new op status : Nat) :
    (s.logManual session addr old new op status).sync = s.sync ∧ (s.logManual session addr old new op status).waits = s.waits := by
  simp only [State.logManual]
  rw [event_eq]
  exact ⟨rfl, rfl⟩

/-! ### The setting (R290) -/

section
variable {u : State} {n ports : Nat}

/-- The address that a manual setting names. -/
def State.manualAddr (u : State) : Nat := u.get 0x7010 0x01

/-- The address of a manual setting is one of an object (R290). -/
def State.manualNamesObject (u : State) : Prop :=
  spaceOf u.manualAddr = 2 ∧ addrReserved u.manualAddr = false ∧ addrOut u.manualAddr = false

/-- The state in which a manual setting finds its object: the other ports' signals of its cycle are taken, each with its result (R280). -/
def State.manualTaken (u : State) (ports : Nat) : State × List (Signal × SignalResult) :=
  u.takeSignals (syncCore u.manualAddr) (setPositions 5 ports)

/-- The image that a manual setting meets. -/
def State.manualBefore (u : State) (ports : Nat) : Nat :=
  (u.manualTaken ports).1.syncGet (syncCore u.manualAddr) (syncIndex u.manualAddr)

/-- What a manual setting amounts to at the image that it meets. -/
def State.manualKind (u : State) (ports : Nat) : Option (Nat × Nat) :=
  manualSignal (u.manualBefore ports) (u.get 0x7010 0x02) (u.get 0x7010 0x03)

/-- A manual setting that is refused with a status, its object's image as it stands. -/
def State.manualRefused (u : State) (n image status : Nat) : State × Nat :=
  (u.logManual (n + 1) u.manualAddr image image (u.get 0x7010 0x02) status, status)

/-- A manual setting that is accepted: made at the object as the ports have left it, then logged with the old and new images (R280, R291). -/
def State.manualAccepted (u : State) (n ports : Nat) (k : Nat × Nat) : State × Nat :=
  let i := syncIndex u.manualAddr
  let op := u.get 0x7010 0x02
  let before := u.manualBefore ports
  (((u.manualTaken ports).1.setByHand (syncCore u.manualAddr) i k op (u.manualTaken ports).2).logManual (n + 1) u.manualAddr before
    (LogEntry.apply ⟨i, k.1, k.2, none, none, u.now⟩ before).1 op 0, 0)

/-- The model's test of the address. -/
theorem manualNamesObject_iff :
    (spaceOf (u.get 0x7010 0x01) = 2 && !addrReserved (u.get 0x7010 0x01) && !addrOut (u.get 0x7010 0x01)) = true ↔ u.manualNamesObject := by
  simp only [State.manualNamesObject, State.manualAddr, Bool.and_eq_true, decide_eq_true_eq, Bool.not_eq_true', and_assoc]

theorem manualApply_of_no_object (hno : ¬ u.manualNamesObject) : u.manualApply n ports = u.manualRefused n 0 0x07 := by
  have hguard := Bool.eq_false_iff.mpr (mt manualNamesObject_iff.mp hno)
  simp only [State.manualApply, hguard]
  rfl

section
variable (hobject : u.manualNamesObject)
include hobject

/-- A manual setting of an object, by the tests of R290 in the model's order: the kind, then the job. -/
theorem manualApply_of_object :
    u.manualApply n ports =
      let old := u.syncGet (syncCore u.manualAddr) (syncIndex u.manualAddr)
      (u.manualKind ports).elim (u.manualRefused n old 0x07) fun k =>
        if u.hasRunningJob (syncCore u.manualAddr) = false then u.manualRefused n old 0x09 else u.manualAccepted n ports k := by
  simp only [State.manualApply, manualNamesObject_iff.mpr hobject, Bool.not_true, Bool.false_eq_true, if_false, if_true,
    Bool.not_eq_true']
  unfold State.manualKind State.manualBefore State.manualTaken State.manualAddr
  split
  next hwrong => rw [hwrong]; rfl
  next k hkind => rw [hkind]; rfl

theorem manualApply_of_wrong_kind (hwrong : u.manualKind ports = none) :
    u.manualApply n ports = u.manualRefused n (u.syncGet (syncCore u.manualAddr) (syncIndex u.manualAddr)) 0x07 := by
  rw [manualApply_of_object hobject, hwrong]
  rfl

variable {k : Nat × Nat} (hkind : u.manualKind ports = some k)
include hkind

theorem manualApply_of_no_job (hidle : u.hasRunningJob (syncCore u.manualAddr) = false) :
    u.manualApply n ports = u.manualRefused n (u.syncGet (syncCore u.manualAddr) (syncIndex u.manualAddr)) 0x09 := by
  rw [manualApply_of_object hobject, hkind]
  exact if_pos hidle

theorem manualApply_of_running (hruns : u.hasRunningJob (syncCore u.manualAddr) = true) :
    u.manualApply n ports = u.manualAccepted n ports k := by
  rw [manualApply_of_object hobject, hkind]
  exact if_neg (Bool.not_eq_false _ ▸ hruns)
end
end

/-! ### The rows (R36, R290) -/

/-- A row of a manual operation that manual_op names: an admitted write of manual_apply is answered with the setting's status, and then the setting is
made. -/
theorem exec_manual {s t : State} {q : Req} {n op : Nat} {ports : BitVec 5} {x : Instr} (hx : exec x s = .next (s.manualRow q ports.toNat op))
    (hop : s.get 0x7010 0x02 = op) (hadmits : s.admitsWrite q 0x7010 0x04 [1] = some (n, t)) :
    exec x s = .next
      ((t.replied n q 0x7010 0x04 [1] ((t.noteWrite n).manualApply n ports.toNat).2).manualApply n ports.toNat).1 := by
  rw [hx, State.manualRow, if_pos hop, writeRow_cmd { ports := ports.toNat } hadmits (by decide) (by decide) (by decide) (by decide)]
  rfl

/-- Settles O33: the operation that manual_op names chooses the row, and R290's tests, in their order, choose what the setting comes to. -/
theorem manualSettingsAreLoggedAndApplied : Obligations.ManualSettingsAreLoggedAndApplied := by
  intro q ports s n t hadmits done
  refine ⟨fun hop => exec_manual rfl hop hadmits, fun hop => exec_manual rfl hop hadmits, fun hop => exec_manual rfl hop hadmits,
    fun hop => exec_manual rfl hop hadmits, fun hop => exec_manual rfl hop hadmits, fun u => ?setting⟩
  exact ⟨fun hobject k hkind hruns => manualApply_of_running hobject hkind hruns,
    fun hobject k hkind hidle => manualApply_of_no_job hobject hkind hidle,
    fun hobject hwrong => manualApply_of_wrong_kind hobject hwrong, fun hno => manualApply_of_no_object hno,
    fun a old new op status => logManual_frame u (n + 1) a old new op status⟩

end Sys2Proof.Machine
end

section
/-! SUPPORT. What a read of one object by its own row comes to, and what a read of an object that restarts leaves (R43, R299, R321, R385). -/

namespace Sys2Proof.Machine

open Sys2Proof

section
variable {s t : State} {q : Req} {n idx sub : Nat}

/-! ### A row that reads one object -/

theorem index_reqUnit {service : Nat} {data : Bytes} (hidx : idx < 65536) : (reqUnit q service idx sub data).index.toNat = idx :=
  (BitVec.toNat_ofNat idx 16).trans (Nat.mod_eq_of_lt hidx)

theorem subindex_reqUnit {service : Nat} {data : Bytes} (hsub : sub < 256) : (reqUnit q service idx sub data).subindex.toNat = sub :=
  (BitVec.toNat_ofNat sub 8).trans (Nat.mod_eq_of_lt hsub)

/-- What a read finds with status 0 is listed. -/
theorem objRow_of_readStatus {type : Nat} (hok : t.readStatus n idx sub type = 0) : ∃ r, objRow idx sub = some r := by
  cases hrow : objRow idx sub with
  | some r => exact ⟨r, rfl⟩
  | none =>
    simp only [State.readStatus, hrow] at hok
    split at hok <;> contradiction

theorem readRow_read (f : Found) (hadmits : s.admits q.src (reqUnit q 0x01 idx sub []) = some (n, t)) :
    s.readRow f q 0x01 idx sub = t.serveRead f n q.src (reqUnit q 0x01 idx sub []) :=
  receive_admits (act := fun n s => s.serveRead f n q.src (reqUnit q 0x01 idx sub [])) hadmits rfl rfl

theorem readRow_readInit (f : Found) (hadmits : s.admits q.src (reqUnit q 0x03 idx sub []) = some (n, t)) :
    s.readRow f q 0x03 idx sub = t.serveReadInit f n q.src (reqUnit q 0x03 idx sub []) :=
  receive_admits (act := fun n s => s.serveReadInit f n q.src (reqUnit q 0x03 idx sub [])) hadmits rfl rfl

/-! ### Least voltages (R385) -/

theorem readVoltage_length (present : Nat) : (t.readVoltage idx sub present).2.length = 16 := by
  simp only [State.readVoltage, List.length_append, toLE_length]

theorem readVoltage_restarts (present : BitVec 32) :
    (t.readVoltage idx sub present.toNat).1 = { t with fresh := t.fresh + 2 }.put idx sub (t.now + present.toNat * 2 ^ 64) := by
  simp only [State.readVoltage, Nat.mod_eq_of_lt present.isLt]

theorem readObject_voltage (f : Found) (r : ObjRow) (maquette : Bool) (hidx : idx = 0x3030 ∨ idx = 0x3031) :
    t.readObject f r idx sub maquette = t.readVoltage idx sub f.present := by
  have hother : ¬ (idx = 0x1080 ∧ sub = 1) := by omega
  simp only [State.readObject, if_neg hother, if_pos hidx]

/-- A segmented read of a least voltage that has status 0: the record's 16 bytes go out as a transfer. -/
theorem serveReadInit_voltage (f : Found) (hidx : idx = 0x3030 ∨ idx = 0x3031) (hsub : sub < 256) (hok : t.readStatus n idx sub 0 = 0) :
    let u := reqUnit q 0x03 idx sub []
    let x := t.readVoltage idx sub f.present
    let y := x.1.sendUnit q.src (replyTo q.src u 0 16 [])
    t.serveReadInit f n q.src u = (y.addTransfer n { txn := q.txn.toNat, write := false, index := idx, sub := sub, total := 16, data := x.2
                                                     next := 0, acked := 0, resends := 0, active := y.now }).pumpRead n q.txn.toNat 4 := by
  intro u x y
  obtain ⟨r, hrow⟩ := objRow_of_readStatus hok
  have hindex : u.index.toNat = idx := index_reqUnit (by omega)
  have hsubindex : u.subindex.toNat = sub := subindex_reqUnit hsub
  have hread : t.readObject f r idx sub u.maquette = x := readObject_voltage f r _ hidx
  have hlength : x.2.length = 16 := readVoltage_length _
  have hfull : x.2 ≠ [] := List.ne_nil_of_length_pos (hlength ▸ by decide)
  rw [serveReadInit_of_listed f (hindex.symm ▸ hsubindex.symm ▸ hrow), hindex, hsubindex]
  simp only [hread, hlength, if_neg hfull]
  exact if_neg (not_not_intro hok)

/-! ### rx_buffer_peak (R299, R321) -/

theorem size_bufferPeak (p : PortId) : (objRow (portObj p) 0x08).map (fun r => (r.type, r.size)) = some (.u32, 4) := by
  revert p; decide

/-- No field of the state beside the dictionary's holds an object of a port. -/
theorem viewField_port {i j : Nat} (hlo : 0x6000 ≤ i) (hhi : i < 0x6800) : t.viewField i j = none := by
  simp only [State.viewField]
  rw [if_neg (by omega), if_neg (by omega), if_neg (by omega), if_neg (by omega), if_neg (by omega)]
  split
  case h_12 => rfl
  all_goals omega

theorem viewLog_port {i j : Nat} (hlo : 0x6000 ≤ i) (hhi : i < 0x6800) : t.viewLog i j = none := by
  simp only [State.viewLog]
  split
  case h_11 => rfl
  all_goals omega

theorem viewMonitor_port {i j : Nat} (hlo : 0x6000 ≤ i) : t.viewMonitor i j = none := if_neg (by omega)

theorem shown_bufferPeak {r : ObjRow} (p : PortId) (hrow : objRow (portObj p) 0x08 = some r) :
    t.shown r (portObj p) 0x08 false = toLE 4 (t.get (portObj p) 0x08) := by
  have hp := p.isLt
  have hlo : 0x6000 ≤ portObj p := by unfold portObj; omega
  have hhi : portObj p < 0x6800 := by unfold portObj; omega
  obtain ⟨htype, hsize⟩ : r.type = .u32 ∧ r.size = 4 := by
    simpa only [hrow, Option.map_some, Option.some.injEq, Prod.mk.injEq] using size_bufferPeak p
  have hchain : portObj p ≠ 0x1041 := by omega
  simp only [State.shown, viewMonitor_port hlo, if_neg hchain, State.viewBytes, viewLog_port hlo hhi, State.view, viewField_port hlo hhi,
    Bool.false_and, Bool.false_eq_true, if_false, Option.getD_none, ObjRow.bytes, htype, hsize]

theorem readObject_bufferPeak {r : ObjRow} (f : Found) (p : PortId) (hrow : objRow (portObj p) 0x08 = some r) :
    t.readObject f r (portObj p) 0x08 false = (t.put (portObj p) 0x08 (t.bufferUsed p), toLE 4 (t.get (portObj p) 0x08)) := by
  have hp := p.isLt
  have hindex : portObj p = 0x6000 + 0x40 * p.val := rfl
  have hport : (portObj p - 0x6000) / 0x40 = p.val := by omega
  simp only [State.readObject, shown_bufferPeak p hrow]
  rw [if_neg (by omega), if_neg (by omega), if_pos ⟨by omega, by omega, by omega, trivial⟩, hport]

theorem serveRead_bufferPeak (f : Found) (p : PortId) (hok : t.readStatus n (portObj p) 0x08 0 = 0) :
    let u := reqUnit q 0x01 (portObj p) 0x08 []
    t.serveRead f n q.src u = (t.put (portObj p) 0x08 (t.bufferUsed p)).answer n q.src u
      (replyTo q.src u 0 0 (toLE 4 (t.get (portObj p) 0x08))) := by
  intro u
  obtain ⟨r, hrow⟩ := objRow_of_readStatus hok
  have hp := p.isLt
  have hindex : u.index.toNat = portObj p := index_reqUnit (by unfold portObj; omega)
  have hsubindex : u.subindex.toNat = 0x08 := subindex_reqUnit (by decide)
  have hshown : t.shown r (portObj p) 0x08 u.maquette = toLE 4 (t.get (portObj p) 0x08) := shown_bufferPeak p hrow
  have hread : t.readObject f r (portObj p) 0x08 u.maquette = _ := readObject_bufferPeak f p hrow
  rw [serveRead_of_listed f (hindex.symm ▸ hsubindex.symm ▸ hrow), hindex, hsubindex]
  simp only [hshown, hread, toLE_length, if_neg (show ¬ 8 < 4 by decide)]
  exact if_neg (not_not_intro hok)
end

/-- Settles O40: an admitted read of an object that restarts is served by its row, which answers the record as it stood and begins it anew. -/
theorem restartingReadsReturnAndRestart : Obligations.RestartingReadsReturnAndRestart := by
  intro q s n t
  refine ⟨fun whole point present => ?voltage, fun p => ?peak⟩
  case voltage =>
    intro idx u hpoint hadmits hok x y
    have hidx : idx = 0x3030 ∨ idx = 0x3031 := by
      cases whole with
      | false => exact .inl rfl
      | true => exact .inr rfl
    have hserved := serveReadInit_voltage (q := q) { present := present.toNat } hidx (by omega) hok
    exact ⟨congrArg Host.Outcome.next ((readRow_readInit _ hadmits).trans hserved), readVoltage_restarts present, readVoltage_length _⟩
  case peak =>
    intro u hadmits hok
    exact congrArg Host.Outcome.next ((readRow_read {} hadmits).trans (serveRead_bufferPeak {} p hok))

end Sys2Proof.Machine
end

section
/-! SUPPORT. What the rows of a port's link come to, case by case: training, lanes that fail, the host role, station resets (R295, R296, R298,
R313). -/

namespace Sys2Proof.Machine

open Sys2Proof

section
variable {s : State} {p : Nat}

/-! ### A link that comes up (R295, R296, R298) -/

/-- Whether a port is H0 without its host role (R298). -/
def State.roleAway (s : State) (p : Nat) : Prop := p = 0 ∧ (s.portOf 0).roleMoved = true

/-- A port as its link comes up: trained, where it has no mode yet. -/
def State.withMode (s : State) (p : Nat) : State := if s.get (portObj p) 0x02 = 0 then s.trainPort p else s

theorem roleAway_iff : (p = 0 && (s.portOf 0).roleMoved) = true ↔ s.roleAway p := by
  simp only [State.roleAway, Bool.and_eq_true, decide_eq_true_eq]

theorem portLinkUp_away (haway : s.roleAway p) : portLinkUp p s = s.updPort 0 fun q => { q with ready := true } :=
  if_pos (roleAway_iff.mpr haway)

section
variable (hhere : ¬ s.roleAway p)
include hhere

theorem portLinkUp_up (hup : s.portUp p = true) : portLinkUp p s = s :=
  (if_neg (mt roleAway_iff.mp hhere)).trans (if_pos hup)

theorem portLinkUp_down (hdown : s.portUp p = false) :
    portLinkUp p s =
      let m := (s.withMode p).get (portObj p) 0x02
      let v := (s.withMode p).updPort p fun q => { q with afterReset := false }
      if m = 0 then s.withMode p
      else ((v.change (portObj p) 0x01 (if m = v.portMode p then 2 else 3)).portCameUp p).roleStands p :=
  (if_neg (mt roleAway_iff.mp hhere)).trans (if_neg (Bool.eq_false_iff.mp hdown))
end

/-! ### Lanes (R295) -/

/-- Whether a lane that fails was good at a port that trains or is up. -/
def State.laneServes (s : State) (p lane : Nat) : Prop := s.portState p ∈ [1, 2, 3] ∧ bit (s.get (portObj p) 0x03) lane = true

theorem laneServes_iff {lane : Nat} :
    (!bit (s.get (portObj p) 0x03) lane || s.portState p = 0 || 4 ≤ s.portState p) = true ↔ ¬ s.laneServes p lane := by
  have hstates : s.portState p ∈ [1, 2, 3] ↔ ¬ (s.portState p = 0 ∨ 4 ≤ s.portState p) := by
    simp only [List.mem_cons, List.not_mem_nil, or_false]; omega
  simp only [State.laneServes, hstates, Bool.or_eq_true, Bool.not_eq_true', decide_eq_true_eq, Classical.not_and_iff_not_or_not,
    Classical.not_not, Bool.not_eq_true, or_assoc]
  rw [or_comm, or_assoc]

theorem laneFail_idle {lane : Nat} (hidle : ¬ s.laneServes p lane) : laneFail p lane s = s := if_pos (laneServes_iff.mpr hidle)

theorem laneFail_serving {lane : Nat} (hserves : s.laneServes p lane) :
    laneFail p lane s =
      let used := s.laneUsed p lane
      let u := s.put (portObj p) 0x03 (setBit (s.get (portObj p) 0x03) lane false)
      let m := if used then u.modeWithout p else some (u.get (portObj p) 0x02, (u.portOf p).highGroup)
      let v := (u.fault { cls := 0x11, action := if used && m.isSome then 0x02 else 0x00, port := p
                          detail := toLE 1 lane ++ toLE 1 ((m.map (·.1)).getD 0) }).countRare (portObj p) 0x0A
      if used then v.trainIn p m else v :=
  if_neg (mt laneServes_iff.mp (not_not_intro hserves))

/-! ### Links that stay down (R295, R298, R313) -/

theorem portDownTimeout_training (htrains : s.portState p = 1) :
    portDownTimeout p s =
      let u : State := { s with now := max s.now ((s.portOf p).downSince + (if (s.portOf p).afterReset then 20000000 else 10000000)) }
      (u.change (portObj p) 0x01 (if (s.portOf p).afterReset then 4 else 0)).watch :=
  if_neg (not_not_intro htrains)

theorem portDownTimeout_other (hother : s.portState p ≠ 1) : portDownTimeout p s = s := if_pos hother

theorem hostRoleMove_of_down (hallowed : s.get 0x2600 0x0A ≠ 0) (hhere : (s.portOf 0).roleMoved = false) (hdown : s.portUp 0 = false)
    (hmode : s.portMode 0 ≠ 0) :
    hostRoleMove s =
      let u : State := if s.portState 0 = 4 then s else { s with now := max s.now ((s.portOf 0).downSince + 10000000) }
      (((u.leaveUp 1 0).dropPort 0).updPort 0 fun q => { q with roleMoved := true }).trainPort 1 := by
  simp only [hostRoleMove, hallowed, hhere, hdown, hmode, decide_false, Bool.or_self, Bool.false_eq_true, if_false]

theorem ringStationReset_managed {cause : Nat} (hmanaged : s.unmanaged = false) :
    ringStationReset p cause s =
      let u := (s.fault { cls := 0x12, action := 0x01, port := p, detail := toLE 1 cause }).countRare (portObj p) 0x0B
      let v := if u.portState p = 5 then u else u.leaveUp p 0
      let w := v.updPort p fun q => { q with buffer := [], transmit := [], paused := [], xoff := false, afterReset := true, ready := false }
      if u.portState p = 5 then w else w.trainPort p := by
  simp only [ringStationReset, hmanaged, Bool.false_eq_true, if_false]
end

/-- Settles O47: the port's state, mode, lanes and host role choose the case of each row of its link. -/
theorem portsTrainMoveAndFail : Obligations.PortsTrainMoveAndFail := by
  intro s p lane cause
  refine ⟨⟨fun hhere hdown hmode => ?comesUp, fun hhere hdown hmode => ?noMode⟩, fun haway => ?ready, fun hhere hup => ?up,
    fun hstate hlane => ?laneFails, fun hidle => ?laneIdle, fun htrains => ?timeOut, fun hother => ?noTimeOut,
    fun hallowed hhere hdown hmode => ?roleMoves, fun hmanaged => ?stationReset⟩
  case comesUp => exact congrArg Host.Outcome.next ((portLinkUp_down hhere hdown).trans (if_neg hmode))
  case noMode => exact congrArg Host.Outcome.next ((portLinkUp_down hhere hdown).trans (if_pos hmode))
  case ready => exact congrArg Host.Outcome.next (portLinkUp_away haway)
  case up => exact congrArg Host.Outcome.next (portLinkUp_up hhere hup)
  case laneFails => exact congrArg Host.Outcome.next (laneFail_serving ⟨hstate, hlane⟩)
  case laneIdle => exact congrArg Host.Outcome.next (laneFail_idle hidle)
  case timeOut => exact congrArg Host.Outcome.next (portDownTimeout_training htrains)
  case noTimeOut => exact congrArg Host.Outcome.next (portDownTimeout_other hother)
  case roleMoves => exact congrArg Host.Outcome.next (hostRoleMove_of_down hallowed hhere hdown hmode)
  case stationReset => exact congrArg Host.Outcome.next (ringStationReset_managed hmanaged)

end Sys2Proof.Machine
end

section
/-! SUPPORT. What a frame, a flow-control frame and the timers of flow control come to at a port, case by case (R297, R299, R300, R314, R321). -/

namespace Sys2Proof.Machine

open Sys2Proof

/-! ### Frames at a high-speed port (R297, R299, R304, R305) -/

section
variable {s : State} {p : Nat} {f : Frame}

theorem frameReceive_down (hdown : s.portUp p = false) : frameReceive p f s = s := by
  simp only [frameReceive, hdown, Bool.not_false, if_true]

/-- A port that has counted a frame and its FEC codewords. -/
def State.frameCounted (s : State) (p : Nat) (f : Frame) : State :=
  ((s.bump (portObj p) 0x06).count (portObj p) 0x04 64 f.fecCorrected.toNat).count (portObj p) 0x05 64 f.fecUncorrected.toNat

/-- A frame that carries no packet for the transport passes through the buffer. -/
def State.passFrame (s : State) (p n : Nat) : State := (s.bufferFrame p n none).unbufferFrame p n

section
variable (hup : s.portUp p = true) (hfast : p < 17)
include hup hfast

theorem frameReceive_fast :
    frameReceive p f s =
      let u := s.frameCounted p f
      if !f.fcsOk || decide (bufferBytes < u.bufferUsed p + cellsOf f.length.toNat) then u.bump (portObj p) 0x07
      else u.takeIn p f.length.toNat f.kind :=
  (if_neg (Bool.eq_false_iff.mp (congrArg not hup))).trans (if_neg (Nat.not_le.mpr hfast))

theorem frameReceive_dropped (hbad : f.fcsOk = false ∨ bufferBytes < (s.frameCounted p f).bufferUsed p + cellsOf f.length.toNat) :
    frameReceive p f s = (s.frameCounted p f).bump (portObj p) 0x07 := by
  have hlost : (!f.fcsOk || decide (bufferBytes < (s.frameCounted p f).bufferUsed p + cellsOf f.length.toNat)) = true := by
    simpa only [Bool.or_eq_true, Bool.not_eq_true', decide_eq_true_eq] using hbad
  exact (frameReceive_fast hup hfast).trans (if_pos hlost)

theorem frameReceive_taken (hgood : f.fcsOk = true) (hroom : (s.frameCounted p f).bufferUsed p + cellsOf f.length.toNat ≤ bufferBytes) :
    frameReceive p f s = (s.frameCounted p f).takeIn p f.length.toNat f.kind := by
  have hkept : (!f.fcsOk || decide (bufferBytes < (s.frameCounted p f).bufferUsed p + cellsOf f.length.toNat)) = false := by
    simpa only [hgood, Bool.not_true, Bool.false_or, decide_eq_false_iff_not, Nat.not_lt] using hroom
  exact (frameReceive_fast hup hfast).trans (if_neg (Bool.eq_false_iff.mp hkept))
end

section
variable {n : Nat} {port : BitVec 16} {a : Arrival}

theorem takeIn_udp_foreign (hip4 : a.source = none) (hfabric : p ≠ s.hostPort) : s.takeIn p n (.udp port a) = s.bump (portObj p) 0x07 := by
  simp only [State.takeIn, hip4, hfabric, Option.isNone_none, ne_eq, not_false_eq_true, decide_true, Bool.and_self, if_true]

section
variable (hown : ¬ (a.source = none ∧ p ≠ s.hostPort))
include hown

theorem takeIn_udp :
    s.takeIn p n (.udp port a) =
      if port.toNat ≠ s.get (0x2600 + p) 0x05 then s.passFrame p n
      else if knownType a.packet.type.toNat then s.bufferFrame p n (some a) else (s.passFrame p n).dropPacket p := by
  have htaken : (a.source.isNone && p ≠ s.hostPort) = false := by
    simpa only [Bool.eq_false_iff, ne_eq, Bool.and_eq_true, Option.isNone_iff_eq_none, decide_eq_true_eq] using hown
  simp only [State.takeIn, htaken, Bool.false_eq_true, if_false, State.passFrame]

theorem takeIn_udp_other (hother : port.toNat ≠ s.get (0x2600 + p) 0x05) : s.takeIn p n (.udp port a) = s.passFrame p n :=
  (takeIn_udp hown).trans (if_pos hother)

section
variable (hctp : port.toNat = s.get (0x2600 + p) 0x05)
include hctp

theorem takeIn_udp_packet (hknown : knownType a.packet.type.toNat = true) : s.takeIn p n (.udp port a) = s.bufferFrame p n (some a) :=
  (takeIn_udp hown).trans ((if_neg (not_not_intro hctp)).trans (if_pos hknown))

theorem takeIn_udp_unknown (hunknown : knownType a.packet.type.toNat = false) :
    s.takeIn p n (.udp port a) = (s.passFrame p n).bump (portObj p) 0x0D :=
  (takeIn_udp hown).trans ((if_neg (not_not_intro hctp)).trans (if_neg (Bool.eq_false_iff.mp hunknown)))
end
end
end

/-! ### Field frames at a management port (R314) -/

section
variable (hup : s.portUp p = true) (hslow : 17 ≤ p)
include hup hslow

section
variable {form : BitVec 8} (hkind : f.kind = .field form)
include hkind

theorem frameReceive_field :
    frameReceive p f s =
      let u := s.bump (portObj p) 0x06
      if f.fcsOk && u.answersAt p f.dest.toNat && [0x01, 0xE0, 0xE1].contains form.toNat then u else u.bump (portObj p) 0x07 := by
  simp only [frameReceive, hup, Bool.not_true, Bool.false_eq_true, if_false, if_pos hslow, hkind]

theorem frameReceive_field_taken (hgood : f.fcsOk = true)
    (hdest : (s.bump (portObj p) 0x06).answersAt p f.dest.toNat = true) (hform : form.toNat ∈ [0x01, 0xE0, 0xE1]) :
    frameReceive p f s = s.bump (portObj p) 0x06 := by
  have hlisted : [0x01, 0xE0, 0xE1].contains form.toNat = true := List.elem_eq_true_of_mem hform
  simp only [frameReceive_field hup hslow hkind, hgood, hdest, hlisted, Bool.and_self, if_true]

theorem frameReceive_field_dropped
    (hbad : f.fcsOk = false ∨ (s.bump (portObj p) 0x06).answersAt p f.dest.toNat = false ∨ form.toNat ∉ [0x01, 0xE0, 0xE1]) :
    frameReceive p f s = (s.bump (portObj p) 0x06).bump (portObj p) 0x07 := by
  have hlost : (f.fcsOk && (s.bump (portObj p) 0x06).answersAt p f.dest.toNat && [0x01, 0xE0, 0xE1].contains form.toNat) = false := by
    simpa only [Bool.and_eq_false_iff, List.contains_eq_mem, decide_eq_false_iff_not, or_assoc] using hbad
  simp only [frameReceive_field hup hslow hkind, hlost, Bool.false_eq_true, if_false]
end

theorem frameReceive_foreign (hkind : ∀ form, f.kind ≠ .field form) :
    frameReceive p f s = (s.bump (portObj p) 0x06).bump (portObj p) 0x07 := by
  cases hk : f.kind with
  | field form => exact absurd hk (hkind form)
  | _ => simp only [frameReceive, hup, Bool.not_true, Bool.false_eq_true, if_false, if_pos hslow, hk]
end
end

/-! ### Flow control (R300) -/

section
variable {s : State} {p : Nat} {w : FlowFrame}

theorem pauseReceive_down (hdown : s.portUp p = false) : pauseReceive p w s = s := by
  simp only [pauseReceive, hdown, Bool.not_false, if_true]

theorem pauseReceive_up (hup : s.portUp p = true) :
    pauseReceive p w s =
      let u := s.bump (portObj p) 0x06
      if p = u.hostPort then u.heedFlow p w else u.bump (portObj p) 0x07 := by
  simp only [pauseReceive, hup, Bool.not_true, Bool.false_eq_true, if_false]

/-- A pause of a number of quanta begins for a priority, 8 for all; one of 0 quanta ends it. -/
def State.pauseFor (s : State) (p i q : Nat) (u : State) : State :=
  u.updPort p fun x => { x with paused := Tab.set 0 x.paused i (if q = 0 then 0 else s.now + max 1 (q * 512 / modeRate (s.get (portObj p) 0x02))) }

theorem heedFlow_off (hoff : s.get 0x2600 0x06 = 0) : s.heedFlow p w = s.resumePort p := by
  simp only [State.heedFlow, State.pausesOf, hoff, List.foldl_nil]

theorem heedFlow_pause {q : BitVec 16} (hpause : s.get 0x2600 0x06 = 1) :
    s.heedFlow p (.pause q) = (s.pauseFor p 8 q.toNat s).resumePort p := by
  simp only [State.heedFlow, State.pausesOf, hpause, List.foldl_cons, List.foldl_nil, State.pauseFor]

theorem heedFlow_pfc {e : BitVec 8} {ts : List (BitVec 16)} (hpfc : s.get 0x2600 0x06 = 2) :
    s.heedFlow p (.pfc e ts) = (((setPositions 8 e.toNat).filter fun i => bit (s.get 0x2600 0x07) i).foldl
      (fun u i => s.pauseFor p i (ts.getD i 0).toNat u) s).resumePort p := by
  simp only [State.heedFlow, State.pausesOf, hpfc, List.foldl_map, State.pauseFor]

theorem pauseExpiry_none (hnone : (s.portOf p).paused = []) : pauseExpiry p s = s := by
  simp only [pauseExpiry, hnone, List.map_nil]

theorem pauseExpiry_first {e : Nat × Nat} {r : List (Nat × Nat)} (hpaused : (s.portOf p).paused = e :: r) :
    pauseExpiry p s =
      let T := (r.map (·.2)).foldl min e.2
      (({ s with now := max s.now T } : State).updPort p fun q => { q with paused := q.paused.filter fun x => decide (T < x.2) }).resumePort p := by
  simp only [pauseExpiry, hpaused, List.map_cons]

theorem xoffRefresh_none (hnone : (s.portOf p).xoff = false) : xoffRefresh p s = s := by
  simp only [xoffRefresh, hnone, Bool.not_false, if_true]

theorem xoffRefresh_sent (hsent : (s.portOf p).xoff = true) :
    xoffRefresh p s =
      if 8 * 2 ^ 20 < s.bufferUsed p then (s.emit (.xoff p s.flowPriorities)).bump (portObj p) 0x09 else s.sendXon p := by
  simp only [xoffRefresh, hsent, Bool.not_true, Bool.false_eq_true, if_false]
end

/-- Settles O48: the state of the port, what the frame carries and the pauses under way choose the case. -/
theorem framesAreBufferedAndPaused : Obligations.FramesAreBufferedAndPaused := by
  intro s p f w
  refine ⟨fun q hdown => ?down, fun hdown => ?pauseDown, fun hup => ?fast, ⟨fun q hpause => ?pause, fun e ts hpfc => ?pfc, fun hoff => ?off⟩,
    fun q hslow hup => ⟨fun form hkind hgood hdest hform => ?fieldTaken, fun form hkind hbad => ?fieldDropped, fun hkind => ?foreign⟩,
    fun e r hpaused => ?firstOver, fun hnone => ?noPause, fun hsent => ?refresh, fun hnone => ?noXoff⟩
  case down => exact congrArg Host.Outcome.next (frameReceive_down hdown)
  case pauseDown => exact congrArg Host.Outcome.next (pauseReceive_down hdown)
  case fast =>
    intro q n u drop through host
    refine ⟨fun hbad => ?dropped, fun hgood hroom => ?taken, ?flowFrame⟩
    case dropped => exact congrArg Host.Outcome.next (frameReceive_dropped hup p.isLt hbad)
    case taken =>
      have htaken (k : FrameKind) (hk : f.kind = k) {v : State} (hv : u.takeIn p n k = v) : exec (.frameReceive q f) s = .next v :=
        congrArg Host.Outcome.next ((frameReceive_taken hup p.isLt hgood hroom).trans (hk ▸ hv))
      have hfabric : host = false ↔ p.val ≠ u.hostPort := decide_eq_false_iff_not
      have hport {v w : State} : (if p.val = u.hostPort then v else w) = if host then v else w :=
        ite_congr (decide_eq_true_eq (p := p.val = u.hostPort)).symm (fun _ => rfl) fun _ => rfl
      refine ⟨fun dest a hkind => ⟨fun hip4 haway => ?foreignUdp, fun hown => ⟨fun hother => ?otherUdp, fun hctp hknown => ?packet,
        fun hctp hunknown => ?unknown⟩⟩, fun hkind => ?ip4, fun hkind => ?flow, fun hkind => ?other, fun form hkind => ?field⟩
      case foreignUdp => exact htaken _ hkind (takeIn_udp_foreign hip4 (hfabric.mp haway))
      case otherUdp => exact htaken _ hkind (takeIn_udp_other (mt (And.imp_right hfabric.mpr) hown) hother)
      case packet => exact htaken _ hkind (takeIn_udp_packet (mt (And.imp_right hfabric.mpr) hown) hctp hknown)
      case unknown => exact htaken _ hkind (takeIn_udp_unknown (mt (And.imp_right hfabric.mpr) hown) hctp hunknown)
      case ip4 => exact htaken _ hkind hport
      case flow => exact htaken _ hkind hport
      case other => exact htaken _ hkind rfl
      case field => exact htaken _ hkind rfl
    case flowFrame => exact congrArg Host.Outcome.next (pauseReceive_up hup)
  case pause => exact heedFlow_pause hpause
  case pfc => exact heedFlow_pfc hpfc
  case off => exact heedFlow_off hoff
  case fieldTaken => exact congrArg Host.Outcome.next (frameReceive_field_taken hup hslow hkind hgood hdest hform)
  case fieldDropped => exact congrArg Host.Outcome.next (frameReceive_field_dropped hup hslow hkind hbad)
  case foreign => exact congrArg Host.Outcome.next (frameReceive_foreign hup hslow hkind)
  case firstOver => exact congrArg Host.Outcome.next (pauseExpiry_first hpaused)
  case noPause => exact congrArg Host.Outcome.next (pauseExpiry_none hnone)
  case refresh => exact congrArg Host.Outcome.next (xoffRefresh_sent hsent)
  case noXoff => exact congrArg Host.Outcome.next (xoffRefresh_none hnone)

end Sys2Proof.Machine
end

section
/-! SUPPORT. What the rows of a port's transceiver come to, case by case: presence, polls that answer and silent ones (R315 to R318, R463). -/

namespace Sys2Proof.Machine

open Sys2Proof

section
variable {s : State} {p : Nat} {d : Cmis}

/-! ### Presence (R463) -/

theorem xcvrPresentEdge_same {present : Bool} (hsame : (s.xcvr p).present = present) : xcvrPresentEdge p present s = s := if_pos hsame

theorem xcvrPresentEdge_seats (hempty : (s.xcvr p).present = false) :
    xcvrPresentEdge p true s = s.updXcvr p fun x => { x with present := true } := by
  simp only [xcvrPresentEdge, hempty, Bool.false_eq_true, if_false, if_true]

theorem xcvrPresentEdge_removes (hseated : (s.xcvr p).present = true) :
    xcvrPresentEdge p false s =
      let u := [1, 2, 3, 4, 5, 6].foldl (fun s i => State.put s (portObj p + 1) i 0) (s.updXcvr p fun _ => {})
      (u.change (portObj p + 1) 0x07 0).change (portObj p + 1) 0x08 0 := by
  simp only [xcvrPresentEdge, hseated, Bool.true_eq_false, Bool.false_eq_true, if_false]

/-! ### Polls (R315 to R318) -/

theorem xcvrPoll_empty (hempty : (s.xcvr p).present = false) : xcvrPoll p d s = s := by
  simp only [xcvrPoll, hempty, Bool.not_false, if_true]

section
variable (hseated : (s.xcvr p).present = true)
include hseated

theorem xcvrPoll_silent (hsilent : d.silent = true) :
    xcvrPoll p d s =
      let u := s.updXcvr p fun x => { x with silentPolls := x.silentPolls + 1 }
      if 5 ≤ (s.xcvr p).silentPolls + 1 then u.setXcvrState p 6 true else u := by
  simp only [xcvrPoll, hseated, hsilent, Bool.not_true, Bool.false_eq_true, if_false, if_true]

/-- The six bytes of a lane's readings: bias, power sent and power received. -/
def laneReadings (d : Cmis) (l : Nat) : Bytes :=
  toLE 2 (d.bias.getD l 0).toNat ++ toLE 2 (d.txPower.getD l 0).toNat ++ toLE 2 (d.rxPower.getD l 0).toNat

/-- The state once a poll that answers has kept what the module reports of itself. -/
def State.xcvrReported (s : State) (p : Nat) (d : Cmis) : State :=
  (s.updXcvr p fun x =>
    { x with silentPolls := 0, identifier := d.identifier.toNat, moduleState := d.moduleState.toNat, moduleFlags := d.moduleFlags
             temperature := d.temperature.toNat, supply := d.supply.toNat, laneFlags := d.laneFlags }).setXcvrState p 6 false

theorem xcvrPoll_answered (hanswers : d.silent = false) :
    xcvrPoll p d s =
      let u := s.xcvrReported p d
      let v := if u.get (portObj p + 1) 0x01 = 0 ∨ (s.xcvr p).serial ≠ d.serial then u.newXcvr p d else u
      let w := v.put (portObj p + 1) 0x06 (ofLE ((List.range 8).flatMap (laneReadings d)))
      if managedRevision d.revision.toNat then w.pollWear p d else w := by
  have hlane : laneReadings d = fun l => [d.bias, d.txPower, d.rxPower].flatMap fun v => toLE 2 (v.getD l 0).toNat := by
    funext l; simp only [laneReadings, List.flatMap_cons, List.flatMap_nil, List.append_nil, List.append_assoc]
  have hnew (i : Nat) (v w : State) :
      (if i = 0 || (s.xcvr p).serial ≠ d.serial then v else w) = if i = 0 ∨ (s.xcvr p).serial ≠ d.serial then v else w :=
    ite_congr (by simp only [Bool.or_eq_true, decide_eq_true_eq]) (fun _ => rfl) fun _ => rfl
  simp only [xcvrPoll, hseated, hanswers, hlane, hnew, State.xcvrReported, Bool.not_true, Bool.false_eq_true, if_false] <;> rfl
end
end

/-- Settles O49: whether a transceiver is seated and whether it answers choose what an edge of presence and a poll come to. -/
theorem transceiversArePolledAndWearIsKept : Obligations.TransceiversArePolledAndWearIsKept := by
  intro s p d
  refine ⟨fun hempty => ⟨?unpolled, ?seats, ?stays⟩, fun hseated => ⟨?seated, ?removes, fun hsilent => ?silent, fun hanswers => ?answered⟩,
    rfl⟩
  case unpolled => exact congrArg Host.Outcome.next (xcvrPoll_empty hempty)
  case seats => exact congrArg Host.Outcome.next (xcvrPresentEdge_seats hempty)
  case stays => exact congrArg Host.Outcome.next (xcvrPresentEdge_same hempty)
  case seated => exact congrArg Host.Outcome.next (xcvrPresentEdge_same hseated)
  case removes => exact congrArg Host.Outcome.next (xcvrPresentEdge_removes hseated)
  case silent => exact congrArg Host.Outcome.next (xcvrPoll_silent hseated hsilent)
  case answered => exact congrArg Host.Outcome.next (xcvrPoll_answered hseated hanswers)

end Sys2Proof.Machine
end

section
/-! SUPPORT. What a sequenced packet at the front of a port's buffer comes to, case by case: dropped, waiting, or received and acted on in order
(R304, R305, R307, R308). -/

namespace Sys2Proof.Machine

open Sys2Proof

section
variable {s : State} {p type : Nat} {ups : List Upset}

/-! ### The packet at the front (R297, R304) -/

theorem receive_none (hnone : s.frontPacket p type = none) : receive type p ups s = s := by
  simp only [receive, hnone]

section
variable {a : Arrival} (hfront : s.frontPacket p type = some a)
include hfront

theorem receive_refused (hrefused : s.admitted p a = none) : receive type p ups s = (s.takeFrame p).bump (portObj p) 0x0D := by
  simp only [receive, hfront, hrefused, State.dropPacket]

section
variable {n : Nat} {c : Conn} (hadmitted : s.admitted p a = some (n, c))
include hadmitted

/-- An admitted packet stays where it is next in order and its destination does not answer. -/
theorem receive_admitted :
    receive type p ups s =
      let k := s.sourced p a.packet
      if k.psn.toNat = c.expect ∧ c.keeps c.expect = true ∧ s.mustWait n k = true then s.ringRetry (s.messagePlaces n k)
      else (s.takeFrame p).receiveMessage n p c k ups := by
  simp only [receive, hfront, hadmitted, Bool.and_eq_true, decide_eq_true_eq, and_assoc]
end
end
end

/-! ### Sequence (R307, R308) -/

section
variable {t : State} {n p : Nat} {c : Conn} {k : CtpPacket} {ups : List Upset}

/-- What follows any received packet: its header's acknowledgement and credit, the acknowledgement owed, the close of a connection that is idle. -/
def State.finishPacket (n : Nat) (k : CtpPacket) (u : State) : State := ((u.headerAck n k).ackBack n (headerFlag k 1)).closeIfIdle n

/-- A packet is held, and what is next in order is acted on. -/
def State.holdPacket (t : State) (n p : Nat) (c : Conn) (k : CtpPacket) (ups : List Upset) : State :=
  (t.updConn n fun c => { c with held := c.held ++ [k] }).actHeld n p ups (c.held.length + 1)

theorem receiveMessage_eq :
    t.receiveMessage n p c k ups = State.finishPacket n k
      (let d := psnDiff k.psn.toNat c.expect
       if d < 0 then t.sendAck n false
       else if c.keeps k.psn.toNat then
         if d = 0 then t.holdPacket n p c k ups else (t.holdPacket n p c k ups).sendAck n false
       else t.actHeld n p ups (c.held.length + 1)) := rfl

theorem receiveMessage_earlier (hearlier : psnDiff k.psn.toNat c.expect < 0) :
    t.receiveMessage n p c k ups = State.finishPacket n k (t.sendAck n false) := by
  simp only [receiveMessage_eq, if_pos hearlier]

theorem receiveMessage_next (hnext : psnDiff k.psn.toNat c.expect = 0) (hkeeps : c.keeps k.psn.toNat = true) :
    t.receiveMessage n p c k ups = State.finishPacket n k (t.holdPacket n p c k ups) := by
  simp only [receiveMessage_eq, hnext, Int.lt_irrefl, if_false, hkeeps, if_true]

theorem receiveMessage_ahead (hahead : 0 < psnDiff k.psn.toNat c.expect) (hkeeps : c.keeps k.psn.toNat = true) :
    t.receiveMessage n p c k ups = State.finishPacket n k ((t.holdPacket n p c k ups).sendAck n false) := by
  simp only [receiveMessage_eq, if_neg (Int.not_lt.mpr (Int.le_of_lt hahead)), if_neg (Int.ne_of_gt hahead), hkeeps, if_true]

theorem receiveMessage_too_far (hlater : 0 ≤ psnDiff k.psn.toNat c.expect) (hkeeps : c.keeps k.psn.toNat = false) :
    t.receiveMessage n p c k ups = State.finishPacket n k (t.actHeld n p ups (c.held.length + 1)) := by
  simp only [receiveMessage_eq, if_neg (Int.not_lt.mpr hlater), hkeeps, Bool.false_eq_true, if_false]

section
variable {f : Nat} (hconn : t.conn n = some c) (hheld : c.nextHeld = some k)
include hconn hheld

theorem actHeld_waits (hwaits : c.signalling = true ∨ t.mustWait n k = true) : t.actHeld n p ups (f + 1) = t := by
  have hstays : (c.signalling || t.mustWait n k) = true := by simpa only [Bool.or_eq_true] using hwaits
  simp only [State.actHeld, hconn, hheld, hstays, if_true]

theorem actHeld_acts (hquiet : c.signalling = false) (hanswers : t.mustWait n k = false) :
    t.actHeld n p ups (f + 1) =
      let u := t.act n p k ups
      if ((u.conn n).map (·.signalling)).getD false then u else (u.actedOn n k).actHeld n p ups f := by
  simp only [State.actHeld, hconn, hheld, hquiet, hanswers, Bool.or_self, Bool.false_eq_true, if_false]
end

/-! ### What each type does (R305) -/

theorem act_work (htype : k.type = 0x10) : t.act n p k ups = t.takeWork n k.payload := by
  simp only [State.act, htype] <;> rfl

theorem act_window (htype : k.type = 0x20 ∨ k.type = 0x21 ∨ k.type = 0x22 ∨ k.type = 0x23) : t.act n p k ups = t.actWindow n k ups := by
  rcases htype with htype | htype | htype | htype <;> (simp only [State.act, htype] <;> rfl)

theorem act_readData (htype : k.type = 0x24) : t.act n p k ups = t.actReadData n k ups := by
  simp only [State.act, htype] <;> rfl

theorem act_signal (htype : k.type = 0x25) : t.act n p k ups = t.actSignal n p k := by
  simp only [State.act, htype] <;> rfl

theorem act_status (htype : k.type = 0x26) : t.act n p k ups = t.actStatus n k := by
  simp only [State.act, htype] <;> rfl

theorem act_mgmt (htype : k.type = 0x30) : t.act n p k ups = t.actMgmt n p k := by
  simp only [State.act, htype] <;> rfl
end

/-! ### The rows of the sequenced types -/

/-- The rows of the nine sequenced types, with the type that each serves. -/
def sequencedRows (p : PortId) (ups : List Upset) : List (Nat × Instr) :=
  [(0x10, .work p), (0x20, .winWrite p ups), (0x21, .winReduceFp32 p ups), (0x22, .winReduceInt64 p ups), (0x23, .winReadReq p ups),
    (0x24, .winReadData p ups), (0x25, .winSignal p), (0x26, .winStatus p), (0x30, .mgmt p)]

/-- Each of these rows serves the packet at the front of its port's buffer. -/
theorem exec_sequencedRow {p : PortId} {ups : List Upset} {x : Nat × Instr} (hrow : x ∈ sequencedRows p ups) (s : State) :
    ∃ us, exec x.2 s = .next (receive x.1 p us s) := by
  simp only [sequencedRows, List.mem_cons, List.not_mem_nil, or_false] at hrow
  rcases hrow with rfl | rfl | rfl | rfl | rfl | rfl | rfl | rfl | rfl <;> exact ⟨_, rfl⟩

/-- Settles O50: a row serves the packet at the front of its port's buffer, and its PSN chooses what receiving it comes to. -/
theorem sequencedPacketsAreActedOnInOrder : Obligations.SequencedPacketsAreActedOnInOrder := by
  intro s p ups rows
  refine ⟨fun x hx => ?front, ?admitted, ?sequence, fun t n f c k hconn hheld => ?inOrder, fun t n k => ?types⟩
  case front =>
    obtain ⟨us, hserves⟩ := exec_sequencedRow hx s
    exact ⟨fun hnone => hserves.trans (congrArg Host.Outcome.next (receive_none hnone)),
      fun a hfront hrefused => hserves.trans (congrArg Host.Outcome.next (receive_refused hfront hrefused))⟩
  case admitted =>
    intro a n c hadmitted k waits received
    refine ⟨fun x hx hfront hwaits => ?stays, fun hgoes => ?received⟩
    case stays =>
      obtain ⟨us, hserves⟩ := exec_sequencedRow hx s
      exact hserves.trans (congrArg Host.Outcome.next ((receive_admitted hfront hadmitted).trans (if_pos hwaits)))
    case received =>
      have hreceived {type : Nat} {us : List Upset} (hfront : s.frontPacket p type = some a) :
          Host.Outcome.next (receive type p us s) = (.next (received us) : Host.Outcome State Fault Refusal) :=
        congrArg Host.Outcome.next ((receive_admitted hfront hadmitted).trans (if_neg hgoes))
      exact ⟨hreceived, hreceived, hreceived, hreceived, hreceived, hreceived, hreceived, hreceived, hreceived⟩
  case sequence =>
    intro t n c k d finish held
    exact ⟨receiveMessage_earlier, receiveMessage_next, receiveMessage_ahead, receiveMessage_too_far⟩
  case inOrder =>
    refine ⟨actHeld_waits hconn hheld, fun hquiet hanswers => ⟨fun hsignals => ?signalling, fun hacted => ?acted⟩⟩
    case signalling => exact (actHeld_acts hconn hheld hquiet hanswers).trans (if_pos hsignals)
    case acted => exact (actHeld_acts hconn hheld hquiet hanswers).trans (if_neg (Bool.eq_false_iff.mp hacted))
  case types => exact ⟨act_work, act_window, act_readData, act_signal, act_status, act_mgmt⟩

end Sys2Proof.Machine
end

section
/-! SUPPORT. What the packets that open, acknowledge and close a connection come to, case by case, and what its timers do (R304, R306 to R310). -/

namespace Sys2Proof.Machine

open Sys2Proof

section
variable {s : State} {p : Nat} {a : Arrival}

/-! ### The packet at the front (R299) -/

theorem serving_none {type : Nat} {f : Arrival → State → State} (hnone : s.frontPacket p type = none) : s.serving p type f = s := by
  simp only [State.serving, hnone]

theorem serving_front {type : Nat} {f : Arrival → State → State} (hfront : s.frontPacket p type = some a) :
    s.serving p type f = f a (s.takeFrame p) := by
  simp only [State.serving, hfront]

/-- Whether a packet is for the module, its header good in version 1 (R304, R306). -/
def State.ownPacket (t : State) (p : Nat) (a : Arrival) : Prop :=
  t.addressed p a = true ∧ headerOk (t.sourced p a.packet) 1 8208 = true

/-! ### HELLO (R306) -/

theorem helloBad_iff :
    (!(s.addressed p a && headerOk (s.sourced p a.packet) 1 8208 && (s.sourced p a.packet).conn = 0xFFFF)) = true
      ↔ ¬ (s.ownPacket p a ∧ (s.sourced p a.packet).conn = 0xFFFF) := by
  simp only [State.ownPacket, Bool.not_eq_true', Bool.eq_false_iff, ne_eq, Bool.and_eq_true, decide_eq_true_eq]

/-- The connection whose accepted offer a HELLO repeats, with its number. -/
def State.repeatedOffer (t : State) (p : Nat) (a : Arrival) : Option (Nat × Conn) :=
  let m := t.sourced p a.packet
  t.connList.find? fun e => e.2.peer = m.src.toNat && e.2.asked = m.payload

/-- An offer answers the HELLO that a packet carries. -/
def State.answerHello (t : State) (p : Nat) (a : Arrival) (u : State) (offer : Bytes) : State :=
  let m := t.sourced p a.packet
  u.answerOffer p m.src.toNat (leAt m.payload 12 2) offer

/-- The version that a HELLO and the module have in common. -/
def State.helloVersion (t : State) (p : Nat) (a : Arrival) : Nat :=
  commonVersion (t.get 0x2620 0x03) (leAt (t.sourced p a.packet).payload 0 2)

/-- The state once a HELLO has opened a connection: the connection with its drawn PSN and credit, the answer with the module's own offer, and the
items that go on with it. -/
def State.helloOpened (t : State) (p : Nat) (a : Arrival) (x : Nat) : State :=
  let m := t.sourced p a.packet
  let vs := t.get 0x2620 0x03
  let psn := Config.initialPsn t.fresh % 2 ^ 32
  let ip4 := a.source.isNone
  let c : Conn := { phase := 1, peer := m.src.toNat, port := p, next := psn, acked := psn, limit := t.portLimit p ip4, ip4 := ip4 }
  let u := (State.setConn { t with fresh := t.fresh + 1 } x (c.negotiate vs t.windowOffer m.payload)).drawCredit x
  let g := ((u.conn x).map (·.granted)).getD 0
  let offer := offerBytes vs u.windowOffer psn g (u.portLimit p ip4) x 0
  (t.answerHello p a (u.updConn x fun c => { c with grantedInit := g, offer := offer }) offer).adoptItems x m.src.toNat

section
variable (hfront : s.frontPacket p 1 = some a)
include hfront

theorem receiveHello_dropped (hbad : ¬ ((s.takeFrame p).ownPacket p a ∧ ((s.takeFrame p).sourced p a.packet).conn = 0xFFFF)) :
    receiveHello p s = (s.takeFrame p).dropPacket p :=
  (serving_front hfront).trans (if_pos (helloBad_iff.mpr hbad))

section
variable (hown : (s.takeFrame p).ownPacket p a) (hhello : ((s.takeFrame p).sourced p a.packet).conn = 0xFFFF)
include hown hhello

theorem receiveHello_again {e : Nat × Conn} (hknown : (s.takeFrame p).repeatedOffer p a = some e) :
    receiveHello p s = (s.takeFrame p).answerHello p a (s.takeFrame p) e.2.offer := by
  refine (serving_front hfront).trans ((if_neg (mt helloBad_iff.mp (not_not_intro ⟨hown, hhello⟩))).trans ?_)
  unfold State.repeatedOffer at hknown
  simp only [hknown] <;> rfl

section
variable (hnew : (s.takeFrame p).repeatedOffer p a = none)
include hnew

/-- An offer that repeats none is refused where no version is common, and else takes the lowest connection number that is free. -/
theorem receiveHello_new :
    receiveHello p s =
      let t := s.takeFrame p
      let vs := t.get 0x2620 0x03
      if t.helloVersion p a = 0 then t.answerHello p a t (offerBytes vs 0 0 0 0 0 1)
      else t.freeConn.elim (t.answerHello p a t (offerBytes vs 0 0 0 0 0 2)) (t.helloOpened p a) := by
  refine (serving_front hfront).trans ((if_neg (mt helloBad_iff.mp (not_not_intro ⟨hown, hhello⟩))).trans ?_)
  unfold State.repeatedOffer at hnew
  simp only [hnew]
  refine ite_congr rfl (fun _ => rfl) fun _ => ?_
  cases hfree : (s.takeFrame p).freeConn with
  | none => rfl
  | some x => rfl

theorem receiveHello_no_version (hversion : (s.takeFrame p).helloVersion p a = 0) :
    receiveHello p s =
      (s.takeFrame p).answerHello p a (s.takeFrame p) (offerBytes ((s.takeFrame p).get 0x2620 0x03) 0 0 0 0 0 1) :=
  (receiveHello_new hfront hown hhello hnew).trans (if_pos hversion)

theorem receiveHello_no_number (hversion : (s.takeFrame p).helloVersion p a ≠ 0) (hfull : (s.takeFrame p).freeConn = none) :
    receiveHello p s =
      (s.takeFrame p).answerHello p a (s.takeFrame p) (offerBytes ((s.takeFrame p).get 0x2620 0x03) 0 0 0 0 0 2) := by
  simp only [receiveHello_new hfront hown hhello hnew, if_neg hversion, hfull, Option.elim_none]

theorem receiveHello_opens {x : Nat} (hversion : (s.takeFrame p).helloVersion p a ≠ 0) (hfree : (s.takeFrame p).freeConn = some x) :
    receiveHello p s = (s.takeFrame p).helloOpened p a x := by
  simp only [receiveHello_new hfront hown hhello hnew, if_neg hversion, hfree, Option.elim_some]
end
end
end

/-! ### HELLO_ACK (R306) -/

theorem ownPacket_iff : (!(s.addressed p a && headerOk (s.sourced p a.packet) 1 8208)) = true ↔ ¬ s.ownPacket p a := by
  simp only [State.ownPacket, Bool.not_eq_true', Bool.eq_false_iff, ne_eq, Bool.and_eq_true]

/-- The number of the connection that a packet names. -/
def State.connNamed (t : State) (p : Nat) (a : Arrival) : Nat := (t.sourced p a.packet).conn.toNat

/-- A connection of the module's own with what the answer to its offer brings. -/
def State.helloAnswered (t : State) (p : Nat) (a : Arrival) (c : Conn) : Conn :=
  c.negotiate (t.get 0x2620 0x03) c.window (t.sourced p a.packet).payload

section
variable (hfront : s.frontPacket p 2 = some a)
include hfront

theorem receiveHelloAck_unknown (hnone : (s.takeFrame p).conn ((s.takeFrame p).connNamed p a) = none) :
    receiveHelloAck p s = (s.takeFrame p).dropPacket p := by
  refine (serving_front hfront).trans ?_
  unfold State.connNamed at hnone
  simp only [hnone]

section
variable {c : Conn} (hconn : (s.takeFrame p).conn ((s.takeFrame p).connNamed p a) = some c)
include hconn

theorem receiveHelloAck_conn :
    receiveHelloAck p s =
      let t := s.takeFrame p
      let d := t.helloAnswered p a c
      if !(t.addressed p a && headerOk (t.sourced p a.packet) 1 8208) then t.dropPacket p
      else if c.phase ≠ 0 then t
      else if leAt (t.sourced p a.packet).payload 14 1 ≠ 0 ∨ d.version = 0 then t.dropConn (t.connNamed p a)
      else (t.setConn (t.connNamed p a) { d with phase := 1, repeats := 0 }).pump (t.connNamed p a) := by
  refine (serving_front hfront).trans ?_
  unfold State.connNamed at hconn
  simp only [hconn] <;> rfl

theorem receiveHelloAck_dropped (hbad : ¬ (s.takeFrame p).ownPacket p a) : receiveHelloAck p s = (s.takeFrame p).dropPacket p :=
  (receiveHelloAck_conn hfront hconn).trans (if_pos (ownPacket_iff.mpr hbad))

section
variable (hown : (s.takeFrame p).ownPacket p a)
include hown

theorem receiveHelloAck_open (hopen : c.phase ≠ 0) : receiveHelloAck p s = s.takeFrame p :=
  (receiveHelloAck_conn hfront hconn).trans ((if_neg (mt ownPacket_iff.mp (not_not_intro hown))).trans (if_pos hopen))

theorem receiveHelloAck_answer (hwaits : c.phase = 0) :
    receiveHelloAck p s =
      let t := s.takeFrame p
      let d := t.helloAnswered p a c
      if leAt (t.sourced p a.packet).payload 14 1 ≠ 0 ∨ d.version = 0 then t.dropConn (t.connNamed p a)
      else (t.setConn (t.connNamed p a) { d with phase := 1, repeats := 0 }).pump (t.connNamed p a) :=
  (receiveHelloAck_conn hfront hconn).trans
    ((if_neg (mt ownPacket_iff.mp (not_not_intro hown))).trans (if_neg (not_not_intro hwaits)))
end
end
end

/-! ### CLOSE and ACK (R305, R306, R309) -/

section
variable (hfront : s.frontPacket p 3 = some a)
include hfront

theorem receiveClose_refused (hrefused : (s.takeFrame p).admitted p a = none) : receiveClose p s = (s.takeFrame p).dropPacket p := by
  simp only [receiveClose, serving_front hfront, hrefused]

theorem receiveClose_admitted {x : Nat} {c : Conn} (hadmitted : (s.takeFrame p).admitted p a = some (x, c)) :
    receiveClose p s =
      let t := s.takeFrame p
      if c.phase = 3 then t.dropConn x
      else ((t.headerAck x (t.sourced p a.packet)).updConn x fun c => { c with phase := 2 }).closeIfIdle x := by
  simp only [receiveClose, serving_front hfront, hadmitted]
end

section
variable (hfront : s.frontPacket p 4 = some a)
include hfront

theorem receiveAck_refused (hrefused : (s.takeFrame p).admitted p a = none) : receiveAck p s = (s.takeFrame p).dropPacket p := by
  simp only [receiveAck, serving_front hfront, hrefused]

theorem receiveAck_admitted {x : Nat} {c : Conn} (hadmitted : (s.takeFrame p).admitted p a = some (x, c)) :
    receiveAck p s =
      let t := s.takeFrame p
      let m := t.sourced p a.packet
      (((t.headerAck x m).takeSacks x (sacksOf m.payload)).ackBack x (headerFlag m 1)).closeIfIdle x := by
  simp only [receiveAck, serving_front hfront, hadmitted]
end
end

/-! ### Timers (R306, R308 to R310) -/

section
variable {s : State} {n : Nat} {c : Conn} (hconn : s.conn n = some c)
include hconn

theorem ctpRtoExpiry_sent {first : Message} {rest : List Message} (hsent : c.queue.filter (·.sent) = first :: rest) :
    ctpRtoExpiry n s =
      let u := { s with now := max s.now (c.timer + s.get 0x2620 0x04 * 1000 * min 16 (2 ^ c.timeouts)) }
      if s.get 0x2620 0x05 ≤ c.timeouts + 1 then u.dropConn n
      else (if c.version = 1 then first :: rest else [first]).foldl (fun s m => s.resend n m)
        (u.setConn n { c with timeouts := c.timeouts + 1, timer := u.now }) := by
  simp only [ctpRtoExpiry, hconn, hsent] <;> rfl

theorem ctpAckTimer_owed (howed : 0 < c.owed) : ctpAckTimer n s = s.sendAck n false := by
  simp only [ctpAckTimer, hconn, if_pos howed]

theorem repeatPacket_phase {phase type : Nat} (payload : Conn → Bytes) (hphase : c.phase = phase) :
    s.repeatPacket n phase type payload =
      let u := { s with now := max s.now (c.timer + s.get 0x2620 0x04 * 1000) }
      if s.get 0x2620 0x05 ≤ c.repeats then u.dropConn n
      else (u.setConn n { c with repeats := c.repeats + 1, timer := u.now }).sendPacket n type (if type = 3 then 1 else 0) 0 0 0 (payload c) := by
  simp only [State.repeatPacket, hconn, if_neg (not_not_intro hphase)] <;> rfl

theorem creditProbe_starved (hopen : 1 ≤ c.phase) (hcredit : c.credit = 0) (hqueued : (c.queue.any fun m => !m.sent) = true) :
    creditProbe n s =
      let u := { s with now := max s.now (c.probeTimer + s.get 0x2620 0x04 * 1000) }
      (u.setConn n { c with probeTimer := u.now }).sendAck n true := by
  simp only [creditProbe, hconn]
  exact if_pos ⟨hopen, hcredit, hqueued⟩
end

/-- Settles O51: the packet at the front, the connection it names and the timers' counts choose the case of each row. -/
theorem connectionsOpenAcknowledgeCloseAndTimeOut : Obligations.ConnectionsOpenAcknowledgeCloseAndTimeOut := by
  intro s p a n t m b own
  refine ⟨?none, ?hello, ?helloAck, ?close, ?ack, ?timers⟩
  case none =>
    simp only [List.forall_mem_cons, List.not_mem_nil, false_imp_iff, implies_true, and_true]
    have hidle {type : Nat} {f : Arrival → State → State} (hnone : s.frontPacket p type = none) :
        Host.Outcome.next (s.serving p type f) = (.next s : Host.Outcome State Fault Refusal) :=
      congrArg Host.Outcome.next (serving_none hnone)
    exact ⟨hidle, hidle, hidle, hidle⟩
  case hello =>
    intro hfront vs v answer known
    refine ⟨fun hbad => ?dropped, fun hown hhello e hknown => ?again, fun hown hhello hnew hversion => ?noVersion,
      fun hown hhello hnew hversion hfull => ?noNumber, fun hown hhello hnew hversion x hfree => ?opens⟩
    case dropped => exact congrArg Host.Outcome.next (receiveHello_dropped hfront hbad)
    case again => exact congrArg Host.Outcome.next (receiveHello_again hfront hown hhello hknown)
    case noVersion => exact congrArg Host.Outcome.next (receiveHello_no_version hfront hown hhello hnew hversion)
    case noNumber => exact congrArg Host.Outcome.next (receiveHello_no_number hfront hown hhello hnew hversion hfull)
    case opens => exact congrArg Host.Outcome.next (receiveHello_opens hfront hown hhello hnew hversion hfree)
  case helloAck =>
    intro hfront
    refine ⟨fun hnone => congrArg Host.Outcome.next (receiveHelloAck_unknown hfront hnone), fun c hconn => ?_⟩
    refine ⟨fun hbad => ?dropped, fun hown hopen => ?already, fun hown hwaits hrefused => ?refused,
      fun hown hwaits haccepted hversion => ?accepted⟩
    case dropped => exact congrArg Host.Outcome.next (receiveHelloAck_dropped hfront hconn hbad)
    case already => exact congrArg Host.Outcome.next (receiveHelloAck_open hfront hconn hown hopen)
    case refused => exact congrArg Host.Outcome.next ((receiveHelloAck_answer hfront hconn hown hwaits).trans (if_pos hrefused))
    case accepted =>
      have hopens := not_or.mpr ⟨not_not_intro haccepted, hversion⟩
      exact congrArg Host.Outcome.next ((receiveHelloAck_answer hfront hconn hown hwaits).trans (if_neg hopens))
  case close =>
    intro hfront
    refine ⟨fun hrefused => congrArg Host.Outcome.next (receiveClose_refused hfront hrefused), fun x c hadmitted => ⟨fun hours => ?ours,
      fun htheirs => ?theirs⟩⟩
    case ours => exact congrArg Host.Outcome.next ((receiveClose_admitted hfront hadmitted).trans (if_pos hours))
    case theirs => exact congrArg Host.Outcome.next ((receiveClose_admitted hfront hadmitted).trans (if_neg htheirs))
  case ack =>
    intro hfront
    exact ⟨fun hrefused => congrArg Host.Outcome.next (receiveAck_refused hfront hrefused),
      fun x c hadmitted => congrArg Host.Outcome.next (receiveAck_admitted hfront hadmitted)⟩
  case timers =>
    intro c hconn limit rto
    refine ⟨fun first rest hsent => ⟨fun hlast => ?givenUp, fun hmore => ?resent⟩, fun howed => ?owed,
      ⟨fun hphase hlast => ?helloGivenUp, fun hphase hmore => ?helloAgain, fun hphase hlast => ?closeGivenUp,
        fun hphase hmore => ?closeAgain⟩, fun hopen hcredit hqueued => ?probe⟩
    case givenUp => exact congrArg Host.Outcome.next ((ctpRtoExpiry_sent hconn hsent).trans (if_pos hlast))
    case resent => exact congrArg Host.Outcome.next ((ctpRtoExpiry_sent hconn hsent).trans (if_neg (Nat.not_le.mpr hmore)))
    case owed => exact congrArg Host.Outcome.next (ctpAckTimer_owed hconn howed)
    case helloGivenUp => exact congrArg Host.Outcome.next ((repeatPacket_phase hconn _ hphase).trans (if_pos hlast))
    case helloAgain => exact congrArg Host.Outcome.next ((repeatPacket_phase hconn _ hphase).trans (if_neg (Nat.not_le.mpr hmore)))
    case closeGivenUp => exact congrArg Host.Outcome.next ((repeatPacket_phase hconn _ hphase).trans (if_pos hlast))
    case closeAgain => exact congrArg Host.Outcome.next ((repeatPacket_phase hconn _ hphase).trans (if_neg (Nat.not_le.mpr hmore)))
    case probe => exact congrArg Host.Outcome.next (creditProbe_starved hconn hopen hcredit hqueued)

end Sys2Proof.Machine
end

section
/-! SUPPORT. What the rows of the reference inputs, the timebase, the pulses and PTP come to, case by case (R301, R408, R412 to R414, R467). -/

namespace Sys2Proof.Machine

open Sys2Proof

/-! ### Reference inputs (R408) -/

section
variable {s : State} {r : Nat}

theorem referenceBad_again (hbad : s.refGood r = false) : referenceBad r s = s := by
  simp only [referenceBad, hbad, Bool.not_false, if_true]

theorem referenceGood_again (hgood : s.refGood r = true) : referenceGood r s = s := if_pos hgood

section
variable (hgood : s.refGood r = true)
include hgood

theorem referenceBad_of_good :
    referenceBad r s =
      let u := s.change 0x3110 0x03 (setBit (s.get 0x3110 0x03) r false)
      let v := (State.change { u with clocks := { u.clocks with holdover := some u.now } } 0x3110 0x02 2).showHealth
      let ns := min 10000 (Config.holdTime v.fresh)
      if u.get 0x3110 0x02 ≠ r then u.showHealth
      else if v.refGood (1 - r) then (State.endHoldover { v with fresh := v.fresh + 1, now := v.now + ns } (1 - r) ns).showHealth else v := by
  simp only [referenceBad, hgood, Bool.not_true, Bool.false_eq_true, if_false]
end

section
variable (hbad : s.refGood r = false)
include hbad

theorem referenceGood_in_holdover {t : Nat} (hheld : (s.change 0x3110 0x03 (setBit (s.get 0x3110 0x03) r true)).clocks.holdover = some t) :
    referenceGood r s =
      let u := s.change 0x3110 0x03 (setBit (s.get 0x3110 0x03) r true)
      (u.endHoldover r (u.now - t)).showHealth := by
  simp only [referenceGood, hbad, Bool.false_eq_true, if_false, hheld]

theorem referenceGood_followed (hnone : (s.change 0x3110 0x03 (setBit (s.get 0x3110 0x03) r true)).clocks.holdover = none) :
    referenceGood r s = (s.change 0x3110 0x03 (setBit (s.get 0x3110 0x03) r true)).preferRef.showHealth := by
  simp only [referenceGood, hbad, Bool.false_eq_true, if_false, hnone]
end
end

/-! ### The timebase and its pulses (R412, R413, R467) -/

section
variable {s : State}

theorem timebaseCorrection_eq (g : Nat) :
    timebaseCorrection g s =
      let a := s.advanceSlew
      let u : State := { a with clocks := { a.clocks with regions := Tab.upd 0 a.clocks.regions g fun v => followOne v a.clocks.slewed } }
      State.showHealth (if u.get 0x3120 0x03 = 2 ∧ u.clocks.lastPtp + Config.ptpSilence < u.now then u.change 0x3120 0x03 3 else u) := by
  simp only [timebaseCorrection, Bool.and_eq_true, decide_eq_true_eq]

theorem followOne_step (own master : Int) : (followOne own master - own).natAbs ≤ 1 := by
  unfold followOne
  split
  · omega
  · split <;> omega

theorem ppsInEdge_short {width : Nat} (hshort : width < 100) : ppsInEdge width s = s := if_pos hshort

section
variable {width : Nat} (hlong : 100 ≤ width)
include hlong

theorem ppsInEdge_near {t : Nat} (hlast : s.clocks.ppsIn = some t) (hnear : s.now < t + 500000000) :
    ppsInEdge width s = { s with clocks := { s.clocks with ppsIn := some s.now } } := by
  simp only [ppsInEdge, if_neg (Nat.not_lt.mpr hlong), hlast, decide_eq_true hnear, if_true]

theorem ppsInEdge_stamped (hapart : ∀ t, s.clocks.ppsIn = some t → t + 500000000 ≤ s.now) :
    ppsInEdge width s = ({ s with clocks := { s.clocks with ppsIn := some s.now } } : State).put 0x3120 0x08 s.now := by
  cases hlast : s.clocks.ppsIn with
  | none => simp only [ppsInEdge, if_neg (Nat.not_lt.mpr hlong), hlast, Bool.false_eq_true, if_false]
  | some t =>
    have hfar := decide_eq_false (Nat.not_lt.mpr (hapart t hlast))
    simp only [ppsInEdge, if_neg (Nat.not_lt.mpr hlong), hlast, hfar, Bool.false_eq_true, if_false]
end
end

/-! ### PTP (R301, R414) -/

section
variable {s : State} {p : Nat} {m : PtpMsg}

/-- Whether a port takes and stamps an event message: its ptp_mode is nonzero, it is up, and the transport is its own (R301). -/
def State.ptpOn (s : State) (p : Nat) (m : PtpMsg) : Prop :=
  s.get (0x2600 + p) 0x08 ≠ 0 ∧ s.portUp p = true ∧ (m.carrier = .udp4 → p = s.hostPort)

/-- Whether the timebase hears a message: of its domain, at the port that it follows or that the best master is at (R414). -/
def State.ptpHeard (s : State) (p : Nat) (m : PtpMsg) : Prop :=
  let source := s.get 0x3120 0x02
  m.domain.toNat = s.get 0x3120 0x07 ∧ ((source = 0xFF ∧ m.best = true) ∨ (source ≠ 0xFF ∧ source = p))

/-- The state once a port has kept the time at which a message passed it. -/
def State.ptpStamped (s : State) (p : Nat) (m : PtpMsg) : State :=
  s.updPort p fun q => { q with stamps := Tab.set 0 q.stamps (ptpNumber m) s.now }

theorem ptpOver_iff : s.ptpOver p m = true ↔ (m.carrier = .udp4 → p = s.hostPort) := by
  simp only [State.ptpOver, Bool.or_eq_true, decide_eq_true_eq, ne_eq, Decidable.imp_iff_not_or]

theorem ptpTaken_iff :
    (s.get (0x2600 + p) 0x08 = 0 || !s.portUp p || !s.ptpOver p m) = true ↔ ¬ s.ptpOn p m := by
  simp only [State.ptpOn, ← ptpOver_iff, Classical.not_and_iff_not_or_not, Classical.not_not, Bool.or_eq_true, decide_eq_true_eq,
    Bool.not_eq_true', Bool.not_eq_true, ne_eq, or_assoc]

/-- Stamps and path delays are kept beside the dictionary. -/
theorem get_stampPtp_measureDelay (i j : Nat) : ((s.stampPtp p m).measureDelay p m).get i j = s.get i j := by
  have hstamp : (s.stampPtp p m).get i j = s.get i j := by unfold State.stampPtp; dsimp only; split <;> rfl
  rw [← hstamp]
  unfold State.measureDelay
  dsimp only
  split <;> rfl

theorem ptpFollowed_iff :
    (m.kind = .sync && !m.sent && m.domain.toNat = s.get 0x3120 0x07 &&
      (if s.get 0x3120 0x02 = 0xFF then m.best else s.get 0x3120 0x02 = p)) = true ↔ m.kind = .sync ∧ m.sent = false ∧ s.ptpHeard p m := by
  have hport : (if s.get 0x3120 0x02 = 0xFF then m.best else s.get 0x3120 0x02 = p) = true ↔
      (s.get 0x3120 0x02 = 0xFF ∧ m.best = true) ∨ (s.get 0x3120 0x02 ≠ 0xFF ∧ s.get 0x3120 0x02 = p) := by
    split
    next hany => simp only [hany, true_and, ne_eq, not_true, false_and, or_false]
    next hone => simp only [hone, false_and, false_or, ne_eq, not_false_eq_true, true_and, decide_eq_true_eq]
  simp only [State.ptpHeard, Bool.and_eq_true, hport, decide_eq_true_eq, Bool.not_eq_true', and_assoc]

theorem ptpMessage_off (hoff : ¬ s.ptpOn p m) : ptpMessage p m s = s := if_pos (ptpTaken_iff.mpr hoff)

section
variable (hon : s.ptpOn p m)
include hon

theorem ptpMessage_unheard (hunheard : ¬ (m.kind = .sync ∧ m.sent = false ∧ s.ptpHeard p m)) :
    ptpMessage p m s = (s.stampPtp p m).measureDelay p m := by
  simp only [ptpMessage, if_neg (mt ptpTaken_iff.mp (not_not_intro hon)), get_stampPtp_measureDelay]
  exact if_neg (mt ptpFollowed_iff.mp hunheard)

theorem ptpMessage_heard (hkind : m.kind = .sync) (htaken : m.sent = false) (hheard : s.ptpHeard p m) :
    ptpMessage p m s = ((s.stampPtp p m).measureDelay p m).followSync p m := by
  simp only [ptpMessage, if_neg (mt ptpTaken_iff.mp (not_not_intro hon)), get_stampPtp_measureDelay]
  exact if_pos (ptpFollowed_iff.mpr ⟨hkind, htaken, hheard⟩)
end

theorem stampPtp_sent (hsent : m.sent = true) :
    s.stampPtp p m = (s.ptpStamped p m).emit (.ptp p (ptpNumber m - 4) (if s.get (0x2600 + p) 0x08 = 2 then some s.now else none)) :=
  if_pos hsent

theorem stampPtp_taken (htaken : m.sent = false) : s.stampPtp p m = s.ptpStamped p m := if_neg (Bool.eq_false_iff.mp htaken)

theorem measureDelay_sent (hsent : m.sent = true) (hkind : m.kind ≠ .delayReq) : s.measureDelay p m = s := by
  cases hk : m.kind with
  | delayReq => exact absurd hk hkind
  | sync => simp only [State.measureDelay, hk, hsent]
  | pdelayReq => simp only [State.measureDelay, hk, hsent]
  | pdelayResp => simp only [State.measureDelay, hk, hsent]

theorem measureDelay_request (htaken : m.sent = false) (hkind : m.kind = .delayReq ∨ m.kind = .pdelayReq) : s.measureDelay p m = s := by
  rcases hkind with hkind | hkind <;> simp only [State.measureDelay, hkind, htaken]

theorem measureDelay_sync (htaken : m.sent = false) (hkind : m.kind = .sync) :
    s.measureDelay p m = s.updPort p fun q => { q with origin := m.told.toNat } := by
  simp only [State.measureDelay, hkind, htaken]

/-- Without a lock the timebase is slewed by the offset and rate of a Sync, and shows that it follows. -/
theorem followSync_unlocked (hunlocked : m.locks = false) :
    s.followSync p m =
      let v := s.advanceSlew.put 0x3120 0x04 (ofSigned 64 ((m.told.toNat : Int) + (s.portOf p).delay - s.now))
      let w := v.put 0x3120 0x06 (ofSigned 32 (max (-100000) (min 100000 m.rate.toInt)))
      State.change { w with clocks := { w.clocks with lastPtp := w.now, slewedTo := w.now } } 0x3120 0x03 1 := by
  simp only [State.followSync, hunlocked, Bool.false_and, Bool.false_eq_true, if_false]
end

/-- Settles O57: what an input, a region, a pulse or a message finds chooses the case of its row. -/
theorem referencesTimebaseAndPulses : Obligations.ReferencesTimebaseAndPulses := by
  intro s r g width p m
  refine ⟨fun hbad => ?stillBad, fun hgood => ?stillGood, fun hgood => ⟨fun hother => ?unfollowedBad, fun hfollowed => ?followedBad⟩,
    fun hbad => ⟨fun t hheld => ?goodInHoldover, fun hnone => ?goodFollowed⟩, ⟨?correction, followOne_step⟩, ?pulse, fun hshort => ?short,
    fun hlong => ⟨fun t hlast hnear => ?near, fun hapart => ?stampedPulse⟩, fun hoff => ?off, fun hon hsent hkind => ?sent,
    fun hon htaken hkind => ?request, fun hon htaken hkind => ⟨fun hunheard => ?unheard, fun hheard hunlocked => ?heard⟩⟩
  case stillBad => exact congrArg Host.Outcome.next (referenceBad_again hbad)
  case stillGood => exact congrArg Host.Outcome.next (referenceGood_again hgood)
  case unfollowedBad => exact congrArg Host.Outcome.next ((referenceBad_of_good hgood).trans (if_pos hother))
  case followedBad => exact congrArg Host.Outcome.next ((referenceBad_of_good hgood).trans (if_neg (not_not_intro hfollowed)))
  case goodInHoldover => exact congrArg Host.Outcome.next (referenceGood_in_holdover hbad hheld)
  case goodFollowed => exact congrArg Host.Outcome.next (referenceGood_followed hbad hnone)
  case correction => exact congrArg Host.Outcome.next (timebaseCorrection_eq g.toNat)
  case pulse => rfl
  case short => exact congrArg Host.Outcome.next (ppsInEdge_short hshort)
  case near => exact congrArg Host.Outcome.next (ppsInEdge_near hlong hlast hnear)
  case stampedPulse => exact congrArg Host.Outcome.next (ppsInEdge_stamped hlong hapart)
  case off => exact congrArg Host.Outcome.next (ptpMessage_off hoff)
  case sent =>
    have hunheard : ¬ (m.kind = .sync ∧ m.sent = false ∧ s.ptpHeard p m) := fun h => Bool.noConfusion (hsent.symm.trans h.2.1)
    exact congrArg Host.Outcome.next
      ((ptpMessage_unheard hon hunheard).trans ((measureDelay_sent hsent hkind).trans (stampPtp_sent hsent)))
  case request =>
    have hunheard : ¬ (m.kind = .sync ∧ m.sent = false ∧ s.ptpHeard p m) := fun h => by
      rcases hkind with hk | hk <;> cases hk.symm.trans h.1
    exact congrArg Host.Outcome.next
      ((ptpMessage_unheard hon hunheard).trans ((measureDelay_request htaken hkind).trans (stampPtp_taken htaken)))
  case unheard =>
    exact congrArg Host.Outcome.next ((ptpMessage_unheard hon fun h => hunheard h.2.2).trans
      ((measureDelay_sync htaken hkind).trans (stampPtp_taken htaken ▸ rfl)))
  case heard =>
    have hfollowed := ptpMessage_heard hon hkind htaken hheard
    rw [stampPtp_taken htaken, measureDelay_sync htaken hkind, followSync_unlocked hunlocked] at hfollowed
    exact congrArg Host.Outcome.next hfollowed

end Sys2Proof.Machine
end

section
/-! SUPPORT. What the rows of the work streams come to, case by case (R325 to R332, R338), and what the stop of a job's other cores leaves of
its lead (R152, R153). -/

namespace Sys2Proof.Machine

open Sys2Proof

/-! ### The error record of a core -/

theorem ofLE_ne_zero_of_mem {b : Byte} {bs : Bytes} (hmem : b ∈ bs) (hb : b ≠ 0) : ofLE bs ≠ 0 := by
  induction bs with
  | nil => cases hmem
  | cons x xs ih =>
    rw [ofLE]
    rcases List.mem_cons.mp hmem with rfl | hxs
    · have hpos : b.toNat ≠ 0 := fun hzero => hb (BitVec.eq_of_toNat_eq hzero)
      omega
    · have hpos := ih hxs
      omega

/-- An error record that names no descriptor is never zero (R175). -/
theorem errorRecord_ne_zero {r : ErrInfo} (hdesc : r.desc = 0xFFFF) (c j step : Nat) : ofLE (r.bytes c j step) ≠ 0 := by
  refine ofLE_ne_zero_of_mem (b := 0xFF) ?_ (by decide)
  have hnone : (0xFF : Byte) ∈ toLE 2 0xFFFF := by decide
  simp only [ErrInfo.bytes, hdesc, List.mem_append, hnone, or_true, true_or]

theorem errorRecord_default : ∀ c : CoreId, objDefault (coreObj c) 0x07 = 0 := by decide

/-! ### The lead of a job whose other cores stop -/

/-- A write of anything but the default leaves every other key of any table alone. -/
theorem Tab.get_set_new_other {α : Type} [DecidableEq α] {d e v : α} {t : Tab α} {k m : Nat} (hv : v ≠ d) (hm : m ≠ k) :
    Tab.get e (Tab.set d t k v) m = Tab.get e t m := by
  simp only [Tab.set, hv, if_false]
  exact Tab.get_put_other hm

/-- The cores of every job and the arithmetic flags of every core stand as they did. -/
structure LeadKept (s t : State) : Prop where
  jobCores : ∀ j, t.jobCores j = s.jobCores j
  flags : ∀ c, (t.core c).flags = (s.core c).flags

theorem LeadKept.refl (s : State) : LeadKept s s := ⟨fun _ => rfl, fun _ => rfl⟩

theorem LeadKept.trans {s t u : State} (hst : LeadKept s t) (htu : LeadKept t u) : LeadKept s u :=
  ⟨fun j => (htu.jobCores j).trans (hst.jobCores j), fun c => (htu.flags c).trans (hst.flags c)⟩

theorem LeadKept.leadFlags {s t : State} (hkept : LeadKept s t) (j : Nat) : (t.core (t.lead j)).flags = (s.core (s.lead j)).flags := by
  rw [hkept.flags, State.lead, State.lead, hkept.jobCores]

section
variable {s : State} {c : Nat}

/-- A core that no default stands for is changed in its own place, whatever the form of the table. -/
theorem leadKept_updCore {f : Core → Core} (hnamed : f (s.core c) ≠ {}) (hflags : (f (s.core c)).flags = (s.core c).flags) :
    LeadKept s (s.updCore c f) := by
  refine ⟨fun _ => rfl, fun d => ?_⟩
  by_cases hd : d = c
  · rw [hd, core_updCore_named hnamed, hflags]
  · exact congrArg Core.flags (Tab.get_set_new_other hnamed hd)

theorem leadKept_event (i j v : Nat) : LeadKept s (s.event i j v) := by
  rw [event_eq]
  exact ⟨fun _ => rfl, fun _ => rfl⟩

theorem core_ne_default_of_state {k : Core} (hstate : k.state ≠ 0) : k ≠ {} := fun hdefault => hstate (hdefault ▸ rfl)

theorem leadKept_setCoreState {v : Nat} (hv : v ≠ 0) : LeadKept s (s.setCoreState c v) := by
  unfold State.setCoreState
  split
  · exact .refl s
  · exact (leadKept_updCore (core_ne_default_of_state hv) rfl).trans (leadKept_event _ _ _)

theorem leadKept_haltCore {v : Nat} (hstate : (s.core c).state ≠ 0) (hv : v ≠ 0) : LeadKept s (s.haltCore c v) := by
  let u : State := { s with waits := s.waits.filter fun w => w.core ≠ c, wakes := s.wakes.filter fun w => w.core ≠ c }
  have hrecords : LeadKept s u := ⟨fun _ => rfl, fun _ => rfl⟩
  have hhalt : LeadKept u (u.updCore c Core.halt) := leadKept_updCore (core_ne_default_of_state hstate) rfl
  exact (hrecords.trans hhalt).trans (leadKept_setCoreState hv)

theorem core_writeError (r : ErrInfo) (d : Nat) : (s.writeError c r).core d = s.core d := by
  simp only [State.core, State.writeError, put_cores]

theorem leadKept_writeError {r : ErrInfo} (hc : c < 22) (hdesc : r.desc = 0xFFFF) : LeadKept s (s.writeError c r) := by
  refine ⟨fun j => congrArg (setPositions 22) ?_, fun d => congrArg Core.flags (core_writeError r d)⟩
  have hrecord : ofLE (r.bytes c (s.core c).job (s.core c).openStep) ≠ objDefault (coreObj c) 0x07 := by
    rw [errorRecord_default ⟨c, hc⟩]
    exact errorRecord_ne_zero hdesc _ _ _
  simp only [State.jobGet, State.get, State.writeError, State.put]
  exact Tab.get_set_new_other hrecord (by simp only [okey]; omega)

theorem leadKept_stopCore {r : ErrInfo} (hc : c < 22) (hstate : (s.core c).state ≠ 0) (hdesc : r.desc = 0xFFFF) :
    LeadKept s (s.stopCore c r) := by
  have hruns : ((s.writeError c r).core c).state ≠ 0 := by rwa [core_writeError]
  exact (leadKept_writeError hc hdesc).trans (leadKept_haltCore hruns (by decide))
end

theorem leadKept_stopOthers (s : State) (j c : Nat) : LeadKept s (s.stopOthers j c) := by
  have hcores : ∀ d ∈ s.jobCores j, d < 22 := fun d hd => List.mem_range.mp (List.mem_filter.mp hd).1
  unfold State.stopOthers
  generalize s.jobCores j = l at hcores
  induction l generalizing s with
  | nil => exact .refl s
  | cons d ds ih =>
    obtain ⟨hd, hds⟩ := List.forall_mem_cons.mp hcores
    refine LeadKept.trans ?_ (ih _ hds)
    dsimp only
    split
    case isTrue => exact .refl s
    case isFalse hruns =>
      obtain ⟨-, -, -, hstate⟩ : d ≠ c ∧ ¬ (s.core d).job ≠ j ∧ (s.core d).state ≠ 4 ∧ (s.core d).state ≠ 0 := by
        simpa only [not_or] using hruns
      exact leadKept_stopCore hd hstate rfl

/-! ### Giving the lead its item (R330) -/

section
variable {s : State} {i : Item} {j : Nat}

theorem giveItem_of_written (hwritten : (s.writeMailbox j i).2 = none) :
    s.giveItem j i =
      let t := (s.writeMailbox j i).1
      (t.updCore (t.lead j) fun k => { k with item := some (i.stream, i.sequence) }).runFrom (t.lead j) i.entry := by
  unfold State.giveItem
  split
  next t e hpair => rw [hpair] at hwritten; cases hwritten
  next t hpair => rw [hpair]

theorem giveItem_of_refused {e : AccErr} (hrefused : (s.writeMailbox j i).2 = some e) :
    s.giveItem j i =
      let t := (s.writeMailbox j i).1.stopOthers j 22
      (t.finishItem i.stream i.sequence 1 (statusWord 0 e.detail 0 0 0 e.status.code) (t.core (t.lead j)).flags).afterError j false := by
  unfold State.giveItem
  split
  next t e' hpair =>
    rw [hpair] at hrefused ⊢
    cases hrefused
    simp only [(leadKept_stopOthers t j 22).leadFlags j]
  next t hpair => rw [hpair] at hrefused; cases hrefused

/-! ### Dispatch (R329, R390) -/

/-- The state once a job's next item is STARTED, and its LONG hint given to the lead. -/
def State.itemStarted (s : State) (j : Nat) (i : Item) : State :=
  let u : State := { s with intake := { s.intake with lastStream := i.stream } }
  let u := (u.journal i.stream i.sequence 128).updItem i.stream i.sequence fun x => { x with state := 2, started := u.now }
  if i.long then u.updCore (u.lead j) fun k => { k with hints := Tab.set none k.hints 0 (some ⟨64, u.now, u.now + 100000000⟩) } else u

theorem itemDispatch_of_next (hfree : s.leadFree j = true) (hnext : s.nextItem j = some i) :
    itemDispatch j s = (s.itemStarted j i).giveItem j i := by
  simp only [itemDispatch, hfree, Bool.not_true, Bool.false_eq_true, if_false, hnext]
  rfl
end

/-! ### The journal (R325, R327, R328) -/

/-- The state after the journal writes of an item have failed: it and the later items of its stream in flight are gone, and answered BUSY. -/
def State.journalFailed (s : State) (st seq : Nat) : State :=
  let gone (x : Item) : Bool := x.stream = st && x.state = 0 && decide (seq ≤ x.sequence)
  let busy := ((s.items.filter gone).mergeSort fun a b => decide (a.sequence ≤ b.sequence)).map fun x : Item =>
    (⟨x.conn, x.sequence, leAt x.descriptor 124 4, 2, 0x04⟩ : HeldAnswer)
  (({ s with items := s.items.filter fun x => !gone x }.updStream st fun r =>
    { r with next := seq }).updStream st fun r => { r with answers := busy ++ r.answers }).flushAnswers st

section
variable {s : State} {i : Item} {st seq : Nat} (hitem : s.findItem st seq = some i)
include hitem

section
variable (hflight : i.state = 0)
include hflight

theorem journalWriteFail_in_flight : journalWriteFail st seq s = s.journalFailed st seq := by
  simp only [journalWriteFail, hitem, Option.all_some, hflight, ne_eq, not_true_eq_false, decide_false, Bool.false_eq_true, if_false]
  rfl

variable (hunstored : i.stored = false)
include hunstored

theorem journalWriteDone_of_lost (hlost : i.partitions.any s.partitionLost = true) :
    journalWriteDone st seq s = s.journalFailed st seq := by
  simp only [journalWriteDone, hitem, hflight, hunstored, hlost, ne_eq, not_true_eq_false, Bool.false_eq_true, or_self, if_false, if_true]
  exact journalWriteFail_in_flight hitem hflight

theorem journalWriteDone_of_standing (hstanding : i.partitions.any s.partitionLost = false)
    (hnear : s.ringAway (i.partitions.map fun p => ⟨1, s.partitionAddr p, s.partitionAddr p⟩) = none) :
    journalWriteDone st seq s = s.journalStored st seq i := by
  simp only [journalWriteDone, hitem, hflight, hunstored, hstanding, hnear, ne_eq, not_true_eq_false, Bool.false_eq_true, or_self, if_false]
end

/-! ### Delivery (R332) -/

theorem complAddrWriteDone_of_written (hdone : i.state = 3) (hwritten : i.written = true) (hmode : bit i.mode 1 = true) :
    complAddrWriteDone st seq s = (s.updItem st seq fun x => { x with addrConfirmed := true }).retireItems := by
  simp only [complAddrWriteDone, hitem, hdone, hwritten, hmode, decide_true, Bool.and_self, if_true]
end

section
variable {s : State}

theorem completionDelivery_of_deliverable {i : Item} {st : Nat} (hdue : s.deliverable st = some i) :
    completionDelivery st s =
      let write := s.writeDue i
      let send := s.messageDue i
      let u := if write then s.writeCompletion i else s
      let v := if send then (u.queueMessage i.conn 0x12 0 0 i.completion).1 else u
      v.updItem st i.sequence fun x =>
        let y := { x with written := x.written || write, sent := x.sent || send }
        { y with deliveredOnce := y.deliveredOnce || y.delivered } := by
  simp only [completionDelivery, hdue]

/-! ### Loss and rebuild (R328, R338; log 18) -/

theorem intakeRebuild_begins (hwhole : s.intake.rebuilding = false) :
    intakeRebuild s = { s with intake := { s.intake with rebuilding := true } } := by
  simp only [intakeRebuild, hwhole, Bool.not_false, if_true]

theorem intakeRebuild_ends (hlost : s.intake.rebuilding = true) :
    intakeRebuild s =
      let d := s.dropUnstored
      let u := ((d.items.map (·.stream)).eraseDups.foldl (fun s st => s.acceptStored st s.items.length) d).redeliver.applyFormed
      let v := u.fault { cls := 0x15, action := 0x01, detail := toLE 4 u.items.length }
      v.change 0x2540 7 (satAdd 32 (v.get 0x2540 7) 1) := by
  simp only [intakeRebuild, hlost, Bool.not_true, Bool.false_eq_true, if_false]
end

/-- Settles O52: what an item, a lead, a partition or the intake's memory is found to be chooses the case of its row; the flags of a refused
item's record are the lead's, which the stop of the other cores leaves alone. -/
theorem itemsAreAcceptedDispatchedAndDelivered : Obligations.ItemsAreAcceptedDispatchedAndDelivered := by
  intro s st seq j
  refine ⟨fun i hitem hflight hunstored hstanding hnear => ?stored,
    fun i hitem hflight => ⟨?failed, fun hunstored hlost => ?lost⟩,
    fun i hfree hnext => ⟨fun hwritten => ?given, fun e hrefused => ?refused⟩, fun i hdue => ?delivered,
    fun i hitem hdone hwritten hmode => ?confirmed, fun hwhole => ?begins, fun hlost => ?ends⟩
  case stored => exact congrArg Host.Outcome.next (journalWriteDone_of_standing hitem hflight hunstored hstanding hnear)
  case failed => exact congrArg Host.Outcome.next (journalWriteFail_in_flight hitem hflight)
  case lost => exact congrArg Host.Outcome.next (journalWriteDone_of_lost hitem hflight hunstored hlost)
  case given => exact congrArg Host.Outcome.next ((itemDispatch_of_next hfree hnext).trans (giveItem_of_written hwritten))
  case refused => exact congrArg Host.Outcome.next ((itemDispatch_of_next hfree hnext).trans (giveItem_of_refused hrefused))
  case delivered => exact congrArg Host.Outcome.next (completionDelivery_of_deliverable hdue)
  case confirmed => exact congrArg Host.Outcome.next (complAddrWriteDone_of_written hitem hdone hwritten hmode)
  case begins => exact congrArg Host.Outcome.next (intakeRebuild_begins hwhole)
  case ends => exact congrArg Host.Outcome.next (intakeRebuild_ends hlost)

end Sys2Proof.Machine
end

section
/-! SUPPORT. How a run of a suspect step ends, and what the runs made of it come to by their vote (R351, R353). -/

namespace Sys2Proof.Machine

open Sys2Proof

/-! ### The vote of the runs (R353) -/

/-- The suspect step of a core has left the line. -/
def State.leaveLine (s : State) (c : Nat) : State :=
  { s with replays := s.replays.filter fun y => y.core ≠ c }

/-- The suspect step of a core stays in the line, with the runs made of it, for a further one. -/
def State.awaitRun (s : State) (c : Nat) (runs : List Run) : State :=
  { s with replays := s.replays.map fun y => if y.core = c then { y with runs := runs } else y }

/-- No majority has formed yet: another run is awaited, unless four have been made. -/
def State.undecided (s : State) (c : Nat) (runs : List Run) : State :=
  if 4 ≤ runs.length then (s.leaveLine c).noMajority c runs else s.awaitRun c runs

section
variable {s : State} {c : Nat} {o : ReplayResult} {runs : List Run}

theorem vote_without_sound (hsound : (runs.filter fun r => !r.result.ownFailed) = []) : s.vote c o runs = s.undecided c runs := by
  simp only [State.vote, hsound]
  rfl

section
variable {a : Run} (hsound : (runs.filter fun r => !r.result.ownFailed) = [a])
include hsound

theorem vote_first_agrees (hagree : s.runsAgree c o a.result = true) : s.vote c o runs = (s.leaveLine c).commitOriginal c runs none := by
  simp only [State.vote, hsound, hagree, if_true]
  rfl

theorem vote_first_differs (hdiffer : s.runsAgree c o a.result = false) : s.vote c o runs = s.undecided c runs := by
  simp only [State.vote, hsound, hdiffer, Bool.false_eq_true, if_false]
  rfl
end

section
variable {a b : Run} (hsound : (runs.filter fun r => !r.result.ownFailed) = [a, b])
include hsound

theorem vote_second_agrees (hagree : s.runsAgree c o b.result = true) :
    s.vote c o runs = (s.leaveLine c).commitOriginal c runs (some a.tile) := by
  simp only [State.vote, hsound, hagree, if_true]
  rfl

variable (hdiffer : s.runsAgree c o b.result = false)
include hdiffer

theorem vote_replays_agree (hreplays : s.runsAgree c a.result b.result = true) :
    s.vote c o runs = (s.leaveLine c).commitReplay c o b.result runs := by
  simp only [State.vote, hsound, hdiffer, Bool.false_eq_true, if_false, hreplays, if_true]
  rfl

theorem vote_all_differ (hreplays : s.runsAgree c a.result b.result = false) : s.vote c o runs = (s.leaveLine c).noMajority c runs := by
  simp only [State.vote, hsound, hdiffer, hreplays, Bool.false_eq_true, if_false]
  rfl
end
end

/-! ### The end of a run (R351, R360; log 75) -/

section
variable {s : State} {c : Nat} {fault : Option ReplayResult}

theorem replayRunDone_without_run (hidle : ∀ x, s.assignRuns.replays.find? (fun x => x.core = c) = some x → x.tile = none) :
    replayRunDone c fault s = s.assignRuns := by
  unfold replayRunDone
  dsimp only
  split
  next => rfl
  next x hline => simp only [hidle x hline]

theorem replayRunDone_of_run {x : Replay} {h : Nat} (hline : s.assignRuns.replays.find? (fun x => x.core = c) = some x)
    (hruns : x.tile = some h) :
    replayRunDone c fault s =
      let t := s.assignRuns
      let r : Run := ⟨h, fault.getD (t.replayed c)⟩
      let u := (t.freeRun x).countRun c r (x.runs.filter fun r => !r.result.ownFailed).length
      (u.vote c (t.original c) (x.runs ++ [r])).assignRuns := by
  simp only [replayRunDone, hline, hruns]
end

/-- Settles O54: whether a run goes on for the core's step chooses what the row does, and the runs that did not fail themselves choose, by their
number and by which of them agree, what the vote comes to. -/
theorem replayRunsVote : Obligations.ReplayRunsVote := by
  intro s c fault
  refine ⟨fun hidle => ?idle, fun x h hline hruns => ?ended, fun u o runs => ⟨fun a hsound hagree => ?firstAgrees,
    fun a hsound hdiffer => ?firstDiffers, fun hsound => ?noneSound, fun a b hsound hagree => ?secondAgrees,
    fun a b hsound hdiffer hreplays => ?replaysAgree, fun a b hsound hdiffer hreplays => ?allDiffer⟩⟩
  case idle => exact congrArg Host.Outcome.next (replayRunDone_without_run hidle)
  case ended => exact congrArg Host.Outcome.next (replayRunDone_of_run hline hruns)
  case firstAgrees => exact vote_first_agrees hsound hagree
  case firstDiffers => exact vote_first_differs hsound hdiffer
  case noneSound => exact vote_without_sound hsound
  case secondAgrees => exact vote_second_agrees hsound hagree
  case replaysAgree => exact vote_replays_agree hsound hdiffer hreplays
  case allDiffer => exact vote_all_differ hsound hdiffer hreplays

end Sys2Proof.Machine
end

section
/-! SUPPORT. What a step comes to in every state: it answers a next state, keeps the canonical form, and starts from a canonical one (Scope and
Conventions; logs 1, 3, 5, 27). -/

namespace Sys2Proof.Machine

open Sys2Proof

/-! ### A step (logs 1, 27) -/

section
variable {s : State}

theorem step_cons {c : Instr} {rest : List Instr} (hwaits : s.pending = c :: rest) : step s = exec c { s with pending := rest } := by
  simp only [step, hwaits]

theorem step_nil (hempty : s.pending = []) : step s = .next (idle s) := by
  simp only [step, hempty]

/-- A step is a tick or the meaning of one command. -/
theorem step_tick_or_exec (s : State) : step s = .next (idle s) ∨ ∃ c rest, step s = exec c { s with pending := rest } := by
  cases hqueue : s.pending with
  | nil => exact .inl (step_nil hqueue)
  | cons c rest => exact .inr ⟨c, rest, step_cons hqueue⟩

/-- The meaning of each command is a function on states, whose result it answers. -/
theorem exec_answers_next (c : Instr) (s : State) : ∃ t, exec c s = .next t := by
  cases c <;> exact ⟨_, rfl⟩

/-- Each command's meaning is one of the operations of which Laws/Keeps1 to Keeps8 say that they keep the canonical form. -/
theorem exec_keeps_canonical (c : Instr) (h : Canonical s) : ∃ t, exec c s = .next t ∧ Canonical t := by
  cases c with
  | nop | fence => exact ⟨_, rfl, keeps_seqNop h⟩
  | wait => exact ⟨_, rfl, keeps_seqWait h⟩
  | signal => exact ⟨_, rfl, keeps_seqSignal h⟩
  | stepBegin => exact ⟨_, rfl, keeps_stepBegin h⟩
  | stepCommit => exact ⟨_, rfl, keeps_stepCommit h⟩
  | hint => exact ⟨_, rfl, keeps_seqHint h⟩
  | timestamp => exact ⟨_, rfl, keeps_seqTimestamp h⟩
  | endRun => exact ⟨_, rfl, keeps_seqEnd h⟩
  | delay => exact ⟨_, rfl, keeps_seqDelay h⟩
  | loop => exact ⟨_, rfl, keeps_seqLoop h⟩
  | load | store | copy => exact ⟨_, rfl, keeps_accessMove h⟩
  | gather => exact ⟨_, rfl, keeps_accessGather h⟩
  | mm => exact ⟨_, rfl, keeps_executeMm h⟩
  | mmSeg => exact ⟨_, rfl, keeps_executeMmSeg h⟩
  | wload => exact ⟨_, rfl, keeps_executeWload h⟩
  | mmW => exact ⟨_, rfl, keeps_executeMmW h⟩
  | accIo => exact ⟨_, rfl, keeps_executeAccIo h⟩
  | mmF64 => exact ⟨_, rfl, keeps_executeMmF64 h⟩
  | fuseOut => exact ⟨_, rfl, keeps_fuseOut h⟩
  | vop => exact ⟨_, rfl, keeps_vectorVop h⟩
  | vred => exact ⟨_, rfl, keeps_vectorVred h⟩
  | vtab => exact ⟨_, rfl, keeps_vectorVtab h⟩
  | send => exact ⟨_, rfl, keeps_executeSend h⟩
  | mcast => exact ⟨_, rfl, keeps_executeMcast h⟩
  | reduce => exact ⟨_, rfl, keeps_executeReduce h⟩
  | rwrite => exact ⟨_, rfl, keeps_executeRwrite h⟩
  | rread => exact ⟨_, rfl, keeps_executeRread h⟩
  | commandFetch => exact ⟨_, rfl, keeps_commandFetch h⟩
  | commandDispatch => exact ⟨_, rfl, keeps_commandDispatch h⟩
  | commandStart => exact ⟨_, rfl, keeps_commandStart h⟩
  | commandComplete => exact ⟨_, rfl, keeps_commandComplete h⟩
  | passEnd => exact ⟨_, rfl, keeps_passEnd h⟩
  | delayExpiry => exact ⟨_, rfl, keeps_delayExpiry h⟩
  | waitDeadline => exact ⟨_, rfl, keeps_waitDeadline h⟩
  | wakeNotice => exact ⟨_, rfl, keeps_wakeNotice h⟩
  | signalArrival => exact ⟨_, rfl, keeps_signalArrival h⟩
  | manualWriteImage | manualAdd | manualSetFlag | manualClearFlag | manualCompleteGeneration => exact ⟨_, rfl, keeps_manualRow h⟩
  | read => exact ⟨_, rfl, keeps_readUnit h⟩
  | write => exact ⟨_, rfl, keeps_writeUnit h⟩
  | readSegInit => exact ⟨_, rfl, keeps_readInitUnit h⟩
  | writeSegInit => exact ⟨_, rfl, keeps_writeInitUnit h⟩
  | segment => exact ⟨_, rfl, keeps_segmentUnit h⟩
  | segAck => exact ⟨_, rfl, keeps_segAckUnit h⟩
  | abort => exact ⟨_, rfl, keeps_abortUnit h⟩
  | eventAck => exact ⟨_, rfl, keeps_eventAckUnit h⟩
  | segmentResendTimeout => exact ⟨_, rfl, keeps_segmentResendTimeout h⟩
  | transferIdleTimeout => exact ⟨_, rfl, keeps_transferIdleTimeout h⟩
  | sessionIdleTimeout => exact ⟨_, rfl, keeps_sessionIdleTimeout h⟩
  | eventResendTimeout => exact ⟨_, rfl, keeps_eventResendTimeout h⟩
  | rwmWrite | objectWrite => exact ⟨_, rfl, keeps_writeRow (keeps_found h)⟩
  | minVoltageRead | rxBufferPeakRead | debugChallengeRead => exact ⟨_, rfl, keeps_readRow h⟩
  | swapAtQuiescent | swapAtInstant | swapCancel | copyActiveToMaquette | maquetteLockTake | maquetteLockRelease | warmReset | coldReset
  | run | idle | rest | hold | keep | credentialWrite | loadChunkWrite | loadCommit | loadAbort | svnAdvance | measureApply
  | debugTokenWrite | debugLock | monitorSnapshotAll | monitorSnapshotClearAll | monSnapshot | monSnapshotClear | monClear
  | monConfigWrite => exact ⟨_, rfl, keeps_writeRow h⟩
  | targetAck => exact ⟨_, rfl, keeps_continueReset (keeps_targetAck h)⟩
  | targetAckTimeout => exact ⟨_, rfl, keeps_continueReset (keeps_targetAckTimeout h)⟩
  | quiescePointReached => exact ⟨_, rfl, keeps_quiescePointReached h⟩
  | quiesceTimeout => exact ⟨_, rfl, keeps_quiesceTimeout h⟩
  | swapTooLate => exact ⟨_, rfl, keeps_continueReset (keeps_swapTooLate h)⟩
  | swapInstant => exact ⟨_, rfl, keeps_swapInstant h⟩
  | lockIdleTimeout => exact ⟨_, rfl, keeps_lockIdleTimeout h⟩
  | resetContact => exact ⟨_, rfl, keeps_resetContact h⟩
  | powerOn => exact ⟨_, rfl, keeps_powerOn h⟩
  | ptpLockWaitExpiry => exact ⟨_, rfl, keeps_ptpLockWaitExpiry h⟩
  | idleEntry => exact ⟨_, rfl, keeps_idleEntry h⟩
  | groupOn | groupRetention | groupOff => exact ⟨_, rfl, keeps_groupRow h⟩
  | groupDrainEnd => exact ⟨_, rfl, keeps_settlePower (keeps_groupDrainEnd h)⟩
  | groupWakeEnd => exact ⟨_, rfl, keeps_settlePower (keeps_lowerWoken (keeps_groupWakeEnd h))⟩
  | spScrubInterval => exact ⟨_, rfl, keeps_spScrub h⟩
  | spLayoutApply => exact ⟨_, rfl, keeps_spLayoutApply h⟩
  | coilLinkFail => exact ⟨_, rfl, keeps_coilLinkFail h⟩
  | spareSwapDone => exact ⟨_, rfl, keeps_spareSwapDone h⟩
  | dramScrubInterval => exact ⟨_, rfl, keeps_dramScrub h⟩
  | stackReformatDone => exact ⟨_, rfl, keeps_stackReformatDone h⟩
  | hubReset => exact ⟨_, rfl, keeps_hubReset h⟩
  | hubResetDone => exact ⟨_, rfl, keeps_hubResetDone h⟩
  | retryBackoffExpiry => exact ⟨_, rfl, keeps_retryBackoffExpiry h⟩
  | mirrorResyncDone => exact ⟨_, rfl, keeps_mirrorResyncDone h⟩
  | journalPartitionCopy => exact ⟨_, rfl, keeps_journalPartitionCopy h⟩
  | flitReceive => exact ⟨_, rfl, keeps_flitReceive h⟩
  | linkRetryTimeout => exact ⟨_, rfl, keeps_linkRetryTimeout h⟩
  | laneRetry => exact ⟨_, rfl, keeps_laneRetry h⟩
  | transactionArrival => exact ⟨_, rfl, keeps_transactionArrival h⟩
  | armatureResendTimeout => exact ⟨_, rfl, keeps_armatureResendTimeout h⟩
  | linkDownReport => exact ⟨_, rfl, keeps_linkDownReport h⟩
  | mcastTimeout => exact ⟨_, rfl, keeps_mcastTimeout h⟩
  | reduceDeadline => exact ⟨_, rfl, keeps_reduceDeadline h⟩
  | laneFail => exact ⟨_, rfl, keeps_laneFail h⟩
  | portLinkUp => exact ⟨_, rfl, keeps_portLinkUp h⟩
  | portDownTimeout => exact ⟨_, rfl, keeps_portDownTimeout h⟩
  | hostRoleMove => exact ⟨_, rfl, keeps_hostRoleMove h⟩
  | frameReceive => exact ⟨_, rfl, keeps_frameReceive h⟩
  | pauseReceive => exact ⟨_, rfl, keeps_pauseReceive h⟩
  | xoffRefresh => exact ⟨_, rfl, keeps_xoffRefresh h⟩
  | ringStationReset => exact ⟨_, rfl, keeps_ringStationReset h⟩
  | hello => exact ⟨_, rfl, keeps_receiveHello h⟩
  | helloAck => exact ⟨_, rfl, keeps_receiveHelloAck h⟩
  | close => exact ⟨_, rfl, keeps_receiveClose h⟩
  | ack => exact ⟨_, rfl, keeps_receiveAck h⟩
  | work | winWrite | winReduceFp32 | winReduceInt64 | winReadReq | winReadData | winSignal | winStatus | mgmt =>
    exact ⟨_, rfl, keeps_receive h⟩
  | ctpRtoExpiry => exact ⟨_, rfl, keeps_ctpRtoExpiry h⟩
  | ctpAckTimer => exact ⟨_, rfl, keeps_ctpAckTimer h⟩
  | helloRepeat | closeRepeat => exact ⟨_, rfl, keeps_repeatPacket h⟩
  | creditProbe => exact ⟨_, rfl, keeps_creditProbe h⟩
  | xcvrPoll => exact ⟨_, rfl, keeps_xcvrPoll h⟩
  | xcvrPresentEdge => exact ⟨_, rfl, keeps_xcvrPresentEdge h⟩
  | wearRecordFlush => exact ⟨_, rfl, keeps_flushWear h⟩
  | journalWriteDone => exact ⟨_, rfl, keeps_journalWriteDone h⟩
  | journalWriteFail => exact ⟨_, rfl, keeps_journalWriteFail h⟩
  | itemDispatch => exact ⟨_, rfl, keeps_itemDispatch h⟩
  | completionDelivery => exact ⟨_, rfl, keeps_completionDelivery h⟩
  | intakeRebuild => exact ⟨_, rfl, keeps_intakeRebuild h⟩
  | jobCreate => exact ⟨_, rfl, keeps_jobCreate h⟩
  | jobStart => exact ⟨_, rfl, keeps_jobStart h⟩
  | jobStop | jobCheckpoint => exact ⟨_, rfl, keeps_quiesceFor h⟩
  | jobLayout => exact ⟨_, rfl, keeps_jobLayout h⟩
  | jobDiscard => exact ⟨_, rfl, keeps_jobDiscard h⟩
  | jobDelete => exact ⟨_, rfl, keeps_jobDelete h⟩
  | replayRunDone => exact ⟨_, rfl, keeps_replayRunDone h⟩
  | coreFence => exact ⟨_, rfl, keeps_coreFence h⟩
  | coreWatchdog => exact ⟨_, rfl, keeps_coreWatchdog h⟩
  | assignmentTestDone => exact ⟨_, rfl, keeps_assignmentTestDone h⟩
  | fieldShort => exact ⟨_, rfl, keeps_fieldShort h⟩
  | stageFault => exact ⟨_, rfl, keeps_stageFault h⟩
  | vinLow => exact ⟨_, rfl, keeps_vinLow h⟩
  | vinHigh => exact ⟨_, rfl, keeps_vinHigh h⟩
  | controllerTakeover => exact ⟨_, rfl, keeps_controllerTakeover h⟩
  | heartbeatPathLoss => exact ⟨_, rfl, keeps_heartbeatPathLoss h⟩
  | powerPeriod => exact ⟨_, rfl, keeps_powerPeriod h⟩
  | stepDecision => exact ⟨_, rfl, keeps_stepDecision h⟩
  | tileStepChange => exact ⟨_, rfl, keeps_tileStepChange h⟩
  | thermalReading => exact ⟨_, rfl, keeps_thermalReading h⟩
  | thermalStepWindow => exact ⟨_, rfl, keeps_thermalStepWindow h⟩
  | droopCrossing => exact ⟨_, rfl, keeps_bump h⟩
  | undervoltage => exact ⟨_, rfl, keeps_undervoltage h⟩
  | patinaMeasure => exact ⟨_, rfl, keeps_patinaMeasure h⟩
  | energyFlush => exact ⟨_, rfl, keeps_flushEnergy h⟩
  | replicaWindow => exact ⟨_, rfl, keeps_replicaWindow h⟩
  | referenceBad => exact ⟨_, rfl, keeps_referenceBad h⟩
  | referenceGood => exact ⟨_, rfl, keeps_referenceGood h⟩
  | timebaseCorrection => exact ⟨_, rfl, keeps_timebaseCorrection h⟩
  | ppsOut => exact ⟨_, rfl, keeps_ppsOut h⟩
  | ppsInEdge => exact ⟨_, rfl, keeps_ppsInEdge h⟩
  | ptpMessage => exact ⟨_, rfl, keeps_ptpMessage h⟩
  | getVersion => exact ⟨_, rfl, keeps_getVersion h⟩
  | getCapabilities => exact ⟨_, rfl, keeps_getCapabilities h⟩
  | negotiateAlgorithms => exact ⟨_, rfl, keeps_negotiateAlgorithms h⟩
  | getDigests => exact ⟨_, rfl, keeps_getDigests h⟩
  | getCertificate => exact ⟨_, rfl, keeps_getCertificate h⟩
  | challenge => exact ⟨_, rfl, keeps_challenge h⟩
  | getMeasurements => exact ⟨_, rfl, keeps_getMeasurements h⟩
  | keyExchange => exact ⟨_, rfl, keeps_keyExchange h⟩
  | finish => exact ⟨_, rfl, keeps_finish h⟩
  | heartbeat => exact ⟨_, rfl, keeps_heartbeat h⟩
  | keyUpdate => exact ⟨_, rfl, keeps_keyUpdate h⟩
  | endSession => exact ⟨_, rfl, keeps_endSession h⟩
  | debugUnlockExpiry => exact ⟨_, rfl, keeps_debugUnlockExpiry h⟩
  | snapshotInstantExpiry => exact ⟨_, rfl, keeps_snapshotInstantExpiry h⟩
  | monitorWindowEnd => exact ⟨_, rfl, keeps_monitorWindowEnd h⟩
  | monitorEvent => exact ⟨_, rfl, keeps_monitorEvent h⟩
  | controlQuiesceTimeout => exact ⟨_, rfl, keeps_controlQuiesceTimeout h⟩
  | vmemVppShort => exact ⟨_, rfl, keeps_endLost (keeps_loseStack h)⟩
  | layerFault => exact ⟨_, rfl, keeps_endLost (keeps_loseLayer h)⟩
  | complAddrWriteDone => exact ⟨_, rfl, keeps_complAddrWriteDone h⟩
  | resetLRelease => exact ⟨_, rfl, keeps_resetLRelease h⟩
  | vinRestored => exact ⟨_, rfl, keeps_vinRestored h⟩
  | pauseExpiry => exact ⟨_, rfl, keeps_pauseExpiry h⟩
  | monitorWindowStart => exact ⟨_, rfl, keeps_monitorWindowStart h⟩
  | debugPortAttach => exact ⟨_, rfl, keeps_debugPortAttach h⟩
  | spdmHeartbeatTimeout => exact ⟨_, rfl, keeps_spdmHeartbeatTimeout h⟩

/-- What waits in the queue is no part of the canonical form. -/
theorem canonical_withPending (h : Canonical s) (cs : List Instr) : Canonical { s with pending := cs } := by
  rw [canonical_update]
  exact h

theorem step_keeps_canonical (h : Canonical s) : ∃ t, step s = .next t ∧ Canonical t := by
  obtain htick | ⟨c, rest, hexec⟩ := step_tick_or_exec s
  · exact ⟨idle s, htick, keeps_idle h⟩
  · rw [hexec]
    exact exec_keeps_canonical c (canonical_withPending h rest)
end

/-- Settles O1: a step of a state with a command at the front of its queue is that command's meaning. -/
theorem stepRunsFrontCommand : Obligations.StepRunsFrontCommand :=
  fun _ _ _ => step_cons rfl

/-- Settles O2: a step on an empty queue is a tick of the timebase. -/
theorem idleStepIsOneNanosecond : Obligations.IdleStepIsOneNanosecond :=
  fun _ hempty => step_nil hempty

/-- Settles O3: every command's meaning answers a next state, and a step is such a meaning or a tick. -/
theorem everyCommandAnswersNext : Obligations.EveryCommandAnswersNext := by
  refine ⟨exec_answers_next, fun s => ?_⟩
  obtain htick | ⟨c, rest, hexec⟩ := step_tick_or_exec s
  · exact ⟨idle s, htick⟩
  · rw [hexec]
    exact exec_answers_next c _

/-- Settles O60: a step is the meaning of one command, or a tick, and each of them answers a canonical state. -/
theorem everyStepKeepsTheCanonicalForm : Obligations.EveryStepKeepsTheCanonicalForm := by
  intro s t hs hstep
  obtain ⟨u, hu, hcanonical⟩ := step_keeps_canonical hs
  rw [hstep] at hu
  cases hu
  exact hcanonical

/-! ### The state at power-on (log 3) -/

theorem core_reset (c : Nat) : State.reset.core c = {} := rfl

theorem syncGet_reset (c i : Nat) : State.reset.syncGet c i = 0 := rfl

theorem get_reset {i : Nat} (j : Nat) (hi : i ≠ 0x4101) : State.reset.get i j = objDefault i j := by
  simp only [State.get, if_neg hi]
  rfl

/-- Settles O59: the state at power-on lists nothing in any table, so each read gives what an unlisted place reads as. -/
theorem resetIsCanonicalAndIdle : Obligations.ResetIsCanonicalAndIdle :=
  ⟨keeps_reset, rfl, rfl, rfl, rfl, rfl, rfl, rfl, rfl, rfl, rfl,
    fun c => by rw [core_reset]; exact ⟨rfl, fun _ => rfl⟩, syncGet_reset, fun _ j hi => get_reset j hi⟩

end Sys2Proof.Machine
end

section
/-! SUPPORT. What power on, RESET_L and the end of the PTP wait come to, case by case (R418 to R420, R430, R465). -/

namespace Sys2Proof.Machine

open Sys2Proof

section
variable {s : State} {f : BringUp}

/-! ### Power on (R418, R420) -/

theorem powerOn_of_vin_outside (hvin : f.vin.toNat < 46000 ∨ 56000 < f.vin.toNat) : powerOn f s = s := by
  simp only [powerOn, Bool.or_eq_true, decide_eq_true_eq, if_pos hvin]

theorem powerOn_of_vin_inside (hlow : 46000 ≤ f.vin.toNat) (hhigh : f.vin.toNat ≤ 56000) :
    powerOn f s = (State.put { s.powerOnState with power := { s.powerOnState.power with vin := f.vin.toNat } } 0x3040 0x01
      s.powerOnState.power.energyFlash).boot f true := by
  have hinside : ¬ (f.vin.toNat < 46000 ∨ 56000 < f.vin.toNat) := by omega
  simp only [powerOn, Bool.or_eq_true, decide_eq_true_eq, if_neg hinside]

/-! ### RESET_L (R465) -/

theorem resetContact_of_short {ns : Nat} (hshort : ns < 10000) : resetContact ns s = s := by
  simp only [resetContact, decide_eq_true hshort, Bool.true_or, if_true]

/-- The running items are abandoned and their jobs stop. -/
def State.abandonJobs (s : State) : State :=
  s.runningJobs.foldl (fun v j => (v.endStarted j 3 0).stopJob j) s.endRunningControl

theorem resetContact_of_long {ns : Nat} (hlong : 10000 ≤ ns) (hvin : 36000 ≤ s.power.vin) :
    resetContact ns s = { ((s.setDevice 5).dropLinks (List.range 17)).abandonJobs.flushWear.flushEnergy.coldState.restartMonitors with
      resetting := { kind := 3, start := s.now, heldLow := true } } := by
  simp only [resetContact, decide_eq_false (Nat.not_lt.mpr hlong), decide_eq_false (Nat.not_lt.mpr hvin), Bool.or_self, Bool.false_eq_true,
    if_false, State.abandonJobs]

theorem resetLRelease_of_held (hheld : s.resetting.heldLow = true) :
    resetLRelease f s = State.boot { s with resetting := { s.resetting with heldLow := false } } f false := by
  simp only [resetLRelease, hheld, Bool.not_true, Bool.false_eq_true, if_false]

theorem resetLRelease_of_not_held (hfree : s.resetting.heldLow = false) : resetLRelease f s = s := by
  simp only [resetLRelease, hfree, Bool.not_false, if_true]

/-! ### The wait for the PTP lock (R430) -/

theorem ptpLockWaitExpiry_of_wait {T : Nat} (hwaits : s.resetting.waitPtp = some T) :
    ptpLockWaitExpiry s = State.ready { s with now := max s.now (T + s.get 0x4202 0x02 * msNs) } := by
  simp only [ptpLockWaitExpiry, hwaits]
end

/-- Settles O43: VIN's range chooses what power on does, the length of the pulse what RESET_L does, and what it holds in reset its release boots. -/
theorem startsKeepWhatTheirKindKeepsAndBoot : Obligations.StartsKeepWhatTheirKindKeepsAndBoot := by
  intro s f ns
  refine ⟨fun hlow hhigh => ?inside, fun hvin => ?outside, fun hlong hvin => ?low, fun hshort => ?short, fun hheld => ?release,
    fun hfree => ?free, fun T hwaits => ?ptp, rfl, rfl, rfl, rfl, rfl, rfl, rfl, rfl⟩
  case inside => exact congrArg Host.Outcome.next (powerOn_of_vin_inside hlow hhigh)
  case outside => exact congrArg Host.Outcome.next (powerOn_of_vin_outside hvin)
  case low => exact congrArg Host.Outcome.next (resetContact_of_long hlong hvin)
  case short => exact congrArg Host.Outcome.next (resetContact_of_short hshort)
  case release => exact congrArg Host.Outcome.next (resetLRelease_of_held hheld)
  case free => exact congrArg Host.Outcome.next (resetLRelease_of_not_held hfree)
  case ptp => exact congrArg Host.Outcome.next (ptpLockWaitExpiry_of_wait hwaits)

end Sys2Proof.Machine
end

section
/-! SUPPORT. What the debug challenge, its expiry and the debug port come to, case by case (R38, R45, R446). -/

namespace Sys2Proof.Machine

open Sys2Proof

/-! ### The read of debug_challenge (R38, R45, R446) -/

section
variable {t : State} {q : Req} {n idx sub : Nat}

/-- A segmented read that has status 0 and gives some bytes, whatever its listing: their size is answered, and they go out as a transfer. -/
theorem serveReadInit_of_bytes (f : Found) {x : State × Bytes} (hidx : idx < 65536) (hsub : sub < 256) (hok : t.readStatus n idx sub 0 = 0)
    (hread : ∀ r m, t.readObject f r idx sub m = x) (hbytes : x.2 ≠ []) :
    let u := reqUnit q 0x03 idx sub []
    let y := x.1.sendUnit q.src (replyTo q.src u 0 x.2.length [])
    t.serveReadInit f n q.src u = (y.addTransfer n { txn := q.txn.toNat, write := false, index := idx, sub := sub, total := x.2.length, data := x.2
                                                     next := 0, acked := 0, resends := 0, active := y.now }).pumpRead n q.txn.toNat 4 := by
  intro u y
  obtain ⟨r, hrow⟩ := objRow_of_readStatus hok
  have hindex : u.index.toNat = idx := index_reqUnit hidx
  have hsubindex : u.subindex.toNat = sub := subindex_reqUnit hsub
  rw [serveReadInit_of_listed f (hindex.symm ▸ hsubindex.symm ▸ hrow), hindex, hsubindex]
  simp only [hread, if_neg hbytes]
  exact if_neg (not_not_intro hok)

theorem readObject_challenge (f : Found) (r : ObjRow) (m : Bool) : t.readObject f r 0x1080 1 m = t.newChallenge := by
  simp only [State.readObject, and_self, if_true]

theorem newChallenge_length : t.newChallenge.2.length = 32 := by
  simp only [State.newChallenge, List.length_map, List.length_range]

theorem serveReadInit_challenge (f : Found) (hok : t.readStatus n 0x1080 1 0 = 0) :
    let u := reqUnit q 0x03 0x1080 1 []
    let y := t.newChallenge.1.sendUnit q.src (replyTo q.src u 0 32 [])
    t.serveReadInit f n q.src u = (y.addTransfer n { txn := q.txn.toNat, write := false, index := 0x1080, sub := 1, total := 32
                                                     data := t.newChallenge.2, next := 0, acked := 0, resends := 0
                                                     active := y.now }).pumpRead n q.txn.toNat 4 := by
  have hbytes : t.newChallenge.2 ≠ [] := List.ne_nil_of_length_pos (newChallenge_length ▸ by decide)
  have hserved := serveReadInit_of_bytes (q := q) f (by decide) (by decide) hok (readObject_challenge f) hbytes
  rw [newChallenge_length] at hserved
  exact hserved
end

/-! ### The end of an unlock and the debug port (R446) -/

section
variable {s : State}

section
variable {b : Bytes} {T : Nat} (hchallenge : s.security.challenge = some (b, T))
include hchallenge

theorem debugUnlockExpiry_of_unlock_first (hopen : s.get 0x1080 4 ≠ 0) (hfirst : s.get 0x1080 4 ≤ T) :
    debugUnlockExpiry s = State.lockDebug { s with now := max s.now (s.get 0x1080 4) } := by
  simp only [debugUnlockExpiry, hchallenge]
  exact if_pos ⟨hopen, hfirst⟩

theorem debugUnlockExpiry_of_challenge_first (hfirst : s.get 0x1080 4 = 0 ∨ T < s.get 0x1080 4) :
    debugUnlockExpiry s = { s with now := max s.now T, security := { s.security with challenge := none } } := by
  have hlater : ¬ (s.get 0x1080 4 ≠ 0 ∧ s.get 0x1080 4 ≤ T) := by omega
  simp only [debugUnlockExpiry, hchallenge]
  exact if_neg hlater
end

section
variable (hnone : s.security.challenge = none)
include hnone

theorem debugUnlockExpiry_of_unlock (hopen : s.get 0x1080 4 ≠ 0) :
    debugUnlockExpiry s = State.lockDebug { s with now := max s.now (s.get 0x1080 4) } := by
  simp only [debugUnlockExpiry, hnone]
  exact if_neg hopen

theorem debugUnlockExpiry_of_locked (hlocked : s.get 0x1080 4 = 0) : debugUnlockExpiry s = s := by
  simp only [debugUnlockExpiry, hnone]
  exact if_pos hlocked
end

theorem debugPortAttach_of_scope (hscope : bit (s.get 0x1080 3) 0 = true) (hgood : s.get 0x4001 2 ≠ 1) :
    debugPortAttach s = s.change 0x4001 2 1 := by
  simp only [debugPortAttach, hscope, Bool.true_and, decide_eq_true hgood, if_true]

theorem debugPortAttach_of_no_scope (hscope : bit (s.get 0x1080 3) 0 = false) : debugPortAttach s = s := by
  simp only [debugPortAttach, hscope, Bool.false_and, Bool.false_eq_true, if_false]
end

/-- Settles O35: an admitted read of the challenge is served by its row, and of the unlock and the challenge the one that ends first expires. -/
theorem debugAccessIsChallengedTimedAndScoped : Obligations.DebugAccessIsChallengedTimedAndScoped := by
  intro q s
  refine ⟨fun n t => ?challenge, fun b T hchallenge => ⟨fun hopen hfirst => ?unlockFirst, fun hfirst => ?challengeFirst⟩,
    fun hnone => ⟨fun hopen => ?unlock, fun hlocked => ?locked⟩, fun hscope hgood => ?attached, fun hscope => ?kept⟩
  case challenge =>
    intro u hadmits hok r
    exact ⟨congrArg Host.Outcome.next ((readRow_readInit {} hadmits).trans (serveReadInit_challenge {} hok)), rfl⟩
  case unlockFirst => exact congrArg Host.Outcome.next (debugUnlockExpiry_of_unlock_first hchallenge hopen hfirst)
  case challengeFirst => exact congrArg Host.Outcome.next (debugUnlockExpiry_of_challenge_first hchallenge hfirst)
  case unlock => exact congrArg Host.Outcome.next (debugUnlockExpiry_of_unlock hnone hopen)
  case locked => exact congrArg Host.Outcome.next (debugUnlockExpiry_of_locked hnone hlocked)
  case attached => exact congrArg Host.Outcome.next (debugPortAttach_of_scope hscope hgood)
  case kept => exact congrArg Host.Outcome.next (debugPortAttach_of_no_scope hscope)

end Sys2Proof.Machine
end

section
/-! SUPPORT. What the writes of the monitor objects come to, case by case (R453, R454, R456, R457). -/

namespace Sys2Proof.Machine

open Sys2Proof

/-! ### The listings of a channel's objects (R457) -/

/-- The indices of a listing lie apart from those of the channels, or are theirs, one for each. -/
def ObjRow.byChannel (r : ObjRow) : Prop :=
  0 < r.stride ∧ (r.lo + r.stride * r.count ≤ monObj 0 ∨ monObj 128 ≤ r.lo ∨ (r.lo = monObj 0 ∧ r.stride = 1 ∧ r.count = 128))

theorem dictRows_byChannel : ∀ r ∈ dictRows, r.byChannel := by
  unfold ObjRow.byChannel
  decide +kernel

theorem covers_index {r : ObjRow} {i j : Nat} (hcovers : r.covers i j = true) : r.lo ≤ i ∧ (i - r.lo) / r.stride < r.count := by
  simp only [ObjRow.covers, Bool.and_eq_true, decide_eq_true_eq] at hcovers
  obtain ⟨⟨⟨⟨hlow, _⟩, hhigh⟩, _⟩, _⟩ := hcovers
  exact ⟨hlow, hhigh⟩

/-- A listing covers the object of one channel where it covers that of another. -/
theorem covers_channel {r : ObjRow} (hrow : r.byChannel) {c : Nat} (hc : c < 128) (j : Nat) :
    r.covers (monObj c) j = r.covers (monObj 0) j := by
  obtain ⟨hstride, hbelow | habove | ⟨hlo, hone, hcount⟩⟩ := hrow
  case inl =>
    have hnone (d : Nat) : r.covers (monObj d) j = false := by
      by_contra hcovers
      obtain ⟨hlow, hhigh⟩ := covers_index (Bool.eq_true_of_not_eq_false hcovers)
      have hinside := (Nat.div_lt_iff_lt_mul hstride).mp hhigh
      rw [Nat.mul_comm] at hinside
      simp only [monObj] at hbelow hlow hinside
      omega
    rw [hnone c, hnone 0]
  case inr.inl =>
    have hnone {d : Nat} (hd : d < 128) : r.covers (monObj d) j = false := by
      by_contra hcovers
      obtain ⟨hlow, _⟩ := covers_index (Bool.eq_true_of_not_eq_false hcovers)
      simp only [monObj] at habove hlow
      omega
    rw [hnone hc, hnone (by decide)]
  case inr.inr =>
    simp only [ObjRow.covers, hlo, hone, hcount, monObj, Nat.mod_one, Nat.div_one, Nat.add_sub_cancel_left, hc, Nat.le_add_right]
    rfl

theorem objRow_channel (ch : ChannelId) (j : Nat) : objRow (monObj ch) j = objRow (monObj 0) j := by
  have hc := ch.isLt
  have hport {c : Nat} (hc : c < 128) : portLimited (monObj c) j = false := by
    have hhost : monObj c ≠ 0x6440 ∧ monObj c ≠ 0x6480 := by unfold monObj; omega
    simp only [portLimited, hhost.1, hhost.2, decide_false, Bool.or_self, Bool.false_and]
  simp only [objRow, hport hc, hport (show 0 < 128 by decide), Bool.false_eq_true, if_false]
  exact List.find?_congr fun r hr => covers_channel (dictRows_byChannel r hr) hc j

theorem access_monCommand (ch : ChannelId) : (objRow (monObj ch) 5).map (·.access) = some .cmd := by
  rw [objRow_channel]
  decide

theorem access_monSetting (ch : ChannelId) : ∀ j, 1 ≤ j → j ≤ 4 → (objRow (monObj ch) j).map (·.access) = some .rw
  | 1, _, _ | 2, _, _ | 3, _, _ | 4, _, _ => by
    rw [objRow_channel]
    decide

/-! ### Commands and settings of a channel, by its index (R454, R457) -/

section
variable {u : State} {n : Nat} (ch : ChannelId)

theorem writeMask_monCommand (v : Nat) : writeMask (monObj ch) 5 v = v := by
  have hindex : monObj ch = 0x5100 + ch.val := rfl
  have hc := ch.isLt
  generalize monObj ch = i at hindex
  unfold writeMask
  repeat rw [if_neg (by omega)]
  split
  case h_5 => rfl
  all_goals omega

theorem cmdValueOk_monCommand {v : Nat} (hlow : 1 ≤ v) (hhigh : v ≤ 3) : cmdValueOk (monObj ch) 5 v = true := by
  have hindex : monObj ch = 0x5100 + ch.val := rfl
  have hc := ch.isLt
  generalize monObj ch = i at hindex
  unfold cmdValueOk
  split
  case h_12 => rw [if_pos (by omega)]; exact decide_eq_true ⟨hlow, hhigh⟩
  all_goals omega

theorem command_monitor (f : Found) (v : Nat) : u.command f n (monObj ch) v = u.monCommand ch v := by
  have hindex : monObj ch = 0x5100 + ch.val := rfl
  have hc := ch.isLt
  generalize monObj ch = i at hindex
  unfold State.command
  split
  case h_12 => rw [if_pos (by omega), show i - 0x5100 = ch.val by omega]
  all_goals omega

theorem rangeOk_monSetting (sub v : Nat) : u.rangeOk (monObj ch) sub v = true := by
  have hindex : monObj ch = 0x5100 + ch.val := rfl
  have hc := ch.isLt
  generalize monObj ch = i at hindex
  unfold State.rangeOk
  repeat rw [if_neg (by omega)]
  unfold State.settingRange
  dsimp only
  split
  case h_40 => rfl
  all_goals omega

theorem writeSetting_monitor (sub v : Nat) : u.writeSetting n (monObj ch) sub v = u.writeMonSetting ch sub v := by
  have hindex : monObj ch = 0x5100 + ch.val := rfl
  have hc := ch.isLt
  generalize monObj ch = i at hindex
  unfold State.writeSetting
  dsimp only
  split
  case h_8 => rw [if_pos (by omega), show i - 0x5100 = ch.val by omega]
  all_goals omega

theorem writeObject_monSetting (f : Found) {j : Nat} (hlow : 1 ≤ j) (hhigh : j ≤ 4) (d : Bytes) :
    u.writeObject f n (monObj ch) j d = u.writeMonSetting ch j (writeMask (monObj ch) j (ofLE d)) := by
  obtain ⟨r, hrow, hrw⟩ := Option.map_eq_some_iff.mp (access_monSetting ch j hlow hhigh)
  simp only [writeObject_rw hrow hrw, rangeOk_monSetting, if_true, writeSetting_monitor]
end

/-! ### What each comes to (R453, R454, R456) -/

theorem AnswerOnly.monSettingOk {s t : State} (h : AnswerOnly s t) (c j v : Nat) : t.monSettingOk c j v = s.monSettingOk c j v := by
  rw [h]; rfl

/-- A setting that takes a value at an instant. -/
def State.takeMonSetting (s : State) (c j v instant : Nat) : State :=
  let r := s.rollFirst c instant
  let m := r.monitor c
  let x := (r.setMonitor c { m with flags := setBit m.flags 2 true }).snapshotClear c r.now
  let y := (x.put (monObj c) j v).openWindow c x.now
  y.clearMonitor c y.now

/-- An operation on a channel at its own instant, once the rolls due by another have been had. -/
def State.rolledThen (s : State) (c instant : Nat) (act : State → Nat → Nat → State) : State :=
  let r := s.rollFirst c instant
  act r c r.now

/-- An instant at which a module-wide snapshot may be asked for (R456). -/
def State.snapshotAhead (s : State) (T : Nat) : Prop := s.now + 100000 ≤ T ∧ T ≤ s.now + 1000000000000

section
variable {u : State}

theorem writeMonSetting_of_ok {c j v : Nat} (hok : u.monSettingOk c j v = true) : u.writeMonSetting c j v = (u.takeMonSetting c j v u.now, 0) := by
  simp only [State.writeMonSetting, hok, Bool.not_true, Bool.false_eq_true, if_false, State.takeMonSetting]

theorem writeMonSetting_of_bad {c j v : Nat} (hbad : u.monSettingOk c j v = false) : u.writeMonSetting c j v = (u, 0x07) := by
  simp only [State.writeMonSetting, hbad, Bool.not_false, if_true]

section
variable (clear : Bool)

theorem snapshotCommand_now (hzero : u.get 0x5000 3 = 0) : u.snapshotCommand clear = (u.snapshotAll clear u.now, 0) := if_pos hzero

theorem snapshotCommand_ahead (hahead : u.snapshotAhead (u.get 0x5000 3)) :
    u.snapshotCommand clear = ({ u with snapshotAt := some (u.get 0x5000 3, clear) }, 0) := by
  obtain ⟨hlow, hhigh⟩ := hahead
  exact (if_neg (by omega)).trans (if_neg (by omega))

theorem snapshotCommand_out (hlater : u.get 0x5000 3 ≠ 0) (hout : ¬ u.snapshotAhead (u.get 0x5000 3)) :
    u.snapshotCommand clear = (u, 0x07) := by
  have hbad : u.get 0x5000 3 < u.now + 100000 ∨ u.now + 1000000000000 < u.get 0x5000 3 := by
    simp only [State.snapshotAhead] at hout
    omega
  exact (if_neg hlater).trans (if_pos hbad)
end
end

/-! ### The rows -/

section
variable {s t : State} {q : Req} {n : Nat} {x : Instr} {b : Byte}

/-- A row that asks for a module-wide snapshot: its value names whether it clears, and snapshot_instant when it is taken. -/
theorem exec_snapshotCommand (clear : Bool) (hadmits : s.admitsWrite q 0x5000 1 [b] = some (n, t))
    (hx : ∀ s : State, exec x s = .next (s.writeRow {} q 0x5000 1 [b])) (hv : cmdValueOk 0x5000 1 (writeMask 0x5000 1 (ofLE [b])) = true)
    (hclear : decide (writeMask 0x5000 1 (ofLE [b]) = 2) = clear) :
    let T := t.get 0x5000 3
    let u := t.replied n q 0x5000 1 [b]
    (T = 0 → exec x s = .next ((u 0).snapshotAll clear t.now)) ∧
    (t.snapshotAhead T → exec x s = .next { u 0 with snapshotAt := some (T, clear) }) ∧
    (T ≠ 0 → ¬ t.snapshotAhead T → exec x s = .next (u 0x07)) := by
  have hrow := fun g st => exec_cmd_of x {} _ _ _ (·.snapshotCommand clear) g st hadmits (by decide) (by decide) (by decide) hv hx
    fun u => congrArg u.snapshotCommand hclear
  refine ⟨fun hzero => ?now, fun hahead => ?ahead, fun hlater hout => ?out⟩
  case now =>
    refine hrow (·.snapshotAll clear t.now) 0 fun u hu => ?_
    rw [snapshotCommand_now clear ((hu.get _ _).trans hzero), hu.now]
  case ahead =>
    refine hrow (fun u => { u with snapshotAt := some (t.get 0x5000 3, clear) }) 0 fun u hu => ?_
    rw [snapshotCommand_ahead clear (by rw [State.snapshotAhead, hu.get, hu.now]; exact hahead), hu.get]
  case out =>
    refine hrow id 0x07 fun u hu => ?_
    exact snapshotCommand_out clear (by rw [hu.get]; exact hlater) (by rw [State.snapshotAhead, hu.get, hu.now]; exact hout)

/-- A row that commands one channel: the rolls due come first. -/
theorem exec_monCommand (ch : ChannelId) (act : State → Nat → Nat → State) (hadmits : s.admitsWrite q (monObj ch) 5 [b] = some (n, t))
    (hx : ∀ s : State, exec x s = .next (s.writeRow {} q (monObj ch) 5 [b])) (hlow : 1 ≤ ofLE [b]) (hhigh : ofLE [b] ≤ 3)
    (hact : ∀ u : State, u.monCommand ch (ofLE [b]) = (u.rolledThen ch u.now act, 0)) :
    exec x s = .next ((t.replied n q (monObj ch) 5 [b] 0).rolledThen ch t.now act) := by
  have hc := ch.isLt
  refine exec_cmd_of x {} _ _ _ (·.monCommand ch (ofLE [b])) (·.rolledThen ch t.now act) 0 hadmits (by unfold monObj; omega) (by decide)
    (access_monCommand ch) ?_ hx (fun u => ?_) fun u hu => ?_
  · rw [writeMask_monCommand]; exact cmdValueOk_monCommand ch hlow hhigh
  · rw [writeMask_monCommand, command_monitor]
  · rw [hact, hu.now]
end

/-- Settles O36: each write's tests read nothing that an answer touches, so the status answered is that of the effect which follows. -/
theorem monitorRequestsSnapshotClearOrSet : Obligations.MonitorRequestsSnapshotClearOrSet := by
  intro q s n t ch sub value T ahead
  refine ⟨fun hadmits => ?all, fun hadmits => ?clearAll, fun hadmits => ?snapshot, fun hadmits => ?snapshotClear, fun hadmits => ?clear,
    fun hlow hhigh hadmits => ?setting⟩
  case all => exact exec_snapshotCommand false hadmits (fun _ => rfl) (by decide) (by decide)
  case clearAll => exact exec_snapshotCommand true hadmits (fun _ => rfl) (by decide) (by decide)
  case snapshot => exact exec_monCommand ch State.snapshot hadmits (fun _ => rfl) (by decide) (by decide) fun _ => rfl
  case snapshotClear => exact exec_monCommand ch State.snapshotClear hadmits (fun _ => rfl) (by decide) (by decide) fun _ => rfl
  case clear => exact exec_monCommand ch State.clearMonitor hadmits (fun _ => rfl) (by decide) (by decide) fun _ => rfl
  case setting =>
    intro v u
    have hc := ch.isLt
    have hrow := fun g st => exec_write_of (.monConfigWrite q ch sub value) {} _ _ _ g st hadmits (by unfold monObj; omega) sub.isLt
      fun _ => rfl
    simp only [writeObject_monSetting ch _ hlow hhigh] at hrow
    refine ⟨fun hok => hrow (·.takeMonSetting ch sub.toNat v t.now) 0 fun u hu => ?taken, fun hbad => hrow id 0x07 fun u hu => ?refused⟩
    case taken => rw [writeMonSetting_of_ok ((hu.monSettingOk _ _ _).trans hok), hu.now]
    case refused => exact writeMonSetting_of_bad ((hu.monSettingOk _ _ _).trans hbad)

end Sys2Proof.Machine
end

section
/-! SUPPORT. What the rows of the monitor channels come to, case by case: events, the ends and starts of windows, the instant of a module-wide
snapshot (R449, R450, R452, R453, R456). -/

namespace Sys2Proof.Machine

open Sys2Proof

section
variable {s : State} {c : Nat}

/-! ### The live values of a channel -/

theorem monitor_setMonitor_same (hrising : Tab.rising s.monitors = true) (m : Monitor) : (s.setMonitor c m).monitor c = m :=
  Tab.get_set_same hrising

theorem monitor_setMonitor_other (hrising : Tab.rising s.monitors = true) (m : Monitor) {d : Nat} (hd : d ≠ c) :
    (s.setMonitor c m).monitor d = s.monitor d :=
  Tab.get_set_other hrising hd

/-- A bin rises by one up to its limit (R450). -/
theorem bins_take {m : Monitor} (hrising : Tab.rising m.bins = true) (v : Nat) (x : Int) :
    Tab.get 0 (m.take v x).bins (monBin v x) = min binMax (Tab.get 0 m.bins (monBin v x) + 1) :=
  Tab.get_set_same hrising

theorem rolls_of_single (hsingle : s.get (monObj c) 4 = 0) : s.rolls c = false := by
  simp only [State.rolls, hsingle, ne_eq, not_true, decide_false, Bool.and_false]

theorem rolls_of_repeating (henabled : monEnable (s.monConfig c) = true) (hrepeats : s.get (monObj c) 4 ≠ 0) : s.rolls c = true := by
  simp only [State.rolls, henabled, hrepeats, ne_eq, not_false_eq_true, decide_true, Bool.and_true]

/-! ### Events (R449, R450) -/

/-- A channel is enabled and its source serves. -/
def State.collects (s : State) (c : Nat) : Prop :=
  monEnable (s.monConfig c) = true ∧ monSource (s.monConfig c) ≠ 0 ∧ s.channelUp c = true

/-- An instant is at or after the end of a window. -/
def Monitor.over (m : Monitor) (stamp : Nat) : Prop := m.closes ≠ 0 ∧ m.closes ≤ stamp

/-- An event that a channel sees, once it has counted it. -/
def Monitor.sees (m : Monitor) : Monitor := { m with seen := m.seen + 1 }

/-- An event that is taken, and counted in its second's rate. -/
def Monitor.takes (m : Monitor) (v : Nat) (x : Int) (stamp : Nat) : Monitor :=
  { m.sees.take v x with
    second := stamp / monRate
    taken := (if m.second = stamp / monRate then m.taken else 0) + 1 }

theorem not_open_of_over {m : Monitor} {stamp : Nat} (hover : m.over stamp) : ¬ (m.closes = 0 ∨ stamp < m.closes) := by
  obtain ⟨hcloses, hlate⟩ := hover
  omega

variable {x : Int} {stamp : Nat}

theorem monitorEvent_of_unseen (hout : ¬ (s.collects c ∧ (s.monitor c).from' ≤ stamp)) : monitorEvent c x stamp s = s := by
  have hguard : (!monEnable (s.monConfig c) || decide (monSource (s.monConfig c) = 0) || !s.channelUp c
      || decide (stamp < (s.monitor c).from')) = true := by
    by_contra hclear
    simp only [Bool.not_eq_true, Bool.or_eq_false_iff, Bool.not_eq_false', decide_eq_false_iff_not, Nat.not_lt] at hclear
    obtain ⟨⟨⟨henabled, hsource⟩, hup⟩, hfrom⟩ := hclear
    exact hout ⟨⟨henabled, hsource, hup⟩, hfrom⟩
  exact if_pos hguard

section
variable (hon : s.collects c) (hfrom : (s.monitor c).from' ≤ stamp)
include hon hfrom

theorem monitorEvent_of_seen :
    monitorEvent c x stamp s =
      if (s.monitor c).closes = 0 ∨ stamp < (s.monitor c).closes then s.monTake c x stamp
      else if s.rolls c then s.setMonitor c { s.monitor c with early := (s.monitor c).early ++ [(x, stamp)] }
      else s := by
  obtain ⟨henabled, hsource, hup⟩ := hon
  simp only [monitorEvent, henabled, hsource, hup, Nat.not_lt.mpr hfrom, Bool.not_true, decide_false, Bool.or_self, Bool.false_eq_true, if_false,
    Bool.or_eq_true, decide_eq_true_eq]

theorem monitorEvent_of_within (hwithin : (s.monitor c).closes = 0 ∨ stamp < (s.monitor c).closes) :
    monitorEvent c x stamp s = s.monTake c x stamp := by
  rw [monitorEvent_of_seen hon hfrom, if_pos hwithin]

section
variable (hover : (s.monitor c).over stamp)
include hover

theorem monitorEvent_of_single (hsingle : s.get (monObj c) 4 = 0) : monitorEvent c x stamp s = s := by
  rw [monitorEvent_of_seen hon hfrom, if_neg (not_open_of_over hover), rolls_of_single hsingle]
  rfl

theorem monitorEvent_of_repeating (hrepeats : s.get (monObj c) 4 ≠ 0) :
    monitorEvent c x stamp s = s.setMonitor c { s.monitor c with early := (s.monitor c).early ++ [(x, stamp)] } := by
  rw [monitorEvent_of_seen hon hfrom, if_neg (not_open_of_over hover), if_pos (rolls_of_repeating hon.1 hrepeats)]
end
end

/-- An event that the sample takes, within the rate, enters the statistics. -/
theorem monTake_of_taken (hsampled : ((s.monitor c).seen + 1) % 2 ^ monSample (s.monConfig c) = 0)
    (hrate : (s.monitor c).second = stamp / monRate → (s.monitor c).taken < monRate) :
    s.monTake c x stamp = s.setMonitor c ((s.monitor c).takes (s.monConfig c) x stamp) := by
  have hroom : ¬ monRate ≤ (if (s.monitor c).second = stamp / monRate then (s.monitor c).taken else 0) := by
    split
    next hsame => exact Nat.not_le.mpr (hrate hsame)
    next => decide
  exact (if_neg (not_not_intro hsampled)).trans (if_neg hroom)

/-! ### Windows (R452) and module-wide snapshots (R456) -/

/-- The end instant of a channel's window has come. -/
def State.atWindowEnd (s : State) (c : Nat) : State := { s with now := max s.now (s.monitor c).closes }

section
variable (henabled : monEnable (s.monConfig c) = true) (hcloses : (s.monitor c).closes ≠ 0)
include henabled hcloses

theorem monitorWindowEnd_of_window : monitorWindowEnd c s = if s.rolls c then (s.atWindowEnd c).rollWindow c else s.atWindowEnd c := by
  simp only [monitorWindowEnd, henabled, hcloses, Bool.not_true, decide_false, Bool.or_self, Bool.false_eq_true, if_false]
  rfl

theorem monitorWindowEnd_of_repeating (hrepeats : s.get (monObj c) 4 ≠ 0) : monitorWindowEnd c s = (s.atWindowEnd c).rollWindow c := by
  rw [monitorWindowEnd_of_window henabled hcloses, if_pos (rolls_of_repeating henabled hrepeats)]

theorem monitorWindowEnd_of_single (hsingle : s.get (monObj c) 4 = 0) : monitorWindowEnd c s = s.atWindowEnd c := by
  rw [monitorWindowEnd_of_window henabled hcloses, rolls_of_single hsingle]
  rfl
end

theorem monitorWindowStart_of_before (henabled : monEnable (s.monConfig c) = true) (hbefore : s.now < (s.monitor c).opens) :
    monitorWindowStart c s =
      State.setMonitor { s with now := (s.monitor c).opens } c { s.monitor c with start := (s.monitor c).opens } := by
  simp only [monitorWindowStart, henabled, Nat.not_le.mpr hbefore, Bool.not_true, decide_false, Bool.or_self, Bool.false_eq_true, if_false]

theorem snapshotInstantExpiry_of_waiting {T : Nat} {clear : Bool} (hwaits : s.snapshotAt = some (T, clear)) :
    snapshotInstantExpiry s = State.snapshotAll { s with now := max s.now T, snapshotAt := none } clear T := by
  simp only [snapshotInstantExpiry, hwaits]
end

/-- Settles O37: whether the channel collects, and where the event's stamp lies in its window, choose what the event does; an event that is taken
changes the live values of its channel alone. -/
theorem monitorEventsEnterTheStatistics : Obligations.MonitorEventsEnterTheStatistics := by
  intro ch x stamp s hs v m on within late
  refine ⟨fun hout => ?kept, fun hon hfrom hlate hrepeats => ?early, fun hon hwithin hsampled hrate => ?taken,
    fun henabled hcloses => ?windowEnd, fun henabled hbefore => ?windowStart, fun T clear hwaits => ?snapshot⟩
  case kept =>
    refine congrArg Host.Outcome.next ?_
    by_cases hseen : s.collects ch ∧ m.from' ≤ stamp.toNat
    · obtain hunseen | ⟨hlate, hsingle⟩ := hout
      · exact absurd hseen hunseen
      · exact monitorEvent_of_single hseen.1 hseen.2 hlate hsingle
    · exact monitorEvent_of_unseen hseen
  case early => exact congrArg Host.Outcome.next (monitorEvent_of_repeating hon hfrom hlate hrepeats)
  case taken =>
    obtain ⟨hfrom, hopen⟩ := hwithin
    have hevent := (monitorEvent_of_within (x := x.toInt) hon hfrom hopen).trans (monTake_of_taken hsampled hrate)
    refine ⟨_, congrArg Host.Outcome.next hevent, ?_⟩
    rw [monitor_setMonitor_same hs.monitors]
    exact ⟨rfl, rfl, rfl, rfl, rfl, fun hbins => bins_take (m := m.sees) hbins v x.toInt,
      fun d hd => monitor_setMonitor_other hs.monitors _ hd, rfl, rfl⟩
  case windowEnd =>
    exact ⟨fun hrepeats => congrArg Host.Outcome.next (monitorWindowEnd_of_repeating henabled hcloses hrepeats),
      fun hsingle => congrArg Host.Outcome.next (monitorWindowEnd_of_single henabled hcloses hsingle)⟩
  case windowStart => exact congrArg Host.Outcome.next (monitorWindowStart_of_before henabled hbefore)
  case snapshot => exact congrArg Host.Outcome.next (snapshotInstantExpiry_of_waiting hwaits)

end Sys2Proof.Machine
end
